-- ==== Sys2Proof/Word.lean ====
section
/-! DEFINITION. The word types of the 9340's registers and byte streams, and their plainest arithmetic. -/

namespace Sys2Proof

/-- A 32-bit register word (R20: BAR0 is accessed in aligned 32-bit words). -/
abbrev Word := BitVec 32

/-- A byte of a frame, of a command buffer or of memory. -/
abbrev Byte := BitVec 8

/-- A beat number: an unsigned 32-bit count that wraps to 0 after 2^32 beats (R7). -/
abbrev BeatNo := BitVec 32

/-- An unsigned number as a register word (its low 32 bits). -/
abbrev Word.of (n : Nat) : Word := BitVec.ofNat 32 n

end Sys2Proof
end

