-- ==== Sys2Proof/Syntax.lean ====
section
/-! DEFINITION. The commands the 9340 takes: one constructor for each row of the table of operations and
events. `t` is the instant of a command in ticks from the release of PORn (1/9,375 of a timebase cycle);
`p` is the host port that writes or reads. Operands carry what comes from outside the 9340. -/

namespace Sys2Proof

/-- The two host ports (R18). -/
inductive Port where
  | a | b
  deriving DecidableEq, Repr

/-- The server pools a grant is made in: one grant per cluster and one per unit pool in a dispatcher
cycle (R258). -/
inductive Pool where
  | cluster (k : Nat)
  | trellis
  | archive
  deriving DecidableEq, Repr

/-- A server of the dispatcher: a media core, a trellis unit or an archive lane (R251). -/
inductive Server where
  | core (cluster index : Nat)
  | unit (index : Nat)
  | lane (index : Nat)
  deriving DecidableEq, Repr

/-- What the beat block measures at a boundary, outside the 9340: the phase of the boundary against
the edge of a PCM or PPS reference in ns (R52), the frequency offset of each reference in ppb, and
the VDD_CORE target Kwakel computes from silicon speed and the hottest core-grid site, in mV (R516). -/
structure BoundaryInput where
  phaseNs : Int
  pcmPpb : Int
  tenPpb : Int
  vcoreMv : Nat
  orphans : List (Nat × Nat)
  deriving DecidableEq, Repr


/-- What a decoder says of one taken RTP packet whose length alone does not tell (R152): whether it parses
under the leg's format, its length in timestamp units, whether it is comfort noise or a SID frame, and
the CMR it carries (R154). -/
structure PktParse where
  ok : Bool
  units : Nat
  sid : Bool
  cmr : Option Nat
  deriving DecidableEq, Repr

/-- What signal analysis finds for time-scale adjustment of one block (R181): the pitch period in
timestamp units, whether its correlation reaches 0.8, and whether the level lies below −45 dBm0. -/
structure TsaInput where
  pitch : Nat
  corr : Bool
  low : Bool
  deriving DecidableEq, Repr

/-- What the encoder of a packet leg delivers at a frame beat: silence decided by VAD or DTX, a SID frame
decided by Annex B, the comfort noise level in dB, the payload of the packet sent at this beat, and
the encoder's mode or rate index (R155). -/
structure TxInput where
  silence : Bool
  sid : Bool
  level : Nat
  payload : List Byte
  mode : Nat
  deriving DecidableEq, Repr

/-- The levels and burst metrics that an RTCP report takes from signal analysis (R162): signal and noise
level in dBm, burst density, gap density, burst duration and gap duration of RFC 3611 with Gmin 16. -/
structure XrInput where
  signal : Nat
  noise : Nat
  metrics : List Byte
  deriving DecidableEq, Repr

/-- What one 1 ms sub-block of echo cancellation measures on the audio: levels in thousandths of a dB
against 0 dBm0 of the reference, the canceller input and the residual, and the energies of the
foreground residual, the background residual and the input (R130 to R132). -/
structure EcSub where
  ref : Int
  inp : Int
  res : Int
  fgE : Nat
  bgE : Nat
  inE : Nat
  deriving DecidableEq, Repr

/-- What the canceller measures in one beat: its five sub-blocks, and the smoothed energies of the 256
taps of the coarse locator after it adapted (R128). -/
structure EcBeat where
  subs : List EcSub
  loc : List Nat
  deriving DecidableEq, Repr


/-- The two strongest frequencies of the DTMF rows and columns in one step: indices 0 to 3, deviation from
nominal in 0.01 %, levels and the level of other energy in thousandths of a dBm0 (R198). -/
structure DtmfMeas where
  row : Nat
  col : Nat
  rowDev : Nat
  colDev : Nat
  rowLvl : Int
  colLvl : Int
  other : Int
  deriving DecidableEq, Repr

/-- What one 1 ms step of tone detection measures on a leg's input (R196): the DTMF pair, the spectral
components (frequency in 0.1 Hz and level in thousandths of a dBm0), a phase reversal of the 2,100 Hz
tone, its 15 Hz modulation, V.21 channel 2 signal and a completed HDLC flag, the Taldy preamble test of
R204, and whether the input lies below −50 and below −36 dBm0. -/
structure ToneStep where
  dtmf : Option DtmfMeas
  comps : List (Nat × Int)
  reversal : Bool
  am : Bool
  v21 : Bool
  hdlcFlag : Bool
  taldy : Bool
  below50 : Bool
  below36 : Bool
  deriving DecidableEq, Repr


/-- What the GDDR-6 channels report of one 64-byte sector read (R465): its logical address, the link EDC
retries, whether the fourth retry failed too, whether the sector's own check failed, and whether a source
check failed when the sector was rebuilt. -/
structure SectorRead where
  addr : Nat
  retries : Nat
  edcFail : Bool
  checkFail : Bool
  srcFail : Bool
  deriving DecidableEq, Repr

/-- What a lookup of the classifier in the GDDR-6 directory meets: whether the directory cache held its lines (R285), and
the sector reads that errors touched where it did not (R465). -/
structure DirRead where
  hit : Bool
  reads : List SectorRead
  deriving DecidableEq, Repr

/-- What the check of a FIFO's word finds as it is read (R391). -/
inductive WordCheck where
  | clean
  | corrected
  | uncorrectable
  deriving DecidableEq, Repr

/-- One clock cycle of a fall-through FIFO (R387 to R391): whether its producer writes the next word, whether its
consumer reads, rewinds to its mark or releases it, and what the check of the word read finds. -/
structure FifoCycle where
  write : Bool
  read : Bool
  rewind : Bool
  release : Bool
  check : WordCheck
  deriving DecidableEq, Repr

/-- A frame as a MAC receives it: bytes from destination address to payload without FCS; whether the FCS
was right and the PCS decoded; ticks from the message timestamp point to the last FCS byte; the cycles of
the ingress FIFO while the frame goes through it, after which its other words pass undisturbed; FEC
codewords corrected and lost with it; whether 802.3br reassembly failed; whether the classifier cannot
reach it within 40 µs; what its lookup in the directory meets. -/
structure RxFrame where
  bytes : List Byte
  fcsOk : Bool
  pcsOk : Bool
  sofBack : Nat
  fifo : List FifoCycle
  fecCorr : Nat
  fecLost : Nat
  mergeErr : Bool
  late : Bool
  dir : DirRead
  deriving DecidableEq, Repr

/-- What an SRTP engine computes on a received packet: the master keys under which its authentication tag
is right, and the decrypted RTP payload or RTCP packet body (R291). -/
structure SrtpIn where
  authentic : List (List Byte)
  plain : List Byte
  deriving DecidableEq, Repr

/-- One PCM frame of a clock group: its bit-clock count, the received bytes of each highway's timeslots, the cycles of
each highway's receive FIFO, (highway, timeslot) pairs whose byte the transmit FIFO did not have in time or lost to
an uncorrectable error, and the words that it corrected by highway (R375, R384). -/
structure PcmFrameIn where
  bits : Nat
  data : List (List Byte)
  rxFifo : List (List FifoCycle)
  txLost : List (Nat × Nat)
  txCorr : List Nat
  deriving DecidableEq, Repr

/-- A descriptor of a host ring as the host posted it (R398, R399): the buffer address, BUF_LEN or LEN, CTRL,
and whether its other bytes are 0. -/
structure RingDesc where
  addr : Nat
  len : Nat
  ctrl : Nat
  clean : Bool
  deriving DecidableEq, Repr



/-- A section's predictor as the archive engine chooses it (R439). -/
inductive Predictor where
  | fixed (order : Nat)
  | linear (width shift : Nat) (coefs : List Int)
  deriving DecidableEq, Repr

/-- What the archive engine chooses freely for one section (R439, R440): predictor, partition order,
parameters, and for a dynamic table the 33 code lengths. -/
structure SectionChoice where
  pred : Predictor
  part : Nat
  rs : List Nat
  lens : List Nat
  deriving DecidableEq, Repr

/-- A place in a local memory of a core or in the shared SRAM of a cluster (R489): bank, row, word of the row
and bit of the word. -/
structure SramLoc where
  shared : Bool
  cluster : Nat
  core : Nat
  bank : Nat
  row : Nat
  word : Nat
  bitPos : Nat
  deriving DecidableEq, Repr

/-- What the receiver of a Taldy link session finds in one beat's input (R420 to R423): detections as
(samples of the beat taken at the detection, 1 to 40; level of the preamble in dB below 0 dBm0), and the
sample counts at which a quiet symbol period ends. -/
structure TaldyIn where
  dets : List (Nat × Nat)
  quietEnds : List Nat
  deriving DecidableEq, Repr

/-- What a fax session's modem and T.38 gateway give in one beat (R428 to R431): the primary IFP of the
beat, if its input yields data or a new indicator; modulations as (code, whether received over UDPTL); new
fax states; V.21 frames as (whether from UDPTL, whether the FCS was right, bytes from the address byte);
the IFPs the modulator needs; whether it had no data. -/
structure FaxIn where
  ifp : Option (List Byte)
  mods : List (Nat × Bool)
  states : List Nat
  frames : List (Bool × Bool × List Byte)
  used : Nat
  underrun : Bool
  deriving DecidableEq, Repr

/-- What a trellis unit decodes (R424): the 24 header bits, the payload bytes with the CRC-16 that came with
them, the mean SNR in dB, and the bits decoded. -/
structure ModemRes where
  header : Nat
  payload : List Byte
  crc : Nat
  snr : Nat
  bits : Nat
  deriving DecidableEq, Repr

/-- What a core's signal processing gives for one leg in one beat: the parse of each RTP packet taken, in
order; the decoded audio at the leg rate, and for a G.711 leg its companded samples; the time-scale analysis; the five steps
of tone detection; the audio toward the leg at the internal rate, before any muting; the encoder's output; and the levels for
RTCP. -/
structure LegResult where
  parses : List PktParse
  audio : List Int
  raw : List Byte
  tsa : TsaInput
  steps : List ToneStep
  out : List Int
  tx : TxInput
  xr : XrInput
  deriving DecidableEq, Repr

/-- What a BEAT job's processing gives outside the rules of this model: both legs, the canceller's
measurements, session work, the packets as the SRTP engine protected them (leg A's first, in the order they are sent), whether a lane clipped (R238),
and the places of the ECC errors corrected during it (R237). -/
structure JobResult where
  legA : LegResult
  legB : LegResult
  ec : EcBeat
  taldy : TaldyIn
  fax : FaxIn
  srtp : List (List Byte)
  sat : Bool
  corrected : List SramLoc
  deriving DecidableEq, Repr


/-- A loaded announcement clip (R210): rate in kHz, samples, repeat count (0 without end) and gap in ms. -/
structure Clip where
  khz : Nat
  len : Nat
  rep : Nat
  gap : Nat
  deriving DecidableEq, Repr

/-- What comes with a register write from outside the registers, used by the few writes that need it: whether a
signature verifies (IMG_END, LIFE_CMD), whether a data package fits and the clips it holds (ACTIVATE), the bytes
of host memory that a transfer reads (MEM_XFER_CMD), the words still to come of a record being written to a
ring (RING_CTRL), and the descriptors that a doorbell makes available. -/
structure WriteIn where
  verified : Bool
  fits : Bool
  clips : List (Nat × Clip)
  data : List Byte
  orphans : Nat
  descs : List RingDesc
  deriving DecidableEq, Repr



/-- The commands of the 9340. -/
inductive Instr where
  /-- REGISTER_WRITE (R4): A BAR0 write to a register field with no behaviour of its own sets, clears or ignores bits according to its access type. -/
  | registerWrite (t : Nat) (p : Port) (bar2 : Bool) (off size : Nat) (be : BitVec 8) (v : BitVec 64) (x : WriteIn)
  /-- RC_READ (R31): A read of an RC field returns its value and, only when the owner reads, clears it. -/
  | rcRead (t : Nat) (p : Port) (bar2 : Bool) (off : Nat)
  /-- EVT_FORCE (R23): A write of EVT_FORCE sets latch bits below EVT_SOURCES as if their sources had occurred. -/
  | evtForce (t : Nat) (p : Port) (page : Nat) (v : Word)
  /-- CLAIM (R34): A write of OWN_CLAIM.CLAIM requests a claim for the writing port, granted at the next boundary. -/
  | claim (t : Nat) (p : Port)
  /-- WITHDRAW (R45): A write of OWN_CLAIM.WITHDRAW asks an observer to give up its claim at the next boundary. -/
  | withdraw (t : Nat) (p : Port)
  /-- RELEASE (R41): A write of OWN_CLAIM.RELEASE by the owner releases ownership at the next boundary. -/
  | release (t : Nat) (p : Port)
  /-- OWN_HEARTBEAT (R35): A heartbeat write restarts the writing port's deadline from its arrival time. -/
  | ownHeartbeat (t : Nat) (p : Port)
  /-- OWN_HANDOVER (R40): A write of OWN_HANDOVER asks to pass ownership to the named port at the next boundary. -/
  | ownHandover (t : Nat) (p : Port) (target : BitVec 2)
  /-- HEARTBEAT_DEADLINE_EXPIRY (R35): A port's heartbeat deadline passes without a heartbeat. -/
  | heartbeatDeadlineExpiry (t : Nat) (p : Port)
  /-- FUNCTION_LEVEL_RESET (R46): A function level reset of a port ends its claim and discards its pending ownership requests. -/
  | functionLevelReset (t : Nat) (p : Port)
  /-- PERST_N (R568): PERST_N low holds a port's link down and acts on ownership as a function level reset; its rise trains the link. -/
  | perstN (t : Nat) (p : Port) (high : Bool)
  /-- BEAT_BOUNDARY (R60): At each beat boundary the 9340 processes ownership, applies transactions, readies BEAT jobs and starts PCM playout. -/
  | beatBoundary (t : Nat) (inp : BoundaryInput)
  /-- REFERENCE_QUALIFY (R49): A timing reference qualifies after 2 s within ±100 ppm with no missing edge. -/
  | referenceQualify (t : Nat) (ref : BitVec 2)
  /-- REFERENCE_DISQUALIFY (R49): A reference is disqualified after three missing edges or an offset beyond ±100 ppm. -/
  | referenceDisqualify (t : Nat) (ref : BitVec 2)
  /-- CUT (R56): At C(n) each leg inbox closes for the packet input of beat n. -/
  | cut (t : Nat)
  /-- INGRESS_SEAL (R57): Every frame stamped before C(n) has been placed or dropped; a seal after B(n) releases the beat's jobs late. -/
  | ingressSeal (t : Nat)
  /-- JOB_DEADLINE (R62): At D(n) every uncommitted BEAT job of beat n is cancelled or aborted and skipped. -/
  | jobDeadline (t : Nat)
  /-- BEAT_NOW_READ (R71): A read of BEAT_NOW latches BEAT_CYCLE and the beat stamp registers. -/
  | beatNowRead (t : Nat) (p : Port)
  /-- JOB_GRANT (R258): The dispatcher grants an eligible job to an asking server and starts staging. -/
  | jobGrant (t : Nat) (pool : Pool)
  /-- STAGING_COMPLETE (R240): The stager finishes copying a job's state into the core's free stage buffer. -/
  | stagingComplete (t k core : Nat) (reads : List SectorRead)
  /-- JOB_START (R74): A core starts a staged job and takes ownership of its stage buffer. -/
  | jobStart (t k core : Nat)
  /-- JOB_HANDOVER (R241): A core hands a finished job's results to the cluster commit unit. -/
  | jobHandover (t k core digest : Nat)
  /-- PARTNER_DIGEST (R243): The partner cluster's CRC-64 digest of a paired job reaches the home commit unit. -/
  | partnerDigest (t chan : Nat)
  /-- JOB_COMMIT (R75): The commit unit checks a job and accepts it, making its state and outputs visible, or aborts it. -/
  | jobCommit (t chan : Nat) (result : JobResult)
  /-- WRITE_BACK_COMPLETE (R76): A committed state is written to the channel store and its write-back entry freed. -/
  | writeBackComplete (t k chan : Nat) (lost : Option (BitVec 2))
  /-- CORE_FAULT (R485): A core's checkers flag a fault, aborting its job in service and the job in its slot. -/
  | coreFault (t k core detect : Nat) (loc : Option SramLoc)
  /-- CORE_SELF_CHECK_DONE (R485): A core that flagged a fault completes its self-check and may take grants again. -/
  | coreSelfCheckDone (t k core : Nat)
  /-- JOB_OVERRUN (R244): A job reaching its cycle budget aborts and is re-dispatched. -/
  | jobOverrun (t k core : Nat)
  /-- HOLD_RELEASE (R255): A freed entry lets a held source make its job ready. -/
  | holdRelease (t : Nat)
  /-- TRACE_MODE_WRITE (R267): A write of TRACE_CTRL.MODE from 0 restarts the trace capture. -/
  | traceModeWrite (t : Nat) (p : Port) (v : Word)
  /-- TRACE_MARK (R266): A write of TRACE_MARK writes a MARK record. -/
  | traceMark (t : Nat) (p : Port) (v : Word)
  /-- TRACE_RD_IDX (R269): A write of TRACE_RD_IDX fetches one trace record. -/
  | traceRdIdx (t : Nat) (p : Port) (v : Word)
  /-- TRACE_STORE_FULL (R267): In a stop mode, a full trace store stops capture. -/
  | traceStoreFull (t : Nat)
  /-- TRACE_TRIGGER_STOP (R268): After POST records following a deadline trigger, capture stops. -/
  | traceTriggerStop (t : Nat)
  /-- TXN_OPEN (R79): A write of TXN_OPEN opens a transaction in a slot. -/
  | txnOpen (t : Nat) (p : Port) (id : BitVec 4)
  /-- RWT_WRITE (R80): An owner write of an RWT field is staged in the current transaction. -/
  | rwtWrite (t : Nat) (p : Port) (off : Nat) (v : Word)
  /-- TXN_COMMIT (R84): A write of TXN_COMMIT decides the transaction: accepted as PENDING or aborted. -/
  | txnCommit (t : Nat) (p : Port) (id : BitVec 4) (next : Bool)
  /-- TXN_ABORT (R87): A write of TXN_ABORT aborts an open or pending transaction before its target. -/
  | txnAbort (t : Nat) (p : Port) (id : BitVec 4)
  /-- CHAN_CMD_STAGE (R109): A CHAN_CMD_GO with ACTION stage copies the command buffer and stages it as one entry. -/
  | chanCmdStage (t : Nat) (p : Port)
  /-- STANDING_LIST_WRITE (R121): Kwakel writes or removes a standing channel's entry in SPI flash. -/
  | standingListWrite (t : Nat)
  /-- QUERY (R116): A CHAN_CMD_GO with ACTION query runs a QUERY of one channel. -/
  | query (t : Nat) (p : Port)
  /-- HOSTCMD_JOB_DONE (R251): A QUERY or snapshot job completes, filling its result registers and latching its done event. -/
  | hostcmdJobDone (t page : Nat)
  /-- ECAN_FREEZE (R136): ECAN_CH_CMD FREEZE stops adaptation of a channel's canceller. -/
  | ecanFreeze (t : Nat) (p : Port) (chan : BitVec 16)
  /-- ECAN_RUN (R136): ECAN_CH_CMD RUN resumes adaptation. -/
  | ecanRun (t : Nat) (p : Port) (chan : BitVec 16)
  /-- ECAN_LOCK (R136): ECAN_CH_CMD LOCK forbids window moves. -/
  | ecanLock (t : Nat) (p : Port) (chan : BitVec 16)
  /-- ECAN_UNLOCK (R136): ECAN_CH_CMD UNLOCK allows window moves. -/
  | ecanUnlock (t : Nat) (p : Port) (chan : BitVec 16)
  /-- ECAN_RESET (R139): ECAN_CH_CMD RESET resets the canceller in the next job. -/
  | ecanReset (t : Nat) (p : Port) (chan : BitVec 16)
  /-- NLP_PROFILE (R136): ECAN_CH_CMD NLP_PROFILE removes the NLP override. -/
  | nlpProfile (t : Nat) (p : Port) (chan : BitVec 16)
  /-- NLP_OFF (R136): ECAN_CH_CMD NLP_OFF overrides the NLP to mode 0. -/
  | nlpOff (t : Nat) (p : Port) (chan : BitVec 16)
  /-- NLP_CLIP (R136): ECAN_CH_CMD NLP_CLIP overrides the NLP to mode 1. -/
  | nlpClip (t : Nat) (p : Port) (chan : BitVec 16)
  /-- NLP_COMFORT (R136): ECAN_CH_CMD NLP_COMFORT overrides the NLP to mode 2. -/
  | nlpComfort (t : Nat) (p : Port) (chan : BitVec 16)
  /-- ECAN_PROFILE (R136): ECAN_CH_CMD PROFILE selects a canceller profile for the channel. -/
  | ecanProfile (t : Nat) (p : Port) (chan : BitVec 16) (profile : BitVec 2)
  /-- ECAN_STAT_CHAN (R142): A write of ECAN_STAT_CHAN starts a canceller snapshot. -/
  | ecanStatChan (t : Nat) (p : Port) (chan : BitVec 16)
  /-- CODEC_STAT_LEG (R167): A write of CODEC_STAT_LEG starts a leg codec snapshot. -/
  | codecStatLeg (t : Nat) (p : Port) (leg : BitVec 17)
  /-- JBUF_STAT_LEG (R192): A write of JBUF_STAT_LEG starts a playout buffer snapshot. -/
  | jbufStatLeg (t : Nat) (p : Port) (leg : BitVec 17)
  /-- RATE_STAT_LEG (R227): A write of RATE_STAT_LEG starts a rate conversion snapshot. -/
  | rateStatLeg (t : Nat) (p : Port) (leg : BitVec 17)
  /-- EGS_STAT_FLOW (R320): A write of EGS_STAT_FLOW starts a flow snapshot. -/
  | egsStatFlow (t : Nat) (p : Port) (leg : BitVec 17)
  /-- MDM_STAT_CHAN (R432): A write of MDM_STAT_CHAN starts a modem session snapshot. -/
  | mdmStatChan (t : Nat) (p : Port) (chan : BitVec 16)
  /-- KEY_LIMIT (R166): A master key reaches its packet limit and its direction stops sending. -/
  | keyLimit (t : Nat)
  /-- OLD_KEY_ERASE (R165): 400 beats after a switch without MKI, the old receive key is erased. -/
  | oldKeyErase (t : Nat)
  /-- TONE_GEN_DTMF (R211): TONE_GEN_CMD DTMF requests digits toward one leg. -/
  | toneGenDtmf (t : Nat) (p : Port) (v : Word)
  /-- TONE_GEN_DESC (R211): TONE_GEN_CMD DESC requests a descriptor tone toward one leg. -/
  | toneGenDesc (t : Nat) (p : Port) (v : Word)
  /-- TONE_GEN_STOP (R211): TONE_GEN_CMD STOP stops the host tone toward one leg. -/
  | toneGenStop (t : Nat) (p : Port) (v : Word)
  /-- RELAY_TIMEOUT (R207): A relayed event not extended for 60 ms beyond its duration ends. -/
  | relayTimeout (t : Nat) (leg : BitVec 17)
  /-- DCB_FREEZE (R225): RATE_LEG_CMD FREEZE holds a leg's DC estimate. -/
  | dcbFreeze (t : Nat) (p : Port) (leg : BitVec 17)
  /-- DCB_RUN (R225): RATE_LEG_CMD RUN resumes DC tracking on a leg. -/
  | dcbRun (t : Nat) (p : Port) (leg : BitVec 17)
  /-- CLEAR_SAT (R226): RATE_LEG_CMD CLEAR_SAT clears a leg's saturation flags in its next job. -/
  | clearSat (t : Nat) (p : Port) (leg : BitVec 17)
  /-- FRAME_RECEIVE (R274): A received Ethernet frame is stamped, stored, parsed, looked up, metered and bound. -/
  | frameReceive (t : Nat) (port : BitVec 3) (frame : RxFrame) (v : SrtpIn)
  /-- PKT_JOB_DONE (R276): A PKT job completes a fragment; a completed datagram re-enters parsing with a new stamp. -/
  | pktJobDone (t : Nat) (port : BitVec 3) (dir : DirRead) (v : SrtpIn)
  /-- REASM_TIMEOUT (R276): A datagram still incomplete at B(k+4) is discarded. -/
  | reasmTimeout (t : Nat)
  /-- OVERLOAD (R286): A frame not placed within 40 µs of its stamp is dropped. -/
  | overload (t : Nat)
  /-- EPD_INSERT (R281): EPD_CMD INSERT places a new endpoint record by cuckoo displacement. -/
  | epdInsert (t : Nat) (p : Port) (handle : BitVec 23)
  /-- EPD_DELETE (R282): EPD_CMD DELETE clears a record and its way entry. -/
  | epdDelete (t : Nat) (p : Port) (handle : BitVec 23)
  /-- EPD_MODIFY (R282): EPD_CMD MODIFY replaces a record's fields other than key, meter state and counts. -/
  | epdModify (t : Nat) (p : Port) (handle : BitVec 23)
  /-- EPD_READ (R282): EPD_CMD READ returns a whole record in EPD_DATA. -/
  | epdRead (t : Nat) (p : Port) (handle : BitVec 23)
  /-- EPD_LOOKUP (R282): EPD_CMD LOOKUP searches the directory for the key in EPD_DATA. -/
  | epdLookup (t : Nat) (p : Port) (handle : BitVec 23)
  /-- EPD_CMD_DONE (R283): A directory command completes and its change becomes visible at its completion stamp. -/
  | epdCmdDone (t : Nat)
  /-- LOAD_CURRENT (R292): SRTP_CMD LOAD_CURRENT replaces a direction's current key. -/
  | loadCurrent (t : Nat) (p : Port) (v : Word)
  /-- LOAD_NEXT (R292): SRTP_CMD LOAD_NEXT fills a direction's next key slot. -/
  | loadNext (t : Nat) (p : Port) (v : Word)
  /-- SRTP_ERASE (R292): SRTP_CMD ERASE clears both key slots of a direction. -/
  | srtpErase (t : Nat) (p : Port) (v : Word)
  /-- TX_OPPORTUNITY (R315): A port takes the highest eligible open unpaused class and releases the selected packet. -/
  | txOpportunity (t : Nat) (port : BitVec 3)
  /-- FRAME_TX_DONE (R357): A frame finishes on the wire; a timestamp request enters the transmit queue. -/
  | frameTxDone (t : Nat) (port : BitVec 3)
  /-- SHAPER_REFILL (R312): At each refill instant shaper buckets refill and pending shaper writes take effect. -/
  | shaperRefill (t : Nat)
  /-- EGS_AGG_WRITE (R304): EGS_AGG_CMD WRITE sets an aggregate's EN, port, class and weight. -/
  | egsAggWrite (t : Nat) (p : Port) (agg : BitVec 11)
  /-- EGS_AGG_READ (R304): EGS_AGG_CMD READ fills EGS_AGG_DATA and EGS_AGG_FLOWS. -/
  | egsAggRead (t : Nat) (p : Port) (agg : BitVec 11)
  /-- SHP_WRITE (R313): SHP_CMD WRITE sets a shaper's rates and depths from the next refill. -/
  | shpWrite (t : Nat) (p : Port) (agg : Bool) (index : BitVec 17)
  /-- SHP_READ (R322): SHP_CMD READ returns a shaper's settings and buckets. -/
  | shpRead (t : Nat) (p : Port) (agg : Bool) (index : BitVec 17)
  /-- MAC_LANE_MODE_WRITE (R329): A write of MAC_LANE_MODE changes the lane mode and clears every MAC counter. -/
  | macLaneModeWrite (t : Nat) (p : Port) (port : BitVec 3) (v : Word)
  /-- MAC_CTRL_WRITE (R326): A write of MAC_CTRL enables a port or sets FEC, pause mode and stripping. -/
  | macCtrlWrite (t : Nat) (p : Port) (port : BitVec 3) (v : Word)
  /-- LINK_UP (R330): Signal, block lock and FEC lock held 10 ms with no fault raise LINK_UP. -/
  | linkUp (t : Nat) (port : BitVec 3)
  /-- LINK_DOWN (R330): A link condition failing for DOWN_US clears LINK_UP. -/
  | linkDown (t : Nat) (port : BitVec 3) (cond : BitVec 5)
  /-- REVERTED (R343): A standby PRIMARY with link for LPAIR_REVERT_S becomes active again. -/
  | reverted (t : Nat) (pair : BitVec 2)
  /-- LPAIR_WRITE (R341): A write of LPAIR_PAIRk joins, changes or enables a link pair. -/
  | lpairWrite (t : Nat) (p : Port) (pair : BitVec 2) (v : Word)
  /-- PREEMPT_VERIFY_DONE (R334): The 802.3br verify exchange succeeds or fails. -/
  | preemptVerifyDone (t : Nat) (port : BitVec 3) (ok : Bool)
  /-- PAUSE_FRAME (R337): A received pause or PFC frame holds or releases its classes. -/
  | pauseFrame (t : Nat) (port : BitVec 3) (frame : RxFrame)
  /-- PAUSE_HOLD_END (R337): A held class is released at its hold end. -/
  | pauseHoldEnd (t : Nat) (port : BitVec 3)
  /-- PAUSE_BREAK (R338): The pause watchdog breaks a hold lasting LIMIT_MS and starts hold-off. -/
  | pauseBreak (t : Nat) (port : BitVec 3)
  /-- HOLDOFF_END (R338): A class's pause hold-off ends. -/
  | holdoffEnd (t : Nat) (port : BitVec 3)
  /-- FLOW_CONTROL_REPEAT (R339): A sent pause frame is repeated every QUANTA / 2 quanta. -/
  | flowControlRepeat (t : Nat) (port : BitVec 3)
  /-- TIME_FREQ_WRITE (R349): A write of TIME_FREQ changes the clock's frequency correction. -/
  | timeFreqWrite (t : Nat) (p : Port) (v : Word)
  /-- TIME_SET (R351): TIME_CMD SET steps the clock to TIME_SET and increments the generation. -/
  | timeSet (t : Nat) (p : Port)
  /-- TIME_ADJUST (R350): TIME_CMD ADJUST slews or steps the clock by TIME_ADJ. -/
  | timeAdjust (t : Nat) (p : Port)
  /-- STOP_SLEW (R350): TIME_CMD STOP_SLEW abandons a slew in progress. -/
  | stopSlew (t : Nat) (p : Port)
  /-- SLEW_DONE (R350): A slew applies its whole offset. -/
  | slewDone (t : Nat)
  /-- TIME_NOW_READ (R352): A read of TIME_NOW_SEC_LO latches a coherent clock snapshot for that port. -/
  | timeNowRead (t : Nat) (p : Port)
  /-- PTIME_TSQ_POP (R358): An owner read of PTIME_TSQ0 pops the head timestamp entry. -/
  | ptimeTsqPop (t : Nat) (p : Port) (port : BitVec 3)
  /-- PG_ARM (R360): PG_ARM ARM arms a one-shot or train of a pulse generator. -/
  | pgArm (t : Nat) (p : Port) (k : BitVec 2) (asap : Bool)
  /-- PG_DISARM (R360): PG_ARM DISARM stops a pulse generator. -/
  | pgDisarm (t : Nat) (p : Port) (k : BitVec 2)
  /-- PG_FIRED (R360): A pulse generator's edge falls due and a pulse begins. -/
  | pgFired (t : Nat) (k : BitVec 2)
  /-- PPS_OUT_EDGE (R362): PPS out rises at nanosecond 0 of each second. -/
  | ppsOutEdge (t : Nat)
  /-- PPS_IN (R362): A PPS in edge is captured with the generation. -/
  | ppsIn (t : Nat)
  /-- TOD_LINE (R363): A time-of-day line starts TOD_DELAY_MS after PPS out. -/
  | todLine (t : Nat)
  /-- GATE_CHANGE (R365): GATE_CMD CHANGE schedules the admin gate list to become operating. -/
  | gateChange (t : Nat) (p : Port) (port : BitVec 3)
  /-- GATE_CANCEL (R365): GATE_CMD CANCEL withdraws a pending gate list change. -/
  | gateCancel (t : Nat) (p : Port) (port : BitVec 3)
  /-- CHANGED (R365): At its start instant a pending gate list becomes the operating list. -/
  | changed (t : Nat) (port : BitVec 3)
  /-- GATE_ENTRY (R364): An operating gate list entry's interval ends and the next entry sets the gates. -/
  | gateEntry (t : Nat) (port : BitVec 3)
  /-- PCM_FRAME (R375): A PCM frame on a highway group completes at a frame-sync edge. -/
  | pcmFrame (t : Nat) (g : BitVec 2) (frame : PcmFrameIn)
  /-- FS_LOST (R377): 375 µs without an edge puts a locked slave group in LOST. -/
  | fsLost (t : Nat) (g : BitVec 2)
  /-- PCM_GROUP_CFG_WRITE (R377): A write of PCM_GROUP_CFG enables or reconfigures a clock group. -/
  | pcmGroupCfgWrite (t : Nat) (p : Port) (h : BitVec 4) (v : Word)
  /-- PCM_HWY_CFG_WRITE (R383): A write of PCM_HWY_CFG enables or configures a highway. -/
  | pcmHwyCfgWrite (t : Nat) (p : Port) (h : BitVec 4) (v : Word)
  /-- RING_ENABLE (R395): A write of RING_CTRL.EN = 1 starts a ring with HEAD and TAIL at 0. -/
  | ringEnable (t : Nat) (p : Port) (g : BitVec 8)
  /-- RING_DISABLE (R395): A write of RING_CTRL.EN = 0 stops a running ring with cause 1. -/
  | ringDisable (t : Nat) (p : Port) (g : BitVec 8) (orphans : Nat)
  /-- RING_FLUSH (R395): A write of RING_CTRL.FLUSH stops a running ring with cause 2. -/
  | ringFlush (t : Nat) (p : Port) (g : BitVec 8) (orphans : Nat)
  /-- DOORBELL (R396): A doorbell write makes descriptors available up to TAIL, or is ignored. -/
  | doorbell (t : Nat) (p : Port) (r : BitVec 7) (tail : Word) (descs : List RingDesc)
  /-- TX_DESC_FETCH (R399): The 9340 fetches a transmit descriptor and frame from host memory into the host queue. -/
  | txDescFetch (t : Nat) (g : BitVec 8) (bytes : List Byte)
  /-- TX_COMPLETION (R399): A sent or refused transmit frame's completion is written back in ring order. -/
  | txCompletion (t : Nat) (g : BitVec 8)
  /-- MDM_TX_CMD (R418): A write of MDM_TX_CMD requests one Taldy link frame. -/
  | mdmTxCmd (t : Nat) (p : Port) (v : Word)
  /-- MDM_MAP_WRITE (R416): MDM_MAP_CMD WRITE loads a session's loading map. -/
  | mdmMapWrite (t : Nat) (p : Port) (map : BitVec 4) (session : BitVec 12)
  /-- MDM_MAP_READ (R432): MDM_MAP_CMD READ returns a session's loading map. -/
  | mdmMapRead (t : Nat) (p : Port) (map : BitVec 4) (session : BitVec 12)
  /-- MODEM_JOB_DONE (R424): A trellis unit completes a MODEM job's decoding. -/
  | modemJobDone (t : Nat) (unit : BitVec 2) (res : ModemRes)
  /-- ARCHIVE_JOB_DONE (R447): An archive lane completes compressing a block and posts finished segments. -/
  | archiveJobDone (t : Nat) (lane : BitVec 4) (c0 c1 : SectionChoice) (reads : List SectorRead)
  /-- SEGMENT_WAIT_RESOLVE (R445): At the boundary after a stream needed a segment, it takes an appended one or abandons its block. -/
  | segmentWaitResolve (t : Nat)
  /-- ARC_APPEND (R449): ARC_CMD APPEND returns a FILLED segment to the chain. -/
  | arcAppend (t : Nat) (p : Port) (seg : BitVec 15)
  /-- ARC_QUERY (R449): ARC_CMD QUERY reports a segment's state, stream and bytes used. -/
  | arcQuery (t : Nat) (p : Port) (seg : BitVec 15)
  /-- ARC_XFER (R449): ARC_CMD XFER copies segment bytes to host memory. -/
  | arcXfer (t : Nat) (p : Port) (seg : BitVec 15)
  /-- ARC_DECODE (R450): ARC_CMD DECODE decodes one block and writes its samples to host memory. -/
  | arcDecode (t : Nat) (p : Port) (seg : BitVec 15)
  /-- ARC_CMD_DONE (R449): An archive command completes and latches CMD_DONE. -/
  | arcCmdDone (t : Nat) (reads : List SectorRead)
  /-- ARC_DONE_POP (R447): An owner read of ARC_DONE0 pops the head completion entry. -/
  | arcDonePop (t : Nat) (p : Port)
  /-- MEM_TRAINING_DONE (R456): GDDR-6 training completes, losing failed devices, and initialisation begins. -/
  | memTrainingDone (t : Nat) (failed : List Nat)
  /-- MEM_INIT_DONE (R456): GDDR-6 initialisation or zeroisation completes and memory is READY. -/
  | memInitDone (t : Nat)
  /-- FAULT_RECORD_WRITE (R458): Kwakel records a lost device, retirement, repair or lost cluster in SPI flash. -/
  | faultRecordWrite (t : Nat)
  /-- SCRUB_PASS (R469): The scrubber completes a pass over every sector. -/
  | scrubPass (t : Nat) (reads : List SectorRead)
  /-- RETIRE_SWITCH_DONE (R471): A retirement copy completes and the entry switches to the spare frame. -/
  | retireSwitchDone (t : Nat)
  /-- RETIRE_FRAME_CMD (R470): RETIRE_CMD RETIRE retires the frame in RETIRE_FRAME. -/
  | retireFrameCmd (t : Nat) (p : Port)
  /-- RETIRE_READ (R480): RETIRE_CMD READ returns one retirement entry. -/
  | retireRead (t : Nat) (p : Port) (entry : BitVec 12)
  /-- MEM_XFER_TO_HOST (R460): MEM_XFER_CMD OP 1 copies scratch to host memory. -/
  | memXferToHost (t : Nat) (p : Port) (len : BitVec 17)
  /-- MEM_XFER_FROM_HOST (R460): MEM_XFER_CMD OP 2 copies host memory to scratch. -/
  | memXferFromHost (t : Nat) (p : Port) (len : BitVec 17) (data : List Byte)
  /-- XFER_DONE (R460): A scratch transfer completes with its status. -/
  | xferDone (t : Nat) (reads : List SectorRead)
  /-- STRIPE_XLAT (R478): A write of STRIPE_XLAT_LO translates a logical address. -/
  | stripeXlat (t : Nat) (p : Port) (v : Word)
  /-- SRAM_REPAIR (R489): Kwakel repairs a bank row or column with a spare once it is free. -/
  | sramRepair (t : Nat) (loc : SramLoc) (column : Bool)
  /-- CLUSTER_LOST (R492): A cluster is detected lost, its jobs abort and its READY jobs move to global lists. -/
  | clusterLost (t k detect : Nat)
  /-- WB_DRAIN_DONE (R493): A lost cluster's write-back buffer has drained to the channel store. -/
  | wbDrainDone (t k : Nat)
  /-- UNIT_FAULT (R495): A trellis unit or archive lane fault aborts its job and may retire it. -/
  | unitFault (t : Nat) (archive : Bool) (k detect : Nat)
  /-- PLL_SWITCH (R496): The core clock moves to the standby PLL. -/
  | pllSwitch (t : Nat)
  /-- PLL_UNLOCK (R518): A monitored PLL loses lock. -/
  | pllUnlock (t pll : Nat)
  /-- INJECT_CORE_FAULT (R498): REL_INJECT code 1 injects a fault in a core's next job. -/
  | injectCoreFault (t : Nat) (p : Port) (v : Word)
  /-- INJECT_CORR_ERROR (R498): REL_INJECT code 2 injects a correctable local memory error. -/
  | injectCorrError (t : Nat) (p : Port) (v : Word)
  /-- INJECT_UNCORR_ERROR (R498): REL_INJECT code 3 injects an uncorrectable local memory error. -/
  | injectUncorrError (t : Nat) (p : Port) (v : Word)
  /-- INJECT_CLUSTER_LOSS (R498): REL_INJECT code 4 injects a cluster loss in MAINTENANCE. -/
  | injectClusterLoss (t : Nat) (p : Port) (v : Word)
  /-- RESTORE (R498): REL_INJECT code 5 restores an injected lost cluster. -/
  | restore (t : Nat) (p : Port) (v : Word)
  /-- POR_RELEASE (R501): PORn rises, straps are sampled and Kwakel boots a verified firmware slot. -/
  | porRelease (t : Nat) (straps : BitVec 5)
  /-- POR_ASSERT (R534): PORn is asserted and the 9340 enters RESET, ending all service. -/
  | porAssert (t : Nat)
  /-- LIBRARY_LOAD_DONE (R501): The library is loaded into the clusters and the core self-test assigns roles. -/
  | libraryLoadDone (t : Nat) (failed : List (Nat × Nat))
  /-- INFO (R507): Mailbox INFO reports the version and SVN of an image slot. -/
  | info (t : Nat) (p : Port)
  /-- IMG_BEGIN (R507): Mailbox IMG_BEGIN opens an image session and erases the inactive slot. -/
  | imgBegin (t : Nat) (p : Port)
  /-- IMG_DATA (R507): Mailbox IMG_DATA appends bytes to the session's image. -/
  | imgData (t : Nat) (p : Port) (len : BitVec 12)
  /-- IMG_END (R507): Mailbox IMG_END verifies the image and closes the session. -/
  | imgEnd (t : Nat) (p : Port) (verified : Bool)
  /-- ACTIVATE_FIRMWARE (R507): Mailbox ACTIVATE of KIND 0 selects a firmware slot and restarts Kwakel. -/
  | activateFirmware (t : Nat) (p : Port)
  /-- ACTIVATE_LIBRARY (R510): Mailbox ACTIVATE of KIND 1 starts a live library rotation. -/
  | activateLibrary (t : Nat) (p : Port)
  /-- ACTIVATE_DATA_PACKAGE (R507): Mailbox ACTIVATE of KIND 2 loads clips and tables. -/
  | activateDataPackage (t : Nat) (p : Port) (clips : List (Nat × Clip)) (fits : Bool)
  /-- COMMIT_SVN (R504): Mailbox COMMIT_SVN blows anti-rollback fuses. -/
  | commitSvn (t : Nat) (p : Port)
  /-- MBX_ABORT (R507): Mailbox ABORT closes the session and stops a rotation. -/
  | mbxAbort (t : Nat) (p : Port)
  /-- BOARD (R507): Mailbox BOARD writes board data. -/
  | board (t : Nat) (p : Port) (len : BitVec 12)
  /-- MBX_CMD_DONE (R506): A mailbox command completes, setting its results and latching CMD_DONE. -/
  | mbxCmdDone (t : Nat)
  /-- KWAKEL_WATCHDOG (R508): The watchdog expires and restarts Kwakel. -/
  | kwakelWatchdog (t : Nat)
  /-- KWAKEL_RESTART (R509): A Kwakel restart completes and ownership and queued events are processed. -/
  | kwakelRestart (t : Nat)
  /-- ROTATION_STEP_LOAD_DONE (R511): An evacuated cluster's image load and self-test complete. -/
  | rotationStepLoadDone (t : Nat)
  /-- SENSOR_SAMPLE (R514): Kwakel samples every thermal site and voltage monitor and applies thresholds. -/
  | sensorSample (t : Nat) (temps : List Int) (volts : List Nat) (devTemps : List Int) (locks : BitVec 6)
  /-- SENSOR_FAIL (R517): A sensor disagreeing with its twin for 100 ms is failed over. -/
  | sensorFail (t : Nat) (volt : Bool) (k : Nat) (twin : Bool)
  /-- FLASH_LOG_WRITE (R521): An amber, vermilion or Kwakel record is written to the flash log. -/
  | flashLogWrite (t : Nat) (bad : Bool)
  /-- MGMT_FRAME_RECEIVE (R523): The management port answers ARP and drops other received frames. -/
  | mgmtFrameReceive (t : Nat) (frame : List Byte)
  /-- LOG_RD_SEQ (R522): A write of LOG_RD_SEQ fetches a log record from a store. -/
  | logRdSeq (t : Nat) (p : Port) (v : Word)
  /-- LOG_NOTE (R522): A write of LOG_NOTE writes a host note record. -/
  | logNote (t : Nat) (p : Port) (v : Word)
  /-- LIFE_CMD (R525): A write of LIFE_CMD requests a life-cycle change. -/
  | lifeCmd (t : Nat) (p : Port) (v : Word) (verified : Bool)
  /-- DIRECTORY_COPY_DONE (R544): Kwakel finishes copying on-chip directory records into GDDR-6. -/
  | directoryCopyDone (t : Nat)
  /-- STANDING_CONFIG_WRITE (R539): Kwakel writes the standing configuration to flash. -/
  | standingConfigWrite (t : Nat)
  /-- ENTER_MAINT (R546): MODE_CMD ENTER_MAINT sets MAINT at the next boundary. -/
  | enterMaint (t : Nat) (p : Port)
  /-- LEAVE_MAINT (R546): MODE_CMD LEAVE_MAINT clears MAINT at the next boundary. -/
  | leaveMaint (t : Nat) (p : Port)
  /-- ROTATE (R546): MODE_CMD ROTATE reloads every cluster with the running image. -/
  | rotate (t : Nat) (p : Port)
  /-- CONSTRAIN_ON (R547): MODE_CMD CONSTRAIN_ON sets the forced constrain trigger. -/
  | constrainOn (t : Nat) (p : Port)
  /-- CONSTRAIN_OFF (R547): MODE_CMD CONSTRAIN_OFF clears the forced trigger. -/
  | constrainOff (t : Nat) (p : Port)
  /-- POWER_TRIGGER (R547): VDD_CORE current above LIMIT_A for 200 ms sets the power trigger. -/
  | powerTrigger (t : Nat)
  /-- CONSTRAIN_EXIT (R547): No trigger for EXIT_S ends CONSTRAIN at the next boundary. -/
  | constrainExit (t : Nat)
  /-- SEAL (R551): MODE_CMD SEAL starts the orderly end of service. -/
  | sealCmd (t : Nat) (p : Port) (force : Bool)
  /-- UNSEAL (R554): MODE_CMD UNSEAL clears SEAL at the next boundary. -/
  | unsealCmd (t : Nat) (p : Port)
  /-- WIPE (R551): MODE_CMD WIPE moves DRAINED to WIPING at the next boundary. -/
  | wipe (t : Nat) (p : Port)
  /-- SNAPSHOT (R539): MODE_CMD SNAPSHOT saves the standing configuration. -/
  | snapshot (t : Nat) (p : Port)
  /-- SEAL_DEADLINE (R552): At the drain deadline every non-emergency channel closes. -/
  | sealDeadline (t : Nat)
  /-- SEAL_HOLD_EXPIRY (R551): HOLD_S after DRAINED, SEAL moves to WIPING. -/
  | sealHoldExpiry (t : Nat)
  /-- SEAL_WIPED (R553): The seal wipe completes and SEAL enters SEALED. -/
  | sealWiped (t : Nat)
  /-- GPIO_EDGE (R575): An edge on a host GPIO ball latches its edge bit. -/
  | gpioEdge (t : Nat) (k : BitVec 4) (high : Bool)
  /-- VDD_AON_LOSS (R534): VDD_AON leaves its band and the 9340 enters the OFF state, losing log RAM. -/
  | vddAonLoss (t : Nat)
  /-- VDD_AON_RETURN (R561): VDD_AON returns to its band with PORn low and the 9340 leaves OFF for RESET. -/
  | vddAonReturn (t : Nat)
  /-- FIRMWARE_VERIFIED (R501): Kwakel firmware is verified, KSTATE becomes RUNNING, BAR0 and claims are served and GDDR-6 training begins. -/
  | firmwareVerified (t : Nat)
  /-- LIFE_CHANGE_RESET (R525): A life-cycle change completes its wipes and the 9340 resets itself, keeping log RAM, and starts again. -/
  | lifeChangeReset (t : Nat)
  /-- PULSE_END (R360): A pulse of a pulse generator, or of PPS out, reaches its width and the output returns to its inactive level. -/
  | pulseEnd (t : Nat) (k : BitVec 3)
  /-- MAINT_JOB_DONE (R251): A MAINT job of Kwakel (scrub, evacuation, load or self-test step) completes on a media core and frees its entry and flow. -/
  | maintJobDone (t task : Nat) (reads : List SectorRead)
  /-- POWER_TRIGGER_END (R547): The VDD_CORE current read over PMBus falls to LIMIT_A or below and the power trigger of CONSTRAIN stops holding. -/
  | powerTriggerEnd (t : Nat)
  deriving DecidableEq, Repr

end Sys2Proof
end

