-- ==== Sys2Proof/Machine/Bits.lean ====
section
/-! DEFINITION. Bit fields, byte order, signed readings, saturating counts and the check codes that
several blocks share. Bit ranges are [msb:lsb] with bit 0 the least significant (R2). -/

namespace Sys2Proof.Machine

/-- The value of bits [hi:lo] of a word. -/
def bitsOf (w : Word) (hi lo : Nat) : Nat := (w.toNat >>> lo) % 2 ^ (hi + 1 - lo)

/-- The word with bits [hi:lo] replaced by the low bits of `v`. -/
def withBits (w : Word) (hi lo v : Nat) : Word :=
  let m := 2 ^ (hi + 1 - lo) - 1
  Word.of (w.toNat - (w.toNat >>> lo &&& m) * 2 ^ lo + v % 2 ^ (hi + 1 - lo) * 2 ^ lo)

/-- Bit `i` of a number. -/
def bit (n i : Nat) : Bool := n.testBit i

/-- A Bool as a bit. -/
def b2n (b : Bool) : Nat := if b then 1 else 0

/-- A count that stops at 0xFFFF_FFFF. -/
def sat32 (n : Nat) : Nat := min n 0xFFFFFFFF

/-- A count that stops at 0xFFFF. -/
def sat16 (n : Nat) : Nat := min n 0xFFFF

/-- A `w`-bit field read as a two's complement number. -/
def asSigned (w n : Nat) : Int := if n % 2 ^ w < 2 ^ (w - 1) then n % 2 ^ w else (n % 2 ^ w : Nat) - 2 ^ w

/-- A signed number as a `w`-bit two's complement field. -/
def toField (w : Nat) (i : Int) : Nat := (i % (2 ^ w : Nat)).toNat

/-- Clamp a number to an interval. -/
def clampInt (lo hi i : Int) : Int := max lo (min hi i)

/-- `a` lies after `b`, the two compared by their signed difference modulo 2^32 (R7). -/
def beatAfter (a b : BeatNo) : Bool := 0 < (a - b).toNat && (a - b).toNat < 2 ^ 31

/-- `a` is `b` or lies after it (R7). -/
def beatAtOrAfter (a b : BeatNo) : Bool := (a - b).toNat < 2 ^ 31

/-- Little-endian number of a byte list (R108, R502). -/
def leNat : List Byte → Nat
  | [] => 0
  | b :: bs => b.toNat + 256 * leNat bs

/-- Big-endian number of a byte list (network byte order). -/
def beNat (bs : List Byte) : Nat := bs.foldl (fun n b => n * 256 + b.toNat) 0

/-- The low `k` bytes of a number, little-endian. -/
def leBytes : Nat → Nat → List Byte
  | 0, _ => []
  | k + 1, n => BitVec.ofNat 8 n :: leBytes k (n / 256)

/-- The low `k` bytes of a number, big-endian. -/
def beBytes (k n : Nat) : List Byte := (leBytes k n).reverse

/-- The four bytes of a register word, byte 0 in [7:0] (R108). -/
def wordBytes (w : Word) : List Byte := leBytes 4 w.toNat

/-- The word whose byte 0 is the head of the list, short lists filled with zeros. -/
def bytesWord (bs : List Byte) : Word := Word.of (leNat (bs.take 4))

/-- Cut a byte list into words. -/
def bytesWords : Nat → List Byte → List Word
  | 0, _ => []
  | k + 1, bs => bytesWord bs :: bytesWords k (bs.drop 4)

/-- `n` bytes of a list from offset `o`, filled up with zeros past its end. -/
def slice (bs : List Byte) (o n : Nat) : List Byte :=
  let t := (bs.drop o).take n
  t ++ List.replicate (n - t.length) 0

/-- Little-endian field of `n` bytes at offset `o`. -/
def leAt (bs : List Byte) (o n : Nat) : Nat := leNat (slice bs o n)

/-- Big-endian field of `n` bytes at offset `o`. -/
def beAt (bs : List Byte) (o n : Nat) : Nat := beNat (slice bs o n)

/-- One bit of a CRC that shifts towards the least significant bit (reflected polynomial `poly`). -/
def crcStepR (poly : Nat) : Nat → Nat → Nat
  | 0, c => c
  | k + 1, c => crcStepR poly k (if c % 2 = 1 then (c / 2) ^^^ poly else c / 2)

/-- A reflected CRC over bytes: each byte enters the low bits, least significant bit first. -/
def crcR (poly init : Nat) (bs : List Byte) : Nat :=
  bs.foldl (fun c b => crcStepR poly 8 (c ^^^ b.toNat)) init

/-- CRC-32C (Castagnoli) as the directory hash and the standing list use it: reflected polynomial
0x1EDC_6F41, start and final complement all ones. -/
def crc32c (bs : List Byte) : Nat := crcR 0x82F63B78 0xFFFFFFFF bs ^^^ 0xFFFFFFFF

end Sys2Proof.Machine
end

