-- ==== Sys2Proof/Machine/Assoc.lean ====
section
/-! DEFINITION. Finite maps keyed by numbers, held as lists of pairs in one canonical form: keys strictly
rising, and no entry equal to what an unlisted key reads as. -/

namespace Sys2Proof.Machine

/-- A finite map: (key, value) pairs. -/
abbrev Assoc (α : Type) := List (Nat × α)

/-- The value listed under a key. -/
def Assoc.find? {α : Type} (k : Nat) : Assoc α → Option α
  | [] => none
  | (k', v) :: rest => if k' = k then some v else Assoc.find? k rest

/-- List a value under a key, in its place by rising key. -/
def Assoc.insert {α : Type} (k : Nat) (v : α) : Assoc α → Assoc α
  | [] => [(k, v)]
  | (k', v') :: rest =>
    if k < k' then (k, v) :: (k', v') :: rest
    else if k = k' then (k, v) :: rest
    else (k', v') :: Assoc.insert k v rest

/-- Remove a key. -/
def Assoc.erase {α : Type} (k : Nat) (m : Assoc α) : Assoc α := m.filter (fun p => p.1 ≠ k)

/-- The value of a key, where an unlisted key reads as `d k`. -/
def Assoc.get {α : Type} (d : Nat → α) (m : Assoc α) (k : Nat) : α := (m.find? k).getD (d k)

/-- Give a key a value, keeping the canonical form: a value an unlisted key reads as is not listed. -/
def Assoc.set {α : Type} [DecidableEq α] (d : Nat → α) (m : Assoc α) (k : Nat) (v : α) : Assoc α :=
  if v = d k then m.erase k else m.insert k v

/-- Change the value under a key that is listed. -/
def Assoc.modify {α : Type} (k : Nat) (f : α → α) (m : Assoc α) : Assoc α :=
  m.map (fun p => if p.1 = k then (p.1, f p.2) else p)

/-- Put a value in place i of a list that reads as `d` past its end. -/
def putAt {α : Type} (d : α) (l : List α) (i : Nat) (x : α) : List α := (l ++ List.replicate (i + 1 - l.length) d).set i x

/-- Put a keyed value behind those whose key is not greater. -/
def insertKeyed {α : Type} (x : Nat × α) : List (Nat × α) → List (Nat × α)
  | [] => [x]
  | y :: ys => if x.1 < y.1 then x :: y :: ys else y :: insertKeyed x ys

/-- Keyed values by rising key, equal keys in their first order. -/
def sortKeyed {α : Type} (l : List (Nat × α)) : List (Nat × α) := l.foldl (fun acc x => insertKeyed x acc) []

/-- Keys strictly rising. -/
abbrev Assoc.Sorted {α : Type} (m : Assoc α) : Prop := m.Pairwise (fun p q => p.1 < q.1)

/-- The canonical form: keys strictly rising and no entry equal to what an unlisted key reads as. -/
abbrev Assoc.Canonical {α : Type} [DecidableEq α] (d : Nat → α) (m : Assoc α) : Prop :=
  m.Sorted ∧ ∀ p ∈ m, p.2 ≠ d p.1

end Sys2Proof.Machine
end

