-- ==== Sys2Proof/Machine/HostTypes.lean ====
section
/-! DEFINITION. State of the host side: instants, power, ownership, interrupts, transactions, the
network clock, references, modes, log and management core. -/

namespace Sys2Proof.Machine

/-! ## Instants -/

/-- The beat block's clock. Instants are counted in ticks of 1/9,375 of a cycle of the sample
timebase from the release of PORn, so that a timebase cycle (R6), a core cycle and a dispatcher
cycle are all whole numbers of ticks. `at0` is the tick of the latest boundary B(n), `t0`
that of B(0). -/
structure Clk where
  now : Nat
  at0 : Nat
  n : BeatNo
  started : Bool
  t0 : Nat
  deriving DecidableEq, Repr

/-- The always-on supply, the reset input and the thermal trip latch (R534, R515), and whether PERST_N of each host
port is high, so that its link runs (R568). -/
structure Power where
  vddAon : Bool
  porn : Bool
  trip : Bool
  linkA : Bool
  linkB : Bool
  deriving DecidableEq, Repr

/-! ## Ownership (R33 to R46) -/

/-- Who holds ownership (R33). -/
inductive Owner where
  | none
  | host (p : Port)
  | proxy
  deriving DecidableEq, Repr

/-- One port's part in ownership: its claim, heartbeat deadline, and the requests written in the
current beat. -/
structure PortOwn where
  claim : Bool
  deadline : Nat
  expired : Bool
  beaten : Bool
  claimReq : Bool
  withdrawReq : Bool
  releaseReq : Bool
  handoverReq : Option Port
  flr : Bool
  deriving DecidableEq, Repr

/-- The OWN block. -/
structure Own where
  owner : Owner
  epoch : BitVec 8
  lastCause : Nat
  pa : PortOwn
  pb : PortOwn
  deriving DecidableEq, Repr

/-! ## Interrupts and outputs -/

/-- One MSI-X table entry (R22). -/
structure MsixEntry where
  addrLo : Word
  addrHi : Word
  data : Word
  ctrl : Word
  deriving DecidableEq, Repr

/-- One port's MSI-X table and pending-bit array. -/
structure Msix where
  table : List MsixEntry
  pba : List Bool
  deriving DecidableEq, Repr

/-- What leaves the 9340. `msix` an MSI-X message on a host port; `dma` a write to host memory; `dmaRead` a
read of host memory; `frame` a frame sent whole on a MAC port; `cutOff` a frame cut off on the wire
after the given bytes; `syslog` an RFC 5424
message of the management port with its priority, addresses and record (R523); `mgmt` another frame of that port; `tod` a line of the time-of-day UART; `pulse` a level of
pulse output k (4 is PPS out); `pcm` the timeslots a highway drives in one frame, none where it is at high impedance; `tripN` THERM_TRIP_N driven low; `train` a PCIe link that trains. -/
inductive Output where
  | msix (port : Port) (vec : Nat) (addr : Nat) (data : Word)
  | dma (port : Port) (addr : Nat) (bytes : List Byte)
  | dmaRead (port : Port) (addr len : Nat)
  | frame (mac : Nat) (bytes : List Byte)
  | cutOff (mac : Nat) (sent : Nat)
  | syslog (pri : Nat) (src dst dport : Nat) (record : List Byte)
  | mgmt (bytes : List Byte)
  | tod (line : List Byte)
  | pulse (k : Nat) (high : Bool)
  | pcm (hwy : Nat) (slots : List (Option Byte))
  | tripN
  | train (port : Port)
  deriving DecidableEq, Repr

/-- Event sources that occurred at one instant, for the tie of R28 and for MAC notices (R340). -/
structure Recent where
  at0 : Nat
  bits : List (Nat × Nat)
  deriving DecidableEq, Repr

/-! ## Transactions (R78 to R90) -/

/-- A slot's state, coded as TXN_SLOT_STATE.STATE. -/
inductive SlotState where
  | free | opened | pending
  deriving DecidableEq, Repr

/-- One kind of channel command staged in a transaction (R110). -/
inductive CmdOp where
  | openCh | modify | close
  deriving DecidableEq, Repr

/-- One staged entry: an RWT register, or the bytes of a channel command. -/
inductive Entry where
  | reg (addr : Nat) (value : Word)
  | cmd (op : CmdOp) (bytes : List Byte)
  deriving DecidableEq, Repr

/-- One transaction slot. `entries` is in staging order; `reached` records that the slot's last
transaction reached its target beat (R87). -/
structure TxnSlot where
  state : SlotState
  done : Bool
  status : Nat
  poisoned : Bool
  entries : List Entry
  target : BeatNo
  tag : Word
  failValid : Bool
  failEntry : Nat
  order : Nat
  reached : Bool
  deriving DecidableEq, Repr

/-! ## Network time (R348 to R363) -/

/-- The IEEE 1588 clock as a line from a base point: `base` is its reading at tick `at0` in units of 2^-16 ns; `freq16` its
correction in 1/16 ppb; `slewLeft` the offset still to slew, in the same units, at the base point; `todUntil` the tick at
which the time-of-day line in progress ends. -/
structure NetClock where
  at0 : Nat
  base : Nat
  freq16 : Int
  slewLeft : Int
  slewPpm : Nat
  gen : BitVec 8
  todUntil : Nat
  deriving DecidableEq, Repr

/-- A latched reading of the clock. -/
structure Stamp where
  sec : Nat
  ns : Nat
  frac : Nat
  gen : Nat
  deriving DecidableEq, Repr

/-- What a pulse generator does (PG_STATUS.STATE). -/
inductive PgState where
  | idle | armed | train | fired
  deriving DecidableEq, Repr

/-- One pulse generator (index 4 is PPS out): `start` its latched START and `next` its next edge, both in
ns of network time; `fireAt` the tick of an ASAP shot; `high` whether a pulse is in progress and `endAt`
the tick of its end (R360). -/
structure PulseGen where
  st : PgState
  start : Nat
  next : Nat
  fireAt : Option Nat
  period : Nat
  width : Nat
  high : Bool
  endAt : Nat
  deriving DecidableEq, Repr

/-- One entry of a gate control list (R364). -/
structure GateEntry where
  gates : Nat
  interval : Nat
  deriving DecidableEq, Repr

/-- A gate control list with its start (ns of network time), base and cycle time. -/
structure GateList where
  start : Nat
  base : Nat
  cycle : Nat
  entries : List GateEntry
  deriving DecidableEq, Repr

/-- One port's gates: the pending and the operating list, and the entry in force (R365). -/
structure GateState where
  pend : Option GateList
  oper : Option GateList
  entry : Nat
  deriving DecidableEq, Repr

/-- One egress stamp of a port's transmit queue (R358). -/
structure TsqEntry where
  ident : Nat
  stamp : Stamp
  deriving DecidableEq, Repr

/-! ## Beat references (R47 to R53) -/

/-- The references of R48, coded 0b00 to 0b11. -/
inductive RefCode where
  | net | pcm | ten | free
  deriving DecidableEq, Repr

/-- The beat block's view of its references. `hist` holds the DCO control words of the last 16 s,
newest first; `dco` the offset in force in ppb; `rebase` says that a step waits for the boundary that stamps it (R54);
`stamp` is the stamp of the latest boundary; `sealWait` says that the cut of the next beat has been made and its seal not,
`late` that the BEAT jobs of the current beat wait for theirs (R57). -/
structure Refs where
  active : RefCode
  qualNet : Bool
  qualPcm : Bool
  qualTen : Bool
  aligned : Bool
  holdover : Bool
  limited : Bool
  hist : List Int
  dco : Int
  rebase : Bool
  stamp : Stamp
  sealWait : Bool
  late : Bool
  deriving DecidableEq, Repr

/-! ## Log (R519 to R523) -/

/-- One log record (R520). -/
structure LogRec where
  seq : Word
  beat : BeatNo
  stamp : Stamp
  colour : Nat
  kwakel : Bool
  host : Bool
  page : Nat
  bit : Nat
  rep : Nat
  data : List Byte
  deriving DecidableEq, Repr

/-- The three stores of R521, newest record first; `queue` the hardware queue of R509; `due` the
records that flash has not yet taken; `spare` the flash spare blocks left. -/
structure LogState where
  next : Word
  ram : List LogRec
  mem : List LogRec
  flash : List LogRec
  due : List LogRec
  queue : List LogRec
  sentSecond : Nat
  sent : Nat
  spare : Nat
  deriving DecidableEq, Repr

/-! ## Management core (R501 to R533) -/

/-- MGMT_STATE.KSTATE. -/
inductive KState where
  | boot | running | restarting | recovery
  deriving DecidableEq, Repr

/-- One image slot in flash: its bytes and whether hash and signature verify (R502). -/
structure ImageSlot where
  bytes : List Byte
  sigOk : Bool
  deriving DecidableEq, Repr

/-- An open image session (R506). -/
structure Session where
  port : Port
  kind : Nat
  total : Nat
  bytes : List Byte
  doomed : Bool
  deriving DecidableEq, Repr

/-- A mailbox command in progress: its OP, its port, its outcome once decided, and whether Kwakel restarts with its
completion. -/
structure MbxCmd where
  op : Nat
  port : Port
  status : Nat
  res0 : Word
  res1 : Word
  restart : Bool
  deriving DecidableEq, Repr

/-- A rotation in progress (R511): the clusters still to do, the cluster of the current step, the slot
it loads, whether that cluster has loaded it, whether the rotation is to stop, how it was started, and whether it
waits. -/
structure Rotation where
  rest : List Nat
  cur : Option Nat
  loaded : Bool
  slot : Nat
  stop : Bool
  byActivate : Bool
  wait : Bool
  deriving DecidableEq, Repr

/-- The settings of a shaper (R313). -/
structure ShpCfg where
  en : Bool
  cir : Nat
  pir : Nat
  cbs : Nat
  pbs : Nat
  deriving DecidableEq, Repr

/-- The settings of an aggregate (R302). -/
structure AggCfg where
  en : Bool
  port : Nat
  cls : Nat
  weight : Nat
  deriving DecidableEq, Repr

/-- The standing configuration (R539): registers by address, aggregates by number, and the shapers of aggregates
and of flows. -/
structure StandingConfig where
  regs : List (Nat × Word)
  aggs : List (Nat × AggCfg)
  shpAggs : List (Nat × ShpCfg)
  shpFlows : List (Nat × ShpCfg)
  deriving DecidableEq, Repr

/-- One standing-list entry (R539): the OPEN command and the saved endpoint records by handle. -/
structure StandingEntry where
  chan : Nat
  cmd : List Byte
  recA : Option (Nat × List Byte)
  recB : Option (Nat × List Byte)
  crcOk : Bool
  deriving DecidableEq, Repr

/-- What SPI flash holds besides images and log (R505). -/
structure Flash where
  board : Assoc Byte
  fwSel : Nat
  fwPrev : Option Nat
  libSel : Nat
  retired : List (Nat × Nat)
  retiredUnits : List Nat
  retiredLanes : List Nat
  lostClusters : List Nat
  lostDevices : List Nat
  retiredFrames : List (Nat × Nat × Nat)
  repairs : List (Nat × Nat × Nat)
  standing : List StandingEntry
  config : StandingConfig
  deriving DecidableEq, Repr

/-- Records Kwakel has still to write to flash, and standing-list work. -/
inductive FlashWork where
  | core (cluster index : Nat)
  | unit (index : Nat)
  | lane (index : Nat)
  | cluster (k : Nat)
  | device (d : Nat)
  | frame (frame pool poison : Nat)
  | repair (region bank line : Nat)
  | standing (chan : Nat) (cmd : List Byte)
  | unstand (chan : Nat)
  | config
  deriving DecidableEq, Repr

/-- OTP fuses: anti-rollback counts and the life-cycle state (R504, R524). -/
structure Fuses where
  svnFw : Nat
  svnLib : Nat
  lifeState : Nat
  lifeLast : Nat
  returns : Nat
  changed : Bool
  deriving DecidableEq, Repr

/-- The management core's own state. `fwSlot` and `libSlot` are the slots that run; `boots` whether the running firmware
has started the 9340 since reset; `firstStart` the tick at which a firmware that an activation selected first ran;
`watchdogs` the ticks of watchdog restarts, `held` whether they hold KSTATE at RECOVERY; `repair` the channels
whose PAIRED is to be set again when BRINGUP ends. -/
structure Mgmt where
  kstate : KState
  fwSlot : Nat
  libSlot : Nat
  fwA : ImageSlot
  fwB : ImageSlot
  libA : ImageSlot
  libB : ImageSlot
  package : Option ImageSlot
  clips : List (Nat × Clip)
  session : Option Session
  mbx : Option MbxCmd
  rot : Option Rotation
  watchdogs : List Nat
  held : Bool
  boots : Bool
  firstStart : Option Nat
  flash : Flash
  work : List FlashWork
  fuses : Fuses
  lifeReq : Option Nat
  challenge : Nat
  restoredConfig : Bool
  repair : List Nat
  deriving DecidableEq, Repr

/-- The sensors (R514, R517): the last samples of each thermal site in 1/16 °C and of each voltage monitor in mV, newest
first, and which of each pair (primary, twin) have failed. -/
structure Sensors where
  temps : List (List Int)
  volts : List (List Nat)
  tempFail : List (Bool × Bool)
  voltFail : List (Bool × Bool)
  deriving DecidableEq, Repr

/-! ## Modes (R534 to R555) -/

/-- SEAL phases, coded as MODE_STATE.SEAL_PHASE. -/
inductive SealPhase where
  | none | draining | drained | wiping | sealed
  deriving DecidableEq, Repr

/-- The conditions of R535 and what their entries and exits wait for: `…Req` are accepted requests that the next
boundary takes; `ended` says that BRINGUP has ended; `power` that the power trigger holds; `quietSince` the tick
from which no trigger has held, `quietDone` that EXIT_S has passed; `holdDue` that HOLD_S has
passed; `dirCopied` that the on-chip directory has been copied; `compactFreed` that the 8 MiB of R541
have returned to ingress. -/
structure Modes where
  mode : Nat
  bringup : Bool
  everBringup : Bool
  ended : Bool
  sealOn : Bool
  isolate : Bool
  maint : Bool
  rotMaint : Bool
  constrain : Bool
  forced : Bool
  power : Bool
  quietSince : Nat
  quietDone : Bool
  phase : SealPhase
  drainedAt : Nat
  holdDue : Bool
  sealReq : Bool
  forceReq : Bool
  unsealReq : Bool
  wipeReq : Bool
  enterReq : Bool
  leaveReq : Bool
  rotReq : Bool
  rotEnded : Bool
  dirCopied : Bool
  memFailed : Bool
  compactFreed : Bool
  deriving DecidableEq, Repr

end Sys2Proof.Machine
end

