-- ==== Sys2Proof/Machine/CoreTypes.lean ====
section
/-! DEFINITION. State of the media cores, their clusters, the dispatcher, its trace and the spares
(R230 to R272, R482 to R499). -/

namespace Sys2Proof.Machine

/-! ## Channel configuration (R98, R111, R112) -/

/-- A leg's configuration, by kind (R98). -/
inductive LegCfg where
  | packet (codec ptime pt : Nat) (srtp : Bool) (epd ssrc agg tclass weight jbMax context opt : Nat)
  | pcm (format highway slot : Nat)
  | source (announce : Bool) (number : Nat)
  deriving DecidableEq, Repr

/-- EC_SIDE (R111). -/
inductive EcSide where
  | off | legA | legB
  deriving DecidableEq, Repr

/-- A session's kind (R111). -/
inductive SessKind where
  | none | taldy | fax
  deriving DecidableEq, Repr

/-- A channel's configuration: the parts an OPEN gives and a MODIFY selects (R111, R113). -/
structure ChanCfg where
  emergency : Bool
  paired : Bool
  standing : Bool
  record : Bool
  phaseSet : Bool
  phase : Nat
  ec : EcSide
  detA : Bool
  detB : Bool
  relayA : Bool
  relayB : Bool
  sess : SessKind
  sessSideB : Bool
  legA : LegCfg
  legB : LegCfg
  ring : Nat
  deriving DecidableEq, Repr

/-! ## Jobs (R74, R251) -/

/-- The job types of R251, codes 0 to 5. -/
inductive JobType where
  | beat | pkt | modem | archive | hostcmd | maint
  deriving DecidableEq, Repr

/-- The states of R74 that a job in the dispatcher can have; `poisoned` is the ABORTED state that an
abort by poison keeps until D(n). -/
inductive JobState where
  | ready | staging | running | committing | poisoned
  deriving DecidableEq, Repr

/-- The ready list a job is in (R259). -/
inductive ListId where
  | cluster (k : Nat)
  | global
  | pool
  deriving DecidableEq, Repr

/-- One dispatcher entry. `chan` is the channel number of a BEAT or MODEM job, the MAC port of a PKT
job, the stream of an ARCHIVE job, the page of a HOSTCMD job and the task of a MAINT job; `uid` names
the channel's life; `seq` is the order made ready; `readyAt` the tick of the dispatcher cycle it was
made ready in; `startAt` the tick it started or, in COMMITTING, was handed over; `digest` is its own CRC-64 and `peer` the
partner's (R243); `acc` the tick from which its busy cycles have not been counted. -/
structure Job where
  id : Nat
  kind : JobType
  flow : Nat
  beat : BeatNo
  level : Nat
  chan : Nat
  uid : Nat
  partner : Bool
  paired : Bool
  home : Nat
  state : JobState
  list : ListId
  server : Option Server
  excluded : List (Nat × Nat)
  redisp : Bool
  seq : Nat
  readyAt : Nat
  staged : Bool
  version : Word
  flagged : Bool
  digest : Option Nat
  peer : Option Nat
  startAt : Nat
  grantAt : Nat
  acc : Nat
  stalled : Bool
  cfg : ChanCfg
  deriving DecidableEq, Repr

/-! ## Clusters (R230 to R250) -/

/-- A core's role, coded as CLU_CORE_MAP. -/
inductive Role where
  | serving | reserve | retired | offline
  deriving DecidableEq, Repr

/-- CLU_STATE.CSTATE. -/
inductive CState where
  | off | serving | evacuated | lost
  deriving DecidableEq, Repr

/-- One core: role, the assignment slot and the job it runs (by job id), its fault history (R486), its
self-check, whether it awaits retirement, and injected faults (R498). -/
structure Core where
  role : Role
  slot : Option Nat
  run : Option Nat
  history : List BeatNo
  total : Nat
  lastFault : BeatNo
  checking : Option Nat
  retire : Bool
  sat : Bool
  inject : Bool
  deriving DecidableEq, Repr

/-- One write-back entry: the channel's life, whether it is drained after a cluster loss, and until
when. -/
structure WbEntry where
  uid : Nat
  chan : Nat
  deriving DecidableEq, Repr

/-- One cluster. -/
structure Cluster where
  cstate : CState
  cores : List Core
  lib : Word
  libSlot : Nat
  wb : List WbEntry
  lostInjected : Bool
  restoring : Bool
  sramLost : Bool
  charged : List Nat
  cycNow : Nat
  jobsNow : Nat
  srtpNow : Nat
  deriving DecidableEq, Repr

/-- One unit of a pool (trellis unit or archive lane): in service, its job, its fault history (R495). -/
structure PoolUnit where
  alive : Bool
  run : Option Nat
  history : List BeatNo
  deriving DecidableEq, Repr

/-- What BEAT_DONE_LAST and BEAT_RECOV_CNT need of one beat (R63, R71): whether it had jobs, and the tick of
its last commit. -/
structure BeatWork where
  beat : BeatNo
  had : Bool
  last : Option Nat
  deriving DecidableEq, Repr

/-- The dispatcher: jobs in the order made ready, counters for ids and readiness, the last core of
each flow, the jobs held sources have to make ready (R255), the ticks of the last grant cycle of each pool
(R258), the work of the beats whose window is open, and the bits that the trellis units decoded in this beat. -/
structure Disp where
  jobs : List Job
  nextId : Nat
  nextSeq : Nat
  lastCore : Assoc (Nat × Nat)
  held : List Job
  granted : List (Pool × Nat)
  work : List BeatWork
  trellis : List PoolUnit
  lanes : List PoolUnit
  trellisNow : Nat
  deriving DecidableEq, Repr

/-- A paired mismatch under attribution (R488): digests and cores of the two sides. -/
structure Mismatch where
  uid : Nat
  beat : BeatNo
  dHome : Nat
  dPartner : Nat
  coreHome : Nat × Nat
  corePartner : Nat × Nat
  deriving DecidableEq, Repr

/-! ## Trace (R266 to R269) -/

/-- One trace record: its index and its four words. -/
structure TraceRec where
  idx : Word
  words : List Word
  deriving DecidableEq, Repr

/-- The trace store, newest record first; `count` the records since the restart; `post` the records still to
come after the trigger; `queued` the records of a spill mode not yet in memory at tick `drainAt`;
`lostRun` the records lost since the last one written. -/
structure Trace where
  recs : List TraceRec
  count : Nat
  stopped : Bool
  post : Option Nat
  queued : Nat
  drainAt : Nat
  lostRun : Nat
  deriving DecidableEq, Repr

/-! ## Spares and clocks (R483, R489, R496) -/

/-- Spare rows and columns spent in one bank of local memory (of a core) or of shared SRAM (R489). -/
structure BankUse where
  shared : Bool
  cluster : Nat
  core : Nat
  bank : Nat
  rows : Nat
  cols : Nat
  deriving DecidableEq, Repr

/-- A repair that is due: where, and whether by a spare column or a spare row (R489). -/
structure RepairDue where
  loc : SramLoc
  column : Bool
  deriving DecidableEq, Repr

/-- Spares spent and evidence: banks with spent spares, corrections (R489), repairs due, the core clock and
its standby PLL (R496), spare sensors, the classes without tolerance as last judged, and the mismatches
under attribution. -/
structure Spares where
  banks : List BankUse
  corrections : List (SramLoc × BeatNo)
  due : List RepairDue
  onStandby : Bool
  standbyLocked : Bool
  spareDiodes : Nat
  spareMonitors : Nat
  notol : Nat
  mismatches : List Mismatch
  deriving DecidableEq, Repr

end Sys2Proof.Machine
end

