-- ==== Sys2Proof/Machine/MediaTypes.lean ====
section
/-! DEFINITION. A channel's running state: packets, playout buffers, codecs, canceller, tones, rate
conversion, session and recording, one structure for each. -/

namespace Sys2Proof.Machine

/-! ## Packets of a leg (R170 to R191) -/

/-- What a bound packet is. -/
inductive PktKind where
  | rtp | rtcp | udptl
  deriving DecidableEq, Repr

/-- A bound packet in a leg inbox: its stamp (tick of the last FCS byte), whether it is a well-formed RTP packet, RTP
header fields, payload, and the bytes of shared packet memory it takes. -/
structure InPkt where
  stamp : Nat
  kind : PktKind
  wf : Bool
  seq : Nat
  ts : Word
  ssrc : Word
  pt : Nat
  marker : Bool
  payload : List Byte
  size : Nat
  deriving DecidableEq, Repr

/-- What an entry of the backing slot holds. -/
inductive EntryKind where
  | speech | comfort | event
  deriving DecidableEq, Repr

/-- One entry of a backing slot: extended sequence number, timestamp, length in timestamp units, entry
space in bytes (R172), and the payload. -/
structure JEntry where
  ext : Nat
  ts : Word
  units : Nat
  bytes : Nat
  kind : EntryKind
  payload : List Byte
  deriving DecidableEq, Repr

/-- Playout states, coded 0 to 5 (R183). -/
inductive JState where
  | empty | playing | concealing | comfort | lossCn | silent
  deriving DecidableEq, Repr

/-- The counts of a leg that JBUF_STAT_LEG reports (R191). Fills are in timestamp units. -/
structure JCounts where
  rx : Nat
  late : Nat
  dup : Nat
  reorder : Nat
  ovf : Nat
  resync : Nat
  conceal : Nat
  lossCn : Nat
  silent : Nat
  stretch : Nat
  compress : Nat
  skipDrop : Nat
  inboxDrop : Nat
  deriving DecidableEq, Repr

/-- A leg's playout buffer. `p` is the playout point and `next` the beat that decides its block;
`waitFill` the fill before the first block of a talkspurt; `goal` in ticks, positive to grow and
negative to shrink; `window` the stamp and timestamp of the packets whose margins it holds, newest
first; `past` the last 128 extended numbers played or discarded; `run` the concealed units of the loss
run, `cnRun` the comfort noise units after it; `idle` the beats since a packet was taken; `sinceStep`
the units played since the last time-scale step; `eventEnd` the timestamp to which a decided RFC 4733
event reaches. -/
structure Jbuf where
  st : JState
  hasP : Bool
  p : Word
  next : BeatNo
  waitFill : Option JState
  goal : Int
  window : List (Nat × Word)
  entries : List JEntry
  past : List Nat
  highest : Option Nat
  baseSeq : Nat
  run : Nat
  cnRun : Nat
  idle : Nat
  sinceStep : Nat
  jbMax : Nat
  jitter : Nat
  lastTransit : Int
  lastExpected : Nat
  lastRx : Nat
  counts : JCounts
  deriving DecidableEq, Repr

/-- A codec's running state on a packet leg: RTP sending (R149 to R151), learned SSRC (R153), CMR memory
(R154), silence (R155), RTCP (R160 to R162). The frame of phase beat f has the timestamp `refTs` plus the
audio from phase beat `refBeat` to f; `frames` counts the frames of the packet in the making, whose
first frame is that of `packBeat`; packetisation intervals count from phase beat `grid`. -/
structure CodecRun where
  seq : Nat
  refTs : Word
  refBeat : BeatNo
  grid : BeatNo
  sentTs : Word
  marker : Bool
  frames : Nat
  packBeat : BeatNo
  speech : Bool
  sidDue : Bool
  learned : Option Word
  rivalSsrc : Option Word
  cmr : Option Nat
  mode : Nat
  silent : Bool
  cnLevel : Nat
  sidFrames : Nat
  rtcpDue : Option BeatNo
  sentSince : Bool
  txPackets : Nat
  txBytes : Nat
  rtt : Nat
  lsr : Nat
  lsrAt : Nat
  lastBeat : BeatNo
  deriving DecidableEq, Repr

/-! ## Echo cancellation (R124 to R142) -/

/-- Pending values of ECAN_CH_CMD, one per group (R137): RUN as `some true`, UNLOCK as `some true`, an NLP
override or its removal, a profile, and a RESET. -/
structure EcCtl where
  adapt : Option Bool
  window : Option Bool
  reset : Bool
  nlp : Option (Option Nat)
  profile : Option Nat
  deriving DecidableEq, Repr

/-- The effect of the tone disabler in force (R135). -/
inductive EcEffect where
  | off | nlpOff | bypass
  deriving DecidableEq, Repr

/-- A channel's canceller: controls; foreground, background and locator taps (an empty list stands for
all zero); window and candidate with the run of R129; convergence; ERL and ERLE in millionths of a dB;
talk state, hangovers and the reference levels of the last 130 sub-blocks; the comparison of R131; the
non-linear processor; the comfort noise estimate; the disabler; and the levels of the last sub-block. -/
structure EcRun where
  frozen : Bool
  locked : Bool
  override : Option Nat
  profile : Nat
  fg : List Word
  bg : List Word
  loc : List Nat
  bringup : Bool
  win : Nat
  locStart : Nat
  locPct : Nat
  runW : Nat
  runLen : Nat
  conv : Nat
  convRun : Nat
  measured : Bool
  erl : Int
  erle : Int
  talk : Nat
  nearHang : Nat
  refHist : List Int
  cmpN : Nat
  cmpFg : Nat
  cmpBg : Nat
  cmpIn : Nat
  engaged : Bool
  nlpHang : Nat
  cngKnown : Bool
  cng : Int
  cngEnv : List Word
  effect : EcEffect
  quiet : Nat
  lastRef : Int
  lastIn : Int
  lastOut : Int
  levels : Bool
  deriving DecidableEq, Repr

/-! ## Tones (R195 to R211) -/

/-- A DTMF candidate or digit: event code, position of its first step (beat × 5 + step), valid steps so
far, the invalid run it is bridging as (position, pair code), whether it was accepted, and its level. -/
structure DtmfCand where
  code : Nat
  pos : Nat
  valid : Nat
  run : List (Nat × Option Nat)
  accepted : Bool
  level : Nat
  deriving DecidableEq, Repr

/-- The DTMF class on a leg: candidate, and the invalid steps still to pass before the next (R199). -/
structure DtmfRun where
  cand : Option DtmfCand
  off : Nat
  deriving DecidableEq, Repr

/-- One descriptor's matching on a leg: whether the tone is present, the length of the current segment in
ms and its first step, the segment index, matched cycles, the start of the first of them, whether the
onset has occurred and whether it was reported (R201). -/
structure DescRun where
  on : Bool
  len : Nat
  segPos : Nat
  seg : Nat
  cycles : Nat
  startPos : Nat
  active : Bool
  reported : Bool
  deriving DecidableEq, Repr

/-- One tone of the fax class: steps present, steps absent, first step of the absence, steps of
modulation, whether a reversal was seen, and the code last reported (R202). -/
structure FaxTone where
  present : Nat
  absent : Nat
  absPos : Nat
  firstPos : Nat
  am : Nat
  rev : Bool
  flags : Nat
  code : Option Nat
  deriving DecidableEq, Repr

/-- The detectors of a leg. -/
structure DetRun where
  dtmf : DtmfRun
  descs : Assoc DescRun
  cng : FaxTone
  ans : FaxTone
  v21 : FaxTone
  taldy : Bool
  taldyLow : Nat
  deriving DecidableEq, Repr

/-- One tone report (R197): class, code, whether it is the end, position and level. -/
structure ToneReport where
  cls : Nat
  code : Nat
  isEnd : Bool
  pos : Nat
  level : Nat
  deriving DecidableEq, Repr

/-- A digit being sent as RFC 4733 events on a leg (R206): event code, volume, position of its first step,
the position of its end, the timestamp of the segment and of the digit, packets sent, end copies left,
duration field of the end. -/
structure RelayTx where
  code : Nat
  volume : Nat
  ts : Word
  pos : Nat
  stop : Option Nat
  sent : Nat
  copies : Nat
  lastDur : Nat
  deriving DecidableEq, Repr

/-- A received event (R207). `wait` counts the units before its tone starts. -/
structure RelayEv where
  code : Nat
  volume : Nat
  ts : Word
  units : Nat
  ended : Bool
  wait : Nat
  played : Nat
  deriving DecidableEq, Repr

/-- The relay receiver of a leg: events in order, the first of which plays; silence in units since the last
tone; timestamps of events that have ended; whether the first event's 60 ms have passed. -/
structure RelayRx where
  evs : List RelayEv
  silence : Nat
  past : List Word
  timedOut : Bool
  deriving DecidableEq, Repr

/-- A host tone request (R211). -/
inductive GenReq where
  | dtmf (digits : List Nat)
  | desc (d : Nat)
  | stop
  deriving DecidableEq, Repr

/-- Host tone generation toward a leg: the requests accepted since the latest boundary and the one due in
the next job, the tone playing with the ms it has played, and the digit sent as events. -/
structure GenRun where
  playing : Option GenReq
  ms : Nat
  deriving DecidableEq, Repr

/-- A source leg: the ms (descriptor) or samples (announcement) it has played, whether it has ended, and
the announcement it took at its open: clip length in samples at the leg rate, repeat count and gap in
ms (R209, R210). -/
structure SrcRun where
  ms : Nat
  ended : Bool
  lastDesc : List Word
  clip : Option (Nat × Nat × Nat)
  deriving DecidableEq, Repr

/-! ## Rate conversion (R214 to R226) -/

/-- One conversion direction: the latest inputs of each stage, newest first (R217, R221). -/
structure ChainRun where
  src : Nat
  dst : Nat
  hist : List (List Int)
  deriving DecidableEq, Repr

/-- A leg's audio processing: DC estimate with 12 fractional bits, FREEZE, the two sticky flags, and the
two directions. -/
structure RateRun where
  d : Int
  frozen : Bool
  satIn : Bool
  satOut : Bool
  up : ChainRun
  down : ChainRun
  deriving DecidableEq, Repr

/-- Pending actions of RATE_LEG_CMD on one leg: FREEZE as `some true`, RUN as `some false`, CLEAR_SAT. -/
structure RateCtl where
  freeze : Option Bool
  clear : Bool
  deriving DecidableEq, Repr

/-! ## Sessions (R406 to R431) -/

/-- A transmit request of MDM_TX_CMD (R418). -/
structure TxReq where
  tag : Nat
  map : Nat
  rate : Nat
  payload : List Byte
  deriving DecidableEq, Repr

/-- What one subcarrier carries in a symbol: a point of a constellation as its in-phase and quadrature levels, the mean
power of that constellation's levels, by whose root the point is divided, and its attenuation in half-dB (R411, R417). -/
structure Carrier where
  re : Int
  im : Int
  power : Nat
  atten : Nat
  deriving DecidableEq, Repr

/-- A Taldy link frame being sent: its request, the symbols still to send with what their 24 subcarriers carry, none
where nothing is carried, and whether the first half of the next symbol has gone (R413, R418).
PRESUMED (log entry 65). -/
structure TaldyTx where
  req : TxReq
  syms : List (List (Option Carrier))
  half : Bool
  deriving DecidableEq, Repr

/-- A decoded header: payload length, map, rate and the payload symbols that follow. -/
structure TaldyHdr where
  len : Nat
  map : Nat
  rate : Nat
  syms : Nat
  deriving DecidableEq, Repr

/-- A Taldy link frame in reception: a token for its MODEM jobs, the samples since its detection, the level
P, the place of its first sync sample, its header, the payload symbol periods received and how many of
the last were quiet. -/
structure TaldyFrame where
  tok : Nat
  age : Nat
  level : Nat
  startBeat : BeatNo
  startOff : Nat
  hdr : Option TaldyHdr
  syms : Nat
  quiet : Nat
  deriving DecidableEq, Repr

/-- A Taldy link session's modem: receiver, results of MODEM jobs not yet taken (token, result), the ms of
suspension left after a frame, transmitter, its 16 loading maps of 24 (BITS, GAIN) entries, and level and
SNR of the last frame. -/
structure TaldyRun where
  frame : Option TaldyFrame
  nextTok : Nat
  res : List (Nat × ModemRes)
  tail : Nat
  tx : Option TaldyTx
  maps : List (List (Nat × Nat))
  lastLevel : Nat
  lastSnr : Nat
  deriving DecidableEq, Repr

/-- A fax relay session: next UDPTL sequence number and the IFPs of the packets before it, newest first;
the next IFP number the modulator needs and the IFPs received; fax state and modulation. -/
structure FaxRun where
  seq : Nat
  sent : List (List Byte)
  next : Option Nat
  got : List (Nat × List Byte)
  state : Nat
  mod : Nat
  deriving DecidableEq, Repr

/-! ## Channels -/

/-- One leg's running state. -/
structure LegRun where
  inbox : List InPkt
  pktOut : Word
  pktIn : Word
  jb : Jbuf
  codec : CodecRun
  rate : RateRun
  det : DetRun
  relayTx : List RelayTx
  relayRx : RelayRx
  gen : GenRun
  src : SrcRun
  deriving DecidableEq, Repr

/-- An action that waits for a channel's next job (R92, R94, R137): controls of the host, and what a MODIFY
brings with it. -/
inductive ChanCtl where
  | ec (c : EcCtl)
  | ecRestart
  | rate (legB : Bool) (c : RateCtl)
  | gen (legB : Bool) (q : GenReq)
  | restart (legB : Bool) (src : SrcRun)
  | opt (legB : Bool)
  | retarget
  | map (i : Nat) (m : List (Nat × Nat))
  | send (q : TxReq)
  | sessEnd (reset : Bool)
  deriving DecidableEq, Repr

/-- One life of a channel, from the apply of its OPEN to the end of its last job (R97, R117). `ctls` holds
the actions that wait, each with the beat of the first job it reaches; `hostMaps` the loading maps as the
host loaded them; `commit` the beat of the last commit; `lastJob` the channel's last beat once a CLOSE has
applied. -/
structure Chan where
  num : Nat
  uid : Nat
  cfg : ChanCfg
  phase : Nat
  home : Nat
  openBeat : BeatNo
  lastBeat : BeatNo
  commit : Option BeatNo
  lastJob : Option BeatNo
  version : Word
  costEvery : Nat
  costFrame : Nat
  skips : Nat
  aborts : Nat
  mismatches : Nat
  lastTag : Word
  session : Option Nat
  stream : Option Nat
  ctls : List (BeatNo × ChanCtl)
  hostMaps : List (List (Nat × Nat))
  compact : Bool
  leftover : Bool
  vbd : Bool
  vbdQuiet : Nat
  ec : EcRun
  taldy : TaldyRun
  fax : FaxRun
  legA : LegRun
  legB : LegRun
  deriving DecidableEq, Repr

end Sys2Proof.Machine
end

