-- ==== Sys2Proof/Machine/NetTypes.lean ====
section
/-! DEFINITION. State of packet ingress, endpoints, SRTP, egress, Ethernet ports, PCM highways and host rings
(R274 to R405). -/

namespace Sys2Proof.Machine

/-! ## Host rings (R394 to R401) -/

/-- A transmit descriptor in service: its count, its descriptor, and its outcome once known as (status,
timestamp identifier). -/
structure TxItem where
  count : Nat
  desc : RingDesc
  done : Option (Nat × Nat)
  deriving DecidableEq, Repr

/-- One host ring besides its registers: descriptors made available and not yet used, write-backs since
its last latch, transmit descriptors in service, and how often it has started. -/
structure Ring where
  avail : List RingDesc
  since : Nat
  tx : List TxItem
  gen : Nat
  deriving DecidableEq, Repr

/-- A frame a ring gave to a port: ring with its start count, descriptor count, bytes with tags, whether it
asks for a timestamp. -/
structure HostFrame where
  ring : Nat
  gen : Nat
  count : Nat
  bytes : List Byte
  ts : Bool
  deriving DecidableEq, Repr

/-! ## Ingress (R274 to R289) -/

/-- A stored frame that waits: for the classifier (R286) or, as a fragment, for its PKT job (R276). -/
structure StoredFrame where
  stamp : Nat
  port : Nat
  bytes : List Byte
  deriving DecidableEq, Repr

/-- One IP header: addresses in IPv6 form, protocol, header bytes, and the payload that its length gives; for a
fragment its identification, its offset and whether more follow; `nhAt` is where the header names the
protocol. -/
structure IpPart where
  v6 : Bool
  src : List Byte
  dst : List Byte
  proto : Nat
  head : List Byte
  nhAt : Nat
  frag : Option (List Byte × Nat × Bool)
  pay : List Byte
  deriving DecidableEq, Repr

/-- A datagram in reassembly (R276): its key, the beat of its first fragment, its fragments as (offset, data) in the order
they came, the bytes they take, its length once the last fragment came, and the port, Ethernet header and IP
header of the fragment with offset 0. -/
structure Datagram where
  key : List Byte
  beat : BeatNo
  frags : List (Nat × List Byte)
  size : Nat
  total : Option Nat
  first : Option (Nat × List Byte × IpPart)
  deriving DecidableEq, Repr

/-- An endpoint record (R284). -/
structure EpRec where
  key : List Byte
  emergency : Bool
  bindRing : Bool
  redRing : Bool
  meterEn : Bool
  cls : Nat
  ring : Nat
  leg : Nat
  cir : Nat
  cbs : Nat
  pir : Nat
  pbs : Nat
  tc : Nat
  tp : Nat
  last : Nat
  green : Nat
  yellow : Nat
  red : Nat
  host : List Byte
  deriving DecidableEq, Repr

/-- The endpoint directory: records by handle, way entries (hash, handle) by 4 × bucket + way, the on-chip
directory of BRINGUP (R541), and the command in progress as (OP, HANDLE, EPD_DATA) (R279 to R283). -/
structure Epd where
  recs : Assoc EpRec
  chip : Assoc EpRec
  ways : Assoc (Nat × Nat)
  cmd : Option (Nat × Nat × List Byte)
  deriving DecidableEq, Repr

/-! ## SRTP (R163 to R166, R291 to R293) -/

/-- A loaded key. -/
structure SrtpKey where
  suite : Nat
  mkiLen : Nat
  mki : List Byte
  key : List Byte
  salt : List Byte
  deriving DecidableEq, Repr

/-- One direction of a context: keys, the beat of the latest switch, the highest index of
SRTP and SRTCP with the indices of the 128-entry window, and the packets under the current key. -/
structure SrtpDir where
  cur : Option SrtpKey
  next : Option SrtpKey
  old : Option SrtpKey
  switched : BeatNo
  highest : Option Nat
  window : List Nat
  rtcpHighest : Option Nat
  rtcpWindow : List Nat
  pkts : Nat
  rtcpPkts : Nat
  stopped : Bool
  deriving DecidableEq, Repr

/-- A context. -/
structure SrtpCtx where
  rx : SrtpDir
  tx : SrtpDir
  deriving DecidableEq, Repr

/-! ## Egress (R302 to R318) -/

/-- A shaper: settings, both buckets in 1/50,000 packet, and a WRITE waiting for the next refill, with its tick. -/
structure Shaper where
  cfg : ShpCfg
  tc : Int
  tp : Int
  pend : Option (Nat × ShpCfg)
  deriving DecidableEq, Repr

/-- A queued packet: its commit stamp, its train and the packet, whether it is the first of its train, and
the placement that counts it for HWM. -/
structure QPacket where
  stamp : Nat
  train : Nat
  first : Bool
  epd : Nat
  rtcpPort : Bool
  payload : List Byte
  deriving DecidableEq, Repr

/-- A placement: aggregate, class, weight (R303). -/
structure Placement where
  agg : Nat
  cls : Nat
  weight : Nat
  deriving DecidableEq, Repr

/-- A flow: its queue, its tag at its aggregate, its placement in use, the placement its leg asks for, and
its shaper. -/
structure FlowRun where
  q : List QPacket
  tag : Nat
  place : Placement
  want : Option Placement
  attached : Bool
  shp : Shaper
  deriving DecidableEq, Repr

/-- An aggregate: settings as written, at which tick, and as in effect; its virtual time, its tag at its class, and its
shaper. -/
structure AggRun where
  cfg : AggCfg
  cfgAt : Nat
  eff : AggCfg
  v : Nat
  tag : Nat
  shp : Shaper
  deriving DecidableEq, Repr

/-- A train being sent at a class: flow, aggregate, train number, and the states in which it started. -/
structure TrainRun where
  flow : Nat
  agg : Nat
  train : Nat
  flowExcess : Bool
  aggExcess : Bool
  deriving DecidableEq, Repr

/-- A class of a port: virtual time, the train being sent, the host queue and its tag (R400). -/
structure ClassRun where
  v : Nat
  train : Option TrainRun
  hostq : List HostFrame
  hostTag : Nat
  deriving DecidableEq, Repr

/-! ## Ethernet ports (R325 to R343) -/

/-- A frame on the wire or preempted: bytes without FCS, class, start tick of the current fragment, fragments and bytes
sent before it, network time of its message timestamp point in 2^-16 ns, the host frame it carries, and its timestamp
identifier. -/
structure WireFrame where
  bytes : List Byte
  cls : Nat
  start : Nat
  frags : Nat
  sent : Nat
  sfd : Nat
  host : Option HostFrame
  tsId : Nat
  deriving DecidableEq, Repr

/-- One class's pause hold (R337, R338): whether held, the start of the hold without a gap, its end, and
the end of hold-off. -/
structure Hold where
  held : Bool
  since : Nat
  stop : Nat
  effect : Nat
  holdoff : Option Nat
  deriving DecidableEq, Repr

/-- One Ethernet port. `tsNext` is the next timestamp identifier (R357). -/
structure MacRun where
  wire : Option WireFrame
  parked : Option WireFrame
  holds : List Hold
  xoff : Bool
  repeatAt : Nat
  upSince : Nat
  tsNext : Nat
  classes : List ClassRun
  deriving DecidableEq, Repr

/-- A link pair's active member (R341). -/
structure PairRun where
  active : Nat
  down : Bool
  deriving DecidableEq, Repr

/-! ## PCM highways (R374 to R384) -/

/-- Frame-sync states (R377). -/
inductive FsState where
  | off | lost | locked
  deriving DecidableEq, Repr

/-- One clock group: frame-sync state, regular edges in a row while LOST, the tick of the latest edge, edges
in the current interval, and whether it was LOCKED for all of it so far. -/
structure PcmGroup where
  st : FsState
  regular : Nat
  lastEdge : Nat
  edges : Nat
  whole : Bool
  deriving DecidableEq, Repr

/-- The input of one beat from one highway: its frames, or linear zero (R379, R380). -/
structure PcmInput where
  beat : BeatNo
  zero : Bool
  frames : List (List Byte)
  deriving DecidableEq, Repr

/-- One highway: the frames of the current interval, oldest first, and the inputs of recent beats. -/
structure Highway where
  rx : List (List Byte)
  ins : List PcmInput
  deriving DecidableEq, Repr

/-- The output a leg committed for a beat: highway, timeslot, and the bytes of each of 40 samples (two for
16-bit linear, high byte first). -/
structure PcmOut where
  beat : BeatNo
  leg : Nat
  hwy : Nat
  slot : Nat
  samples : List (List Byte)
  deriving DecidableEq, Repr

/-- Everything of the network side. `partials` names the rings into which a record is being written, with
the words of it that have not arrived (R392); `refills` counts the refill instants of this beat that have passed
(R312). -/
structure Net where
  rings : List Ring
  partials : List (Nat × Nat)
  waiting : List StoredFrame
  frags : List StoredFrame
  reasm : List Datagram
  epd : Epd
  srtp : Assoc SrtpCtx
  flows : Assoc FlowRun
  aggs : Assoc AggRun
  nextTrain : Nat
  refills : Nat
  macs : List MacRun
  pairs : List PairRun
  groups : List PcmGroup
  hwys : List Highway
  pcmOut : List PcmOut
  deriving DecidableEq, Repr

end Sys2Proof.Machine
end

