-- ==== Sys2Proof/Machine/StoreTypes.lean ====
section
/-! DEFINITION. State of the archive engine and of GDDR-6 memory (R434 to R481). -/

namespace Sys2Proof.Machine

/-! ## Archive engine (R434 to R453) -/

/-- A gap in a block: first sample and length (R436). -/
structure Gap where
  first : Nat
  len : Nat
  deriving DecidableEq, Repr

/-- A block's samples and header content (R438): sample pairs in order, the beat and place of the first,
gaps, and whether it is the stream's last. -/
structure ArcBlock where
  seq : Nat
  rate : Nat
  firstBeat : BeatNo
  firstOff : Nat
  gaps : List Gap
  samples : List (Int × Int)
  last : Bool
  deriving DecidableEq, Repr

/-- A stream's block being written: its bytes still to write, the bytes written so far, the bit positions at
which its code words end, and where its header lies as (segment, offset). -/
structure ArcWrite where
  rest : List Byte
  done : Nat
  marks : List Nat
  at_ : Option (Nat × Nat)
  deriving DecidableEq, Repr

/-- A recording stream: number, channel, emergency flag, table kind, whether it still takes samples, the open
block, the closed blocks that wait for a lane, the block being written and whether it waits for a segment
since a tick, its current segment, the next SEG_SEQ and its full segments not yet posted. `key` names the
stream's life; `endAt` the beat with whose job it ends. -/
structure ArcStream where
  key : Nat
  num : Nat
  chan : Nat
  uid : Nat
  emergency : Bool
  dynamic : Bool
  live : Bool
  endAt : Option BeatNo
  nextSeq : Nat
  cur : Option ArcBlock
  ready : Option ArcBlock
  write : Option ArcWrite
  waitSince : Option Nat
  seg : Option Nat
  segSeq : Nat
  full : List Nat
  deriving DecidableEq, Repr

/-- A segment out of the chain: stream number, life, SEG_SEQ, bytes used, content, NEXT, whether it is FILLED,
and the flags of its completion entry. -/
structure ArcSeg where
  stream : Nat
  key : Nat
  seq : Nat
  bytes : List Byte
  filled : Bool
  abandon : Bool
  deriving DecidableEq, Repr

/-- An entry of the done queue (R447). -/
structure ArcDone where
  seg : Nat
  stream : Nat
  ended : Bool
  abandon : Bool
  seq : Nat
  used : Nat
  deriving DecidableEq, Repr

/-- The archive command in progress: its arguments and stamp, whether its effect on the chain has been taken,
and whether its ARCHIVE job has run. -/
structure ArcCmd where
  op : Nat
  seg : Nat
  off : Nat
  len : Nat
  addr : Nat
  port : Port
  stamp : Nat
  applied : Bool
  ran : Bool
  deriving DecidableEq, Repr

/-- The archive engine: the chain as the segments never taken, from `fresh` on, followed by the appended
ones; segments out of the chain; streams; the done queue; the command; input bytes of this beat. -/
structure ArcRun where
  fresh : Nat
  tail : List Nat
  segs : Assoc ArcSeg
  streams : List ArcStream
  done : List ArcDone
  cmd : Option ArcCmd
  nextKey : Nat
  inNow : Nat
  appendAt : List (Nat × Nat)
  deriving DecidableEq, Repr

/-! ## GDDR-6 (R454 to R481) -/

/-- A retirement entry: logical frame, spare frame and the poisoned sectors (R471). -/
structure RetEntry where
  frame : Nat
  pool : Nat
  poison : List Nat
  deriving DecidableEq, Repr

/-- A retirement whose copy is in progress: frame, spare frame, poisoned sectors, and whether RETIRE_CMD asked
for it and it used the last free entry. -/
structure RetCopy where
  frame : Nat
  pool : Nat
  poison : List Nat
  byCmd : Bool
  lastFree : Bool
  deriving DecidableEq, Repr

/-- A scratch transfer in progress (R460): with the bytes the host memory holds for OP 2. -/
structure XferRun where
  toHost : Bool
  len : Nat
  off : Nat
  addr : Nat
  port : Port
  data : List Byte
  deriving DecidableEq, Repr

/-- GDDR-6: the retirement table by entry, bad spare frames, copies in progress, the history of the last 64
frames with a correction (newest first) with the beats of their corrections, corrections of this beat by
device, whether a retirement was refused, the content of host scratch by offset, and the transfer in
progress. -/
structure MemRun where
  table : Assoc RetEntry
  bad : List Nat
  copies : List RetCopy
  history : List (Nat × List BeatNo)
  corrNow : List Nat
  fullSeen : Bool
  scratch : List Host.Cell
  xfer : Option XferRun
  since : Nat
  deriving DecidableEq, Repr

end Sys2Proof.Machine
end

