-- ==== Sys2Proof/Machine/ArcCode.lean ====
section
/-! DEFINITION. The lossless block format of the archive engine: encoding and decoding (R438 to R442, R450). -/

namespace Sys2Proof.Machine

/-! ## Bits -/

/-- The `w` low bits of a number, most significant first. -/
def bitList : Nat → Nat → List Bool
  | 0, _ => []
  | w + 1, v => v.testBit w :: bitList w v

/-- The number of a bit list, most significant first. -/
def bitNum (bs : List Bool) : Nat := bs.foldl (fun n b => 2 * n + b2n b) 0

/-- Bits packed into bytes, most significant first, filled up with zero bits. -/
def packBits : Nat → List Bool → List Byte
  | 0, _ => []
  | k + 1, bs =>
    let h := bs.take 8
    BitVec.ofNat 8 (bitNum (h ++ List.replicate (8 - h.length) false)) :: packBits k (bs.drop 8)

/-- The bits of bytes, most significant first. -/
def byteBits (bs : List Byte) : List Bool := (bs.map fun b => bitList 8 b.toNat).flatten

/-! ## Predictors (R439) -/

/-- The prediction from the samples before, newest first; missing samples are 0. -/
def predict (p : Predictor) (hist : List Int) : Int :=
  let x (i : Nat) : Int := hist.getD i 0
  match p with
  | .fixed 0 => 0
  | .fixed 1 => x 0
  | .fixed 2 => 2 * x 0 - x 1
  | .fixed 3 => 3 * x 0 - 3 * x 1 + x 2
  | .fixed _ => 4 * x 0 - 6 * x 1 + 4 * x 2 - x 3
  | .linear _ shift coefs => ((coefs.zipIdx.map fun (q, j) => q * x j).foldl (· + ·) 0) / (2 ^ shift : Nat)

/-- A residue as an unsigned number. -/
def foldRes (e : Int) : Nat := if 0 ≤ e then (2 * e).toNat else (-2 * e - 1).toNat

/-- The residue of an unsigned number. -/
def unfoldRes (u : Nat) : Int := if u % 2 = 0 then (u / 2 : Nat) else -((u + 1) / 2 : Nat)

/-- The residues of samples under a predictor. -/
def residues (p : Predictor) : List Int → List Int → List Nat
  | [], _ => []
  | x :: xs, hist => foldRes (x - predict p hist) :: residues p xs (x :: hist.take 31)

/-! ## Codes (R440) -/

/-- Code lengths of a value. -/
def countLen (lens : List Nat) (n : Nat) : Nat := if n = 0 then 0 else (lens.filter (· = n)).length

/-- The first code of a length, as RFC 1951 assigns them. -/
def firstCode (lens : List Nat) : Nat → Nat
  | 0 => 0
  | n + 1 => (firstCode lens n + countLen lens n) * 2

/-- The canonical code of a symbol as (length, value). -/
def canonCode (lens : List Nat) (sym : Nat) : Nat × Nat :=
  let n := lens.getD sym 0
  (n, firstCode lens n + ((lens.take sym).filter (· = n)).length)

/-- The lengths over-subscribe the code space (R441). -/
def overSubscribed (lens : List Nat) : Bool :=
  2 ^ 15 < (lens.map fun n => if n = 0 then 0 else 2 ^ (15 - n)).foldl (· + ·) 0

/-- The bits of one residue. -/
def resBits (dynamic : Bool) (lens : List Nat) (r u : Nat) : List Bool :=
  let h := u / 2 ^ r
  if dynamic then
    let (n, c) := canonCode lens h
    if h < 32 && n != 0 then bitList n c ++ bitList r u
    else
      let (n, c) := canonCode lens 32
      bitList n c ++ bitList 21 u
  else if h < 32 then List.replicate h true ++ false :: bitList r u
  else List.replicate 32 true ++ bitList 21 u

/-- The partition parameter of sample i among n. -/
def paramAt (part n : Nat) (rs : List Nat) (i : Nat) : Nat :=
  let size := n / 2 ^ part
  rs.getD (min (i / size) (2 ^ part - 1)) 0

/-! ## Encoding -/

/-- Whether a residue has a code. -/
def codable (dynamic : Bool) (lens : List Nat) (r u : Nat) : Bool :=
  !dynamic || (u / 2 ^ r < 32 && lens.getD (u / 2 ^ r) 0 != 0) || lens.getD 32 0 != 0

/-- A choice that the format admits for these samples (R439 to R441). -/
def choiceAdmits (c : SectionChoice) (dynamic : Bool) (xs : List Int) : Bool :=
  let us := residues c.pred xs []
  (match c.pred with
    | .fixed k => k ≤ 4
    | .linear w sh qs =>
      1 ≤ w && w ≤ 16 && sh ≤ 15 && 1 ≤ qs.length && qs.length ≤ 32
        && qs.all fun q => -(2 ^ (w - 1) : Nat) ≤ q && q < (2 ^ (w - 1) : Nat))
  && c.part ≤ 4 && 0 < xs.length / 2 ^ c.part && c.rs.length = 2 ^ c.part && c.rs.all (· ≤ 14)
  && (!dynamic || (c.lens.length = 33 && c.lens.all (· ≤ 15) && !overSubscribed c.lens))
  && us.all (· < 2 ^ 21)
  && us.zipIdx.all fun (u, i) => codable dynamic c.lens (paramAt c.part xs.length c.rs i) u

/-- The choice that every section admits: fixed order 0, one partition with r 14. -/
def plainChoice : SectionChoice :=
  { pred := .fixed 0, part := 0, rs := [14], lens := [2, 2, 2, 2] ++ List.replicate 29 0 }

/-- The bits of a predictor. -/
def predBits : Predictor → List Bool
  | .fixed k => false :: bitList 3 k
  | .linear w sh qs =>
    true :: bitList 5 (qs.length - 1) ++ bitList 4 (w - 1) ++ bitList 4 sh ++ (qs.map fun q => bitList w (toField w q)).flatten

/-- The code words of one section in order, each a bit list. -/
def sectionWords (c : SectionChoice) (dynamic : Bool) (xs : List Int) : List (List Bool) :=
  let c := if choiceAdmits c dynamic xs then c else plainChoice
  [predBits c.pred, bitList 3 c.part] ++ c.rs.map (bitList 4) ++ (if dynamic then c.lens.map (bitList 4) else [])
    ++ (residues c.pred xs []).zipIdx.map fun (u, i) => resBits dynamic c.lens (paramAt c.part xs.length c.rs i) u

/-- A sample as 16 bits, little-endian. -/
def sampleBytes (x : Int) : List Byte := leBytes 2 (toField 16 x)

/-- Interleaved samples as bytes. -/
def pairBytes (ps : List (Int × Int)) : List Byte := (ps.map fun p => sampleBytes p.1 ++ sampleBytes p.2).flatten

/-- The code of an internal rate as on the RATE page. -/
def rateCode (khz : Nat) : Nat := if khz = 8 then 0 else if khz = 16 then 1 else if khz = 32 then 2 else 3

/-- The 48-byte header of a block (R438). -/
def blockHeader (b : ArcBlock) (stream chan : Nat) (dynamic abandoned : Bool) (len : Nat) : List Byte :=
  leBytes 4 0x5AC37E01
    ++ leBytes 2 (stream + rateCode b.rate * 4096 + b2n b.last * 16384 + b2n abandoned * 32768)
    ++ leBytes 2 (b.samples.length % 8192 + b2n dynamic * 8192) ++ leBytes 4 b.seq ++ leBytes 4 b.firstBeat.toNat
    ++ leBytes 2 (b.firstOff + b.gaps.length * 256) ++ leBytes 2 0 ++ leBytes 4 len ++ leBytes 2 chan ++ leBytes 6 0
    ++ ((List.range 4).map fun k => match b.gaps[k]? with
        | some g => leBytes 4 (g.first % 4096 + g.len % 8192 * 4096)
        | none => leBytes 4 0).flatten

/-- A compressed block: its bytes, and the bit positions (from its first byte) at which code words end (R438,
R445). -/
def encodeBlock (b : ArcBlock) (stream chan : Nat) (dynamic : Bool) (c0 c1 : SectionChoice) : List Byte × List Nat :=
  let ws := sectionWords c0 dynamic (b.samples.map (·.1)) ++ sectionWords c1 dynamic (b.samples.map (·.2))
  let bits := ws.flatten
  let body := packBits ((bits.length + 7) / 8) bits
  let len := 48 + body.length + 4
  let marks := (ws.foldl (fun (acc : Nat × List Nat) w => (acc.1 + w.length, (acc.1 + w.length) :: acc.2)) (384, [384])).2
  (blockHeader b stream chan dynamic false len ++ body ++ leBytes 4 (crc32c (pairBytes b.samples)), marks)

/-! ## Decoding -/

/-- Take `n` bits as a number; none past the end. -/
def takeBits (n : Nat) (bs : List Bool) : Option (Nat × List Bool) :=
  if n ≤ bs.length then some (bitNum (bs.take n), bs.drop n) else none

/-- Several fields of one width. -/
def takeMany (w : Nat) : Nat → List Bool → Option (List Nat × List Bool)
  | 0, bs => some ([], bs)
  | k + 1, bs =>
    match takeBits w bs with
    | none => none
    | some (v, bs) =>
      match takeMany w k bs with
      | none => none
      | some (vs, bs) => some (v :: vs, bs)

/-- Leading ones, at most `k`, and the bits after them. -/
def takeOnes : Nat → List Bool → Nat × List Bool
  | 0, bs => (0, bs)
  | k + 1, true :: bs => let (n, r) := takeOnes k bs; (n + 1, r)
  | _ + 1, bs => (0, bs)

/-- The symbol whose canonical code a bit string starts with. -/
def takeSymbol (lens : List Nat) (bs : List Bool) : Option (Nat × List Bool) :=
  ((List.range 33).find? fun s =>
    let (n, c) := canonCode lens s
    n != 0 && n ≤ bs.length && bitNum (bs.take n) = c).map fun s => (s, bs.drop (lens.getD s 0))

/-- One residue. -/
def takeRes (dynamic : Bool) (lens : List Nat) (r : Nat) (bs : List Bool) : Option (Nat × List Bool) :=
  if dynamic then
    match takeSymbol lens bs with
    | none => none
    | some (s, bs) => if s = 32 then takeBits 21 bs else (takeBits r bs).map fun (v, bs) => (s * 2 ^ r + v, bs)
  else
    match takeOnes 32 bs with
    | (32, bs) => takeBits 21 bs
    | (h, false :: bs) => (takeBits r bs).map fun (v, bs) => (h * 2 ^ r + v, bs)
    | _ => none

/-- A predictor; none where it is invalid. -/
def takePred (bs : List Bool) : Option (Predictor × List Bool) :=
  match bs with
  | [] => none
  | false :: bs =>
    match takeBits 3 bs with
    | some (k, bs) => if k ≤ 4 then some (.fixed k, bs) else none
    | none => none
  | true :: bs =>
    match takeBits 5 bs with
    | none => none
    | some (p, bs) =>
      match takeBits 4 bs with
      | none => none
      | some (w, bs) =>
        match takeBits 4 bs with
        | none => none
        | some (sh, bs) =>
          match takeMany (w + 1) (p + 1) bs with
          | none => none
          | some (qs, bs) => some (.linear (w + 1) sh (qs.map (asSigned (w + 1))), bs)

/-- The samples of a section, newest first, with the bits after them, and whether it ended well. -/
def takeSamples (dynamic : Bool) (lens : List Nat) (p : Predictor) (part n : Nat) (rs : List Nat) :
    Nat → List Bool → List Int → List Int × List Bool × Bool
  | 0, bs, out => (out, bs, true)
  | k + 1, bs, out =>
    match takeRes dynamic lens (paramAt part n rs (n - (k + 1))) bs with
    | none => (out, bs, false)
    | some (u, bs') =>
      let x := predict p out + unfoldRes u
      if -32768 ≤ x && x ≤ 32767 then takeSamples dynamic lens p part n rs k bs' (x :: out) else (out, bs, false)

/-- One section: samples in order, the bits after it, and whether it is valid (R441). -/
def takeSection (dynamic : Bool) (n : Nat) (bs : List Bool) : List Int × List Bool × Bool :=
  match takePred bs with
  | none => ([], bs, false)
  | some (p, bs) =>
    match takeBits 3 bs with
    | none => ([], bs, false)
    | some (part, bs) =>
      if 4 < part || n / 2 ^ part = 0 then ([], bs, false)
      else match takeMany 4 (2 ^ part) bs with
        | none => ([], bs, false)
        | some (rs, bs) =>
          if rs.any (· = 15) then ([], bs, false)
          else match (if dynamic then takeMany 4 33 bs else some ([], bs)) with
            | none => ([], bs, false)
            | some (lens, bs) =>
              if dynamic && overSubscribed lens then ([], bs, false)
              else
                let (xs, bs, ok) := takeSamples dynamic lens p part n rs n bs []
                (xs.reverse, bs, ok)

/-- The outcome of a DECODE: cause and sample pairs (R450). -/
structure DecodeOut where
  cause : Nat
  pairs : List (Int × Int)
  deriving DecidableEq, Repr

/-- Header fields that must be 0 or in range (R450, cause 2). -/
def headerOk (h : List Byte) : Bool :=
  let n := leAt h 6 2 % 8192
  leAt h 0 4 = 0x5AC37E01 && leAt h 6 2 / 16384 = 0 && 1 ≤ n && n ≤ 4096 && leAt h 16 2 / 2048 = 0 && leAt h 18 2 = 0
    && leAt h 26 6 = 0 && (List.range 4).all fun k => leAt h (32 + 4 * k) 4 / 2 ^ 25 = 0

/-- Decode a block from the bytes that follow its offset; `broken` tells that they end at a segment that does
not follow (R450). -/
def decodeBlock (bs : List Byte) (broken : Bool) : DecodeOut :=
  if bs.length < 48 then { cause := if broken then 4 else 2, pairs := [] }
  else if !headerOk bs then { cause := 2, pairs := [] }
  else if (leAt bs 4 2).testBit 15 then { cause := 5, pairs := [] }
  else
    let n := leAt bs 6 2 % 8192
    let dynamic := (leAt bs 6 2).testBit 13
    let len := leAt bs 20 4
    let have_ := bs.take len
    let short := have_.length < len
    let body := (have_.drop 48).take (len - 52)
    let (xs, rest, ok0) := takeSection dynamic n (byteBits body)
    let (ys, _, ok1) := if ok0 then takeSection dynamic n rest else ([], rest, false)
    let pairs := xs.zip ys
    if !ok0 || !ok1 then { cause := if short && broken then 4 else 3, pairs := pairs }
    else if short && broken then { cause := 4, pairs := pairs }
    else if leAt have_ (len - 4) 4 = crc32c (pairBytes pairs) then { cause := 0, pairs := pairs }
    else { cause := 1, pairs := pairs }

end Sys2Proof.Machine
end

