-- ==== Sys2Proof/Machine/RegMap.lean ====
section
/-! DEFINITION. The register map: the page map of R25, the common header of R23 and the block
registers of every page, each field with its access type (R4), its reset value and the values its
write accepts. One row per field of the register tables of the manual. -/

namespace Sys2Proof.Machine

/-- The access types of R4. -/
inductive Access where
  | ro | rw | w1c | w1s | wo | rc | rwt
  deriving DecidableEq, Repr

/-- One field of a register: name, bits [hi:lo], access type, reset value, and the closed intervals
of values that a write may give it (no interval: every value). -/
structure FieldSpec where
  name : String
  hi : Nat
  lo : Nat
  acc : Access
  reset : Nat
  range : List (Nat × Nat)
  deriving DecidableEq, Repr

/-- One register, or an array of `count` registers `stride` bytes apart. -/
structure RegSpec where
  name : String
  off : Nat
  count : Nat
  stride : Nat
  fields : List FieldSpec
  deriving DecidableEq, Repr

/-- One group of pages of the page map: first page index, number of instances, block code, total of
built-in spares (SPARE_STATE.TOTAL), severity of each event source (R13) and block registers. -/
structure PageSpec where
  name : String
  first : Nat
  count : Nat
  code : Nat
  spares : Nat
  severities : List Nat
  regs : List RegSpec
  deriving DecidableEq, Repr

/-- The common header of every page (R23, R578). -/
def regsCommon : List RegSpec := [
  ⟨"PAGE_ID", 0x000, 1, 4, [⟨"BLOCK", 31, 16, .ro, 0, []⟩, ⟨"INSTANCE", 15, 8, .ro, 0, []⟩, ⟨"LAYOUT", 7, 0, .ro, 1, []⟩]⟩,
  ⟨"PAGE_CAPS", 0x004, 1, 4, [⟨"EVT_SOURCES", 20, 16, .ro, 0, []⟩, ⟨"BLOCK_CAPS", 15, 0, .ro, 0, []⟩]⟩,
  ⟨"PAGE_CTRL", 0x008, 1, 4, []⟩,
  ⟨"PAGE_STATUS", 0x00C, 1, 4, [⟨"BUSY", 8, 8, .ro, 0, []⟩, ⟨"LAST_STATUS", 7, 0, .ro, 0, []⟩]⟩,
  ⟨"EVT_LATCH", 0x010, 1, 4, [⟨"EVT", 31, 0, .w1c, 0, []⟩]⟩,
  ⟨"EVT_ENABLE", 0x014, 1, 4, [⟨"EN", 31, 0, .rw, 0, []⟩]⟩,
  ⟨"EVT_FORCE", 0x018, 1, 4, [⟨"FORCE", 31, 0, .wo, 0, []⟩]⟩,
  ⟨"EVT_ROUTE", 0x01C, 1, 4, [⟨"EN_B", 14, 14, .rw, 0, []⟩, ⟨"VEC_B", 13, 8, .rw, 0, []⟩, ⟨"EN_A", 6, 6, .rw, 0, []⟩, ⟨"VEC_A", 5, 0, .rw, 0, []⟩]⟩,
  ⟨"TXN_TAG", 0x020, 1, 4, [⟨"TAG", 31, 0, .ro, 0, []⟩]⟩,
  ⟨"SPARE_STATE", 0x024, 1, 4, [⟨"NO_TOLERANCE", 16, 16, .ro, 0, []⟩, ⟨"LEFT", 15, 8, .ro, 0, []⟩, ⟨"TOTAL", 7, 0, .ro, 0, []⟩]⟩]

/-- Block registers of the DEV page (R26). -/
def regsDEV : List RegSpec := [
  ⟨"DEV_IDENT", 0x040, 1, 4, [⟨"PART", 31, 16, .ro, 0x9340, []⟩, ⟨"REV", 15, 8, .ro, 1, []⟩, ⟨"GRADE", 0, 0, .ro, 0, []⟩]⟩,
  ⟨"DEV_SERIAL_LO", 0x044, 1, 4, [⟨"SERIAL", 31, 0, .ro, 0, []⟩]⟩,
  ⟨"DEV_SERIAL_HI", 0x048, 1, 4, [⟨"SERIAL", 31, 0, .ro, 0, []⟩]⟩,
  ⟨"DEV_BADACC", 0x04C, 1, 4, [⟨"PORT", 29, 29, .ro, 0, []⟩, ⟨"OFFSET", 25, 0, .ro, 0, []⟩]⟩,
  ⟨"DEV_BADACC_CNT", 0x050, 1, 4, [⟨"COUNT", 31, 0, .ro, 0, []⟩]⟩]

/-- Block registers of the OWN page (R44). -/
def regsOWN : List RegSpec := [
  ⟨"OWN_STATE", 0x040, 1, 4, [⟨"LAST_CAUSE", 19, 16, .ro, 0, []⟩, ⟨"EPOCH", 15, 8, .ro, 0, []⟩, ⟨"CLAIM_B", 5, 5, .ro, 0, []⟩, ⟨"CLAIM_A", 4, 4, .ro, 0, []⟩, ⟨"OWNER", 1, 0, .ro, 0, []⟩]⟩,
  ⟨"OWN_CLAIM", 0x044, 1, 4, [⟨"WITHDRAW", 2, 2, .wo, 0, []⟩, ⟨"RELEASE", 1, 1, .wo, 0, []⟩, ⟨"CLAIM", 0, 0, .wo, 0, []⟩]⟩,
  ⟨"OWN_HEARTBEAT", 0x048, 1, 4, [⟨"BEAT", 0, 0, .wo, 0, []⟩]⟩,
  ⟨"OWN_HANDOVER", 0x04C, 1, 4, [⟨"TARGET", 1, 0, .wo, 0, []⟩]⟩,
  ⟨"OWN_RESULT_A", 0x050, 1, 4, [⟨"EPOCH", 15, 8, .ro, 0, []⟩, ⟨"STATUS", 7, 0, .ro, 0, []⟩]⟩,
  ⟨"OWN_RESULT_B", 0x054, 1, 4, [⟨"EPOCH", 15, 8, .ro, 0, []⟩, ⟨"STATUS", 7, 0, .ro, 0, []⟩]⟩,
  ⟨"OWN_LOSS_MS", 0x058, 1, 4, [⟨"LOSS", 15, 0, .rw, 0xbb8, [(100, 60000)]⟩]⟩,
  ⟨"OWN_HB_AGE_A", 0x05C, 1, 4, [⟨"AGE", 31, 0, .ro, 0xffffffff, []⟩]⟩,
  ⟨"OWN_HB_AGE_B", 0x060, 1, 4, [⟨"AGE", 31, 0, .ro, 0xffffffff, []⟩]⟩,
  ⟨"OWN_DROP_A", 0x064, 1, 4, [⟨"COUNT", 31, 0, .ro, 0, []⟩]⟩,
  ⟨"OWN_DROP_B", 0x068, 1, 4, [⟨"COUNT", 31, 0, .ro, 0, []⟩]⟩,
  ⟨"OWN_LAST_DROP", 0x06C, 1, 4, [⟨"PORT", 29, 29, .ro, 0, []⟩, ⟨"BAR", 28, 28, .ro, 0, []⟩, ⟨"OFFSET", 25, 0, .ro, 0, []⟩]⟩]

/-- Block registers of the TXN page (R95). -/
def regsTXN : List RegSpec := [
  ⟨"TXN_OPEN", 0x040, 1, 4, [⟨"ID", 3, 0, .wo, 0, []⟩]⟩,
  ⟨"TXN_CUR", 0x044, 1, 4, [⟨"EN", 4, 4, .rw, 0, []⟩, ⟨"ID", 3, 0, .rw, 0, []⟩]⟩,
  ⟨"TXN_TARGET", 0x048, 1, 4, [⟨"BEAT", 31, 0, .rw, 0, []⟩]⟩,
  ⟨"TXN_COMMIT", 0x04C, 1, 4, [⟨"NEXT", 4, 4, .wo, 0, []⟩, ⟨"ID", 3, 0, .wo, 0, []⟩]⟩,
  ⟨"TXN_ABORT", 0x050, 1, 4, [⟨"ID", 3, 0, .wo, 0, []⟩]⟩,
  ⟨"TXN_SEQ", 0x054, 1, 4, [⟨"SEQ", 27, 0, .ro, 0, []⟩]⟩,
  ⟨"TXN_ACTIVE", 0x058, 1, 4, [⟨"PENDING", 31, 16, .ro, 0, []⟩, ⟨"OPEN", 15, 0, .ro, 0, []⟩]⟩,
  ⟨"TXN_STRAY", 0x05C, 1, 4, [⟨"OFFSET", 25, 0, .ro, 0, []⟩]⟩,
  ⟨"TXN_STRAY_CNT", 0x060, 1, 4, [⟨"COUNT", 31, 0, .rc, 0, []⟩]⟩,
  ⟨"TXN_CONFLICT_CNT", 0x064, 1, 4, [⟨"COUNT", 31, 0, .rc, 0, []⟩]⟩,
  ⟨"TXN_JOB_ABORT_CNT", 0x068, 1, 4, [⟨"COUNT", 31, 0, .rc, 0, []⟩]⟩,
  ⟨"TXN_JOB_REFUSED_CNT", 0x06C, 1, 4, [⟨"COUNT", 31, 0, .rc, 0, []⟩]⟩,
  ⟨"TXN_SLOT_STATE", 0x100, 16, 16, [⟨"STATUS", 23, 16, .ro, 0, []⟩, ⟨"ENTRIES", 13, 4, .ro, 0, []⟩, ⟨"POISONED", 3, 3, .ro, 0, []⟩, ⟨"DONE", 2, 2, .ro, 0, []⟩, ⟨"STATE", 1, 0, .ro, 0, []⟩]⟩,
  ⟨"TXN_SLOT_TARGET", 0x104, 16, 16, [⟨"BEAT", 31, 0, .ro, 0, []⟩]⟩,
  ⟨"TXN_SLOT_TAG", 0x108, 16, 16, [⟨"TAG", 31, 0, .ro, 0, []⟩]⟩,
  ⟨"TXN_SLOT_FAIL", 0x10C, 16, 16, [⟨"VALID", 10, 10, .ro, 0, []⟩, ⟨"ENTRY", 9, 0, .ro, 0, []⟩]⟩]

/-- Block registers of the BEAT page (R71). -/
def regsBEAT0 : List RegSpec := [
  ⟨"BEAT_NOW", 0x040, 1, 4, [⟨"N", 31, 0, .ro, 0, []⟩]⟩,
  ⟨"BEAT_CYCLE", 0x044, 1, 4, [⟨"CYC", 16, 0, .ro, 0, []⟩]⟩,
  ⟨"BEAT_SECPOS", 0x048, 1, 4, [⟨"VALID", 8, 8, .ro, 0, []⟩, ⟨"POS", 7, 0, .ro, 0, []⟩]⟩,
  ⟨"BEAT_CUT", 0x04C, 1, 4, [⟨"CUT_CYC", 30, 16, .ro, 0x1800, []⟩, ⟨"CUT_US", 9, 0, .rwt, 250, [(50, 1000)]⟩]⟩,
  ⟨"BEAT_REF_CTRL", 0x050, 1, 4, [⟨"REVERT", 13, 13, .rw, 0, []⟩, ⟨"PPS_PHASE", 12, 12, .rw, 0, []⟩, ⟨"FS_HWY", 11, 8, .rw, 0, []⟩, ⟨"THIRD", 5, 4, .rw, 3, []⟩, ⟨"SECOND", 3, 2, .rw, 3, []⟩, ⟨"FIRST", 1, 0, .rw, 3, []⟩]⟩,
  ⟨"BEAT_REF_STATUS", 0x054, 1, 4, [⟨"SWITCHES", 31, 16, .ro, 0, []⟩, ⟨"PULL_LIMIT", 7, 7, .ro, 0, []⟩, ⟨"QUAL_10M", 6, 6, .ro, 0, []⟩, ⟨"QUAL_PCM", 5, 5, .ro, 0, []⟩, ⟨"QUAL_NET", 4, 4, .ro, 0, []⟩, ⟨"ALIGNED", 3, 3, .ro, 0, []⟩, ⟨"HOLDOVER", 2, 2, .ro, 0, []⟩, ⟨"ACTIVE", 1, 0, .ro, 3, []⟩]⟩,
  ⟨"BEAT_PHASE_ERR", 0x058, 1, 4, [⟨"ERR_NS", 31, 0, .ro, 0, []⟩]⟩,
  ⟨"BEAT_FREQ", 0x05C, 1, 4, [⟨"PPB", 31, 0, .ro, 0, []⟩]⟩,
  ⟨"BEAT_SLEW", 0x060, 1, 4, [⟨"PPM", 9, 0, .rw, 100, [(10, 500)]⟩]⟩,
  ⟨"BEAT_STAMP_SEC_LO", 0x064, 1, 4, [⟨"SEC", 31, 0, .ro, 0, []⟩]⟩,
  ⟨"BEAT_STAMP_SEC_HI", 0x068, 1, 4, [⟨"GEN", 31, 24, .ro, 0, []⟩, ⟨"SEC", 15, 0, .ro, 0, []⟩]⟩,
  ⟨"BEAT_STAMP_NS", 0x06C, 1, 4, [⟨"NS", 31, 0, .ro, 0, []⟩]⟩,
  ⟨"BEAT_REBASE", 0x070, 1, 4, [⟨"N", 31, 0, .ro, 0, []⟩]⟩,
  ⟨"BEAT_SKIP_CNT", 0x074, 1, 4, [⟨"COUNT", 31, 0, .rc, 0, []⟩]⟩,
  ⟨"BEAT_SKIP_LAST_BEAT", 0x078, 1, 4, [⟨"N", 31, 0, .ro, 0, []⟩]⟩,
  ⟨"BEAT_SKIP_LAST_CHAN", 0x07C, 1, 4, [⟨"CHAN", 15, 0, .ro, 0, []⟩]⟩,
  ⟨"BEAT_DONE_LAST", 0x080, 1, 4, [⟨"US", 13, 0, .ro, 0, []⟩]⟩,
  ⟨"BEAT_DONE_HWM", 0x084, 1, 4, [⟨"US", 13, 0, .rc, 0, []⟩]⟩,
  ⟨"BEAT_SEAL_LATE", 0x088, 1, 4, [⟨"COUNT", 31, 0, .rc, 0, []⟩]⟩,
  ⟨"BEAT_RECOV_CNT", 0x08C, 1, 4, [⟨"COUNT", 31, 0, .rc, 0, []⟩]⟩]

/-- Block registers of the BEAT page (R71). -/
def regsBEAT1 : List RegSpec := [
  ⟨"BEAT_PHASE_LOAD", 0x090, 4, 4, [⟨"CYCLES", 31, 0, .ro, 0, []⟩]⟩,
  ⟨"BEAT_EVERY_LOAD", 0x0A0, 1, 4, [⟨"CYCLES", 31, 0, .ro, 0, []⟩]⟩]

/-- Block registers of the EVT page (R29). -/
def regsEVT : List RegSpec := [
  ⟨"EVT_PEND", 0x040, 8, 4, [⟨"PAGE", 31, 0, .ro, 0, []⟩]⟩,
  ⟨"EVT_SEVMAX", 0x060, 1, 4, [⟨"COLOUR", 1, 0, .ro, 0, []⟩]⟩,
  ⟨"EVT_TOTAL", 0x064, 1, 4, [⟨"SOURCES", 9, 0, .ro, 0x267, []⟩]⟩]

/-- Block registers of the MODE page (R555). -/
def regsMODE : List RegSpec := [
  ⟨"MODE_STATE", 0x040, 1, 4, [⟨"SEAL_PHASE", 26, 24, .ro, 0, []⟩, ⟨"CCAUSE", 18, 16, .ro, 0, []⟩, ⟨"COND", 12, 8, .ro, 0, []⟩, ⟨"ROT_MAINT", 3, 3, .ro, 0, []⟩, ⟨"MODE", 2, 0, .ro, 0, []⟩]⟩,
  ⟨"MODE_CMD", 0x044, 1, 4, [⟨"OP", 31, 28, .wo, 0, []⟩, ⟨"FORCE", 0, 0, .wo, 0, []⟩]⟩,
  ⟨"MODE_SINCE", 0x048, 1, 4, [⟨"N", 31, 0, .ro, 0, []⟩]⟩,
  ⟨"MODE_TIMES", 0x04C, 1, 4, [⟨"SVC_MS", 31, 16, .ro, 0, []⟩, ⟨"BRING_MS", 15, 0, .ro, 0, []⟩]⟩,
  ⟨"MODE_HOLD", 0x050, 1, 4, [⟨"STANDING", 4, 4, .ro, 0, []⟩, ⟨"DIR_COPY", 3, 3, .ro, 0, []⟩, ⟨"LIB", 2, 2, .ro, 0, []⟩, ⟨"MEM_FAILED", 1, 1, .ro, 0, []⟩, ⟨"MEM_TRAIN", 0, 0, .ro, 1, []⟩]⟩,
  ⟨"MODE_CONSTRAIN", 0x054, 1, 4, [⟨"EXIT_S", 23, 16, .rw, 60, [(10, 255)]⟩, ⟨"LIMIT_A", 15, 8, .rw, 100, [(40, 110)]⟩, ⟨"CEIL_PCT", 6, 0, .rw, 75, [(50, 100)]⟩]⟩,
  ⟨"MODE_SHED_CTRL", 0x058, 1, 4, [⟨"CLOSE_EN", 0, 0, .rw, 0, []⟩]⟩,
  ⟨"MODE_SHED_REC_CNT", 0x05C, 1, 4, [⟨"COUNT", 31, 0, .rc, 0, []⟩]⟩,
  ⟨"MODE_SHED_SESS_CNT", 0x060, 1, 4, [⟨"COUNT", 31, 0, .rc, 0, []⟩]⟩,
  ⟨"MODE_SHED_CLOSE_CNT", 0x064, 1, 4, [⟨"COUNT", 31, 0, .rc, 0, []⟩]⟩,
  ⟨"MODE_SHED_LAST", 0x068, 1, 4, [⟨"CHANNEL", 15, 0, .ro, 0, []⟩]⟩,
  ⟨"MODE_SEAL_CFG", 0x06C, 1, 4, [⟨"HOLD_S", 31, 16, .rw, 0x12c, [(0, 3600)]⟩, ⟨"DRAIN_S", 15, 0, .rw, 60, [(0, 3600)]⟩]⟩,
  ⟨"MODE_SEAL_DEADLINE", 0x070, 1, 4, [⟨"N", 31, 0, .ro, 0, []⟩]⟩,
  ⟨"MODE_STANDING", 0x074, 1, 4, [⟨"FAILED", 24, 16, .ro, 0, []⟩, ⟨"REOPENED", 8, 0, .ro, 0, []⟩]⟩,
  ⟨"MODE_BRINGUP_CH", 0x078, 1, 4, [⟨"COUNT", 11, 0, .ro, 0, []⟩]⟩,
  ⟨"MODE_EPD_ONCHIP", 0x07C, 1, 4, [⟨"COUNT", 12, 0, .ro, 0, []⟩]⟩]

/-- Block registers of the CLU pages (R249). -/
def regsCLU : List RegSpec := [
  ⟨"CLU_STATE", 0x040, 1, 4, [⟨"CSTATE", 13, 12, .ro, 0, []⟩, ⟨"RETIRED", 11, 8, .ro, 0, []⟩, ⟨"RESERVE", 7, 4, .ro, 0, []⟩, ⟨"SERVING", 3, 0, .ro, 0, []⟩]⟩,
  ⟨"CLU_CORE_MAP", 0x044, 1, 4, [⟨"ROLE", 19, 0, .ro, 0xfffff, []⟩]⟩,
  ⟨"CLU_LIB_VER", 0x048, 1, 4, [⟨"MAJOR", 31, 24, .ro, 0, []⟩, ⟨"MINOR", 23, 16, .ro, 0, []⟩, ⟨"BUILD", 15, 0, .ro, 0, []⟩]⟩,
  ⟨"CLU_CYC_BEAT", 0x04C, 1, 4, [⟨"CYCLES", 23, 0, .ro, 0x895440, []⟩]⟩,
  ⟨"CLU_HOME_CNT", 0x050, 1, 4, [⟨"COUNT", 16, 0, .ro, 0, []⟩]⟩,
  ⟨"CLU_HOME_LOAD", 0x054, 1, 4, [⟨"CYCLES", 31, 0, .ro, 0, []⟩]⟩,
  ⟨"CLU_HOME_LIMIT", 0x058, 1, 4, [⟨"CYCLES", 31, 0, .rw, 0x3dcc500, []⟩]⟩,
  ⟨"CLU_CYC_LAST", 0x05C, 1, 4, [⟨"CYCLES", 31, 0, .ro, 0, []⟩]⟩,
  ⟨"CLU_CYC_HWM", 0x060, 1, 4, [⟨"CYCLES", 31, 0, .rc, 0, []⟩]⟩,
  ⟨"CLU_JOBS_LAST", 0x064, 1, 4, [⟨"COUNT", 19, 0, .ro, 0, []⟩]⟩,
  ⟨"CLU_STAGE_WAIT_CNT", 0x068, 1, 4, [⟨"COUNT", 31, 0, .rc, 0, []⟩]⟩,
  ⟨"CLU_WB_STALL_CNT", 0x06C, 1, 4, [⟨"COUNT", 31, 0, .rc, 0, []⟩]⟩,
  ⟨"CLU_OVERRUN_CNT", 0x070, 1, 4, [⟨"COUNT", 31, 0, .rc, 0, []⟩]⟩,
  ⟨"CLU_SAT_JOBS_CNT", 0x074, 1, 4, [⟨"COUNT", 31, 0, .rc, 0, []⟩]⟩,
  ⟨"CLU_ECC_CORR_CNT", 0x078, 1, 4, [⟨"COUNT", 31, 0, .rc, 0, []⟩]⟩,
  ⟨"CLU_PARTNER_CNT", 0x07C, 1, 4, [⟨"COUNT", 31, 0, .rc, 0, []⟩]⟩,
  ⟨"CLU_SRTP_PKTS", 0x080, 1, 4, [⟨"COUNT", 31, 0, .ro, 0, []⟩]⟩]

/-- Block registers of the DSP page (R270). -/
def regsDSP : List RegSpec := [
  ⟨"DSP_PEND", 0x040, 1, 4, [⟨"COUNT", 18, 0, .ro, 0, []⟩]⟩,
  ⟨"DSP_PEND_HWM", 0x044, 1, 4, [⟨"COUNT", 18, 0, .rc, 0, []⟩]⟩,
  ⟨"DSP_HOLD", 0x048, 1, 4, [⟨"SRC", 5, 0, .ro, 0, []⟩]⟩,
  ⟨"DSP_STEAL_THR", 0x04C, 1, 4, [⟨"JOBS", 15, 0, .rw, 128, []⟩]⟩,
  ⟨"DSP_AFF_DEPTH", 0x050, 1, 4, [⟨"DEPTH", 6, 0, .rw, 16, [(1, 64)]⟩]⟩,
  ⟨"DSP_PEND_LIMIT", 0x054, 1, 4, [⟨"COUNT", 18, 0, .rw, 0x30000, []⟩]⟩,
  ⟨"DSP_GRANT_CNT", 0x058, 1, 4, [⟨"COUNT", 31, 0, .ro, 0, []⟩]⟩,
  ⟨"DSP_AFF_CNT", 0x05C, 1, 4, [⟨"COUNT", 31, 0, .ro, 0, []⟩]⟩,
  ⟨"DSP_STEAL_CNT", 0x060, 1, 4, [⟨"COUNT", 31, 0, .rc, 0, []⟩]⟩,
  ⟨"DSP_OLDER_CNT", 0x064, 1, 4, [⟨"COUNT", 31, 0, .rc, 0, []⟩]⟩,
  ⟨"DSP_REDISP_CNT", 0x068, 1, 4, [⟨"COUNT", 31, 0, .rc, 0, []⟩]⟩,
  ⟨"DSP_CANCEL_CNT", 0x06C, 1, 4, [⟨"COUNT", 31, 0, .rc, 0, []⟩]⟩,
  ⟨"DSP_HOLD_CNT", 0x070, 1, 4, [⟨"COUNT", 31, 0, .rc, 0, []⟩]⟩,
  ⟨"DSP_IDLE_CORES", 0x074, 1, 4, [⟨"COUNT", 7, 0, .ro, 0, []⟩]⟩,
  ⟨"DSP_LEVEL", 0x080, 8, 4, [⟨"COUNT", 18, 0, .ro, 0, []⟩]⟩,
  ⟨"DSP_GLOBAL_CNT", 0x0A0, 1, 4, [⟨"COUNT", 18, 0, .ro, 0, []⟩]⟩]

/-- Block registers of the TRACE page (R272). -/
def regsTRACE : List RegSpec := [
  ⟨"TRACE_CTRL", 0x008, 1, 4, [⟨"POST", 28, 16, .rw, 0, []⟩, ⟨"STOP_ON_SKIP", 3, 3, .rw, 0, []⟩, ⟨"MODE", 2, 0, .rw, 0, [(0, 4)]⟩]⟩,
  ⟨"TRACE_EVT_MASK", 0x040, 1, 4, [⟨"EVT", 8, 1, .rw, 255, []⟩]⟩,
  ⟨"TRACE_TYPE_MASK", 0x044, 1, 4, [⟨"TYPE", 5, 0, .rw, 63, []⟩]⟩,
  ⟨"TRACE_FLOW_LO", 0x048, 1, 4, [⟨"FLOW", 19, 0, .rw, 0, []⟩]⟩,
  ⟨"TRACE_FLOW_HI", 0x04C, 1, 4, [⟨"FLOW", 19, 0, .rw, 0xfffff, []⟩]⟩,
  ⟨"TRACE_MARK", 0x050, 1, 4, [⟨"VALUE", 19, 0, .wo, 0, []⟩]⟩,
  ⟨"TRACE_WR_IDX", 0x054, 1, 4, [⟨"IDX", 31, 0, .ro, 0, []⟩]⟩,
  ⟨"TRACE_OLDEST", 0x058, 1, 4, [⟨"IDX", 31, 0, .ro, 0, []⟩]⟩,
  ⟨"TRACE_LOST", 0x05C, 1, 4, [⟨"COUNT", 31, 0, .rc, 0, []⟩]⟩,
  ⟨"TRACE_STATE", 0x060, 1, 4, [⟨"STOPPED", 1, 1, .ro, 0, []⟩, ⟨"RUNNING", 0, 0, .ro, 0, []⟩]⟩,
  ⟨"TRACE_RD_IDX", 0x064, 1, 4, [⟨"IDX", 31, 0, .wo, 0, []⟩]⟩,
  ⟨"TRACE_RD_DATA", 0x070, 4, 4, [⟨"BYTES", 31, 0, .ro, 0, []⟩]⟩]

/-- Block registers of the CHAN page (R122). -/
def regsCHAN : List RegSpec := [
  ⟨"CHAN_CMDBUF", 0x040, 24, 4, [⟨"BYTES", 31, 0, .rw, 0, []⟩]⟩,
  ⟨"CHAN_CMD_GO", 0x0A0, 1, 4, [⟨"ACTION", 1, 0, .wo, 0, []⟩]⟩,
  ⟨"CHAN_OPEN_CNT", 0x0A4, 1, 4, [⟨"COUNT", 16, 0, .ro, 0, []⟩]⟩,
  ⟨"CHAN_CEILING", 0x0A8, 1, 4, [⟨"CYCLES", 31, 0, .ro, 0, []⟩]⟩,
  ⟨"CHAN_PEAK_LOAD", 0x0AC, 1, 4, [⟨"CYCLES", 31, 0, .ro, 0, []⟩]⟩,
  ⟨"CHAN_NOCAP_CNT", 0x0B0, 1, 4, [⟨"COUNT", 31, 0, .rc, 0, []⟩]⟩,
  ⟨"CHAN_NOCAP_CHAN", 0x0B4, 1, 4, [⟨"CHANNEL", 31, 0, .ro, 0, []⟩]⟩,
  ⟨"CHAN_NOCAP_INFO", 0x0B8, 1, 4, [⟨"REASON", 1, 0, .ro, 0, []⟩]⟩,
  ⟨"CHAN_EMERG_CNT", 0x0BC, 1, 4, [⟨"COUNT", 16, 0, .ro, 0, []⟩]⟩,
  ⟨"CHAN_PAIRED_CNT", 0x0C0, 1, 4, [⟨"COUNT", 16, 0, .ro, 0, []⟩]⟩,
  ⟨"CHAN_STANDING_CNT", 0x0C4, 1, 4, [⟨"COUNT", 8, 0, .ro, 0, []⟩]⟩,
  ⟨"CHAN_TDM_LEGS", 0x0C8, 1, 4, [⟨"COUNT", 11, 0, .ro, 0, []⟩]⟩,
  ⟨"CHAN_MISMATCH_CNT", 0x0CC, 1, 4, [⟨"COUNT", 31, 0, .rc, 0, []⟩]⟩,
  ⟨"CHAN_QSTATUS", 0x0D0, 1, 4, [⟨"VALID", 8, 8, .ro, 0, []⟩, ⟨"STATUS", 7, 0, .ro, 0, []⟩]⟩,
  ⟨"CHAN_QRES", 0x100, 16, 4, [⟨"BYTES", 31, 0, .ro, 0, []⟩]⟩]

/-- Block registers of the CODEC page (R168). -/
def regsCODEC : List RegSpec := [
  ⟨"CODEC_RTCP", 0x040, 1, 4, [⟨"INTERVAL", 5, 0, .rwt, 5, [(1, 60)]⟩]⟩,
  ⟨"CODEC_CNAME", 0x044, 8, 4, [⟨"BYTES", 31, 0, .rwt, 0, []⟩]⟩,
  ⟨"CODEC_STAT_LEG", 0x064, 1, 4, [⟨"LEG", 16, 0, .wo, 0, []⟩]⟩,
  ⟨"CODEC_BAD_PT_CNT", 0x068, 1, 4, [⟨"COUNT", 31, 0, .rc, 0, []⟩]⟩,
  ⟨"CODEC_MALFORMED_CNT", 0x06C, 1, 4, [⟨"COUNT", 31, 0, .rc, 0, []⟩]⟩,
  ⟨"CODEC_FOREIGN_CNT", 0x070, 1, 4, [⟨"COUNT", 31, 0, .rc, 0, []⟩]⟩,
  ⟨"CODEC_SSRC_CHG_CNT", 0x074, 1, 4, [⟨"COUNT", 31, 0, .rc, 0, []⟩]⟩,
  ⟨"CODEC_VBD_CNT", 0x078, 1, 4, [⟨"COUNT", 31, 0, .rc, 0, []⟩]⟩,
  ⟨"CODEC_BYE_CNT", 0x07C, 1, 4, [⟨"COUNT", 31, 0, .rc, 0, []⟩]⟩,
  ⟨"CODEC_RTCP_TX_CNT", 0x080, 1, 4, [⟨"COUNT", 31, 0, .rc, 0, []⟩]⟩,
  ⟨"CODEC_RTCP_RX_CNT", 0x084, 1, 4, [⟨"COUNT", 31, 0, .rc, 0, []⟩]⟩,
  ⟨"CODEC_LEGS", 0x0C0, 12, 4, [⟨"COUNT", 16, 0, .ro, 0, []⟩]⟩,
  ⟨"CODEC_ST_STATUS", 0x100, 1, 4, [⟨"CMR", 23, 20, .ro, 0, []⟩, ⟨"MODE", 19, 16, .ro, 0, []⟩, ⟨"PACKET", 11, 11, .ro, 0, []⟩, ⟨"VBD", 10, 10, .ro, 0, []⟩, ⟨"SILENT", 9, 9, .ro, 0, []⟩, ⟨"VALID", 8, 8, .ro, 0, []⟩, ⟨"STATUS", 7, 0, .ro, 0, []⟩]⟩,
  ⟨"CODEC_ST_SSRC", 0x104, 1, 4, [⟨"SSRC", 31, 0, .ro, 0, []⟩]⟩,
  ⟨"CODEC_ST_SEQ", 0x108, 1, 4, [⟨"SEQ", 15, 0, .ro, 0, []⟩]⟩,
  ⟨"CODEC_ST_TS", 0x10C, 1, 4, [⟨"TS", 31, 0, .ro, 0, []⟩]⟩,
  ⟨"CODEC_ST_RTT", 0x110, 1, 4, [⟨"US", 31, 0, .ro, 0, []⟩]⟩,
  ⟨"CODEC_ST_BEAT", 0x114, 1, 4, [⟨"N", 31, 0, .ro, 0, []⟩]⟩]

/-- Block registers of the JBUF page (R193). -/
def regsJBUF0 : List RegSpec := [
  ⟨"JBUF_CTRL", 0x040, 1, 4, [⟨"TSA_EN", 25, 25, .rwt, 1, []⟩, ⟨"WINDOW", 24, 16, .rwt, 50, [(10, 500)]⟩, ⟨"HYST_MS", 15, 8, .rwt, 10, [(5, 50)]⟩, ⟨"SAFETY_MS", 7, 0, .rwt, 5, [(0, 40)]⟩]⟩,
  ⟨"JBUF_TIMES", 0x044, 1, 4, [⟨"CNG_HOLD_MS", 31, 16, .rwt, 0x7d0, [(200, 10000)]⟩, ⟨"INIT_MS", 8, 0, .rwt, 40, [(0, 400)]⟩]⟩,
  ⟨"JBUF_STAT_LEG", 0x048, 1, 4, [⟨"LEG", 16, 0, .wo, 0, []⟩]⟩,
  ⟨"JBUF_INBOX_DROP_CNT", 0x04C, 1, 4, [⟨"COUNT", 31, 0, .rc, 0, []⟩]⟩,
  ⟨"JBUF_LATE_CNT", 0x050, 1, 4, [⟨"COUNT", 31, 0, .rc, 0, []⟩]⟩,
  ⟨"JBUF_DUP_CNT", 0x054, 1, 4, [⟨"COUNT", 31, 0, .rc, 0, []⟩]⟩,
  ⟨"JBUF_OVF_CNT", 0x058, 1, 4, [⟨"COUNT", 31, 0, .rc, 0, []⟩]⟩,
  ⟨"JBUF_RESYNC_CNT", 0x05C, 1, 4, [⟨"COUNT", 31, 0, .rc, 0, []⟩]⟩,
  ⟨"JBUF_LIMIT_CNT", 0x060, 1, 4, [⟨"COUNT", 31, 0, .rc, 0, []⟩]⟩,
  ⟨"JBUF_LEGS", 0x064, 1, 4, [⟨"COUNT", 16, 0, .ro, 0, []⟩]⟩,
  ⟨"JBUF_ST_STATUS", 0x100, 1, 4, [⟨"TSA_OK", 14, 14, .ro, 0, []⟩, ⟨"STATE", 13, 11, .ro, 0, []⟩, ⟨"GOAL", 10, 10, .ro, 0, []⟩, ⟨"PACKET", 9, 9, .ro, 0, []⟩, ⟨"VALID", 8, 8, .ro, 0, []⟩, ⟨"STATUS", 7, 0, .ro, 0, []⟩]⟩,
  ⟨"JBUF_ST_MLOW", 0x104, 1, 4, [⟨"US", 31, 0, .ro, 0, []⟩]⟩,
  ⟨"JBUF_ST_MHIGH", 0x108, 1, 4, [⟨"US", 31, 0, .ro, 0, []⟩]⟩,
  ⟨"JBUF_ST_TARGET", 0x10C, 1, 4, [⟨"US", 31, 0, .ro, 0, []⟩]⟩,
  ⟨"JBUF_ST_GOAL", 0x110, 1, 4, [⟨"US", 31, 0, .ro, 0, []⟩]⟩,
  ⟨"JBUF_ST_USED", 0x114, 1, 4, [⟨"ENTRIES", 25, 16, .ro, 0, []⟩, ⟨"BYTES", 13, 0, .ro, 0, []⟩]⟩,
  ⟨"JBUF_ST_JITTER", 0x118, 1, 4, [⟨"TS", 31, 0, .ro, 0, []⟩]⟩,
  ⟨"JBUF_ST_LOST", 0x11C, 1, 4, [⟨"COUNT", 31, 0, .ro, 0, []⟩]⟩,
  ⟨"JBUF_ST_RX", 0x120, 1, 4, [⟨"COUNT", 31, 0, .ro, 0, []⟩]⟩,
  ⟨"JBUF_ST_LATE", 0x124, 1, 4, [⟨"COUNT", 31, 0, .ro, 0, []⟩]⟩]

/-- Block registers of the JBUF page (R193). -/
def regsJBUF1 : List RegSpec := [
  ⟨"JBUF_ST_DUP", 0x128, 1, 4, [⟨"COUNT", 31, 0, .ro, 0, []⟩]⟩,
  ⟨"JBUF_ST_REORDER", 0x12C, 1, 4, [⟨"COUNT", 31, 0, .ro, 0, []⟩]⟩,
  ⟨"JBUF_ST_OVF", 0x130, 1, 4, [⟨"COUNT", 31, 0, .ro, 0, []⟩]⟩,
  ⟨"JBUF_ST_RESYNC", 0x134, 1, 4, [⟨"COUNT", 31, 0, .ro, 0, []⟩]⟩,
  ⟨"JBUF_ST_CONCEAL", 0x138, 1, 4, [⟨"MS", 31, 0, .ro, 0, []⟩]⟩,
  ⟨"JBUF_ST_LOSSCN", 0x13C, 1, 4, [⟨"MS", 31, 0, .ro, 0, []⟩]⟩,
  ⟨"JBUF_ST_SILENT", 0x140, 1, 4, [⟨"MS", 31, 0, .ro, 0, []⟩]⟩,
  ⟨"JBUF_ST_TSA", 0x144, 1, 4, [⟨"COMPRESS", 31, 16, .ro, 0, []⟩, ⟨"STRETCH", 15, 0, .ro, 0, []⟩]⟩,
  ⟨"JBUF_ST_SKIP_DROP", 0x148, 1, 4, [⟨"COUNT", 31, 0, .ro, 0, []⟩]⟩,
  ⟨"JBUF_ST_INBOX_DROP", 0x14C, 1, 4, [⟨"COUNT", 31, 0, .ro, 0, []⟩]⟩,
  ⟨"JBUF_ST_BEAT", 0x150, 1, 4, [⟨"N", 31, 0, .ro, 0, []⟩]⟩]

/-- Block registers of the TONE page (R212). -/
def regsTONE0 : List RegSpec := [
  ⟨"TONE_DTMF_DET", 0x040, 1, 4, [⟨"OFF_MS", 31, 24, .rwt, 40, [(20, 100)]⟩, ⟨"ON_MS", 23, 16, .rwt, 40, [(20, 100)]⟩, ⟨"REV_TWIST", 15, 12, .rwt, 8, []⟩, ⟨"FWD_TWIST", 11, 8, .rwt, 4, []⟩, ⟨"MIN_LEVEL", 7, 0, .rwt, 36, [(20, 45)]⟩]⟩,
  ⟨"TONE_DTMF_DET2", 0x044, 1, 4, [⟨"FDEV", 13, 8, .rwt, 25, [(15, 35)]⟩, ⟨"BRIDGE_MS", 4, 0, .rwt, 10, [(0, 20)]⟩]⟩,
  ⟨"TONE_DTMF_GEN", 0x048, 1, 4, [⟨"GEN_OFF_MS", 31, 24, .rwt, 80, [(40, 255)]⟩, ⟨"GEN_ON_MS", 23, 16, .rwt, 80, [(40, 255)]⟩, ⟨"HIGH_LEVEL", 15, 8, .rwt, 8, [(3, 40)]⟩, ⟨"LOW_LEVEL", 7, 0, .rwt, 10, [(3, 40)]⟩]⟩,
  ⟨"TONE_RELAY", 0x04C, 1, 4, [⟨"MUTE_EN", 24, 24, .rwt, 1, []⟩, ⟨"PT48", 22, 16, .rwt, 103, [(96, 127)]⟩, ⟨"PT16", 14, 8, .rwt, 102, [(96, 127)]⟩, ⟨"PT8", 6, 0, .rwt, 101, [(96, 127)]⟩]⟩,
  ⟨"TONE_CLASS_EN", 0x050, 1, 4, [⟨"EN", 3, 0, .rwt, 15, []⟩]⟩,
  ⟨"TONE_GEN_CMD", 0x054, 1, 4, [⟨"NDIG", 31, 28, .wo, 0, []⟩, ⟨"DESC", 27, 22, .wo, 0, []⟩, ⟨"ACTION", 18, 17, .wo, 0, []⟩, ⟨"DIR", 16, 16, .wo, 0, []⟩, ⟨"CHANNEL", 15, 0, .wo, 0, []⟩]⟩,
  ⟨"TONE_GEN_DIGITS0", 0x058, 1, 4, [⟨"DIGITS", 31, 0, .rw, 0, []⟩]⟩,
  ⟨"TONE_GEN_DIGITS1", 0x05C, 1, 4, [⟨"DIGITS", 31, 0, .rw, 0, []⟩]⟩,
  ⟨"TONE_DTMF_CNT", 0x060, 1, 4, [⟨"COUNT", 31, 0, .rc, 0, []⟩]⟩,
  ⟨"TONE_DESC_CNT", 0x064, 1, 4, [⟨"COUNT", 31, 0, .rc, 0, []⟩]⟩,
  ⟨"TONE_FAX_CNT", 0x068, 1, 4, [⟨"COUNT", 31, 0, .rc, 0, []⟩]⟩,
  ⟨"TONE_TALDY_CNT", 0x06C, 1, 4, [⟨"COUNT", 31, 0, .rc, 0, []⟩]⟩,
  ⟨"TONE_RELAY_TX_CNT", 0x070, 1, 4, [⟨"COUNT", 31, 0, .rc, 0, []⟩]⟩,
  ⟨"TONE_RELAY_RX_CNT", 0x074, 1, 4, [⟨"COUNT", 31, 0, .rc, 0, []⟩]⟩,
  ⟨"TONE_RELAY_TIMEOUT_CNT", 0x078, 1, 4, [⟨"COUNT", 31, 0, .rc, 0, []⟩]⟩,
  ⟨"TONE_RELAY_UNSUP_CNT", 0x07C, 1, 4, [⟨"COUNT", 31, 0, .rc, 0, []⟩]⟩,
  ⟨"TONE_GEN_CNT", 0x080, 1, 4, [⟨"COUNT", 31, 0, .rc, 0, []⟩]⟩,
  ⟨"TONE_ANN_CNT", 0x084, 1, 4, [⟨"COUNT", 10, 0, .ro, 0, []⟩]⟩,
  ⟨"TONE_DSC_FREQ", 0x800, 64, 32, [⟨"F2", 27, 16, .rwt, 0, [(0, 0),(100, 3400)]⟩, ⟨"F1", 11, 0, .rwt, 0, [(0, 0),(100, 3400)]⟩]⟩,
  ⟨"TONE_DSC_LEVEL", 0x804, 64, 32, [⟨"MIN_LEVEL", 31, 24, .rwt, 0, [(0, 0),(10, 50)]⟩, ⟨"TWIST", 19, 16, .rwt, 0, []⟩, ⟨"L2", 15, 8, .rwt, 0, [(0, 0),(3, 60)]⟩, ⟨"L1", 7, 0, .rwt, 0, [(0, 0),(3, 60)]⟩]⟩]

/-- Block registers of the TONE page (R212). -/
def regsTONE1 : List RegSpec := [
  ⟨"TONE_DSC_CAD1", 0x808, 64, 32, [⟨"OFF1", 31, 16, .rwt, 0, []⟩, ⟨"ON1", 15, 0, .rwt, 0, []⟩]⟩,
  ⟨"TONE_DSC_CAD2", 0x80C, 64, 32, [⟨"OFF2", 31, 16, .rwt, 0, []⟩, ⟨"ON2", 15, 0, .rwt, 0, []⟩]⟩,
  ⟨"TONE_DSC_CTRL", 0x810, 64, 32, [⟨"REPEAT", 31, 28, .rwt, 0, []⟩, ⟨"CYCLES", 27, 24, .rwt, 0, []⟩, ⟨"FTOL", 23, 16, .rwt, 0, [(0, 0),(5, 100)]⟩, ⟨"CAD_TOL", 15, 8, .rwt, 0, [(0, 50)]⟩, ⟨"GEN", 1, 1, .rwt, 0, []⟩, ⟨"DET", 0, 0, .rwt, 0, []⟩]⟩]

/-- Block registers of the RATE page (R228). -/
def regsRATE : List RegSpec := [
  ⟨"RATE_CTRL", 0x040, 1, 4, [⟨"DCB_EN", 0, 0, .rwt, 1, []⟩]⟩,
  ⟨"RATE_LEG_CMD", 0x044, 1, 4, [⟨"ACTION", 23, 20, .wo, 0, []⟩, ⟨"LEG", 16, 0, .wo, 0, []⟩]⟩,
  ⟨"RATE_STAT_LEG", 0x048, 1, 4, [⟨"LEG", 16, 0, .wo, 0, []⟩]⟩,
  ⟨"RATE_CONV_LEGS", 0x04C, 1, 4, [⟨"COUNT", 17, 0, .ro, 0, []⟩]⟩,
  ⟨"RATE_FROZEN_LEGS", 0x050, 1, 4, [⟨"COUNT", 17, 0, .ro, 0, []⟩]⟩,
  ⟨"RATE_SAT_CNT", 0x054, 1, 4, [⟨"COUNT", 31, 0, .rc, 0, []⟩]⟩,
  ⟨"RATE_ST_STATUS", 0x100, 1, 4, [⟨"INT_RATE", 19, 18, .ro, 0, []⟩, ⟨"LEG_RATE", 17, 16, .ro, 0, []⟩, ⟨"CONVERTS", 12, 12, .ro, 0, []⟩, ⟨"FROZEN", 11, 11, .ro, 0, []⟩, ⟨"SAT_OUT", 10, 10, .ro, 0, []⟩, ⟨"SAT_IN", 9, 9, .ro, 0, []⟩, ⟨"VALID", 8, 8, .ro, 0, []⟩, ⟨"STATUS", 7, 0, .ro, 0, []⟩]⟩,
  ⟨"RATE_ST_DC", 0x104, 1, 4, [⟨"D", 31, 0, .ro, 0, []⟩]⟩,
  ⟨"RATE_ST_BEAT", 0x108, 1, 4, [⟨"N", 31, 0, .ro, 0, []⟩]⟩]

/-- Block registers of the ECAN page (R143). -/
def regsECAN : List RegSpec := [
  ⟨"ECAN_CH_CMD", 0x040, 1, 4, [⟨"PROFILE", 21, 20, .wo, 0, []⟩, ⟨"ACTION", 19, 16, .wo, 0, []⟩, ⟨"CHANNEL", 15, 0, .wo, 0, []⟩]⟩,
  ⟨"ECAN_STAT_CHAN", 0x044, 1, 4, [⟨"CHANNEL", 15, 0, .wo, 0, []⟩]⟩,
  ⟨"ECAN_NB_CNT", 0x048, 1, 4, [⟨"COUNT", 16, 0, .ro, 0, []⟩]⟩,
  ⟨"ECAN_WB_CNT", 0x04C, 1, 4, [⟨"COUNT", 16, 0, .ro, 0, []⟩]⟩,
  ⟨"ECAN_DIVERGE_CNT", 0x050, 1, 4, [⟨"COUNT", 31, 0, .rc, 0, []⟩]⟩,
  ⟨"ECAN_DISABLE_CNT", 0x054, 1, 4, [⟨"COUNT", 31, 0, .rc, 0, []⟩]⟩,
  ⟨"ECAN_MOVE_CNT", 0x058, 1, 4, [⟨"COUNT", 31, 0, .rc, 0, []⟩]⟩,
  ⟨"ECAN_ST_STATUS", 0x080, 1, 4, [⟨"ENABLED", 21, 21, .ro, 0, []⟩, ⟨"WIDEBAND", 20, 20, .ro, 0, []⟩, ⟨"PROFILE", 19, 18, .ro, 0, []⟩, ⟨"TALK", 17, 16, .ro, 0, []⟩, ⟨"BYPASS", 15, 15, .ro, 0, []⟩, ⟨"NLP", 14, 13, .ro, 0, []⟩, ⟨"LOCKED", 12, 12, .ro, 0, []⟩, ⟨"FROZEN", 11, 11, .ro, 0, []⟩, ⟨"CONV", 10, 9, .ro, 0, []⟩, ⟨"VALID", 8, 8, .ro, 0, []⟩, ⟨"STATUS", 7, 0, .ro, 0, []⟩]⟩,
  ⟨"ECAN_ST_ERL", 0x084, 1, 4, [⟨"ERLE", 31, 16, .ro, 0, []⟩, ⟨"ERL", 15, 0, .ro, 0, []⟩]⟩,
  ⟨"ECAN_ST_WIN", 0x088, 1, 4, [⟨"LOC_PCT", 23, 16, .ro, 0, []⟩, ⟨"LOC_START", 15, 8, .ro, 0, []⟩, ⟨"WIN_START", 7, 0, .ro, 0, []⟩]⟩,
  ⟨"ECAN_ST_LEVEL", 0x08C, 1, 4, [⟨"CNG", 31, 24, .ro, 0, []⟩, ⟨"OUT", 23, 16, .ro, 0, []⟩, ⟨"IN", 15, 8, .ro, 0, []⟩, ⟨"REF", 7, 0, .ro, 0, []⟩]⟩,
  ⟨"ECAN_ST_BEAT", 0x090, 1, 4, [⟨"N", 31, 0, .ro, 0, []⟩]⟩,
  ⟨"ECAN_PRF_ADAPT", 0x100, 4, 16, [⟨"DTD_HANG", 23, 16, .rwt, 30, []⟩, ⟨"DTD_MARGIN", 12, 8, .rwt, 6, []⟩, ⟨"MU", 7, 0, .rwt, 128, [(1, 255)]⟩]⟩,
  ⟨"ECAN_PRF_NLP", 0x104, 4, 16, [⟨"CNG_FLOOR", 31, 24, .rwt, 78, [(40, 90)]⟩, ⟨"CNG_CEIL", 23, 16, .rwt, 40, [(30, 90)]⟩, ⟨"NLP_HANG", 15, 8, .rwt, 50, []⟩, ⟨"NLP_MODE", 1, 0, .rwt, 2, [(0, 2)]⟩]⟩,
  ⟨"ECAN_PRF_LOC", 0x108, 4, 16, [⟨"DISABLER_EN", 24, 24, .rwt, 1, []⟩, ⟨"CONV_ERLE", 23, 16, .rwt, 15, [(6, 40)]⟩, ⟨"MOVE_BEATS", 15, 8, .rwt, 20, [(1, 200)]⟩, ⟨"MOVE_PCT", 7, 0, .rwt, 20, [(5, 80)]⟩]⟩]

/-- Block registers of the PKT page (R294). -/
def regsPKT : List RegSpec := [
  ⟨"PKT_PORT_DOM", 0x040, 8, 4, [⟨"MODE", 13, 12, .rw, 0, [(0, 2)]⟩, ⟨"DOMAIN", 11, 0, .rw, 0, []⟩]⟩,
  ⟨"PKT_UNBOUND", 0x060, 1, 4, [⟨"TO_RING", 8, 8, .rw, 0, []⟩, ⟨"RING", 7, 0, .rw, 0, []⟩]⟩,
  ⟨"PKT_CTRL_RING", 0x064, 1, 4, [⟨"EN", 8, 8, .rw, 0, []⟩, ⟨"RING", 7, 0, .rw, 0, []⟩]⟩,
  ⟨"PKT_MEM_USED", 0x068, 1, 4, [⟨"BYTES", 24, 0, .ro, 0, []⟩]⟩,
  ⟨"PKT_MEM_HWM", 0x06C, 1, 4, [⟨"BYTES", 24, 0, .rc, 0, []⟩]⟩,
  ⟨"PKT_RX_CNT", 0x070, 1, 4, [⟨"COUNT", 31, 0, .ro, 0, []⟩]⟩,
  ⟨"PKT_BOUND_CNT", 0x074, 1, 4, [⟨"COUNT", 31, 0, .ro, 0, []⟩]⟩,
  ⟨"PKT_UNBOUND_CNT", 0x078, 1, 4, [⟨"COUNT", 31, 0, .rc, 0, []⟩]⟩,
  ⟨"PKT_NOLEG_CNT", 0x07C, 1, 4, [⟨"COUNT", 31, 0, .rc, 0, []⟩]⟩,
  ⟨"PKT_CTRL_CNT", 0x080, 1, 4, [⟨"COUNT", 31, 0, .rc, 0, []⟩]⟩,
  ⟨"PKT_ERR_CNT", 0x084, 1, 4, [⟨"COUNT", 31, 0, .rc, 0, []⟩]⟩,
  ⟨"PKT_MEM_DROP_CNT", 0x088, 1, 4, [⟨"COUNT", 31, 0, .rc, 0, []⟩]⟩,
  ⟨"PKT_OVERLOAD_DROP_CNT", 0x08C, 1, 4, [⟨"COUNT", 31, 0, .rc, 0, []⟩]⟩,
  ⟨"PKT_RING_DROP_CNT", 0x090, 1, 4, [⟨"COUNT", 31, 0, .rc, 0, []⟩]⟩,
  ⟨"PKT_REASM_CNT", 0x094, 1, 4, [⟨"COUNT", 31, 0, .rc, 0, []⟩]⟩,
  ⟨"PKT_REASM_DROP_CNT", 0x098, 1, 4, [⟨"COUNT", 31, 0, .rc, 0, []⟩]⟩]

/-- Block registers of the EPD page (R296). -/
def regsEPD : List RegSpec := [
  ⟨"EPD_CMD", 0x040, 1, 4, [⟨"OP", 31, 28, .wo, 0, []⟩, ⟨"HANDLE", 22, 0, .wo, 0, []⟩]⟩,
  ⟨"EPD_RESULT", 0x044, 1, 4, [⟨"FOUND", 23, 23, .ro, 0, []⟩, ⟨"HANDLE", 22, 0, .ro, 0, []⟩]⟩,
  ⟨"EPD_DISP", 0x048, 1, 4, [⟨"DISP", 8, 0, .ro, 0, []⟩]⟩,
  ⟨"EPD_COUNT", 0x04C, 1, 4, [⟨"COUNT", 23, 0, .ro, 0, []⟩]⟩,
  ⟨"EPD_FULL_CNT", 0x050, 1, 4, [⟨"COUNT", 31, 0, .rc, 0, []⟩]⟩,
  ⟨"EPD_MAXDISP", 0x054, 1, 4, [⟨"DISP", 8, 0, .rc, 0, []⟩]⟩,
  ⟨"EPD_CACHE_HIT", 0x058, 1, 4, [⟨"COUNT", 31, 0, .ro, 0, []⟩]⟩,
  ⟨"EPD_CACHE_MISS", 0x05C, 1, 4, [⟨"COUNT", 31, 0, .ro, 0, []⟩]⟩,
  ⟨"EPD_DATA", 0x100, 48, 4, [⟨"BYTES", 31, 0, .rw, 0, []⟩]⟩]

/-- Block registers of the MTR page (R298). -/
def regsMTR : List RegSpec := [
  ⟨"MTR_CTRL", 0x040, 1, 4, [⟨"YELLOW_LIMIT", 6, 0, .rw, 48, [(1, 64)]⟩]⟩,
  ⟨"MTR_GREEN_CNT", 0x044, 1, 4, [⟨"COUNT", 31, 0, .ro, 0, []⟩]⟩,
  ⟨"MTR_YELLOW_CNT", 0x048, 1, 4, [⟨"COUNT", 31, 0, .ro, 0, []⟩]⟩,
  ⟨"MTR_RED_CNT", 0x04C, 1, 4, [⟨"COUNT", 31, 0, .ro, 0, []⟩]⟩,
  ⟨"MTR_RED_DROP_CNT", 0x050, 1, 4, [⟨"COUNT", 31, 0, .rc, 0, []⟩]⟩,
  ⟨"MTR_RED_RING_CNT", 0x054, 1, 4, [⟨"COUNT", 31, 0, .rc, 0, []⟩]⟩,
  ⟨"MTR_YELLOW_DROP_CNT", 0x058, 1, 4, [⟨"COUNT", 31, 0, .rc, 0, []⟩]⟩,
  ⟨"MTR_EMERG_OVER_CNT", 0x05C, 1, 4, [⟨"COUNT", 31, 0, .rc, 0, []⟩]⟩]

/-- Block registers of the SRTP page (R300). -/
def regsSRTP : List RegSpec := [
  ⟨"SRTP_CMD", 0x040, 1, 4, [⟨"ACTION", 31, 28, .wo, 0, []⟩, ⟨"DIR", 24, 24, .wo, 0, []⟩, ⟨"SUITE", 22, 20, .wo, 0, []⟩, ⟨"MKI_LEN", 19, 17, .wo, 0, []⟩, ⟨"CONTEXT", 16, 0, .wo, 0, []⟩]⟩,
  ⟨"SRTP_KEY", 0x044, 8, 4, [⟨"KEY", 31, 0, .wo, 0, []⟩]⟩,
  ⟨"SRTP_SALT", 0x064, 4, 4, [⟨"SALT", 31, 0, .wo, 0, []⟩]⟩,
  ⟨"SRTP_MKI", 0x074, 1, 4, [⟨"MKI", 31, 0, .wo, 0, []⟩]⟩,
  ⟨"SRTP_SWITCH", 0x080, 8, 4, [⟨"EN", 31, 31, .rwt, 0, []⟩, ⟨"DIR", 24, 24, .rwt, 0, []⟩, ⟨"CONTEXT", 16, 0, .rwt, 0, []⟩]⟩,
  ⟨"SRTP_NOKEY_CNT", 0x0A0, 1, 4, [⟨"COUNT", 31, 0, .rc, 0, []⟩]⟩,
  ⟨"SRTP_REPLAY_CNT", 0x0A4, 1, 4, [⟨"COUNT", 31, 0, .rc, 0, []⟩]⟩,
  ⟨"SRTP_AUTH_FAIL_CNT", 0x0A8, 1, 4, [⟨"COUNT", 31, 0, .rc, 0, []⟩]⟩,
  ⟨"SRTP_LIMIT_DROP_CNT", 0x0AC, 1, 4, [⟨"COUNT", 31, 0, .rc, 0, []⟩]⟩]

/-- Block registers of the EGS page (R320). -/
def regsEGS : List RegSpec := [
  ⟨"EGS_CTRL", 0x040, 1, 4, [⟨"AGE_MS", 25, 16, .rw, 100, [(0, 0),(20, 1000)]⟩, ⟨"FQ_LIMIT", 6, 0, .rw, 32, [(4, 64)]⟩]⟩,
  ⟨"EGS_AGG_CMD", 0x044, 1, 4, [⟨"OP", 31, 28, .wo, 0, []⟩, ⟨"AGG", 10, 0, .wo, 0, []⟩]⟩,
  ⟨"EGS_AGG_DATA", 0x048, 1, 4, [⟨"EN", 31, 31, .rw, 0, []⟩, ⟨"CLASS", 26, 24, .rw, 0, []⟩, ⟨"PORT", 18, 16, .rw, 0, []⟩, ⟨"WEIGHT", 7, 0, .rw, 1, []⟩]⟩,
  ⟨"EGS_AGG_FLOWS", 0x04C, 1, 4, [⟨"COUNT", 17, 0, .ro, 0, []⟩]⟩,
  ⟨"EGS_QUEUED", 0x050, 1, 4, [⟨"COUNT", 23, 0, .ro, 0, []⟩]⟩,
  ⟨"EGS_MEM_USED", 0x054, 1, 4, [⟨"BYTES", 22, 0, .ro, 0, []⟩]⟩,
  ⟨"EGS_TX_CNT", 0x058, 1, 4, [⟨"COUNT", 31, 0, .ro, 0, []⟩]⟩,
  ⟨"EGS_FQ_DROP_CNT", 0x05C, 1, 4, [⟨"COUNT", 31, 0, .rc, 0, []⟩]⟩,
  ⟨"EGS_MEM_DROP_CNT", 0x060, 1, 4, [⟨"COUNT", 31, 0, .rc, 0, []⟩]⟩,
  ⟨"EGS_AGE_DROP_CNT", 0x064, 1, 4, [⟨"COUNT", 31, 0, .rc, 0, []⟩]⟩,
  ⟨"EGS_EXCESS_CNT", 0x068, 1, 4, [⟨"COUNT", 31, 0, .rc, 0, []⟩]⟩,
  ⟨"EGS_STAT_FLOW", 0x06C, 1, 4, [⟨"LEG", 16, 0, .wo, 0, []⟩]⟩,
  ⟨"EGS_ST_STATUS", 0x100, 1, 4, [⟨"CLASS", 23, 21, .ro, 0, []⟩, ⟨"SHAPE", 20, 19, .ro, 0, []⟩, ⟨"VALID", 8, 8, .ro, 0, []⟩, ⟨"STATUS", 7, 0, .ro, 0, []⟩]⟩,
  ⟨"EGS_ST_PLACE", 0x104, 1, 4, [⟨"WEIGHT", 31, 24, .ro, 0, []⟩, ⟨"AGG", 17, 7, .ro, 0, []⟩, ⟨"DEPTH", 6, 0, .ro, 0, []⟩]⟩,
  ⟨"EGS_ST_TC", 0x108, 1, 4, [⟨"MILLI", 31, 0, .ro, 0, []⟩]⟩,
  ⟨"EGS_ST_TP", 0x10C, 1, 4, [⟨"MILLI", 31, 0, .ro, 0, []⟩]⟩,
  ⟨"EGS_ST_BEAT", 0x110, 1, 4, [⟨"N", 31, 0, .ro, 0, []⟩]⟩]

/-- Block registers of the SHP page (R322). -/
def regsSHP : List RegSpec := [
  ⟨"SHP_CMD", 0x040, 1, 4, [⟨"OP", 31, 28, .wo, 0, []⟩, ⟨"KIND", 24, 24, .wo, 0, []⟩, ⟨"INDEX", 16, 0, .wo, 0, []⟩]⟩,
  ⟨"SHP_CIR", 0x044, 1, 4, [⟨"EN", 31, 31, .rw, 0, []⟩, ⟨"CIR", 23, 0, .rw, 0, []⟩]⟩,
  ⟨"SHP_PIR", 0x048, 1, 4, [⟨"PIR", 23, 0, .rw, 0, []⟩]⟩,
  ⟨"SHP_DEPTH", 0x04C, 1, 4, [⟨"PBS", 31, 16, .rw, 0, []⟩, ⟨"CBS", 15, 0, .rw, 0, []⟩]⟩,
  ⟨"SHP_TC", 0x050, 1, 4, [⟨"MILLI", 31, 0, .ro, 0, []⟩]⟩,
  ⟨"SHP_TP", 0x054, 1, 4, [⟨"MILLI", 31, 0, .ro, 0, []⟩]⟩,
  ⟨"SHP_STATE", 0x058, 1, 4, [⟨"STATE", 1, 0, .ro, 0, []⟩]⟩,
  ⟨"SHP_FLOWS_EN", 0x05C, 1, 4, [⟨"COUNT", 17, 0, .ro, 0, []⟩]⟩,
  ⟨"SHP_AGGS_EN", 0x060, 1, 4, [⟨"COUNT", 11, 0, .ro, 0, []⟩]⟩]

/-- Block registers of the HWM page (R323). -/
def regsHWM : List RegSpec := [
  ⟨"HWM_NOTICE", 0x040, 1, 4, [⟨"FLOW", 16, 16, .rc, 0, []⟩, ⟨"SOJ", 15, 8, .rc, 0, []⟩, ⟨"DEPTH", 7, 0, .rc, 0, []⟩]⟩,
  ⟨"HWM_FLOW_DEPTH", 0x044, 1, 4, [⟨"COUNT", 6, 0, .rc, 0, []⟩]⟩,
  ⟨"HWM_FLOW_LEG", 0x048, 1, 4, [⟨"LEG", 16, 0, .ro, 0, []⟩]⟩,
  ⟨"HWM_FLOW_THR", 0x04C, 1, 4, [⟨"COUNT", 6, 0, .rw, 16, []⟩]⟩,
  ⟨"HWM_DEPTH", 0x100, 8, 16, [⟨"COUNT", 23, 0, .rc, 0, []⟩]⟩,
  ⟨"HWM_DEPTH_THR", 0x104, 8, 16, [⟨"COUNT", 23, 0, .rw, 0xffffff, []⟩]⟩,
  ⟨"HWM_SOJ", 0x108, 8, 16, [⟨"CYC", 31, 0, .rc, 0, []⟩]⟩,
  ⟨"HWM_SOJ_THR", 0x10C, 8, 16, [⟨"CYC", 31, 0, .rw, 0x1e000, []⟩]⟩]

/-- Block registers of the MAC pages (R344). -/
def regsMAC : List RegSpec := [
  ⟨"MAC_LANE_MODE", 0x040, 1, 4, [⟨"MODE", 2, 0, .rw, 1, []⟩]⟩,
  ⟨"MAC_CTRL", 0x044, 1, 4, [⟨"STRIP_RX", 6, 6, .rw, 0, []⟩, ⟨"PAUSE_MODE", 5, 4, .rw, 0, [(0, 2)]⟩, ⟨"FEC", 3, 1, .rw, 0, []⟩, ⟨"EN", 0, 0, .rw, 0, []⟩]⟩,
  ⟨"MAC_MAXFRAME", 0x048, 1, 4, [⟨"BYTES", 13, 0, .rw, 0x2400, [(1518, 9216)]⟩]⟩,
  ⟨"MAC_LINK_CFG", 0x04C, 1, 4, [⟨"DOWN_US", 9, 0, .rw, 100, [(10, 1000)]⟩]⟩,
  ⟨"MAC_LINK", 0x050, 1, 4, [⟨"REMOTE_FAULT", 5, 5, .ro, 0, []⟩, ⟨"LOCAL_FAULT", 4, 4, .ro, 0, []⟩, ⟨"FEC_LOCK", 3, 3, .ro, 0, []⟩, ⟨"BLOCK_LOCK", 2, 2, .ro, 0, []⟩, ⟨"SIGNAL", 1, 1, .ro, 0, []⟩, ⟨"LINK_UP", 0, 0, .ro, 0, []⟩]⟩,
  ⟨"MAC_SA_LO", 0x054, 1, 4, [⟨"ADDR", 31, 0, .rw, 0, []⟩]⟩,
  ⟨"MAC_SA_HI", 0x058, 1, 4, [⟨"ADDR", 15, 0, .rw, 0, []⟩]⟩,
  ⟨"MAC_GW_LO", 0x05C, 1, 4, [⟨"ADDR", 31, 0, .rw, 0, []⟩]⟩,
  ⟨"MAC_GW_HI", 0x060, 1, 4, [⟨"ADDR", 15, 0, .rw, 0, []⟩]⟩,
  ⟨"MAC_PREEMPT", 0x064, 1, 4, [⟨"EN", 11, 11, .rw, 0, []⟩, ⟨"VERIFY_DIS", 10, 10, .rw, 0, []⟩, ⟨"ADD_FRAG", 9, 8, .rw, 0, []⟩, ⟨"PMASK", 7, 0, .rw, 0, []⟩]⟩,
  ⟨"MAC_PREEMPT_ST", 0x068, 1, 4, [⟨"ACTIVE", 2, 2, .ro, 0, []⟩, ⟨"VERIFY", 1, 0, .ro, 0, []⟩]⟩,
  ⟨"MAC_FC_TX", 0x06C, 1, 4, [⟨"QUANTA", 31, 16, .rw, 0xffff, [(1, 65535)]⟩, ⟨"PRI", 15, 8, .rw, 255, []⟩, ⟨"TX_EN", 0, 0, .rw, 0, []⟩]⟩,
  ⟨"MAC_FC_THR", 0x070, 1, 4, [⟨"XOFF_KIB", 31, 16, .rw, 0x2800, [(0, 16384)]⟩, ⟨"XON_KIB", 15, 0, .rw, 0x2000, []⟩]⟩,
  ⟨"MAC_PWD", 0x074, 1, 4, [⟨"HOLDOFF_MS", 31, 16, .rw, 0x3e8, [(100, 60000)]⟩, ⟨"LIMIT_MS", 15, 0, .rw, 200, [(0, 0),(10, 10000)]⟩]⟩,
  ⟨"MAC_PAUSE_ST", 0x078, 1, 4, [⟨"HOLDOFF", 15, 8, .ro, 0, []⟩, ⟨"HELD", 7, 0, .ro, 0, []⟩]⟩,
  ⟨"MAC_PWD_CNT", 0x07C, 1, 4, [⟨"COUNT", 31, 0, .rc, 0, []⟩]⟩,
  ⟨"MAC_CNT_NOTICE", 0x080, 1, 4, [⟨"NOTICE", 31, 0, .w1c, 0, []⟩]⟩,
  ⟨"MAC_TAG", 0x0A0, 8, 4, [⟨"MODE", 25, 24, .rw, 0, []⟩, ⟨"SVID", 23, 12, .rw, 0, []⟩, ⟨"CVID", 11, 0, .rw, 0, []⟩]⟩,
  ⟨"MAC_CNT", 0x100, 32, 4, [⟨"COUNT", 31, 0, .ro, 0, []⟩]⟩]

/-- Block registers of the LPAIR page (R346). -/
def regsLPAIR : List RegSpec := [
  ⟨"LPAIR_PAIR", 0x040, 4, 16, [⟨"SECONDARY", 10, 8, .rw, 0, []⟩, ⟨"PRIMARY", 6, 4, .rw, 0, []⟩, ⟨"REVERT", 1, 1, .rw, 0, []⟩, ⟨"EN", 0, 0, .rw, 0, []⟩]⟩,
  ⟨"LPAIR_STATE", 0x044, 4, 16, [⟨"DOWN", 4, 4, .ro, 0, []⟩, ⟨"STANDBY_UP", 3, 3, .ro, 0, []⟩, ⟨"ACTIVE", 2, 0, .ro, 0, []⟩]⟩,
  ⟨"LPAIR_FAILOVER_CNT", 0x048, 4, 16, [⟨"COUNT", 31, 0, .rc, 0, []⟩]⟩,
  ⟨"LPAIR_LAST", 0x04C, 4, 16, [⟨"N", 31, 0, .ro, 0, []⟩]⟩,
  ⟨"LPAIR_REVERT_S", 0x080, 1, 4, [⟨"SECONDS", 15, 0, .rw, 60, [(1, 3600)]⟩]⟩,
  ⟨"LPAIR_LOST_CNT", 0x084, 1, 4, [⟨"COUNT", 31, 0, .rc, 0, []⟩]⟩]

/-- Block registers of the TIME page (R368). -/
def regsTIME0 : List RegSpec := [
  ⟨"TIME_CTRL", 0x040, 1, 4, [⟨"TOD_EN", 3, 3, .rw, 0, []⟩, ⟨"PPS_OUT_EN", 2, 2, .rw, 0, []⟩, ⟨"SYNCED", 0, 0, .rw, 0, []⟩]⟩,
  ⟨"TIME_NOW_SEC_LO", 0x044, 1, 4, [⟨"SEC", 31, 0, .ro, 0, []⟩]⟩,
  ⟨"TIME_NOW_SEC_HI", 0x048, 1, 4, [⟨"GEN", 31, 24, .ro, 0, []⟩, ⟨"SEC", 15, 0, .ro, 0, []⟩]⟩,
  ⟨"TIME_NOW_NS", 0x04C, 1, 4, [⟨"NS", 31, 0, .ro, 0, []⟩]⟩,
  ⟨"TIME_NOW_FRAC", 0x050, 1, 4, [⟨"FRAC", 15, 0, .ro, 0, []⟩]⟩,
  ⟨"TIME_FREQ", 0x054, 1, 4, [⟨"PPB16", 31, 0, .rw, 0, []⟩]⟩,
  ⟨"TIME_ADJ_LO", 0x058, 1, 4, [⟨"NS", 31, 0, .rw, 0, []⟩]⟩,
  ⟨"TIME_ADJ_HI", 0x05C, 1, 4, [⟨"NS", 31, 0, .rw, 0, []⟩]⟩,
  ⟨"TIME_SET_SEC_LO", 0x060, 1, 4, [⟨"SEC", 31, 0, .rw, 0, []⟩]⟩,
  ⟨"TIME_SET_SEC_HI", 0x064, 1, 4, [⟨"SEC", 15, 0, .rw, 0, []⟩]⟩,
  ⟨"TIME_SET_NS", 0x068, 1, 4, [⟨"NS", 31, 0, .rw, 0, []⟩]⟩,
  ⟨"TIME_CMD", 0x06C, 1, 4, [⟨"ACTION", 1, 0, .wo, 0, []⟩]⟩,
  ⟨"TIME_STEP_THR", 0x070, 1, 4, [⟨"US", 19, 0, .rw, 0x3e8, [(0, 1000000)]⟩]⟩,
  ⟨"TIME_SLEW", 0x074, 1, 4, [⟨"PPM", 9, 0, .rw, 0x1f4, [(1, 500)]⟩]⟩,
  ⟨"TIME_SLEW_LEFT", 0x078, 1, 4, [⟨"NS", 31, 0, .ro, 0, []⟩]⟩,
  ⟨"TIME_STEP_CNT", 0x07C, 1, 4, [⟨"COUNT", 31, 0, .rc, 0, []⟩]⟩,
  ⟨"TIME_PPS_OUT", 0x080, 1, 4, [⟨"WIDTH_NS", 29, 0, .rw, 0x5f5e100, [(100, 999999999)]⟩]⟩,
  ⟨"TIME_PPSIN_SEC_LO", 0x084, 1, 4, [⟨"SEC", 31, 0, .ro, 0, []⟩]⟩,
  ⟨"TIME_PPSIN_SEC_HI", 0x088, 1, 4, [⟨"GEN", 31, 24, .ro, 0, []⟩, ⟨"SEC", 15, 0, .ro, 0, []⟩]⟩,
  ⟨"TIME_PPSIN_NS", 0x08C, 1, 4, [⟨"NS", 31, 0, .ro, 0, []⟩]⟩]

/-- Block registers of the TIME page (R368). -/
def regsTIME1 : List RegSpec := [
  ⟨"TIME_PPSIN_CNT", 0x090, 1, 4, [⟨"COUNT", 31, 0, .ro, 0, []⟩]⟩,
  ⟨"TIME_TOD", 0x094, 1, 4, [⟨"DELAY_MS", 31, 16, .rw, 100, [(1, 900)]⟩, ⟨"BAUD", 0, 0, .rw, 1, []⟩]⟩,
  ⟨"PG_CTRL", 0x100, 4, 32, [⟨"POL", 4, 4, .rw, 0, []⟩, ⟨"PERIODIC", 3, 3, .rw, 0, []⟩, ⟨"USER", 1, 0, .rwt, 0, [(0, 2)]⟩]⟩,
  ⟨"PG_START_SEC_LO", 0x104, 4, 32, [⟨"SEC", 31, 0, .rw, 0, []⟩]⟩,
  ⟨"PG_START_SEC_HI", 0x108, 4, 32, [⟨"SEC", 15, 0, .rw, 0, []⟩]⟩,
  ⟨"PG_START_NS", 0x10C, 4, 32, [⟨"NS", 31, 0, .rw, 0, [(0, 999999999)]⟩]⟩,
  ⟨"PG_PERIOD", 0x110, 4, 32, [⟨"NS", 31, 0, .rw, 0x3b9aca00, [(1000, 4000000000)]⟩]⟩,
  ⟨"PG_WIDTH", 0x114, 4, 32, [⟨"NS", 29, 0, .rw, 0xf4240, [(10, 999999999)]⟩]⟩,
  ⟨"PG_ARM", 0x118, 4, 32, [⟨"DISARM", 2, 2, .wo, 0, []⟩, ⟨"ASAP", 1, 1, .wo, 0, []⟩, ⟨"ARM", 0, 0, .wo, 0, []⟩]⟩,
  ⟨"PG_STATUS", 0x11C, 4, 32, [⟨"FIRED", 31, 16, .ro, 0, []⟩, ⟨"LAST", 15, 8, .ro, 0, []⟩, ⟨"STATE", 1, 0, .ro, 0, []⟩]⟩]

/-- Block registers of the PTIME pages (R370). -/
def regsPTIME : List RegSpec := [
  ⟨"PTIME_CTRL", 0x040, 1, 4, [⟨"UNTAG", 19, 19, .rw, 0, []⟩, ⟨"CLASS", 18, 16, .rw, 7, []⟩, ⟨"RING", 15, 8, .rw, 0, []⟩, ⟨"EN", 0, 0, .rw, 0, []⟩]⟩,
  ⟨"PTIME_RX_ADJ_PS", 0x044, 1, 4, [⟨"PS", 31, 0, .rw, 0, []⟩]⟩,
  ⟨"PTIME_TX_ADJ_PS", 0x048, 1, 4, [⟨"PS", 31, 0, .rw, 0, []⟩]⟩,
  ⟨"PTIME_TSQ_CNT", 0x04C, 1, 4, [⟨"COUNT", 6, 0, .ro, 0, []⟩]⟩,
  ⟨"PTIME_TSQ0", 0x050, 1, 4, [⟨"VALID", 31, 31, .rc, 0, []⟩, ⟨"GEN", 23, 16, .rc, 0, []⟩, ⟨"ID", 15, 0, .rc, 0, []⟩]⟩,
  ⟨"PTIME_TSQ1", 0x054, 1, 4, [⟨"SEC", 31, 0, .ro, 0, []⟩]⟩,
  ⟨"PTIME_TSQ2", 0x058, 1, 4, [⟨"FRAC", 31, 16, .ro, 0, []⟩, ⟨"SEC", 15, 0, .ro, 0, []⟩]⟩,
  ⟨"PTIME_TSQ3", 0x05C, 1, 4, [⟨"NS", 31, 0, .ro, 0, []⟩]⟩,
  ⟨"PTIME_TS_ID", 0x060, 1, 4, [⟨"ID", 15, 0, .ro, 0, []⟩]⟩,
  ⟨"PTIME_TSQ_LOST", 0x064, 1, 4, [⟨"COUNT", 31, 0, .rc, 0, []⟩]⟩,
  ⟨"PTIME_RX_TS_CNT", 0x068, 1, 4, [⟨"COUNT", 31, 0, .ro, 0, []⟩]⟩]

/-- Block registers of the GATE pages (R372). -/
def regsGATE : List RegSpec := [
  ⟨"GATE_CTRL", 0x040, 1, 4, [⟨"EN", 8, 8, .rw, 0, []⟩, ⟨"INIT_GATES", 7, 0, .rw, 255, []⟩]⟩,
  ⟨"GATE_ADMIN_BASE_SEC_LO", 0x044, 1, 4, [⟨"SEC", 31, 0, .rw, 0, []⟩]⟩,
  ⟨"GATE_ADMIN_BASE_SEC_HI", 0x048, 1, 4, [⟨"SEC", 15, 0, .rw, 0, []⟩]⟩,
  ⟨"GATE_ADMIN_BASE_NS", 0x04C, 1, 4, [⟨"NS", 31, 0, .rw, 0, []⟩]⟩,
  ⟨"GATE_ADMIN_CYCLE", 0x050, 1, 4, [⟨"NS", 29, 0, .rw, 0xf4240, []⟩]⟩,
  ⟨"GATE_ADMIN_LEN", 0x054, 1, 4, [⟨"LEN", 8, 0, .rw, 1, []⟩]⟩,
  ⟨"GATE_CMD", 0x058, 1, 4, [⟨"CANCEL", 1, 1, .wo, 0, []⟩, ⟨"CHANGE", 0, 0, .wo, 0, []⟩]⟩,
  ⟨"GATE_STATE", 0x05C, 1, 4, [⟨"ADJUSTED", 2, 2, .ro, 0, []⟩, ⟨"PENDING", 1, 1, .ro, 0, []⟩, ⟨"OPER", 0, 0, .ro, 0, []⟩]⟩,
  ⟨"GATE_START_SEC_LO", 0x060, 1, 4, [⟨"SEC", 31, 0, .ro, 0, []⟩]⟩,
  ⟨"GATE_START_SEC_HI", 0x064, 1, 4, [⟨"SEC", 15, 0, .ro, 0, []⟩]⟩,
  ⟨"GATE_START_NS", 0x068, 1, 4, [⟨"NS", 31, 0, .ro, 0, []⟩]⟩,
  ⟨"GATE_OPER_CYCLE", 0x06C, 1, 4, [⟨"NS", 29, 0, .ro, 0, []⟩]⟩,
  ⟨"GATE_OPER_LEN", 0x070, 1, 4, [⟨"LEN", 8, 0, .ro, 0, []⟩]⟩,
  ⟨"GATE_CUR", 0x074, 1, 4, [⟨"GATES", 31, 24, .ro, 255, []⟩, ⟨"ENTRY", 7, 0, .ro, 0, []⟩]⟩,
  ⟨"GATE_CHANGE_CNT", 0x078, 1, 4, [⟨"COUNT", 31, 0, .rc, 0, []⟩]⟩,
  ⟨"GATE_ADMIN", 0x400, 256, 4, [⟨"GATES", 31, 24, .rw, 0, []⟩, ⟨"INTERVAL", 23, 0, .rw, 0, []⟩]⟩,
  ⟨"GATE_OPER", 0x800, 256, 4, [⟨"GATES", 31, 24, .ro, 0, []⟩, ⟨"INTERVAL", 23, 0, .ro, 0, []⟩]⟩]

/-- Block registers of the PCM pages (R385). -/
def regsPCM : List RegSpec := [
  ⟨"PCM_GROUP_CFG", 0x040, 1, 4, [⟨"EN", 31, 31, .rw, 0, []⟩, ⟨"MASTER", 30, 30, .rw, 0, []⟩, ⟨"RATE", 29, 28, .rw, 0, [(0, 2)]⟩, ⟨"FS_POL", 27, 27, .rw, 0, []⟩, ⟨"FS_LONG", 26, 26, .rw, 0, []⟩, ⟨"CLK_EDGE", 25, 25, .rw, 0, []⟩, ⟨"FS_PHASE", 11, 0, .rw, 0, [(0, 3071)]⟩]⟩,
  ⟨"PCM_HWY_CFG", 0x044, 1, 4, [⟨"IDLE", 23, 16, .rw, 213, []⟩, ⟨"TRISTATE", 8, 8, .rw, 1, []⟩, ⟨"EN", 3, 3, .rw, 0, []⟩, ⟨"BIT_OFFSET", 2, 0, .rw, 0, []⟩]⟩,
  ⟨"PCM_STATUS", 0x048, 1, 4, [⟨"FS_STATE", 17, 16, .ro, 0, []⟩, ⟨"LEGS", 7, 0, .ro, 0, []⟩]⟩,
  ⟨"PCM_SLIP_FAST_CNT", 0x050, 1, 4, [⟨"COUNT", 31, 0, .rc, 0, []⟩]⟩,
  ⟨"PCM_SLIP_SLOW_CNT", 0x054, 1, 4, [⟨"COUNT", 31, 0, .rc, 0, []⟩]⟩,
  ⟨"PCM_FS_LOSS_CNT", 0x058, 1, 4, [⟨"COUNT", 31, 0, .rc, 0, []⟩]⟩,
  ⟨"PCM_FRAME_ERR_CNT", 0x05C, 1, 4, [⟨"COUNT", 31, 0, .rc, 0, []⟩]⟩,
  ⟨"PCM_ZERO_BEATS_CNT", 0x060, 1, 4, [⟨"COUNT", 31, 0, .rc, 0, []⟩]⟩,
  ⟨"PCM_FIFO", 0x064, 1, 4, [⟨"CORR", 31, 16, .ro, 0, []⟩, ⟨"TX_UNDER", 1, 1, .w1c, 0, []⟩, ⟨"RX_OVR", 0, 0, .w1c, 0, []⟩]⟩,
  ⟨"PCM_SLOT_OWNER", 0x200, 128, 4, [⟨"OWNER", 17, 0, .ro, 0, []⟩]⟩]

/-- Block registers of the RING page (R402). -/
def regsRING : List RegSpec := [
  ⟨"RING_RUNNING", 0x040, 1, 4, [⟨"COUNT", 8, 0, .ro, 0, []⟩]⟩,
  ⟨"RING_QUEUES", 0x044, 1, 4, [⟨"COUNT", 18, 0, .ro, 0x40100, []⟩]⟩,
  ⟨"RING_ORPHAN_CNT", 0x048, 1, 4, [⟨"COUNT", 31, 0, .rc, 0, []⟩]⟩,
  ⟨"RING_STOP_DROP_CNT", 0x04C, 1, 4, [⟨"COUNT", 31, 0, .rc, 0, []⟩]⟩,
  ⟨"RING_FULL_DROP_CNT", 0x050, 1, 4, [⟨"COUNT", 31, 0, .rc, 0, []⟩]⟩,
  ⟨"RING_DB_ERR_CNT", 0x054, 1, 4, [⟨"COUNT", 31, 0, .rc, 0, []⟩]⟩,
  ⟨"RING_DB_LAST", 0x058, 1, 4, [⟨"RING", 7, 0, .ro, 0, []⟩]⟩,
  ⟨"RING_HOSTQ_WEIGHT", 0x05C, 1, 4, [⟨"WEIGHT", 7, 0, .rw, 16, [(1, 255)]⟩]⟩,
  ⟨"RING_FIFO_DROP_CNT", 0x060, 1, 4, [⟨"COUNT", 31, 0, .rc, 0, []⟩]⟩,
  ⟨"RING_MACFIFO", 0x080, 8, 4, [⟨"CORR", 31, 16, .ro, 0, []⟩, ⟨"UNCORR", 1, 1, .w1c, 0, []⟩, ⟨"OVR", 0, 0, .w1c, 0, []⟩]⟩]

/-- Block registers of the RINGS pages (R404). -/
def regsRINGS : List RegSpec := [
  ⟨"RING_BASE_LO", 0x100, 32, 32, [⟨"ADDR", 31, 12, .rw, 0, []⟩]⟩,
  ⟨"RING_BASE_HI", 0x104, 32, 32, [⟨"ADDR", 31, 0, .rw, 0, []⟩]⟩,
  ⟨"RING_CFG", 0x108, 32, 32, [⟨"COAL", 15, 8, .rw, 1, [(1, 255)]⟩, ⟨"DIR", 5, 5, .rw, 0, []⟩, ⟨"LOG2SIZE", 4, 0, .rw, 6, []⟩]⟩,
  ⟨"RING_CTRL", 0x10C, 32, 32, [⟨"FLUSH", 1, 1, .wo, 0, []⟩, ⟨"EN", 0, 0, .rw, 0, []⟩]⟩,
  ⟨"RING_HEAD", 0x110, 32, 32, [⟨"COUNT", 31, 0, .ro, 0, []⟩]⟩,
  ⟨"RING_TAIL", 0x114, 32, 32, [⟨"COUNT", 31, 0, .ro, 0, []⟩]⟩,
  ⟨"RING_STATUS", 0x118, 32, 32, [⟨"RUNNING", 8, 8, .ro, 0, []⟩, ⟨"CAUSE", 1, 0, .ro, 0, []⟩]⟩,
  ⟨"RING_DROP_CNT", 0x11C, 32, 32, [⟨"COUNT", 31, 0, .rc, 0, []⟩]⟩]

/-- Block registers of the MDM page (R432). -/
def regsMDM0 : List RegSpec := [
  ⟨"MDM_CFG", 0x040, 1, 4, [⟨"RX_MUTE", 18, 18, .rwt, 0, []⟩, ⟨"NOTCH_EN", 16, 16, .rwt, 0, []⟩, ⟨"CAPTURE_DB", 12, 8, .rwt, 6, [(0, 20)]⟩, ⟨"TX_LEVEL", 4, 0, .rwt, 12, [(9, 30)]⟩]⟩,
  ⟨"MDM_FAX_CFG", 0x044, 1, 4, [⟨"MAX_DGRAM", 26, 16, .rwt, 0x140, [(72, 1400)]⟩, ⟨"FAX_MON", 12, 12, .rwt, 0, []⟩, ⟨"MAX_MOD", 11, 8, .rwt, 8, [(0, 8)]⟩, ⟨"REDUND", 5, 4, .rwt, 2, []⟩, ⟨"RATE_MGMT", 2, 2, .rwt, 1, []⟩, ⟨"VERSION", 1, 0, .rwt, 0, [(0, 2)]⟩]⟩,
  ⟨"MDM_FAX_HOLD", 0x048, 1, 4, [⟨"HOLD_MS", 7, 0, .rwt, 60, [(20, 200)]⟩]⟩,
  ⟨"MDM_TX_CMD", 0x04C, 1, 4, [⟨"RATE", 21, 20, .wo, 0, []⟩, ⟨"MAP", 19, 16, .wo, 0, []⟩, ⟨"CHANNEL", 15, 0, .wo, 0, []⟩]⟩,
  ⟨"MDM_TX_LEN", 0x050, 1, 4, [⟨"TAG", 31, 16, .rw, 0, []⟩, ⟨"LEN", 8, 0, .rw, 0, []⟩]⟩,
  ⟨"MDM_MAP_CMD", 0x054, 1, 4, [⟨"OP", 17, 16, .wo, 0, []⟩, ⟨"MAP", 15, 12, .wo, 0, []⟩, ⟨"SESSION", 11, 0, .wo, 0, []⟩]⟩,
  ⟨"MDM_STAT_CHAN", 0x058, 1, 4, [⟨"CHANNEL", 15, 0, .wo, 0, []⟩]⟩,
  ⟨"MDM_SESS_TALDY", 0x05C, 1, 4, [⟨"COUNT", 12, 0, .ro, 0, []⟩]⟩,
  ⟨"MDM_SESS_FAX", 0x060, 1, 4, [⟨"COUNT", 11, 0, .ro, 0, []⟩]⟩,
  ⟨"MDM_RX_OK_CNT", 0x064, 1, 4, [⟨"COUNT", 31, 0, .rc, 0, []⟩]⟩,
  ⟨"MDM_HDR_FAIL_CNT", 0x068, 1, 4, [⟨"COUNT", 31, 0, .rc, 0, []⟩]⟩,
  ⟨"MDM_CHECK_FAIL_CNT", 0x06C, 1, 4, [⟨"COUNT", 31, 0, .rc, 0, []⟩]⟩,
  ⟨"MDM_TRUNC_CNT", 0x070, 1, 4, [⟨"COUNT", 31, 0, .rc, 0, []⟩]⟩,
  ⟨"MDM_CAPTURE_CNT", 0x074, 1, 4, [⟨"COUNT", 31, 0, .rc, 0, []⟩]⟩,
  ⟨"MDM_RESTART_CNT", 0x078, 1, 4, [⟨"COUNT", 31, 0, .rc, 0, []⟩]⟩,
  ⟨"MDM_RX_ABORT_CNT", 0x07C, 1, 4, [⟨"COUNT", 31, 0, .rc, 0, []⟩]⟩,
  ⟨"MDM_TX_CNT", 0x080, 1, 4, [⟨"COUNT", 31, 0, .rc, 0, []⟩]⟩,
  ⟨"MDM_TX_ABORT_CNT", 0x084, 1, 4, [⟨"COUNT", 31, 0, .rc, 0, []⟩]⟩,
  ⟨"MDM_FAX_IFP_LOST_CNT", 0x088, 1, 4, [⟨"COUNT", 31, 0, .rc, 0, []⟩]⟩,
  ⟨"MDM_FAX_UNDERRUN_CNT", 0x08C, 1, 4, [⟨"COUNT", 31, 0, .rc, 0, []⟩]⟩]

/-- Block registers of the MDM page (R432). -/
def regsMDM1 : List RegSpec := [
  ⟨"MDM_TRELLIS_LAST", 0x090, 1, 4, [⟨"BITS", 31, 0, .ro, 0, []⟩]⟩,
  ⟨"MDM_MASK", 0x0C0, 6, 4, [⟨"GAIN3", 29, 24, .rwt, 0, [(0, 60)]⟩, ⟨"GAIN2", 21, 16, .rwt, 0, [(0, 60)]⟩, ⟨"GAIN1", 13, 8, .rwt, 0, [(0, 60)]⟩, ⟨"GAIN0", 5, 0, .rwt, 0, [(0, 60)]⟩]⟩,
  ⟨"MDM_MAP_DATA", 0x100, 12, 4, [⟨"GAIN1", 25, 20, .rw, 0, []⟩, ⟨"BITS1", 18, 16, .rw, 0, []⟩, ⟨"GAIN0", 9, 4, .rw, 0, []⟩, ⟨"BITS0", 2, 0, .rw, 0, []⟩]⟩,
  ⟨"MDM_ST_STATUS", 0x180, 1, 4, [⟨"FAX_MOD", 31, 24, .ro, 0, []⟩, ⟨"FAX_STATE", 23, 20, .ro, 0, []⟩, ⟨"TX_STATE", 19, 18, .ro, 0, []⟩, ⟨"RX_STATE", 17, 16, .ro, 0, []⟩, ⟨"FAX", 10, 10, .ro, 0, []⟩, ⟨"TALDY", 9, 9, .ro, 0, []⟩, ⟨"VALID", 8, 8, .ro, 0, []⟩, ⟨"STATUS", 7, 0, .ro, 0, []⟩]⟩,
  ⟨"MDM_ST_RX", 0x184, 1, 4, [⟨"SNR", 31, 24, .ro, 0, []⟩, ⟨"LEVEL", 23, 16, .ro, 0, []⟩, ⟨"SESSION", 11, 0, .ro, 0, []⟩]⟩,
  ⟨"MDM_ST_BEAT", 0x188, 1, 4, [⟨"N", 31, 0, .ro, 0, []⟩]⟩,
  ⟨"MDM_TX_BUF", 0x200, 64, 4, [⟨"BYTES", 31, 0, .rw, 0, []⟩]⟩]

/-- Block registers of the ARC page (R452). -/
def regsARC0 : List RegSpec := [
  ⟨"ARC_CFG", 0x040, 1, 4, [⟨"DYNAMIC", 0, 0, .rwt, 1, []⟩]⟩,
  ⟨"ARC_CMD", 0x044, 1, 4, [⟨"OP", 31, 28, .wo, 0, []⟩, ⟨"SEGMENT", 14, 0, .wo, 0, []⟩]⟩,
  ⟨"ARC_ARG_OFFSET", 0x048, 1, 4, [⟨"BYTES", 14, 0, .rw, 0, []⟩]⟩,
  ⟨"ARC_ARG_LEN", 0x04C, 1, 4, [⟨"BYTES", 15, 0, .rw, 0, []⟩]⟩,
  ⟨"ARC_ARG_ADDR_LO", 0x050, 1, 4, [⟨"ADDR", 31, 0, .rw, 0, []⟩]⟩,
  ⟨"ARC_ARG_ADDR_HI", 0x054, 1, 4, [⟨"ADDR", 31, 0, .rw, 0, []⟩]⟩,
  ⟨"ARC_RES_SEG", 0x058, 1, 4, [⟨"SSTATE", 31, 30, .ro, 0, []⟩, ⟨"STREAM", 27, 16, .ro, 0, []⟩, ⟨"USED", 15, 0, .ro, 0, []⟩]⟩,
  ⟨"ARC_RES_DEC", 0x05C, 1, 4, [⟨"CAUSE", 31, 28, .ro, 0, []⟩, ⟨"SAMPLES", 12, 0, .ro, 0, []⟩]⟩,
  ⟨"ARC_DONE0", 0x060, 1, 4, [⟨"VALID", 31, 31, .rc, 0, []⟩, ⟨"END", 30, 30, .rc, 0, []⟩, ⟨"ABANDON", 29, 29, .rc, 0, []⟩, ⟨"STREAM", 27, 16, .rc, 0, []⟩, ⟨"SEGMENT", 14, 0, .rc, 0, []⟩]⟩,
  ⟨"ARC_DONE1", 0x064, 1, 4, [⟨"SEG_SEQ", 31, 16, .ro, 0, []⟩, ⟨"USED", 15, 0, .ro, 0, []⟩]⟩,
  ⟨"ARC_DONE_CNT", 0x068, 1, 4, [⟨"COUNT", 8, 0, .ro, 0, []⟩]⟩,
  ⟨"ARC_DONE_LOST", 0x06C, 1, 4, [⟨"COUNT", 31, 0, .rc, 0, []⟩]⟩,
  ⟨"ARC_SEGS", 0x070, 1, 4, [⟨"COUNT", 14, 0, .ro, 0, []⟩]⟩,
  ⟨"ARC_CHAIN_LEN", 0x074, 1, 4, [⟨"COUNT", 14, 0, .ro, 0, []⟩]⟩,
  ⟨"ARC_CHAIN_LOW", 0x078, 1, 4, [⟨"COUNT", 14, 0, .rw, 0x400, []⟩]⟩,
  ⟨"ARC_STREAMS", 0x07C, 1, 4, [⟨"COUNT", 12, 0, .ro, 0, []⟩]⟩,
  ⟨"ARC_IN_BYTES", 0x080, 1, 4, [⟨"BYTES", 31, 0, .ro, 0, []⟩]⟩,
  ⟨"ARC_BLOCK_CNT", 0x084, 1, 4, [⟨"COUNT", 31, 0, .ro, 0, []⟩]⟩,
  ⟨"ARC_ABANDON_CNT", 0x088, 1, 4, [⟨"COUNT", 31, 0, .rc, 0, []⟩]⟩,
  ⟨"ARC_STALL_CNT", 0x08C, 1, 4, [⟨"COUNT", 31, 0, .rc, 0, []⟩]⟩]

/-- Block registers of the ARC page (R452). -/
def regsARC1 : List RegSpec := [
  ⟨"ARC_CHECK_FAIL_CNT", 0x090, 1, 4, [⟨"COUNT", 31, 0, .rc, 0, []⟩]⟩]

/-- Block registers of the MEM page (R476). -/
def regsMEM : List RegSpec := [
  ⟨"MEM_CFG", 0x040, 1, 4, [⟨"DENSITY", 4, 4, .ro, 0, []⟩, ⟨"RATE", 0, 0, .ro, 0, []⟩]⟩,
  ⟨"MEM_STATE", 0x044, 1, 4, [⟨"DEGRADED", 16, 16, .ro, 0, []⟩, ⟨"LOST", 11, 8, .ro, 0, []⟩, ⟨"DEV_OK", 7, 4, .ro, 0, []⟩, ⟨"STATE", 1, 0, .ro, 0, []⟩]⟩,
  ⟨"MEM_TRAIN_MS", 0x048, 1, 4, [⟨"MS", 7, 0, .ro, 0, []⟩]⟩,
  ⟨"MEM_DEV_TEMP", 0x050, 4, 4, [⟨"TEMP", 7, 0, .ro, 0, []⟩]⟩,
  ⟨"MEM_DEV_CORR_CNT", 0x060, 4, 4, [⟨"COUNT", 31, 0, .rc, 0, []⟩]⟩,
  ⟨"MEM_EDC_RETRY_CNT", 0x070, 1, 4, [⟨"COUNT", 31, 0, .rc, 0, []⟩]⟩,
  ⟨"MEM_UNCORR_CNT", 0x074, 1, 4, [⟨"COUNT", 31, 0, .rc, 0, []⟩]⟩,
  ⟨"MEM_UNCORR_ADDR_LO", 0x078, 1, 4, [⟨"ADDR", 31, 0, .ro, 0, []⟩]⟩,
  ⟨"MEM_UNCORR_ADDR_HI", 0x07C, 1, 4, [⟨"ADDR", 0, 0, .ro, 0, []⟩]⟩,
  ⟨"MEM_SCRUB", 0x080, 1, 4, [⟨"PASS_H", 7, 0, .rw, 24, [(1, 168)]⟩]⟩,
  ⟨"MEM_SCRUB_POS", 0x084, 1, 4, [⟨"SECTOR", 24, 0, .ro, 0, []⟩]⟩,
  ⟨"MEM_SCRUB_PASSES", 0x088, 1, 4, [⟨"COUNT", 31, 0, .ro, 0, []⟩]⟩,
  ⟨"MEM_BW_LAST", 0x08C, 1, 4, [⟨"BYTES", 31, 0, .ro, 0, []⟩]⟩,
  ⟨"MEM_BW_HWM", 0x090, 1, 4, [⟨"BYTES", 31, 0, .rc, 0, []⟩]⟩,
  ⟨"MEM_XFER_OFFSET", 0x094, 1, 4, [⟨"BYTES", 28, 0, .rw, 0, []⟩]⟩,
  ⟨"MEM_XFER_ADDR_LO", 0x098, 1, 4, [⟨"ADDR", 31, 0, .rw, 0, []⟩]⟩,
  ⟨"MEM_XFER_ADDR_HI", 0x09C, 1, 4, [⟨"ADDR", 31, 0, .rw, 0, []⟩]⟩,
  ⟨"MEM_XFER_CMD", 0x0A0, 1, 4, [⟨"OP", 31, 28, .wo, 0, []⟩, ⟨"LEN", 16, 0, .wo, 0, []⟩]⟩]

/-- Block registers of the STRIPE page (R478). -/
def regsSTRIPE : List RegSpec := [
  ⟨"STRIPE_XLAT_LO", 0x040, 1, 4, [⟨"ADDR", 31, 0, .rw, 0, []⟩]⟩,
  ⟨"STRIPE_XLAT_HI", 0x044, 1, 4, [⟨"ADDR", 0, 0, .rw, 0, []⟩]⟩,
  ⟨"STRIPE_XLAT_RES", 0x048, 1, 4, [⟨"VALID", 31, 31, .ro, 0, []⟩, ⟨"REMAPPED", 30, 30, .ro, 0, []⟩, ⟨"DDEV", 27, 26, .ro, 0, []⟩, ⟨"PDEV", 25, 24, .ro, 0, []⟩]⟩,
  ⟨"STRIPE_XLAT_DADDR", 0x04C, 1, 4, [⟨"D", 30, 0, .ro, 0, []⟩]⟩,
  ⟨"STRIPE_RECON_CNT", 0x050, 1, 4, [⟨"COUNT", 31, 0, .rc, 0, []⟩]⟩,
  ⟨"STRIPE_PARTIAL_CNT", 0x054, 1, 4, [⟨"COUNT", 31, 0, .ro, 0, []⟩]⟩,
  ⟨"STRIPE_CHECK_FAIL_CNT", 0x058, 1, 4, [⟨"COUNT", 31, 0, .rc, 0, []⟩]⟩,
  ⟨"STRIPE_LOSS_THR", 0x05C, 1, 4, [⟨"CORR_PER_BEAT", 7, 0, .rw, 64, [(8, 255)]⟩]⟩]

/-- Block registers of the RETIRE page (R480). -/
def regsRETIRE : List RegSpec := [
  ⟨"RETIRE_CMD", 0x040, 1, 4, [⟨"OP", 31, 28, .wo, 0, []⟩, ⟨"ENTRY", 11, 0, .wo, 0, []⟩]⟩,
  ⟨"RETIRE_FRAME", 0x044, 1, 4, [⟨"FRAME", 20, 0, .rw, 0, []⟩]⟩,
  ⟨"RETIRE_USED", 0x048, 1, 4, [⟨"COUNT", 12, 0, .ro, 0, []⟩]⟩,
  ⟨"RETIRE_POOL_BAD", 0x04C, 1, 4, [⟨"COUNT", 14, 0, .ro, 0, []⟩]⟩,
  ⟨"RETIRE_THR", 0x050, 1, 4, [⟨"CORR", 3, 0, .rw, 2, [(1, 8)]⟩]⟩,
  ⟨"RETIRE_CNT", 0x054, 1, 4, [⟨"COUNT", 31, 0, .rc, 0, []⟩]⟩,
  ⟨"RETIRE_RES_FRAME", 0x058, 1, 4, [⟨"VALID", 31, 31, .ro, 0, []⟩, ⟨"FRAME", 20, 0, .ro, 0, []⟩]⟩,
  ⟨"RETIRE_RES_POOL", 0x05C, 1, 4, [⟨"POOL", 13, 0, .ro, 0, []⟩]⟩,
  ⟨"RETIRE_RES_POISON_LO", 0x060, 1, 4, [⟨"MASK", 31, 0, .ro, 0, []⟩]⟩,
  ⟨"RETIRE_RES_POISON_HI", 0x064, 1, 4, [⟨"MASK", 31, 0, .ro, 0, []⟩]⟩]

/-- Block registers of the REL page (R499). -/
def regsREL : List RegSpec := [
  ⟨"REL_STATE", 0x040, 1, 4, [⟨"GUARANTEE", 31, 31, .ro, 0, []⟩, ⟨"NOTOL", 16, 0, .ro, 0, []⟩]⟩,
  ⟨"REL_LAST_FAULT", 0x044, 1, 4, [⟨"INJECTED", 31, 31, .ro, 0, []⟩, ⟨"CLASS", 28, 24, .ro, 0, []⟩, ⟨"CLUSTER", 23, 20, .ro, 0, []⟩, ⟨"INDEX", 19, 16, .ro, 0, []⟩, ⟨"DETECT", 7, 0, .ro, 0, []⟩]⟩,
  ⟨"REL_LAST_BEAT", 0x048, 1, 4, [⟨"N", 31, 0, .ro, 0, []⟩]⟩,
  ⟨"REL_UNRESOLVED_CNT", 0x04C, 1, 4, [⟨"COUNT", 31, 0, .rc, 0, []⟩]⟩,
  ⟨"REL_CORE_SEL", 0x050, 1, 4, [⟨"CLUSTER", 7, 4, .rw, 0, []⟩, ⟨"CORE", 3, 0, .rw, 0, [(0, 9)]⟩]⟩,
  ⟨"REL_CORE_RES", 0x054, 1, 4, [⟨"TOTAL", 31, 16, .ro, 0, []⟩, ⟨"ROLE", 9, 8, .ro, 0, []⟩, ⟨"FAULTS_24H", 7, 0, .ro, 0, []⟩]⟩,
  ⟨"REL_CORE_LAST", 0x058, 1, 4, [⟨"N", 31, 0, .ro, 0, []⟩]⟩,
  ⟨"REL_INJECT", 0x05C, 1, 4, [⟨"CODE", 31, 28, .wo, 0, []⟩, ⟨"CLUSTER", 23, 20, .wo, 0, []⟩, ⟨"CORE", 19, 16, .wo, 0, []⟩]⟩,
  ⟨"REL_INV", 0x100, 17, 4, [⟨"NO_TOL", 31, 31, .ro, 0, []⟩, ⟨"LEFT", 30, 16, .ro, 0, []⟩, ⟨"TOTAL", 14, 0, .ro, 0, []⟩]⟩,
  ⟨"REL_FAULT_CNT", 0x180, 17, 4, [⟨"COUNT", 31, 0, .rc, 0, []⟩]⟩]

/-- Block registers of the MGMT page (R527). -/
def regsMGMT : List RegSpec := [
  ⟨"MGMT_STATE", 0x040, 1, 4, [⟨"RESTARTS", 15, 8, .ro, 0, []⟩, ⟨"LIB_SLOT", 5, 5, .ro, 0, []⟩, ⟨"FW_SLOT", 4, 4, .ro, 0, []⟩, ⟨"KSTATE", 1, 0, .ro, 0, []⟩]⟩,
  ⟨"MGMT_FW_VER", 0x044, 1, 4, [⟨"VERSION", 31, 0, .ro, 0, []⟩]⟩,
  ⟨"MGMT_LIB_VER", 0x048, 1, 4, [⟨"VERSION", 31, 0, .ro, 0, []⟩]⟩,
  ⟨"MGMT_SVN", 0x04C, 1, 4, [⟨"LIB", 13, 8, .ro, 0, []⟩, ⟨"FW", 5, 0, .ro, 0, []⟩]⟩,
  ⟨"MGMT_ROT", 0x050, 1, 4, [⟨"ACTIVE", 31, 31, .ro, 0, []⟩, ⟨"WAIT", 30, 30, .ro, 0, []⟩, ⟨"CUR", 19, 16, .ro, 0, []⟩, ⟨"DONE", 4, 0, .ro, 0, []⟩]⟩,
  ⟨"MGMT_NET_CTRL", 0x054, 1, 4, [⟨"MIN_COLOUR", 7, 6, .rw, 2, []⟩, ⟨"MODE", 4, 4, .rw, 0, []⟩, ⟨"EN", 0, 0, .rw, 0, []⟩]⟩,
  ⟨"MGMT_NET_IP", 0x058, 1, 4, [⟨"ADDR", 31, 0, .rw, 0, []⟩]⟩,
  ⟨"MGMT_NET_COLL", 0x05C, 1, 4, [⟨"ADDR", 31, 0, .rw, 0, []⟩]⟩,
  ⟨"MGMT_NET_PORT", 0x060, 1, 4, [⟨"PORT", 15, 0, .rw, 0x202, []⟩]⟩,
  ⟨"MGMT_NET_DROP", 0x064, 1, 4, [⟨"COUNT", 31, 0, .rc, 0, []⟩]⟩,
  ⟨"MBX_CMD", 0x070, 1, 4, [⟨"OP", 31, 24, .wo, 0, []⟩, ⟨"LEN", 11, 0, .wo, 0, []⟩]⟩,
  ⟨"MBX_ARG", 0x074, 3, 4, [⟨"ARG", 31, 0, .rw, 0, []⟩]⟩,
  ⟨"MBX_RES", 0x080, 2, 4, [⟨"RES", 31, 0, .ro, 0, []⟩]⟩,
  ⟨"MBX_DATA", 0x800, 512, 4, [⟨"BYTES", 31, 0, .rw, 0, []⟩]⟩]

/-- Block registers of the SENSOR page (R529). -/
def regsSENSOR : List RegSpec := [
  ⟨"SENSOR_T_WARN", 0x040, 1, 4, [⟨"C", 7, 0, .rw, 95, [(60, 125)]⟩]⟩,
  ⟨"SENSOR_T_CRIT", 0x044, 1, 4, [⟨"C", 7, 0, .rw, 103, [(60, 125)]⟩]⟩,
  ⟨"SENSOR_T_HYST", 0x048, 1, 4, [⟨"C", 3, 0, .rw, 3, [(1, 15)]⟩]⟩,
  ⟨"SENSOR_T_TRIP", 0x04C, 1, 4, [⟨"C", 7, 0, .ro, 115, []⟩]⟩,
  ⟨"SENSOR_V_LIMITS", 0x050, 1, 4, [⟨"CRIT_PCT", 15, 8, .rw, 6, [(2, 15)]⟩, ⟨"WARN_PCT", 7, 0, .rw, 3, [(1, 10)]⟩]⟩,
  ⟨"SENSOR_VCORE_TGT", 0x054, 1, 4, [⟨"MV", 9, 0, .ro, 0x2ee, []⟩]⟩,
  ⟨"SENSOR_PLL", 0x058, 1, 4, [⟨"FAULT", 13, 8, .w1c, 0, []⟩, ⟨"LOCK", 5, 0, .ro, 0, []⟩]⟩,
  ⟨"SENSOR_HOTTEST", 0x05C, 1, 4, [⟨"SITE", 20, 16, .ro, 0, []⟩, ⟨"TEMP", 15, 0, .ro, 0, []⟩]⟩,
  ⟨"SENSOR_TEMP", 0x100, 12, 4, [⟨"FAILED", 19, 19, .ro, 0, []⟩, ⟨"TWIN", 18, 18, .ro, 0, []⟩, ⟨"CRIT", 17, 17, .ro, 0, []⟩, ⟨"WARN", 16, 16, .ro, 0, []⟩, ⟨"TEMP", 15, 0, .ro, 0, []⟩]⟩,
  ⟨"SENSOR_VOLT", 0x140, 8, 4, [⟨"FAILED", 19, 19, .ro, 0, []⟩, ⟨"TWIN", 18, 18, .ro, 0, []⟩, ⟨"CRIT", 17, 17, .ro, 0, []⟩, ⟨"WARN", 16, 16, .ro, 0, []⟩, ⟨"MV", 15, 0, .ro, 0, []⟩]⟩]

/-- Block registers of the LOG page (R531). -/
def regsLOG : List RegSpec := [
  ⟨"LOG_CTRL", 0x040, 1, 4, [⟨"SLATE", 0, 0, .rw, 0, []⟩]⟩,
  ⟨"LOG_WR_SEQ", 0x044, 1, 4, [⟨"SEQ", 31, 0, .ro, 0, []⟩]⟩,
  ⟨"LOG_OLDEST", 0x048, 3, 4, [⟨"SEQ", 31, 0, .ro, 0, []⟩]⟩,
  ⟨"LOG_RD_STORE", 0x054, 1, 4, [⟨"STORE", 1, 0, .rw, 0, [(0, 2)]⟩]⟩,
  ⟨"LOG_RD_SEQ", 0x058, 1, 4, [⟨"SEQ", 31, 0, .wo, 0, []⟩]⟩,
  ⟨"LOG_LOST_CNT", 0x05C, 1, 4, [⟨"COUNT", 31, 0, .rc, 0, []⟩]⟩,
  ⟨"LOG_NOTE_DATA", 0x060, 2, 4, [⟨"DATA", 31, 0, .rw, 0, []⟩]⟩,
  ⟨"LOG_NOTE", 0x068, 1, 4, [⟨"COLOUR", 1, 0, .wo, 0, []⟩]⟩,
  ⟨"LOG_RD_DATA", 0x070, 8, 4, [⟨"BYTES", 31, 0, .ro, 0, []⟩]⟩]

/-- Block registers of the LIFE page (R532). -/
def regsLIFE : List RegSpec := [
  ⟨"LIFE_STATE", 0x040, 1, 4, [⟨"LAST", 10, 8, .ro, 0, []⟩, ⟨"RETURNS", 5, 4, .ro, 0, []⟩, ⟨"STATE", 2, 0, .ro, 0, []⟩]⟩,
  ⟨"LIFE_CMD", 0x044, 1, 4, [⟨"CONFIRM", 31, 16, .wo, 0, []⟩, ⟨"TARGET", 2, 0, .wo, 0, []⟩]⟩,
  ⟨"LIFE_CHALLENGE", 0x048, 2, 4, [⟨"NONCE", 31, 0, .ro, 0, []⟩]⟩,
  ⟨"LIFE_JTAG", 0x050, 1, 4, [⟨"ACCESS", 1, 0, .ro, 0, []⟩]⟩]

/-- Block registers of the IO page (R576). -/
def regsIO : List RegSpec := [
  ⟨"IO_CTRL", 0x040, 1, 4, [⟨"MON_EN", 9, 9, .rw, 0, []⟩, ⟨"CLK25_EN", 8, 8, .rw, 1, []⟩, ⟨"MOD", 5, 4, .rw, 1, []⟩, ⟨"SSC", 3, 0, .rw, 0, [(0, 10)]⟩]⟩,
  ⟨"IO_SLEW", 0x044, 1, 4, [⟨"MGMT", 7, 6, .rw, 1, []⟩, ⟨"GPIO", 5, 4, .rw, 1, []⟩, ⟨"TIME", 3, 2, .rw, 1, []⟩, ⟨"PCM", 1, 0, .rw, 1, []⟩]⟩,
  ⟨"IO_STRAP", 0x048, 1, 4, [⟨"STRAPS", 4, 0, .ro, 0, []⟩]⟩,
  ⟨"IO_GPIO_IN", 0x04C, 1, 4, [⟨"IN", 15, 0, .ro, 0, []⟩]⟩,
  ⟨"IO_GPIO_OUT", 0x050, 1, 4, [⟨"OUT", 15, 0, .rw, 0, []⟩]⟩,
  ⟨"IO_GPIO_OE", 0x054, 1, 4, [⟨"OE", 15, 0, .rw, 0, []⟩]⟩,
  ⟨"IO_GPIO_PULL", 0x058, 1, 4, [⟨"PULL", 15, 0, .rw, 0xffff, []⟩]⟩,
  ⟨"IO_GPIO_EDGE_EN", 0x05C, 1, 4, [⟨"EN", 15, 0, .rw, 0, []⟩]⟩,
  ⟨"IO_GPIO_EDGE", 0x060, 1, 4, [⟨"EDGE", 15, 0, .w1c, 0, []⟩]⟩,
  ⟨"IO_MUX", 0x080, 16, 4, [⟨"ALT", 5, 4, .rwt, 0, [(0, 2)]⟩, ⟨"USER", 1, 0, .rwt, 0, [(0, 2)]⟩]⟩]

/-- The page map of R25, first half. -/
def pagesLow : List PageSpec := [
  ⟨"DEV", 0x0000, 1, 0x0001, 0, [2], regsDEV⟩,
  ⟨"OWN", 0x0001, 1, 0x0002, 0, [2, 3, 2, 1], regsOWN⟩,
  ⟨"TXN", 0x0002, 1, 0x0003, 0, [1, 1, 1, 1, 1, 1, 1, 1, 1, 1, 1, 1, 1, 1, 1, 1, 2, 2], regsTXN⟩,
  ⟨"BEAT", 0x0003, 1, 0x0004, 0, [2, 2, 2, 1, 1, 1, 2, 1, 2], regsBEAT0 ++ regsBEAT1⟩,
  ⟨"EVT", 0x0004, 1, 0x0005, 0, [], regsEVT⟩,
  ⟨"MODE", 0x0005, 1, 0x0006, 0, [1, 1, 3, 2, 2, 2, 1, 1], regsMODE⟩,
  ⟨"CLU", 0x0010, 16, 0x0010, 1, [2, 2, 2, 1, 2], regsCLU⟩,
  ⟨"DSP", 0x0020, 1, 0x0020, 0, [2, 2], regsDSP⟩,
  ⟨"TRACE", 0x0021, 1, 0x0021, 0, [1, 2], regsTRACE⟩,
  ⟨"CHAN", 0x0030, 1, 0x0030, 0, [2, 1, 3, 2], regsCHAN⟩,
  ⟨"CODEC", 0x0031, 1, 0x0031, 0, [1, 1, 1, 2, 1], regsCODEC⟩,
  ⟨"JBUF", 0x0032, 1, 0x0032, 0, [2, 2, 1, 1, 1], regsJBUF0 ++ regsJBUF1⟩,
  ⟨"TONE", 0x0033, 1, 0x0033, 0, [1, 1, 1], regsTONE0 ++ regsTONE1⟩,
  ⟨"RATE", 0x0034, 1, 0x0034, 0, [2, 1], regsRATE⟩,
  ⟨"ECAN", 0x0035, 1, 0x0035, 0, [1, 1, 1, 1], regsECAN⟩,
  ⟨"PKT", 0x0040, 1, 0x0040, 0, [2, 3, 1], regsPKT⟩,
  ⟨"EPD", 0x0041, 1, 0x0041, 0, [2, 1], regsEPD⟩,
  ⟨"MTR", 0x0042, 1, 0x0042, 0, [1, 2], regsMTR⟩,
  ⟨"SRTP", 0x0043, 1, 0x0043, 0, [2, 3], regsSRTP⟩,
  ⟨"EGS", 0x0050, 1, 0x0050, 0, [2, 1, 1], regsEGS⟩]

/-- The page map of R25, second half. -/
def pagesHigh : List PageSpec := [
  ⟨"SHP", 0x0051, 1, 0x0051, 0, [], regsSHP⟩,
  ⟨"HWM", 0x0052, 1, 0x0052, 0, [2, 2, 1], regsHWM⟩,
  ⟨"MAC", 0x0060, 8, 0x0060, 0, [2, 2, 1, 2], regsMAC⟩,
  ⟨"LPAIR", 0x0068, 1, 0x0068, 4, [2, 3, 1], regsLPAIR⟩,
  ⟨"TIME", 0x0070, 1, 0x0070, 0, [1, 1, 1, 2, 1], regsTIME0 ++ regsTIME1⟩,
  ⟨"PTIME", 0x0071, 8, 0x0071, 0, [2, 1], regsPTIME⟩,
  ⟨"GATE", 0x0080, 8, 0x0080, 0, [1, 1], regsGATE⟩,
  ⟨"PCM", 0x0090, 16, 0x0090, 0, [3, 1, 2, 2, 2], regsPCM⟩,
  ⟨"RING", 0x00A0, 1, 0x00A0, 0, [2, 1, 2, 2], regsRING⟩,
  ⟨"RINGS", 0x00A1, 8, 0x00A1, 0, [1, 1, 1, 1, 1, 1, 1, 1, 1, 1, 1, 1, 1, 1, 1, 1, 1, 1, 1, 1, 1, 1, 1, 1, 1, 1, 1, 1, 1, 1, 1, 1], regsRINGS⟩,
  ⟨"MDM", 0x00B0, 1, 0x00B0, 0, [1, 1, 1, 2, 1], regsMDM0 ++ regsMDM1⟩,
  ⟨"ARC", 0x00B8, 1, 0x00B8, 0, [1, 2, 2, 3, 2, 1], regsARC0 ++ regsARC1⟩,
  ⟨"MEM", 0x00C0, 1, 0x00C0, 0, [3, 3, 1, 1, 1], regsMEM⟩,
  ⟨"STRIPE", 0x00C1, 1, 0x00C1, 1, [1], regsSTRIPE⟩,
  ⟨"RETIRE", 0x00C2, 1, 0x00C2, 64, [2, 3], regsRETIRE⟩,
  ⟨"REL", 0x00D0, 1, 0x00D0, 17, [1, 2, 3, 1, 2, 2, 3, 2], regsREL⟩,
  ⟨"MGMT", 0x00E0, 1, 0x00E0, 0, [1, 2, 1, 2], regsMGMT⟩,
  ⟨"SENSOR", 0x00E1, 1, 0x00E1, 0, [2, 3, 2, 3, 2, 2], regsSENSOR⟩,
  ⟨"LOG", 0x00E2, 1, 0x00E2, 0, [2], regsLOG⟩,
  ⟨"LIFE", 0x00E3, 1, 0x00E3, 0, [1, 2], regsLIFE⟩,
  ⟨"IO", 0x00F0, 1, 0x00F0, 0, [1], regsIO⟩]

/-- The page map of R25. -/
def pages : List PageSpec := pagesLow ++ pagesHigh

end Sys2Proof.Machine
end

