-- ==== Sys2Proof/Machine/RegNames.lean ====
section
/-! DEFINITION. Names for the pages, register addresses, fields and event sources of the register map:
BAR0 addresses are page index × 0x1000 + offset. -/

namespace Sys2Proof.Machine

/-- The bits [hi:lo] of a field. -/
structure Fd where
  hi : Nat
  lo : Nat
  deriving DecidableEq, Repr

/-! Page indices (R25). -/
abbrev Pg.DEV : Nat := 0x0
abbrev Pg.OWN : Nat := 0x1
abbrev Pg.TXN : Nat := 0x2
abbrev Pg.BEAT : Nat := 0x3
abbrev Pg.EVT : Nat := 0x4
abbrev Pg.MODE : Nat := 0x5
abbrev Pg.CLU (i : Nat) : Nat := 0x10 + i
abbrev Pg.DSP : Nat := 0x20
abbrev Pg.TRACE : Nat := 0x21
abbrev Pg.CHAN : Nat := 0x30
abbrev Pg.CODEC : Nat := 0x31
abbrev Pg.JBUF : Nat := 0x32
abbrev Pg.TONE : Nat := 0x33
abbrev Pg.RATE : Nat := 0x34
abbrev Pg.ECAN : Nat := 0x35
abbrev Pg.PKT : Nat := 0x40
abbrev Pg.EPD : Nat := 0x41
abbrev Pg.MTR : Nat := 0x42
abbrev Pg.SRTP : Nat := 0x43
abbrev Pg.EGS : Nat := 0x50
abbrev Pg.SHP : Nat := 0x51
abbrev Pg.HWM : Nat := 0x52
abbrev Pg.MAC (i : Nat) : Nat := 0x60 + i
abbrev Pg.LPAIR : Nat := 0x68
abbrev Pg.TIME : Nat := 0x70
abbrev Pg.PTIME (i : Nat) : Nat := 0x71 + i
abbrev Pg.GATE (i : Nat) : Nat := 0x80 + i
abbrev Pg.PCM (i : Nat) : Nat := 0x90 + i
abbrev Pg.RING : Nat := 0xA0
abbrev Pg.RINGS (i : Nat) : Nat := 0xA1 + i
abbrev Pg.MDM : Nat := 0xB0
abbrev Pg.ARC : Nat := 0xB8
abbrev Pg.MEM : Nat := 0xC0
abbrev Pg.STRIPE : Nat := 0xC1
abbrev Pg.RETIRE : Nat := 0xC2
abbrev Pg.REL : Nat := 0xD0
abbrev Pg.MGMT : Nat := 0xE0
abbrev Pg.SENSOR : Nat := 0xE1
abbrev Pg.LOG : Nat := 0xE2
abbrev Pg.LIFE : Nat := 0xE3
abbrev Pg.IO : Nat := 0xF0
/-! Common header offsets (R23), on page p. -/
abbrev Reg.PAGE_STATUS (p : Nat) : Nat := 0x1000 * p + 0xC
abbrev Reg.EVT_LATCH (p : Nat) : Nat := 0x1000 * p + 0x10
abbrev Reg.EVT_ENABLE (p : Nat) : Nat := 0x1000 * p + 0x14
abbrev Reg.EVT_FORCE (p : Nat) : Nat := 0x1000 * p + 0x18
abbrev Reg.EVT_ROUTE (p : Nat) : Nat := 0x1000 * p + 0x1C
abbrev Reg.TXN_TAG (p : Nat) : Nat := 0x1000 * p + 0x20
/-! DEV registers. -/
abbrev Reg.DEV_BADACC : Nat := 0x4C
abbrev Reg.DEV_BADACC_CNT : Nat := 0x50
/-! OWN registers. -/
abbrev Reg.OWN_CLAIM : Nat := 0x1044
abbrev Reg.OWN_HEARTBEAT : Nat := 0x1048
abbrev Reg.OWN_HANDOVER : Nat := 0x104C
abbrev Reg.OWN_RESULT_A : Nat := 0x1050
abbrev Reg.OWN_RESULT_B : Nat := 0x1054
abbrev Reg.OWN_LOSS_MS : Nat := 0x1058
abbrev Reg.OWN_HB_AGE_A : Nat := 0x105C
abbrev Reg.OWN_HB_AGE_B : Nat := 0x1060
abbrev Reg.OWN_DROP_A : Nat := 0x1064
abbrev Reg.OWN_DROP_B : Nat := 0x1068
abbrev Reg.OWN_LAST_DROP : Nat := 0x106C
/-! TXN registers. -/
abbrev Reg.TXN_OPEN : Nat := 0x2040
abbrev Reg.TXN_CUR : Nat := 0x2044
abbrev Reg.TXN_TARGET : Nat := 0x2048
abbrev Reg.TXN_COMMIT : Nat := 0x204C
abbrev Reg.TXN_ABORT : Nat := 0x2050
abbrev Reg.TXN_SEQ : Nat := 0x2054
abbrev Reg.TXN_STRAY : Nat := 0x205C
abbrev Reg.TXN_STRAY_CNT : Nat := 0x2060
abbrev Reg.TXN_CONFLICT_CNT : Nat := 0x2064
abbrev Reg.TXN_JOB_ABORT_CNT : Nat := 0x2068
abbrev Reg.TXN_JOB_REFUSED_CNT : Nat := 0x206C
/-! BEAT registers. -/
abbrev Reg.BEAT_NOW : Nat := 0x3040
abbrev Reg.BEAT_CYCLE : Nat := 0x3044
abbrev Reg.BEAT_SECPOS : Nat := 0x3048
abbrev Reg.BEAT_CUT : Nat := 0x304C
abbrev Reg.BEAT_REF_CTRL : Nat := 0x3050
abbrev Reg.BEAT_REF_STATUS : Nat := 0x3054
abbrev Reg.BEAT_PHASE_ERR : Nat := 0x3058
abbrev Reg.BEAT_FREQ : Nat := 0x305C
abbrev Reg.BEAT_SLEW : Nat := 0x3060
abbrev Reg.BEAT_STAMP_SEC_LO : Nat := 0x3064
abbrev Reg.BEAT_STAMP_SEC_HI : Nat := 0x3068
abbrev Reg.BEAT_STAMP_NS : Nat := 0x306C
abbrev Reg.BEAT_REBASE : Nat := 0x3070
abbrev Reg.BEAT_SKIP_CNT : Nat := 0x3074
abbrev Reg.BEAT_SKIP_LAST_BEAT : Nat := 0x3078
abbrev Reg.BEAT_SKIP_LAST_CHAN : Nat := 0x307C
abbrev Reg.BEAT_DONE_LAST : Nat := 0x3080
abbrev Reg.BEAT_DONE_HWM : Nat := 0x3084
abbrev Reg.BEAT_SEAL_LATE : Nat := 0x3088
abbrev Reg.BEAT_RECOV_CNT : Nat := 0x308C
abbrev Reg.BEAT_PHASE_LOAD (k : Nat) : Nat := 0x3090 + 4 * k
abbrev Reg.BEAT_EVERY_LOAD : Nat := 0x30A0
/-! EVT registers. -/
/-! MODE registers. -/
abbrev Reg.MODE_STATE : Nat := 0x5040
abbrev Reg.MODE_CMD : Nat := 0x5044
abbrev Reg.MODE_SINCE : Nat := 0x5048
abbrev Reg.MODE_TIMES : Nat := 0x504C
abbrev Reg.MODE_CONSTRAIN : Nat := 0x5054
abbrev Reg.MODE_SHED_CTRL : Nat := 0x5058
abbrev Reg.MODE_SHED_REC_CNT : Nat := 0x505C
abbrev Reg.MODE_SHED_SESS_CNT : Nat := 0x5060
abbrev Reg.MODE_SHED_CLOSE_CNT : Nat := 0x5064
abbrev Reg.MODE_SHED_LAST : Nat := 0x5068
abbrev Reg.MODE_SEAL_CFG : Nat := 0x506C
abbrev Reg.MODE_SEAL_DEADLINE : Nat := 0x5070
abbrev Reg.MODE_STANDING : Nat := 0x5074
abbrev Reg.MODE_EPD_ONCHIP : Nat := 0x507C
/-! CLU registers. -/
abbrev Reg.CLU_CYC_BEAT (i : Nat) : Nat := 0x1004C + 0x1000 * i
abbrev Reg.CLU_HOME_LIMIT (i : Nat) : Nat := 0x10058 + 0x1000 * i
abbrev Reg.CLU_CYC_LAST (i : Nat) : Nat := 0x1005C + 0x1000 * i
abbrev Reg.CLU_CYC_HWM (i : Nat) : Nat := 0x10060 + 0x1000 * i
abbrev Reg.CLU_JOBS_LAST (i : Nat) : Nat := 0x10064 + 0x1000 * i
abbrev Reg.CLU_STAGE_WAIT_CNT (i : Nat) : Nat := 0x10068 + 0x1000 * i
abbrev Reg.CLU_WB_STALL_CNT (i : Nat) : Nat := 0x1006C + 0x1000 * i
abbrev Reg.CLU_OVERRUN_CNT (i : Nat) : Nat := 0x10070 + 0x1000 * i
abbrev Reg.CLU_SAT_JOBS_CNT (i : Nat) : Nat := 0x10074 + 0x1000 * i
abbrev Reg.CLU_ECC_CORR_CNT (i : Nat) : Nat := 0x10078 + 0x1000 * i
abbrev Reg.CLU_PARTNER_CNT (i : Nat) : Nat := 0x1007C + 0x1000 * i
abbrev Reg.CLU_SRTP_PKTS (i : Nat) : Nat := 0x10080 + 0x1000 * i
/-! DSP registers. -/
abbrev Reg.DSP_PEND : Nat := 0x20040
abbrev Reg.DSP_PEND_HWM : Nat := 0x20044
abbrev Reg.DSP_HOLD : Nat := 0x20048
abbrev Reg.DSP_STEAL_THR : Nat := 0x2004C
abbrev Reg.DSP_AFF_DEPTH : Nat := 0x20050
abbrev Reg.DSP_PEND_LIMIT : Nat := 0x20054
abbrev Reg.DSP_GRANT_CNT : Nat := 0x20058
abbrev Reg.DSP_AFF_CNT : Nat := 0x2005C
abbrev Reg.DSP_STEAL_CNT : Nat := 0x20060
abbrev Reg.DSP_OLDER_CNT : Nat := 0x20064
abbrev Reg.DSP_REDISP_CNT : Nat := 0x20068
abbrev Reg.DSP_CANCEL_CNT : Nat := 0x2006C
abbrev Reg.DSP_HOLD_CNT : Nat := 0x20070
abbrev Reg.DSP_IDLE_CORES : Nat := 0x20074
/-! TRACE registers. -/
abbrev Reg.TRACE_CTRL : Nat := 0x21008
abbrev Reg.TRACE_EVT_MASK : Nat := 0x21040
abbrev Reg.TRACE_TYPE_MASK : Nat := 0x21044
abbrev Reg.TRACE_FLOW_LO : Nat := 0x21048
abbrev Reg.TRACE_FLOW_HI : Nat := 0x2104C
abbrev Reg.TRACE_MARK : Nat := 0x21050
abbrev Reg.TRACE_WR_IDX : Nat := 0x21054
abbrev Reg.TRACE_OLDEST : Nat := 0x21058
abbrev Reg.TRACE_LOST : Nat := 0x2105C
abbrev Reg.TRACE_RD_IDX : Nat := 0x21064
abbrev Reg.TRACE_RD_DATA (k : Nat) : Nat := 0x21070 + 4 * k
/-! CHAN registers. -/
abbrev Reg.CHAN_CMDBUF (k : Nat) : Nat := 0x30040 + 4 * k
abbrev Reg.CHAN_CMD_GO : Nat := 0x300A0
abbrev Reg.CHAN_CEILING : Nat := 0x300A8
abbrev Reg.CHAN_NOCAP_CNT : Nat := 0x300B0
abbrev Reg.CHAN_NOCAP_CHAN : Nat := 0x300B4
abbrev Reg.CHAN_NOCAP_INFO : Nat := 0x300B8
abbrev Reg.CHAN_MISMATCH_CNT : Nat := 0x300CC
abbrev Reg.CHAN_QSTATUS : Nat := 0x300D0
abbrev Reg.CHAN_QRES (k : Nat) : Nat := 0x30100 + 4 * k
/-! CODEC registers. -/
abbrev Reg.CODEC_RTCP : Nat := 0x31040
abbrev Reg.CODEC_CNAME (k : Nat) : Nat := 0x31044 + 4 * k
abbrev Reg.CODEC_STAT_LEG : Nat := 0x31064
abbrev Reg.CODEC_BAD_PT_CNT : Nat := 0x31068
abbrev Reg.CODEC_MALFORMED_CNT : Nat := 0x3106C
abbrev Reg.CODEC_FOREIGN_CNT : Nat := 0x31070
abbrev Reg.CODEC_SSRC_CHG_CNT : Nat := 0x31074
abbrev Reg.CODEC_VBD_CNT : Nat := 0x31078
abbrev Reg.CODEC_BYE_CNT : Nat := 0x3107C
abbrev Reg.CODEC_RTCP_TX_CNT : Nat := 0x31080
abbrev Reg.CODEC_RTCP_RX_CNT : Nat := 0x31084
abbrev Reg.CODEC_LEGS (k : Nat) : Nat := 0x310C0 + 4 * k
abbrev Reg.CODEC_ST_STATUS : Nat := 0x31100
/-! JBUF registers. -/
abbrev Reg.JBUF_CTRL : Nat := 0x32040
abbrev Reg.JBUF_TIMES : Nat := 0x32044
abbrev Reg.JBUF_STAT_LEG : Nat := 0x32048
abbrev Reg.JBUF_INBOX_DROP_CNT : Nat := 0x3204C
abbrev Reg.JBUF_LATE_CNT : Nat := 0x32050
abbrev Reg.JBUF_DUP_CNT : Nat := 0x32054
abbrev Reg.JBUF_OVF_CNT : Nat := 0x32058
abbrev Reg.JBUF_RESYNC_CNT : Nat := 0x3205C
abbrev Reg.JBUF_LIMIT_CNT : Nat := 0x32060
abbrev Reg.JBUF_LEGS : Nat := 0x32064
abbrev Reg.JBUF_ST_STATUS : Nat := 0x32100
/-! TONE registers. -/
abbrev Reg.TONE_DTMF_DET : Nat := 0x33040
abbrev Reg.TONE_DTMF_DET2 : Nat := 0x33044
abbrev Reg.TONE_DTMF_GEN : Nat := 0x33048
abbrev Reg.TONE_RELAY : Nat := 0x3304C
abbrev Reg.TONE_CLASS_EN : Nat := 0x33050
abbrev Reg.TONE_GEN_CMD : Nat := 0x33054
abbrev Reg.TONE_GEN_DIGITS0 : Nat := 0x33058
abbrev Reg.TONE_GEN_DIGITS1 : Nat := 0x3305C
abbrev Reg.TONE_DTMF_CNT : Nat := 0x33060
abbrev Reg.TONE_DESC_CNT : Nat := 0x33064
abbrev Reg.TONE_FAX_CNT : Nat := 0x33068
abbrev Reg.TONE_TALDY_CNT : Nat := 0x3306C
abbrev Reg.TONE_RELAY_TX_CNT : Nat := 0x33070
abbrev Reg.TONE_RELAY_RX_CNT : Nat := 0x33074
abbrev Reg.TONE_RELAY_TIMEOUT_CNT : Nat := 0x33078
abbrev Reg.TONE_RELAY_UNSUP_CNT : Nat := 0x3307C
abbrev Reg.TONE_GEN_CNT : Nat := 0x33080
abbrev Reg.TONE_ANN_CNT : Nat := 0x33084
abbrev Reg.TONE_DSC_FREQ (k : Nat) : Nat := 0x33800 + 32 * k
abbrev Reg.TONE_DSC_LEVEL (k : Nat) : Nat := 0x33804 + 32 * k
abbrev Reg.TONE_DSC_CAD1 (k : Nat) : Nat := 0x33808 + 32 * k
abbrev Reg.TONE_DSC_CAD2 (k : Nat) : Nat := 0x3380C + 32 * k
abbrev Reg.TONE_DSC_CTRL (k : Nat) : Nat := 0x33810 + 32 * k
/-! RATE registers. -/
abbrev Reg.RATE_CTRL : Nat := 0x34040
abbrev Reg.RATE_LEG_CMD : Nat := 0x34044
abbrev Reg.RATE_STAT_LEG : Nat := 0x34048
abbrev Reg.RATE_CONV_LEGS : Nat := 0x3404C
abbrev Reg.RATE_FROZEN_LEGS : Nat := 0x34050
abbrev Reg.RATE_SAT_CNT : Nat := 0x34054
abbrev Reg.RATE_ST_STATUS : Nat := 0x34100
/-! ECAN registers. -/
abbrev Reg.ECAN_CH_CMD : Nat := 0x35040
abbrev Reg.ECAN_STAT_CHAN : Nat := 0x35044
abbrev Reg.ECAN_NB_CNT : Nat := 0x35048
abbrev Reg.ECAN_WB_CNT : Nat := 0x3504C
abbrev Reg.ECAN_DIVERGE_CNT : Nat := 0x35050
abbrev Reg.ECAN_DISABLE_CNT : Nat := 0x35054
abbrev Reg.ECAN_MOVE_CNT : Nat := 0x35058
abbrev Reg.ECAN_ST_STATUS : Nat := 0x35080
abbrev Reg.ECAN_PRF_ADAPT (k : Nat) : Nat := 0x35100 + 16 * k
abbrev Reg.ECAN_PRF_NLP (k : Nat) : Nat := 0x35104 + 16 * k
abbrev Reg.ECAN_PRF_LOC (k : Nat) : Nat := 0x35108 + 16 * k
/-! PKT registers. -/
abbrev Reg.PKT_PORT_DOM (k : Nat) : Nat := 0x40040 + 4 * k
abbrev Reg.PKT_UNBOUND : Nat := 0x40060
abbrev Reg.PKT_CTRL_RING : Nat := 0x40064
abbrev Reg.PKT_MEM_USED : Nat := 0x40068
abbrev Reg.PKT_MEM_HWM : Nat := 0x4006C
abbrev Reg.PKT_RX_CNT : Nat := 0x40070
abbrev Reg.PKT_BOUND_CNT : Nat := 0x40074
abbrev Reg.PKT_UNBOUND_CNT : Nat := 0x40078
abbrev Reg.PKT_NOLEG_CNT : Nat := 0x4007C
abbrev Reg.PKT_CTRL_CNT : Nat := 0x40080
abbrev Reg.PKT_ERR_CNT : Nat := 0x40084
abbrev Reg.PKT_MEM_DROP_CNT : Nat := 0x40088
abbrev Reg.PKT_OVERLOAD_DROP_CNT : Nat := 0x4008C
abbrev Reg.PKT_RING_DROP_CNT : Nat := 0x40090
abbrev Reg.PKT_REASM_CNT : Nat := 0x40094
abbrev Reg.PKT_REASM_DROP_CNT : Nat := 0x40098
/-! EPD registers. -/
abbrev Reg.EPD_CMD : Nat := 0x41040
abbrev Reg.EPD_RESULT : Nat := 0x41044
abbrev Reg.EPD_DISP : Nat := 0x41048
abbrev Reg.EPD_COUNT : Nat := 0x4104C
abbrev Reg.EPD_FULL_CNT : Nat := 0x41050
abbrev Reg.EPD_MAXDISP : Nat := 0x41054
abbrev Reg.EPD_CACHE_HIT : Nat := 0x41058
abbrev Reg.EPD_CACHE_MISS : Nat := 0x4105C
abbrev Reg.EPD_DATA (k : Nat) : Nat := 0x41100 + 4 * k
/-! MTR registers. -/
abbrev Reg.MTR_CTRL : Nat := 0x42040
abbrev Reg.MTR_GREEN_CNT : Nat := 0x42044
abbrev Reg.MTR_YELLOW_CNT : Nat := 0x42048
abbrev Reg.MTR_RED_CNT : Nat := 0x4204C
abbrev Reg.MTR_RED_DROP_CNT : Nat := 0x42050
abbrev Reg.MTR_RED_RING_CNT : Nat := 0x42054
abbrev Reg.MTR_YELLOW_DROP_CNT : Nat := 0x42058
abbrev Reg.MTR_EMERG_OVER_CNT : Nat := 0x4205C
/-! SRTP registers. -/
abbrev Reg.SRTP_CMD : Nat := 0x43040
abbrev Reg.SRTP_KEY (k : Nat) : Nat := 0x43044 + 4 * k
abbrev Reg.SRTP_SALT (k : Nat) : Nat := 0x43064 + 4 * k
abbrev Reg.SRTP_MKI : Nat := 0x43074
abbrev Reg.SRTP_NOKEY_CNT : Nat := 0x430A0
abbrev Reg.SRTP_REPLAY_CNT : Nat := 0x430A4
abbrev Reg.SRTP_AUTH_FAIL_CNT : Nat := 0x430A8
abbrev Reg.SRTP_LIMIT_DROP_CNT : Nat := 0x430AC
/-! EGS registers. -/
abbrev Reg.EGS_CTRL : Nat := 0x50040
abbrev Reg.EGS_AGG_CMD : Nat := 0x50044
abbrev Reg.EGS_AGG_DATA : Nat := 0x50048
abbrev Reg.EGS_AGG_FLOWS : Nat := 0x5004C
abbrev Reg.EGS_QUEUED : Nat := 0x50050
abbrev Reg.EGS_MEM_USED : Nat := 0x50054
abbrev Reg.EGS_TX_CNT : Nat := 0x50058
abbrev Reg.EGS_FQ_DROP_CNT : Nat := 0x5005C
abbrev Reg.EGS_MEM_DROP_CNT : Nat := 0x50060
abbrev Reg.EGS_AGE_DROP_CNT : Nat := 0x50064
abbrev Reg.EGS_EXCESS_CNT : Nat := 0x50068
abbrev Reg.EGS_STAT_FLOW : Nat := 0x5006C
abbrev Reg.EGS_ST_STATUS : Nat := 0x50100
/-! SHP registers. -/
abbrev Reg.SHP_CMD : Nat := 0x51040
abbrev Reg.SHP_CIR : Nat := 0x51044
abbrev Reg.SHP_PIR : Nat := 0x51048
abbrev Reg.SHP_DEPTH : Nat := 0x5104C
abbrev Reg.SHP_TC : Nat := 0x51050
abbrev Reg.SHP_TP : Nat := 0x51054
abbrev Reg.SHP_STATE : Nat := 0x51058
abbrev Reg.SHP_FLOWS_EN : Nat := 0x5105C
abbrev Reg.SHP_AGGS_EN : Nat := 0x51060
/-! HWM registers. -/
abbrev Reg.HWM_NOTICE : Nat := 0x52040
abbrev Reg.HWM_FLOW_DEPTH : Nat := 0x52044
abbrev Reg.HWM_FLOW_LEG : Nat := 0x52048
abbrev Reg.HWM_FLOW_THR : Nat := 0x5204C
abbrev Reg.HWM_DEPTH (k : Nat) : Nat := 0x52100 + 16 * k
abbrev Reg.HWM_DEPTH_THR (k : Nat) : Nat := 0x52104 + 16 * k
abbrev Reg.HWM_SOJ (k : Nat) : Nat := 0x52108 + 16 * k
abbrev Reg.HWM_SOJ_THR (k : Nat) : Nat := 0x5210C + 16 * k
/-! MAC registers. -/
abbrev Reg.MAC_LANE_MODE (i : Nat) : Nat := 0x60040 + 0x1000 * i
abbrev Reg.MAC_CTRL (i : Nat) : Nat := 0x60044 + 0x1000 * i
abbrev Reg.MAC_MAXFRAME (i : Nat) : Nat := 0x60048 + 0x1000 * i
abbrev Reg.MAC_LINK_CFG (i : Nat) : Nat := 0x6004C + 0x1000 * i
abbrev Reg.MAC_LINK (i : Nat) : Nat := 0x60050 + 0x1000 * i
abbrev Reg.MAC_SA_LO (i : Nat) : Nat := 0x60054 + 0x1000 * i
abbrev Reg.MAC_SA_HI (i : Nat) : Nat := 0x60058 + 0x1000 * i
abbrev Reg.MAC_GW_LO (i : Nat) : Nat := 0x6005C + 0x1000 * i
abbrev Reg.MAC_GW_HI (i : Nat) : Nat := 0x60060 + 0x1000 * i
abbrev Reg.MAC_PREEMPT (i : Nat) : Nat := 0x60064 + 0x1000 * i
abbrev Reg.MAC_PREEMPT_ST (i : Nat) : Nat := 0x60068 + 0x1000 * i
abbrev Reg.MAC_FC_TX (i : Nat) : Nat := 0x6006C + 0x1000 * i
abbrev Reg.MAC_FC_THR (i : Nat) : Nat := 0x60070 + 0x1000 * i
abbrev Reg.MAC_PWD (i : Nat) : Nat := 0x60074 + 0x1000 * i
abbrev Reg.MAC_PAUSE_ST (i : Nat) : Nat := 0x60078 + 0x1000 * i
abbrev Reg.MAC_PWD_CNT (i : Nat) : Nat := 0x6007C + 0x1000 * i
abbrev Reg.MAC_CNT_NOTICE (i : Nat) : Nat := 0x60080 + 0x1000 * i
abbrev Reg.MAC_TAG (i k : Nat) : Nat := 0x600A0 + 0x1000 * i + 4 * k
abbrev Reg.MAC_CNT (i k : Nat) : Nat := 0x60100 + 0x1000 * i + 4 * k
/-! LPAIR registers. -/
abbrev Reg.LPAIR_PAIR (k : Nat) : Nat := 0x68040 + 16 * k
abbrev Reg.LPAIR_FAILOVER_CNT (k : Nat) : Nat := 0x68048 + 16 * k
abbrev Reg.LPAIR_LAST (k : Nat) : Nat := 0x6804C + 16 * k
abbrev Reg.LPAIR_REVERT_S : Nat := 0x68080
abbrev Reg.LPAIR_LOST_CNT : Nat := 0x68084
/-! TIME registers. -/
abbrev Reg.TIME_CTRL : Nat := 0x70040
abbrev Reg.TIME_NOW_SEC_LO : Nat := 0x70044
abbrev Reg.TIME_FREQ : Nat := 0x70054
abbrev Reg.TIME_ADJ_LO : Nat := 0x70058
abbrev Reg.TIME_ADJ_HI : Nat := 0x7005C
abbrev Reg.TIME_SET_SEC_LO : Nat := 0x70060
abbrev Reg.TIME_SET_SEC_HI : Nat := 0x70064
abbrev Reg.TIME_SET_NS : Nat := 0x70068
abbrev Reg.TIME_CMD : Nat := 0x7006C
abbrev Reg.TIME_STEP_THR : Nat := 0x70070
abbrev Reg.TIME_SLEW : Nat := 0x70074
abbrev Reg.TIME_STEP_CNT : Nat := 0x7007C
abbrev Reg.TIME_PPS_OUT : Nat := 0x70080
abbrev Reg.TIME_PPSIN_SEC_LO : Nat := 0x70084
abbrev Reg.TIME_PPSIN_SEC_HI : Nat := 0x70088
abbrev Reg.TIME_PPSIN_NS : Nat := 0x7008C
abbrev Reg.TIME_PPSIN_CNT : Nat := 0x70090
abbrev Reg.TIME_TOD : Nat := 0x70094
abbrev Reg.PG_CTRL (k : Nat) : Nat := 0x70100 + 32 * k
abbrev Reg.PG_START_SEC_LO (k : Nat) : Nat := 0x70104 + 32 * k
abbrev Reg.PG_START_SEC_HI (k : Nat) : Nat := 0x70108 + 32 * k
abbrev Reg.PG_START_NS (k : Nat) : Nat := 0x7010C + 32 * k
abbrev Reg.PG_PERIOD (k : Nat) : Nat := 0x70110 + 32 * k
abbrev Reg.PG_WIDTH (k : Nat) : Nat := 0x70114 + 32 * k
abbrev Reg.PG_ARM (k : Nat) : Nat := 0x70118 + 32 * k
abbrev Reg.PG_STATUS (k : Nat) : Nat := 0x7011C + 32 * k
/-! PTIME registers. -/
abbrev Reg.PTIME_CTRL (i : Nat) : Nat := 0x71040 + 0x1000 * i
abbrev Reg.PTIME_RX_ADJ_PS (i : Nat) : Nat := 0x71044 + 0x1000 * i
abbrev Reg.PTIME_TX_ADJ_PS (i : Nat) : Nat := 0x71048 + 0x1000 * i
abbrev Reg.PTIME_TSQ_CNT (i : Nat) : Nat := 0x7104C + 0x1000 * i
abbrev Reg.PTIME_TSQ0 (i : Nat) : Nat := 0x71050 + 0x1000 * i
abbrev Reg.PTIME_TSQ1 (i : Nat) : Nat := 0x71054 + 0x1000 * i
abbrev Reg.PTIME_TSQ2 (i : Nat) : Nat := 0x71058 + 0x1000 * i
abbrev Reg.PTIME_TSQ3 (i : Nat) : Nat := 0x7105C + 0x1000 * i
abbrev Reg.PTIME_TSQ_LOST (i : Nat) : Nat := 0x71064 + 0x1000 * i
abbrev Reg.PTIME_RX_TS_CNT (i : Nat) : Nat := 0x71068 + 0x1000 * i
/-! GATE registers. -/
abbrev Reg.GATE_CTRL (i : Nat) : Nat := 0x80040 + 0x1000 * i
abbrev Reg.GATE_ADMIN_BASE_SEC_LO (i : Nat) : Nat := 0x80044 + 0x1000 * i
abbrev Reg.GATE_ADMIN_BASE_SEC_HI (i : Nat) : Nat := 0x80048 + 0x1000 * i
abbrev Reg.GATE_ADMIN_BASE_NS (i : Nat) : Nat := 0x8004C + 0x1000 * i
abbrev Reg.GATE_ADMIN_CYCLE (i : Nat) : Nat := 0x80050 + 0x1000 * i
abbrev Reg.GATE_ADMIN_LEN (i : Nat) : Nat := 0x80054 + 0x1000 * i
abbrev Reg.GATE_CMD (i : Nat) : Nat := 0x80058 + 0x1000 * i
abbrev Reg.GATE_STATE (i : Nat) : Nat := 0x8005C + 0x1000 * i
abbrev Reg.GATE_START_SEC_LO (i : Nat) : Nat := 0x80060 + 0x1000 * i
abbrev Reg.GATE_START_SEC_HI (i : Nat) : Nat := 0x80064 + 0x1000 * i
abbrev Reg.GATE_START_NS (i : Nat) : Nat := 0x80068 + 0x1000 * i
abbrev Reg.GATE_OPER_CYCLE (i : Nat) : Nat := 0x8006C + 0x1000 * i
abbrev Reg.GATE_OPER_LEN (i : Nat) : Nat := 0x80070 + 0x1000 * i
abbrev Reg.GATE_CUR (i : Nat) : Nat := 0x80074 + 0x1000 * i
abbrev Reg.GATE_CHANGE_CNT (i : Nat) : Nat := 0x80078 + 0x1000 * i
abbrev Reg.GATE_ADMIN (i k : Nat) : Nat := 0x80400 + 0x1000 * i + 4 * k
/-! PCM registers. -/
abbrev Reg.PCM_GROUP_CFG (i : Nat) : Nat := 0x90040 + 0x1000 * i
abbrev Reg.PCM_HWY_CFG (i : Nat) : Nat := 0x90044 + 0x1000 * i
abbrev Reg.PCM_STATUS (i : Nat) : Nat := 0x90048 + 0x1000 * i
abbrev Reg.PCM_SLIP_FAST_CNT (i : Nat) : Nat := 0x90050 + 0x1000 * i
abbrev Reg.PCM_SLIP_SLOW_CNT (i : Nat) : Nat := 0x90054 + 0x1000 * i
abbrev Reg.PCM_FS_LOSS_CNT (i : Nat) : Nat := 0x90058 + 0x1000 * i
abbrev Reg.PCM_FRAME_ERR_CNT (i : Nat) : Nat := 0x9005C + 0x1000 * i
abbrev Reg.PCM_ZERO_BEATS_CNT (i : Nat) : Nat := 0x90060 + 0x1000 * i
abbrev Reg.PCM_FIFO (i : Nat) : Nat := 0x90064 + 0x1000 * i
abbrev Reg.PCM_SLOT_OWNER (i k : Nat) : Nat := 0x90200 + 0x1000 * i + 4 * k
/-! RING registers. -/
abbrev Reg.RING_RUNNING : Nat := 0xA0040
abbrev Reg.RING_ORPHAN_CNT : Nat := 0xA0048
abbrev Reg.RING_STOP_DROP_CNT : Nat := 0xA004C
abbrev Reg.RING_FULL_DROP_CNT : Nat := 0xA0050
abbrev Reg.RING_DB_ERR_CNT : Nat := 0xA0054
abbrev Reg.RING_DB_LAST : Nat := 0xA0058
abbrev Reg.RING_HOSTQ_WEIGHT : Nat := 0xA005C
abbrev Reg.RING_FIFO_DROP_CNT : Nat := 0xA0060
abbrev Reg.RING_MACFIFO (k : Nat) : Nat := 0xA0080 + 4 * k
/-! RINGS registers. -/
abbrev Reg.RING_BASE_LO (i k : Nat) : Nat := 0xA1100 + 0x1000 * i + 32 * k
abbrev Reg.RING_BASE_HI (i k : Nat) : Nat := 0xA1104 + 0x1000 * i + 32 * k
abbrev Reg.RING_CFG (i k : Nat) : Nat := 0xA1108 + 0x1000 * i + 32 * k
abbrev Reg.RING_CTRL (i k : Nat) : Nat := 0xA110C + 0x1000 * i + 32 * k
abbrev Reg.RING_HEAD (i k : Nat) : Nat := 0xA1110 + 0x1000 * i + 32 * k
abbrev Reg.RING_TAIL (i k : Nat) : Nat := 0xA1114 + 0x1000 * i + 32 * k
abbrev Reg.RING_STATUS (i k : Nat) : Nat := 0xA1118 + 0x1000 * i + 32 * k
abbrev Reg.RING_DROP_CNT (i k : Nat) : Nat := 0xA111C + 0x1000 * i + 32 * k
/-! MDM registers. -/
abbrev Reg.MDM_CFG : Nat := 0xB0040
abbrev Reg.MDM_FAX_CFG : Nat := 0xB0044
abbrev Reg.MDM_TX_CMD : Nat := 0xB004C
abbrev Reg.MDM_TX_LEN : Nat := 0xB0050
abbrev Reg.MDM_MAP_CMD : Nat := 0xB0054
abbrev Reg.MDM_STAT_CHAN : Nat := 0xB0058
abbrev Reg.MDM_SESS_TALDY : Nat := 0xB005C
abbrev Reg.MDM_SESS_FAX : Nat := 0xB0060
abbrev Reg.MDM_RX_OK_CNT : Nat := 0xB0064
abbrev Reg.MDM_HDR_FAIL_CNT : Nat := 0xB0068
abbrev Reg.MDM_CHECK_FAIL_CNT : Nat := 0xB006C
abbrev Reg.MDM_TRUNC_CNT : Nat := 0xB0070
abbrev Reg.MDM_CAPTURE_CNT : Nat := 0xB0074
abbrev Reg.MDM_RESTART_CNT : Nat := 0xB0078
abbrev Reg.MDM_RX_ABORT_CNT : Nat := 0xB007C
abbrev Reg.MDM_TX_CNT : Nat := 0xB0080
abbrev Reg.MDM_TX_ABORT_CNT : Nat := 0xB0084
abbrev Reg.MDM_FAX_IFP_LOST_CNT : Nat := 0xB0088
abbrev Reg.MDM_FAX_UNDERRUN_CNT : Nat := 0xB008C
abbrev Reg.MDM_TRELLIS_LAST : Nat := 0xB0090
abbrev Reg.MDM_MASK (k : Nat) : Nat := 0xB00C0 + 4 * k
abbrev Reg.MDM_MAP_DATA (k : Nat) : Nat := 0xB0100 + 4 * k
abbrev Reg.MDM_ST_STATUS : Nat := 0xB0180
abbrev Reg.MDM_TX_BUF (k : Nat) : Nat := 0xB0200 + 4 * k
/-! ARC registers. -/
abbrev Reg.ARC_CFG : Nat := 0xB8040
abbrev Reg.ARC_CMD : Nat := 0xB8044
abbrev Reg.ARC_ARG_OFFSET : Nat := 0xB8048
abbrev Reg.ARC_ARG_LEN : Nat := 0xB804C
abbrev Reg.ARC_ARG_ADDR_LO : Nat := 0xB8050
abbrev Reg.ARC_ARG_ADDR_HI : Nat := 0xB8054
abbrev Reg.ARC_RES_SEG : Nat := 0xB8058
abbrev Reg.ARC_RES_DEC : Nat := 0xB805C
abbrev Reg.ARC_DONE0 : Nat := 0xB8060
abbrev Reg.ARC_DONE1 : Nat := 0xB8064
abbrev Reg.ARC_DONE_CNT : Nat := 0xB8068
abbrev Reg.ARC_DONE_LOST : Nat := 0xB806C
abbrev Reg.ARC_SEGS : Nat := 0xB8070
abbrev Reg.ARC_CHAIN_LEN : Nat := 0xB8074
abbrev Reg.ARC_CHAIN_LOW : Nat := 0xB8078
abbrev Reg.ARC_STREAMS : Nat := 0xB807C
abbrev Reg.ARC_IN_BYTES : Nat := 0xB8080
abbrev Reg.ARC_BLOCK_CNT : Nat := 0xB8084
abbrev Reg.ARC_ABANDON_CNT : Nat := 0xB8088
abbrev Reg.ARC_STALL_CNT : Nat := 0xB808C
abbrev Reg.ARC_CHECK_FAIL_CNT : Nat := 0xB8090
/-! MEM registers. -/
abbrev Reg.MEM_CFG : Nat := 0xC0040
abbrev Reg.MEM_STATE : Nat := 0xC0044
abbrev Reg.MEM_TRAIN_MS : Nat := 0xC0048
abbrev Reg.MEM_DEV_TEMP (k : Nat) : Nat := 0xC0050 + 4 * k
abbrev Reg.MEM_DEV_CORR_CNT (k : Nat) : Nat := 0xC0060 + 4 * k
abbrev Reg.MEM_EDC_RETRY_CNT : Nat := 0xC0070
abbrev Reg.MEM_UNCORR_CNT : Nat := 0xC0074
abbrev Reg.MEM_UNCORR_ADDR_LO : Nat := 0xC0078
abbrev Reg.MEM_UNCORR_ADDR_HI : Nat := 0xC007C
abbrev Reg.MEM_SCRUB : Nat := 0xC0080
abbrev Reg.MEM_SCRUB_POS : Nat := 0xC0084
abbrev Reg.MEM_SCRUB_PASSES : Nat := 0xC0088
abbrev Reg.MEM_BW_LAST : Nat := 0xC008C
abbrev Reg.MEM_BW_HWM : Nat := 0xC0090
abbrev Reg.MEM_XFER_OFFSET : Nat := 0xC0094
abbrev Reg.MEM_XFER_ADDR_LO : Nat := 0xC0098
abbrev Reg.MEM_XFER_ADDR_HI : Nat := 0xC009C
abbrev Reg.MEM_XFER_CMD : Nat := 0xC00A0
/-! STRIPE registers. -/
abbrev Reg.STRIPE_XLAT_LO : Nat := 0xC1040
abbrev Reg.STRIPE_XLAT_HI : Nat := 0xC1044
abbrev Reg.STRIPE_XLAT_RES : Nat := 0xC1048
abbrev Reg.STRIPE_XLAT_DADDR : Nat := 0xC104C
abbrev Reg.STRIPE_RECON_CNT : Nat := 0xC1050
abbrev Reg.STRIPE_PARTIAL_CNT : Nat := 0xC1054
abbrev Reg.STRIPE_CHECK_FAIL_CNT : Nat := 0xC1058
abbrev Reg.STRIPE_LOSS_THR : Nat := 0xC105C
/-! RETIRE registers. -/
abbrev Reg.RETIRE_CMD : Nat := 0xC2040
abbrev Reg.RETIRE_FRAME : Nat := 0xC2044
abbrev Reg.RETIRE_USED : Nat := 0xC2048
abbrev Reg.RETIRE_POOL_BAD : Nat := 0xC204C
abbrev Reg.RETIRE_THR : Nat := 0xC2050
abbrev Reg.RETIRE_CNT : Nat := 0xC2054
abbrev Reg.RETIRE_RES_FRAME : Nat := 0xC2058
abbrev Reg.RETIRE_RES_POOL : Nat := 0xC205C
abbrev Reg.RETIRE_RES_POISON_LO : Nat := 0xC2060
abbrev Reg.RETIRE_RES_POISON_HI : Nat := 0xC2064
/-! REL registers. -/
abbrev Reg.REL_LAST_FAULT : Nat := 0xD0044
abbrev Reg.REL_LAST_BEAT : Nat := 0xD0048
abbrev Reg.REL_UNRESOLVED_CNT : Nat := 0xD004C
abbrev Reg.REL_CORE_SEL : Nat := 0xD0050
abbrev Reg.REL_INJECT : Nat := 0xD005C
abbrev Reg.REL_FAULT_CNT (k : Nat) : Nat := 0xD0180 + 4 * k
/-! MGMT registers. -/
abbrev Reg.MGMT_STATE : Nat := 0xE0040
abbrev Reg.MGMT_ROT : Nat := 0xE0050
abbrev Reg.MGMT_NET_CTRL : Nat := 0xE0054
abbrev Reg.MGMT_NET_IP : Nat := 0xE0058
abbrev Reg.MGMT_NET_COLL : Nat := 0xE005C
abbrev Reg.MGMT_NET_PORT : Nat := 0xE0060
abbrev Reg.MGMT_NET_DROP : Nat := 0xE0064
abbrev Reg.MBX_CMD : Nat := 0xE0070
abbrev Reg.MBX_ARG (k : Nat) : Nat := 0xE0074 + 4 * k
abbrev Reg.MBX_RES (k : Nat) : Nat := 0xE0080 + 4 * k
abbrev Reg.MBX_DATA (k : Nat) : Nat := 0xE0800 + 4 * k
/-! SENSOR registers. -/
abbrev Reg.SENSOR_T_WARN : Nat := 0xE1040
abbrev Reg.SENSOR_T_CRIT : Nat := 0xE1044
abbrev Reg.SENSOR_T_HYST : Nat := 0xE1048
abbrev Reg.SENSOR_T_TRIP : Nat := 0xE104C
abbrev Reg.SENSOR_V_LIMITS : Nat := 0xE1050
abbrev Reg.SENSOR_VCORE_TGT : Nat := 0xE1054
abbrev Reg.SENSOR_PLL : Nat := 0xE1058
abbrev Reg.SENSOR_HOTTEST : Nat := 0xE105C
abbrev Reg.SENSOR_TEMP (k : Nat) : Nat := 0xE1100 + 4 * k
abbrev Reg.SENSOR_VOLT (k : Nat) : Nat := 0xE1140 + 4 * k
/-! LOG registers. -/
abbrev Reg.LOG_CTRL : Nat := 0xE2040
abbrev Reg.LOG_RD_STORE : Nat := 0xE2054
abbrev Reg.LOG_RD_SEQ : Nat := 0xE2058
abbrev Reg.LOG_LOST_CNT : Nat := 0xE205C
abbrev Reg.LOG_NOTE_DATA (k : Nat) : Nat := 0xE2060 + 4 * k
abbrev Reg.LOG_NOTE : Nat := 0xE2068
abbrev Reg.LOG_RD_DATA (k : Nat) : Nat := 0xE2070 + 4 * k
/-! LIFE registers. -/
abbrev Reg.LIFE_STATE : Nat := 0xE3040
abbrev Reg.LIFE_CMD : Nat := 0xE3044
abbrev Reg.LIFE_JTAG : Nat := 0xE3050
/-! IO registers. -/
abbrev Reg.IO_CTRL : Nat := 0xF0040
abbrev Reg.IO_STRAP : Nat := 0xF0048
abbrev Reg.IO_GPIO_IN : Nat := 0xF004C
abbrev Reg.IO_GPIO_OUT : Nat := 0xF0050
abbrev Reg.IO_GPIO_OE : Nat := 0xF0054
abbrev Reg.IO_GPIO_PULL : Nat := 0xF0058
abbrev Reg.IO_GPIO_EDGE_EN : Nat := 0xF005C
abbrev Reg.IO_GPIO_EDGE : Nat := 0xF0060
abbrev Reg.IO_MUX (k : Nat) : Nat := 0xF0080 + 4 * k
/-! Fields. -/
abbrev Fd.PAGE_STATUS.BUSY : Fd := ⟨8, 8⟩
abbrev Fd.PAGE_STATUS.LAST_STATUS : Fd := ⟨7, 0⟩
abbrev Fd.EVT_ROUTE.EN_B : Fd := ⟨14, 14⟩
abbrev Fd.EVT_ROUTE.VEC_B : Fd := ⟨13, 8⟩
abbrev Fd.EVT_ROUTE.EN_A : Fd := ⟨6, 6⟩
abbrev Fd.EVT_ROUTE.VEC_A : Fd := ⟨5, 0⟩
abbrev Fd.DEV_BADACC.PORT : Fd := ⟨29, 29⟩
abbrev Fd.DEV_BADACC.OFFSET : Fd := ⟨25, 0⟩
abbrev Fd.DEV_BADACC_CNT.COUNT : Fd := ⟨31, 0⟩
abbrev Fd.OWN_CLAIM.WITHDRAW : Fd := ⟨2, 2⟩
abbrev Fd.OWN_CLAIM.RELEASE : Fd := ⟨1, 1⟩
abbrev Fd.OWN_CLAIM.CLAIM : Fd := ⟨0, 0⟩
abbrev Fd.OWN_HEARTBEAT.BEAT : Fd := ⟨0, 0⟩
abbrev Fd.OWN_HANDOVER.TARGET : Fd := ⟨1, 0⟩
abbrev Fd.OWN_RESULT_A.EPOCH : Fd := ⟨15, 8⟩
abbrev Fd.OWN_RESULT_A.STATUS : Fd := ⟨7, 0⟩
abbrev Fd.OWN_LOSS_MS.LOSS : Fd := ⟨15, 0⟩
abbrev Fd.OWN_HB_AGE_A.AGE : Fd := ⟨31, 0⟩
abbrev Fd.OWN_DROP_A.COUNT : Fd := ⟨31, 0⟩
abbrev Fd.TXN_OPEN.ID : Fd := ⟨3, 0⟩
abbrev Fd.TXN_CUR.EN : Fd := ⟨4, 4⟩
abbrev Fd.TXN_CUR.ID : Fd := ⟨3, 0⟩
abbrev Fd.TXN_COMMIT.NEXT : Fd := ⟨4, 4⟩
abbrev Fd.TXN_COMMIT.ID : Fd := ⟨3, 0⟩
abbrev Fd.TXN_ABORT.ID : Fd := ⟨3, 0⟩
abbrev Fd.TXN_SEQ.SEQ : Fd := ⟨27, 0⟩
abbrev Fd.TXN_STRAY.OFFSET : Fd := ⟨25, 0⟩
abbrev Fd.TXN_STRAY_CNT.COUNT : Fd := ⟨31, 0⟩
abbrev Fd.TXN_CONFLICT_CNT.COUNT : Fd := ⟨31, 0⟩
abbrev Fd.TXN_JOB_ABORT_CNT.COUNT : Fd := ⟨31, 0⟩
abbrev Fd.TXN_JOB_REFUSED_CNT.COUNT : Fd := ⟨31, 0⟩
abbrev Fd.BEAT_CYCLE.CYC : Fd := ⟨16, 0⟩
abbrev Fd.BEAT_SECPOS.VALID : Fd := ⟨8, 8⟩
abbrev Fd.BEAT_SECPOS.POS : Fd := ⟨7, 0⟩
abbrev Fd.BEAT_CUT.CUT_CYC : Fd := ⟨30, 16⟩
abbrev Fd.BEAT_CUT.CUT_US : Fd := ⟨9, 0⟩
abbrev Fd.BEAT_REF_CTRL.REVERT : Fd := ⟨13, 13⟩
abbrev Fd.BEAT_REF_CTRL.PPS_PHASE : Fd := ⟨12, 12⟩
abbrev Fd.BEAT_REF_CTRL.THIRD : Fd := ⟨5, 4⟩
abbrev Fd.BEAT_REF_CTRL.SECOND : Fd := ⟨3, 2⟩
abbrev Fd.BEAT_REF_CTRL.FIRST : Fd := ⟨1, 0⟩
abbrev Fd.BEAT_REF_STATUS.SWITCHES : Fd := ⟨31, 16⟩
abbrev Fd.BEAT_REF_STATUS.PULL_LIMIT : Fd := ⟨7, 7⟩
abbrev Fd.BEAT_REF_STATUS.QUAL_10M : Fd := ⟨6, 6⟩
abbrev Fd.BEAT_REF_STATUS.QUAL_PCM : Fd := ⟨5, 5⟩
abbrev Fd.BEAT_REF_STATUS.QUAL_NET : Fd := ⟨4, 4⟩
abbrev Fd.BEAT_REF_STATUS.ALIGNED : Fd := ⟨3, 3⟩
abbrev Fd.BEAT_REF_STATUS.HOLDOVER : Fd := ⟨2, 2⟩
abbrev Fd.BEAT_REF_STATUS.ACTIVE : Fd := ⟨1, 0⟩
abbrev Fd.BEAT_PHASE_ERR.ERR_NS : Fd := ⟨31, 0⟩
abbrev Fd.BEAT_FREQ.PPB : Fd := ⟨31, 0⟩
abbrev Fd.BEAT_SLEW.PPM : Fd := ⟨9, 0⟩
abbrev Fd.BEAT_SKIP_CNT.COUNT : Fd := ⟨31, 0⟩
abbrev Fd.BEAT_SKIP_LAST_CHAN.CHAN : Fd := ⟨15, 0⟩
abbrev Fd.BEAT_DONE_LAST.US : Fd := ⟨13, 0⟩
abbrev Fd.BEAT_DONE_HWM.US : Fd := ⟨13, 0⟩
abbrev Fd.BEAT_SEAL_LATE.COUNT : Fd := ⟨31, 0⟩
abbrev Fd.BEAT_RECOV_CNT.COUNT : Fd := ⟨31, 0⟩
abbrev Fd.BEAT_PHASE_LOAD.CYCLES : Fd := ⟨31, 0⟩
abbrev Fd.BEAT_EVERY_LOAD.CYCLES : Fd := ⟨31, 0⟩
abbrev Fd.MODE_STATE.MODE : Fd := ⟨2, 0⟩
abbrev Fd.MODE_CMD.OP : Fd := ⟨31, 28⟩
abbrev Fd.MODE_CMD.FORCE : Fd := ⟨0, 0⟩
abbrev Fd.MODE_TIMES.SVC_MS : Fd := ⟨31, 16⟩
abbrev Fd.MODE_TIMES.BRING_MS : Fd := ⟨15, 0⟩
abbrev Fd.MODE_CONSTRAIN.EXIT_S : Fd := ⟨23, 16⟩
abbrev Fd.MODE_CONSTRAIN.CEIL_PCT : Fd := ⟨6, 0⟩
abbrev Fd.MODE_SHED_CTRL.CLOSE_EN : Fd := ⟨0, 0⟩
abbrev Fd.MODE_SHED_REC_CNT.COUNT : Fd := ⟨31, 0⟩
abbrev Fd.MODE_SHED_SESS_CNT.COUNT : Fd := ⟨31, 0⟩
abbrev Fd.MODE_SHED_CLOSE_CNT.COUNT : Fd := ⟨31, 0⟩
abbrev Fd.MODE_SHED_LAST.CHANNEL : Fd := ⟨15, 0⟩
abbrev Fd.MODE_SEAL_CFG.HOLD_S : Fd := ⟨31, 16⟩
abbrev Fd.MODE_SEAL_CFG.DRAIN_S : Fd := ⟨15, 0⟩
abbrev Fd.MODE_STANDING.FAILED : Fd := ⟨24, 16⟩
abbrev Fd.MODE_STANDING.REOPENED : Fd := ⟨8, 0⟩
abbrev Fd.MODE_EPD_ONCHIP.COUNT : Fd := ⟨12, 0⟩
abbrev Fd.CLU_CYC_BEAT.CYCLES : Fd := ⟨23, 0⟩
abbrev Fd.CLU_HOME_LIMIT.CYCLES : Fd := ⟨31, 0⟩
abbrev Fd.CLU_CYC_LAST.CYCLES : Fd := ⟨31, 0⟩
abbrev Fd.CLU_CYC_HWM.CYCLES : Fd := ⟨31, 0⟩
abbrev Fd.CLU_JOBS_LAST.COUNT : Fd := ⟨19, 0⟩
abbrev Fd.CLU_STAGE_WAIT_CNT.COUNT : Fd := ⟨31, 0⟩
abbrev Fd.CLU_WB_STALL_CNT.COUNT : Fd := ⟨31, 0⟩
abbrev Fd.CLU_OVERRUN_CNT.COUNT : Fd := ⟨31, 0⟩
abbrev Fd.CLU_SAT_JOBS_CNT.COUNT : Fd := ⟨31, 0⟩
abbrev Fd.CLU_ECC_CORR_CNT.COUNT : Fd := ⟨31, 0⟩
abbrev Fd.CLU_PARTNER_CNT.COUNT : Fd := ⟨31, 0⟩
abbrev Fd.CLU_SRTP_PKTS.COUNT : Fd := ⟨31, 0⟩
abbrev Fd.DSP_PEND.COUNT : Fd := ⟨18, 0⟩
abbrev Fd.DSP_PEND_HWM.COUNT : Fd := ⟨18, 0⟩
abbrev Fd.DSP_HOLD.SRC : Fd := ⟨5, 0⟩
abbrev Fd.DSP_STEAL_THR.JOBS : Fd := ⟨15, 0⟩
abbrev Fd.DSP_AFF_DEPTH.DEPTH : Fd := ⟨6, 0⟩
abbrev Fd.DSP_PEND_LIMIT.COUNT : Fd := ⟨18, 0⟩
abbrev Fd.DSP_GRANT_CNT.COUNT : Fd := ⟨31, 0⟩
abbrev Fd.DSP_AFF_CNT.COUNT : Fd := ⟨31, 0⟩
abbrev Fd.DSP_STEAL_CNT.COUNT : Fd := ⟨31, 0⟩
abbrev Fd.DSP_OLDER_CNT.COUNT : Fd := ⟨31, 0⟩
abbrev Fd.DSP_REDISP_CNT.COUNT : Fd := ⟨31, 0⟩
abbrev Fd.DSP_CANCEL_CNT.COUNT : Fd := ⟨31, 0⟩
abbrev Fd.DSP_HOLD_CNT.COUNT : Fd := ⟨31, 0⟩
abbrev Fd.DSP_IDLE_CORES.COUNT : Fd := ⟨7, 0⟩
abbrev Fd.TRACE_CTRL.POST : Fd := ⟨28, 16⟩
abbrev Fd.TRACE_CTRL.STOP_ON_SKIP : Fd := ⟨3, 3⟩
abbrev Fd.TRACE_CTRL.MODE : Fd := ⟨2, 0⟩
abbrev Fd.TRACE_FLOW_LO.FLOW : Fd := ⟨19, 0⟩
abbrev Fd.TRACE_FLOW_HI.FLOW : Fd := ⟨19, 0⟩
abbrev Fd.TRACE_LOST.COUNT : Fd := ⟨31, 0⟩
abbrev Fd.CHAN_CMD_GO.ACTION : Fd := ⟨1, 0⟩
abbrev Fd.CHAN_CEILING.CYCLES : Fd := ⟨31, 0⟩
abbrev Fd.CHAN_NOCAP_CNT.COUNT : Fd := ⟨31, 0⟩
abbrev Fd.CHAN_NOCAP_CHAN.CHANNEL : Fd := ⟨31, 0⟩
abbrev Fd.CHAN_NOCAP_INFO.REASON : Fd := ⟨1, 0⟩
abbrev Fd.CHAN_MISMATCH_CNT.COUNT : Fd := ⟨31, 0⟩
abbrev Fd.CODEC_RTCP.INTERVAL : Fd := ⟨5, 0⟩
abbrev Fd.CODEC_STAT_LEG.LEG : Fd := ⟨16, 0⟩
abbrev Fd.CODEC_BAD_PT_CNT.COUNT : Fd := ⟨31, 0⟩
abbrev Fd.CODEC_MALFORMED_CNT.COUNT : Fd := ⟨31, 0⟩
abbrev Fd.CODEC_FOREIGN_CNT.COUNT : Fd := ⟨31, 0⟩
abbrev Fd.CODEC_SSRC_CHG_CNT.COUNT : Fd := ⟨31, 0⟩
abbrev Fd.CODEC_VBD_CNT.COUNT : Fd := ⟨31, 0⟩
abbrev Fd.CODEC_BYE_CNT.COUNT : Fd := ⟨31, 0⟩
abbrev Fd.CODEC_RTCP_TX_CNT.COUNT : Fd := ⟨31, 0⟩
abbrev Fd.CODEC_RTCP_RX_CNT.COUNT : Fd := ⟨31, 0⟩
abbrev Fd.CODEC_ST_STATUS.CMR : Fd := ⟨23, 20⟩
abbrev Fd.CODEC_ST_STATUS.MODE : Fd := ⟨19, 16⟩
abbrev Fd.CODEC_ST_STATUS.PACKET : Fd := ⟨11, 11⟩
abbrev Fd.CODEC_ST_STATUS.VBD : Fd := ⟨10, 10⟩
abbrev Fd.CODEC_ST_STATUS.SILENT : Fd := ⟨9, 9⟩
abbrev Fd.JBUF_CTRL.TSA_EN : Fd := ⟨25, 25⟩
abbrev Fd.JBUF_CTRL.WINDOW : Fd := ⟨24, 16⟩
abbrev Fd.JBUF_CTRL.HYST_MS : Fd := ⟨15, 8⟩
abbrev Fd.JBUF_CTRL.SAFETY_MS : Fd := ⟨7, 0⟩
abbrev Fd.JBUF_TIMES.CNG_HOLD_MS : Fd := ⟨31, 16⟩
abbrev Fd.JBUF_TIMES.INIT_MS : Fd := ⟨8, 0⟩
abbrev Fd.JBUF_STAT_LEG.LEG : Fd := ⟨16, 0⟩
abbrev Fd.JBUF_INBOX_DROP_CNT.COUNT : Fd := ⟨31, 0⟩
abbrev Fd.JBUF_LATE_CNT.COUNT : Fd := ⟨31, 0⟩
abbrev Fd.JBUF_DUP_CNT.COUNT : Fd := ⟨31, 0⟩
abbrev Fd.JBUF_OVF_CNT.COUNT : Fd := ⟨31, 0⟩
abbrev Fd.JBUF_RESYNC_CNT.COUNT : Fd := ⟨31, 0⟩
abbrev Fd.JBUF_LIMIT_CNT.COUNT : Fd := ⟨31, 0⟩
abbrev Fd.JBUF_ST_STATUS.TSA_OK : Fd := ⟨14, 14⟩
abbrev Fd.JBUF_ST_STATUS.STATE : Fd := ⟨13, 11⟩
abbrev Fd.JBUF_ST_STATUS.GOAL : Fd := ⟨10, 10⟩
abbrev Fd.JBUF_ST_STATUS.PACKET : Fd := ⟨9, 9⟩
abbrev Fd.JBUF_ST_USED.ENTRIES : Fd := ⟨25, 16⟩
abbrev Fd.JBUF_ST_USED.BYTES : Fd := ⟨13, 0⟩
abbrev Fd.JBUF_ST_TSA.COMPRESS : Fd := ⟨31, 16⟩
abbrev Fd.JBUF_ST_TSA.STRETCH : Fd := ⟨15, 0⟩
abbrev Fd.TONE_DTMF_DET.OFF_MS : Fd := ⟨31, 24⟩
abbrev Fd.TONE_DTMF_DET.ON_MS : Fd := ⟨23, 16⟩
abbrev Fd.TONE_DTMF_DET.REV_TWIST : Fd := ⟨15, 12⟩
abbrev Fd.TONE_DTMF_DET.FWD_TWIST : Fd := ⟨11, 8⟩
abbrev Fd.TONE_DTMF_DET.MIN_LEVEL : Fd := ⟨7, 0⟩
abbrev Fd.TONE_DTMF_DET2.FDEV : Fd := ⟨13, 8⟩
abbrev Fd.TONE_DTMF_DET2.BRIDGE_MS : Fd := ⟨4, 0⟩
abbrev Fd.TONE_DTMF_GEN.GEN_OFF_MS : Fd := ⟨31, 24⟩
abbrev Fd.TONE_DTMF_GEN.GEN_ON_MS : Fd := ⟨23, 16⟩
abbrev Fd.TONE_DTMF_GEN.HIGH_LEVEL : Fd := ⟨15, 8⟩
abbrev Fd.TONE_RELAY.MUTE_EN : Fd := ⟨24, 24⟩
abbrev Fd.TONE_RELAY.PT48 : Fd := ⟨22, 16⟩
abbrev Fd.TONE_RELAY.PT16 : Fd := ⟨14, 8⟩
abbrev Fd.TONE_RELAY.PT8 : Fd := ⟨6, 0⟩
abbrev Fd.TONE_CLASS_EN.EN : Fd := ⟨3, 0⟩
abbrev Fd.TONE_GEN_CMD.NDIG : Fd := ⟨31, 28⟩
abbrev Fd.TONE_GEN_CMD.DESC : Fd := ⟨27, 22⟩
abbrev Fd.TONE_GEN_CMD.ACTION : Fd := ⟨18, 17⟩
abbrev Fd.TONE_GEN_CMD.DIR : Fd := ⟨16, 16⟩
abbrev Fd.TONE_GEN_CMD.CHANNEL : Fd := ⟨15, 0⟩
abbrev Fd.TONE_DTMF_CNT.COUNT : Fd := ⟨31, 0⟩
abbrev Fd.TONE_DESC_CNT.COUNT : Fd := ⟨31, 0⟩
abbrev Fd.TONE_FAX_CNT.COUNT : Fd := ⟨31, 0⟩
abbrev Fd.TONE_TALDY_CNT.COUNT : Fd := ⟨31, 0⟩
abbrev Fd.TONE_RELAY_TX_CNT.COUNT : Fd := ⟨31, 0⟩
abbrev Fd.TONE_RELAY_RX_CNT.COUNT : Fd := ⟨31, 0⟩
abbrev Fd.TONE_RELAY_TIMEOUT_CNT.COUNT : Fd := ⟨31, 0⟩
abbrev Fd.TONE_RELAY_UNSUP_CNT.COUNT : Fd := ⟨31, 0⟩
abbrev Fd.TONE_GEN_CNT.COUNT : Fd := ⟨31, 0⟩
abbrev Fd.TONE_DSC_CTRL.GEN : Fd := ⟨1, 1⟩
abbrev Fd.RATE_CTRL.DCB_EN : Fd := ⟨0, 0⟩
abbrev Fd.RATE_LEG_CMD.ACTION : Fd := ⟨23, 20⟩
abbrev Fd.RATE_LEG_CMD.LEG : Fd := ⟨16, 0⟩
abbrev Fd.RATE_STAT_LEG.LEG : Fd := ⟨16, 0⟩
abbrev Fd.RATE_SAT_CNT.COUNT : Fd := ⟨31, 0⟩
abbrev Fd.RATE_ST_STATUS.INT_RATE : Fd := ⟨19, 18⟩
abbrev Fd.RATE_ST_STATUS.LEG_RATE : Fd := ⟨17, 16⟩
abbrev Fd.RATE_ST_STATUS.CONVERTS : Fd := ⟨12, 12⟩
abbrev Fd.RATE_ST_STATUS.FROZEN : Fd := ⟨11, 11⟩
abbrev Fd.RATE_ST_STATUS.SAT_OUT : Fd := ⟨10, 10⟩
abbrev Fd.RATE_ST_STATUS.SAT_IN : Fd := ⟨9, 9⟩
abbrev Fd.ECAN_CH_CMD.PROFILE : Fd := ⟨21, 20⟩
abbrev Fd.ECAN_CH_CMD.ACTION : Fd := ⟨19, 16⟩
abbrev Fd.ECAN_CH_CMD.CHANNEL : Fd := ⟨15, 0⟩
abbrev Fd.ECAN_STAT_CHAN.CHANNEL : Fd := ⟨15, 0⟩
abbrev Fd.ECAN_DIVERGE_CNT.COUNT : Fd := ⟨31, 0⟩
abbrev Fd.ECAN_DISABLE_CNT.COUNT : Fd := ⟨31, 0⟩
abbrev Fd.ECAN_MOVE_CNT.COUNT : Fd := ⟨31, 0⟩
abbrev Fd.ECAN_ST_STATUS.ENABLED : Fd := ⟨21, 21⟩
abbrev Fd.ECAN_ST_STATUS.WIDEBAND : Fd := ⟨20, 20⟩
abbrev Fd.ECAN_ST_STATUS.PROFILE : Fd := ⟨19, 18⟩
abbrev Fd.ECAN_ST_STATUS.TALK : Fd := ⟨17, 16⟩
abbrev Fd.ECAN_ST_STATUS.BYPASS : Fd := ⟨15, 15⟩
abbrev Fd.ECAN_ST_STATUS.NLP : Fd := ⟨14, 13⟩
abbrev Fd.ECAN_ST_STATUS.LOCKED : Fd := ⟨12, 12⟩
abbrev Fd.ECAN_ST_STATUS.FROZEN : Fd := ⟨11, 11⟩
abbrev Fd.ECAN_ST_STATUS.CONV : Fd := ⟨10, 9⟩
abbrev Fd.ECAN_ST_ERL.ERLE : Fd := ⟨31, 16⟩
abbrev Fd.ECAN_ST_ERL.ERL : Fd := ⟨15, 0⟩
abbrev Fd.ECAN_ST_WIN.LOC_PCT : Fd := ⟨23, 16⟩
abbrev Fd.ECAN_ST_WIN.LOC_START : Fd := ⟨15, 8⟩
abbrev Fd.ECAN_ST_WIN.WIN_START : Fd := ⟨7, 0⟩
abbrev Fd.ECAN_ST_LEVEL.CNG : Fd := ⟨31, 24⟩
abbrev Fd.ECAN_ST_LEVEL.OUT : Fd := ⟨23, 16⟩
abbrev Fd.ECAN_ST_LEVEL.IN : Fd := ⟨15, 8⟩
abbrev Fd.ECAN_ST_LEVEL.REF : Fd := ⟨7, 0⟩
abbrev Fd.ECAN_PRF_ADAPT.DTD_HANG : Fd := ⟨23, 16⟩
abbrev Fd.ECAN_PRF_ADAPT.DTD_MARGIN : Fd := ⟨12, 8⟩
abbrev Fd.ECAN_PRF_ADAPT.MU : Fd := ⟨7, 0⟩
abbrev Fd.ECAN_PRF_NLP.CNG_FLOOR : Fd := ⟨31, 24⟩
abbrev Fd.ECAN_PRF_NLP.CNG_CEIL : Fd := ⟨23, 16⟩
abbrev Fd.ECAN_PRF_NLP.NLP_HANG : Fd := ⟨15, 8⟩
abbrev Fd.ECAN_PRF_NLP.NLP_MODE : Fd := ⟨1, 0⟩
abbrev Fd.ECAN_PRF_LOC.DISABLER_EN : Fd := ⟨24, 24⟩
abbrev Fd.ECAN_PRF_LOC.CONV_ERLE : Fd := ⟨23, 16⟩
abbrev Fd.ECAN_PRF_LOC.MOVE_BEATS : Fd := ⟨15, 8⟩
abbrev Fd.ECAN_PRF_LOC.MOVE_PCT : Fd := ⟨7, 0⟩
abbrev Fd.PKT_PORT_DOM.MODE : Fd := ⟨13, 12⟩
abbrev Fd.PKT_PORT_DOM.DOMAIN : Fd := ⟨11, 0⟩
abbrev Fd.PKT_UNBOUND.TO_RING : Fd := ⟨8, 8⟩
abbrev Fd.PKT_UNBOUND.RING : Fd := ⟨7, 0⟩
abbrev Fd.PKT_CTRL_RING.EN : Fd := ⟨8, 8⟩
abbrev Fd.PKT_CTRL_RING.RING : Fd := ⟨7, 0⟩
abbrev Fd.PKT_MEM_HWM.BYTES : Fd := ⟨24, 0⟩
abbrev Fd.PKT_RX_CNT.COUNT : Fd := ⟨31, 0⟩
abbrev Fd.PKT_BOUND_CNT.COUNT : Fd := ⟨31, 0⟩
abbrev Fd.PKT_UNBOUND_CNT.COUNT : Fd := ⟨31, 0⟩
abbrev Fd.PKT_NOLEG_CNT.COUNT : Fd := ⟨31, 0⟩
abbrev Fd.PKT_CTRL_CNT.COUNT : Fd := ⟨31, 0⟩
abbrev Fd.PKT_ERR_CNT.COUNT : Fd := ⟨31, 0⟩
abbrev Fd.PKT_MEM_DROP_CNT.COUNT : Fd := ⟨31, 0⟩
abbrev Fd.PKT_OVERLOAD_DROP_CNT.COUNT : Fd := ⟨31, 0⟩
abbrev Fd.PKT_RING_DROP_CNT.COUNT : Fd := ⟨31, 0⟩
abbrev Fd.PKT_REASM_CNT.COUNT : Fd := ⟨31, 0⟩
abbrev Fd.PKT_REASM_DROP_CNT.COUNT : Fd := ⟨31, 0⟩
abbrev Fd.EPD_CMD.OP : Fd := ⟨31, 28⟩
abbrev Fd.EPD_CMD.HANDLE : Fd := ⟨22, 0⟩
abbrev Fd.EPD_RESULT.FOUND : Fd := ⟨23, 23⟩
abbrev Fd.EPD_RESULT.HANDLE : Fd := ⟨22, 0⟩
abbrev Fd.EPD_DISP.DISP : Fd := ⟨8, 0⟩
abbrev Fd.EPD_COUNT.COUNT : Fd := ⟨23, 0⟩
abbrev Fd.EPD_FULL_CNT.COUNT : Fd := ⟨31, 0⟩
abbrev Fd.EPD_MAXDISP.DISP : Fd := ⟨8, 0⟩
abbrev Fd.EPD_CACHE_HIT.COUNT : Fd := ⟨31, 0⟩
abbrev Fd.EPD_CACHE_MISS.COUNT : Fd := ⟨31, 0⟩
abbrev Fd.MTR_CTRL.YELLOW_LIMIT : Fd := ⟨6, 0⟩
abbrev Fd.MTR_GREEN_CNT.COUNT : Fd := ⟨31, 0⟩
abbrev Fd.MTR_YELLOW_CNT.COUNT : Fd := ⟨31, 0⟩
abbrev Fd.MTR_RED_CNT.COUNT : Fd := ⟨31, 0⟩
abbrev Fd.MTR_RED_DROP_CNT.COUNT : Fd := ⟨31, 0⟩
abbrev Fd.MTR_RED_RING_CNT.COUNT : Fd := ⟨31, 0⟩
abbrev Fd.MTR_YELLOW_DROP_CNT.COUNT : Fd := ⟨31, 0⟩
abbrev Fd.MTR_EMERG_OVER_CNT.COUNT : Fd := ⟨31, 0⟩
abbrev Fd.SRTP_CMD.ACTION : Fd := ⟨31, 28⟩
abbrev Fd.SRTP_CMD.DIR : Fd := ⟨24, 24⟩
abbrev Fd.SRTP_CMD.SUITE : Fd := ⟨22, 20⟩
abbrev Fd.SRTP_CMD.MKI_LEN : Fd := ⟨19, 17⟩
abbrev Fd.SRTP_CMD.CONTEXT : Fd := ⟨16, 0⟩
abbrev Fd.SRTP_NOKEY_CNT.COUNT : Fd := ⟨31, 0⟩
abbrev Fd.SRTP_REPLAY_CNT.COUNT : Fd := ⟨31, 0⟩
abbrev Fd.SRTP_AUTH_FAIL_CNT.COUNT : Fd := ⟨31, 0⟩
abbrev Fd.SRTP_LIMIT_DROP_CNT.COUNT : Fd := ⟨31, 0⟩
abbrev Fd.EGS_CTRL.AGE_MS : Fd := ⟨25, 16⟩
abbrev Fd.EGS_CTRL.FQ_LIMIT : Fd := ⟨6, 0⟩
abbrev Fd.EGS_AGG_CMD.OP : Fd := ⟨31, 28⟩
abbrev Fd.EGS_AGG_CMD.AGG : Fd := ⟨10, 0⟩
abbrev Fd.EGS_AGG_DATA.EN : Fd := ⟨31, 31⟩
abbrev Fd.EGS_AGG_DATA.CLASS : Fd := ⟨26, 24⟩
abbrev Fd.EGS_AGG_DATA.PORT : Fd := ⟨18, 16⟩
abbrev Fd.EGS_AGG_DATA.WEIGHT : Fd := ⟨7, 0⟩
abbrev Fd.EGS_AGG_FLOWS.COUNT : Fd := ⟨17, 0⟩
abbrev Fd.EGS_TX_CNT.COUNT : Fd := ⟨31, 0⟩
abbrev Fd.EGS_FQ_DROP_CNT.COUNT : Fd := ⟨31, 0⟩
abbrev Fd.EGS_MEM_DROP_CNT.COUNT : Fd := ⟨31, 0⟩
abbrev Fd.EGS_AGE_DROP_CNT.COUNT : Fd := ⟨31, 0⟩
abbrev Fd.EGS_EXCESS_CNT.COUNT : Fd := ⟨31, 0⟩
abbrev Fd.EGS_STAT_FLOW.LEG : Fd := ⟨16, 0⟩
abbrev Fd.EGS_ST_STATUS.CLASS : Fd := ⟨23, 21⟩
abbrev Fd.EGS_ST_STATUS.SHAPE : Fd := ⟨20, 19⟩
abbrev Fd.EGS_ST_PLACE.WEIGHT : Fd := ⟨31, 24⟩
abbrev Fd.EGS_ST_PLACE.AGG : Fd := ⟨17, 7⟩
abbrev Fd.EGS_ST_PLACE.DEPTH : Fd := ⟨6, 0⟩
abbrev Fd.SHP_CMD.OP : Fd := ⟨31, 28⟩
abbrev Fd.SHP_CMD.KIND : Fd := ⟨24, 24⟩
abbrev Fd.SHP_CMD.INDEX : Fd := ⟨16, 0⟩
abbrev Fd.SHP_CIR.EN : Fd := ⟨31, 31⟩
abbrev Fd.SHP_CIR.CIR : Fd := ⟨23, 0⟩
abbrev Fd.SHP_PIR.PIR : Fd := ⟨23, 0⟩
abbrev Fd.SHP_DEPTH.PBS : Fd := ⟨31, 16⟩
abbrev Fd.SHP_DEPTH.CBS : Fd := ⟨15, 0⟩
abbrev Fd.SHP_TC.MILLI : Fd := ⟨31, 0⟩
abbrev Fd.SHP_TP.MILLI : Fd := ⟨31, 0⟩
abbrev Fd.SHP_STATE.STATE : Fd := ⟨1, 0⟩
abbrev Fd.HWM_FLOW_DEPTH.COUNT : Fd := ⟨6, 0⟩
abbrev Fd.HWM_FLOW_LEG.LEG : Fd := ⟨16, 0⟩
abbrev Fd.HWM_FLOW_THR.COUNT : Fd := ⟨6, 0⟩
abbrev Fd.HWM_DEPTH.COUNT : Fd := ⟨23, 0⟩
abbrev Fd.HWM_DEPTH_THR.COUNT : Fd := ⟨23, 0⟩
abbrev Fd.HWM_SOJ.CYC : Fd := ⟨31, 0⟩
abbrev Fd.HWM_SOJ_THR.CYC : Fd := ⟨31, 0⟩
abbrev Fd.MAC_LANE_MODE.MODE : Fd := ⟨2, 0⟩
abbrev Fd.MAC_CTRL.STRIP_RX : Fd := ⟨6, 6⟩
abbrev Fd.MAC_CTRL.PAUSE_MODE : Fd := ⟨5, 4⟩
abbrev Fd.MAC_CTRL.FEC : Fd := ⟨3, 1⟩
abbrev Fd.MAC_CTRL.EN : Fd := ⟨0, 0⟩
abbrev Fd.MAC_MAXFRAME.BYTES : Fd := ⟨13, 0⟩
abbrev Fd.MAC_LINK.FEC_LOCK : Fd := ⟨3, 3⟩
abbrev Fd.MAC_LINK.BLOCK_LOCK : Fd := ⟨2, 2⟩
abbrev Fd.MAC_LINK.SIGNAL : Fd := ⟨1, 1⟩
abbrev Fd.MAC_LINK.LINK_UP : Fd := ⟨0, 0⟩
abbrev Fd.MAC_PREEMPT.EN : Fd := ⟨11, 11⟩
abbrev Fd.MAC_PREEMPT.VERIFY_DIS : Fd := ⟨10, 10⟩
abbrev Fd.MAC_PREEMPT.ADD_FRAG : Fd := ⟨9, 8⟩
abbrev Fd.MAC_PREEMPT.PMASK : Fd := ⟨7, 0⟩
abbrev Fd.MAC_PREEMPT_ST.ACTIVE : Fd := ⟨2, 2⟩
abbrev Fd.MAC_PREEMPT_ST.VERIFY : Fd := ⟨1, 0⟩
abbrev Fd.MAC_FC_TX.QUANTA : Fd := ⟨31, 16⟩
abbrev Fd.MAC_FC_TX.PRI : Fd := ⟨15, 8⟩
abbrev Fd.MAC_FC_TX.TX_EN : Fd := ⟨0, 0⟩
abbrev Fd.MAC_FC_THR.XOFF_KIB : Fd := ⟨31, 16⟩
abbrev Fd.MAC_FC_THR.XON_KIB : Fd := ⟨15, 0⟩
abbrev Fd.MAC_PWD.HOLDOFF_MS : Fd := ⟨31, 16⟩
abbrev Fd.MAC_PWD.LIMIT_MS : Fd := ⟨15, 0⟩
abbrev Fd.MAC_PWD_CNT.COUNT : Fd := ⟨31, 0⟩
abbrev Fd.MAC_TAG.MODE : Fd := ⟨25, 24⟩
abbrev Fd.MAC_TAG.SVID : Fd := ⟨23, 12⟩
abbrev Fd.MAC_TAG.CVID : Fd := ⟨11, 0⟩
abbrev Fd.LPAIR_PAIR.SECONDARY : Fd := ⟨10, 8⟩
abbrev Fd.LPAIR_PAIR.PRIMARY : Fd := ⟨6, 4⟩
abbrev Fd.LPAIR_PAIR.REVERT : Fd := ⟨1, 1⟩
abbrev Fd.LPAIR_PAIR.EN : Fd := ⟨0, 0⟩
abbrev Fd.LPAIR_FAILOVER_CNT.COUNT : Fd := ⟨31, 0⟩
abbrev Fd.LPAIR_REVERT_S.SECONDS : Fd := ⟨15, 0⟩
abbrev Fd.LPAIR_LOST_CNT.COUNT : Fd := ⟨31, 0⟩
abbrev Fd.TIME_CTRL.TOD_EN : Fd := ⟨3, 3⟩
abbrev Fd.TIME_CTRL.PPS_OUT_EN : Fd := ⟨2, 2⟩
abbrev Fd.TIME_CTRL.SYNCED : Fd := ⟨0, 0⟩
abbrev Fd.TIME_CMD.ACTION : Fd := ⟨1, 0⟩
abbrev Fd.TIME_STEP_THR.US : Fd := ⟨19, 0⟩
abbrev Fd.TIME_SLEW.PPM : Fd := ⟨9, 0⟩
abbrev Fd.TIME_STEP_CNT.COUNT : Fd := ⟨31, 0⟩
abbrev Fd.TIME_PPS_OUT.WIDTH_NS : Fd := ⟨29, 0⟩
abbrev Fd.TIME_PPSIN_CNT.COUNT : Fd := ⟨31, 0⟩
abbrev Fd.TIME_TOD.BAUD : Fd := ⟨0, 0⟩
abbrev Fd.PG_CTRL.POL : Fd := ⟨4, 4⟩
abbrev Fd.PG_CTRL.PERIODIC : Fd := ⟨3, 3⟩
abbrev Fd.PG_CTRL.USER : Fd := ⟨1, 0⟩
abbrev Fd.PG_PERIOD.NS : Fd := ⟨31, 0⟩
abbrev Fd.PG_WIDTH.NS : Fd := ⟨29, 0⟩
abbrev Fd.PG_ARM.DISARM : Fd := ⟨2, 2⟩
abbrev Fd.PG_ARM.ASAP : Fd := ⟨1, 1⟩
abbrev Fd.PG_ARM.ARM : Fd := ⟨0, 0⟩
abbrev Fd.PG_STATUS.FIRED : Fd := ⟨31, 16⟩
abbrev Fd.PG_STATUS.LAST : Fd := ⟨15, 8⟩
abbrev Fd.PG_STATUS.STATE : Fd := ⟨1, 0⟩
abbrev Fd.PTIME_CTRL.UNTAG : Fd := ⟨19, 19⟩
abbrev Fd.PTIME_CTRL.CLASS : Fd := ⟨18, 16⟩
abbrev Fd.PTIME_CTRL.RING : Fd := ⟨15, 8⟩
abbrev Fd.PTIME_CTRL.EN : Fd := ⟨0, 0⟩
abbrev Fd.PTIME_RX_ADJ_PS.PS : Fd := ⟨31, 0⟩
abbrev Fd.PTIME_TX_ADJ_PS.PS : Fd := ⟨31, 0⟩
abbrev Fd.PTIME_TSQ_CNT.COUNT : Fd := ⟨6, 0⟩
abbrev Fd.PTIME_TSQ_LOST.COUNT : Fd := ⟨31, 0⟩
abbrev Fd.PTIME_RX_TS_CNT.COUNT : Fd := ⟨31, 0⟩
abbrev Fd.GATE_CTRL.EN : Fd := ⟨8, 8⟩
abbrev Fd.GATE_CTRL.INIT_GATES : Fd := ⟨7, 0⟩
abbrev Fd.GATE_ADMIN_CYCLE.NS : Fd := ⟨29, 0⟩
abbrev Fd.GATE_ADMIN_LEN.LEN : Fd := ⟨8, 0⟩
abbrev Fd.GATE_CMD.CANCEL : Fd := ⟨1, 1⟩
abbrev Fd.GATE_CMD.CHANGE : Fd := ⟨0, 0⟩
abbrev Fd.GATE_STATE.ADJUSTED : Fd := ⟨2, 2⟩
abbrev Fd.GATE_STATE.PENDING : Fd := ⟨1, 1⟩
abbrev Fd.GATE_STATE.OPER : Fd := ⟨0, 0⟩
abbrev Fd.GATE_OPER_CYCLE.NS : Fd := ⟨29, 0⟩
abbrev Fd.GATE_OPER_LEN.LEN : Fd := ⟨8, 0⟩
abbrev Fd.GATE_CUR.GATES : Fd := ⟨31, 24⟩
abbrev Fd.GATE_CUR.ENTRY : Fd := ⟨7, 0⟩
abbrev Fd.GATE_CHANGE_CNT.COUNT : Fd := ⟨31, 0⟩
abbrev Fd.GATE_ADMIN.GATES : Fd := ⟨31, 24⟩
abbrev Fd.GATE_ADMIN.INTERVAL : Fd := ⟨23, 0⟩
abbrev Fd.PCM_GROUP_CFG.EN : Fd := ⟨31, 31⟩
abbrev Fd.PCM_GROUP_CFG.MASTER : Fd := ⟨30, 30⟩
abbrev Fd.PCM_GROUP_CFG.RATE : Fd := ⟨29, 28⟩
abbrev Fd.PCM_GROUP_CFG.FS_POL : Fd := ⟨27, 27⟩
abbrev Fd.PCM_GROUP_CFG.CLK_EDGE : Fd := ⟨25, 25⟩
abbrev Fd.PCM_GROUP_CFG.FS_PHASE : Fd := ⟨11, 0⟩
abbrev Fd.PCM_HWY_CFG.IDLE : Fd := ⟨23, 16⟩
abbrev Fd.PCM_HWY_CFG.TRISTATE : Fd := ⟨8, 8⟩
abbrev Fd.PCM_HWY_CFG.EN : Fd := ⟨3, 3⟩
abbrev Fd.PCM_SLIP_FAST_CNT.COUNT : Fd := ⟨31, 0⟩
abbrev Fd.PCM_SLIP_SLOW_CNT.COUNT : Fd := ⟨31, 0⟩
abbrev Fd.PCM_FS_LOSS_CNT.COUNT : Fd := ⟨31, 0⟩
abbrev Fd.PCM_FRAME_ERR_CNT.COUNT : Fd := ⟨31, 0⟩
abbrev Fd.PCM_ZERO_BEATS_CNT.COUNT : Fd := ⟨31, 0⟩
abbrev Fd.PCM_FIFO.CORR : Fd := ⟨31, 16⟩
abbrev Fd.PCM_FIFO.TX_UNDER : Fd := ⟨1, 1⟩
abbrev Fd.PCM_FIFO.RX_OVR : Fd := ⟨0, 0⟩
abbrev Fd.PCM_SLOT_OWNER.OWNER : Fd := ⟨17, 0⟩
abbrev Fd.RING_ORPHAN_CNT.COUNT : Fd := ⟨31, 0⟩
abbrev Fd.RING_STOP_DROP_CNT.COUNT : Fd := ⟨31, 0⟩
abbrev Fd.RING_FULL_DROP_CNT.COUNT : Fd := ⟨31, 0⟩
abbrev Fd.RING_DB_ERR_CNT.COUNT : Fd := ⟨31, 0⟩
abbrev Fd.RING_DB_LAST.RING : Fd := ⟨7, 0⟩
abbrev Fd.RING_HOSTQ_WEIGHT.WEIGHT : Fd := ⟨7, 0⟩
abbrev Fd.RING_FIFO_DROP_CNT.COUNT : Fd := ⟨31, 0⟩
abbrev Fd.RING_MACFIFO.CORR : Fd := ⟨31, 16⟩
abbrev Fd.RING_MACFIFO.UNCORR : Fd := ⟨1, 1⟩
abbrev Fd.RING_MACFIFO.OVR : Fd := ⟨0, 0⟩
abbrev Fd.RING_BASE_LO.ADDR : Fd := ⟨31, 12⟩
abbrev Fd.RING_CFG.COAL : Fd := ⟨15, 8⟩
abbrev Fd.RING_CFG.DIR : Fd := ⟨5, 5⟩
abbrev Fd.RING_CFG.LOG2SIZE : Fd := ⟨4, 0⟩
abbrev Fd.RING_CTRL.FLUSH : Fd := ⟨1, 1⟩
abbrev Fd.RING_CTRL.EN : Fd := ⟨0, 0⟩
abbrev Fd.RING_HEAD.COUNT : Fd := ⟨31, 0⟩
abbrev Fd.RING_STATUS.RUNNING : Fd := ⟨8, 8⟩
abbrev Fd.RING_DROP_CNT.COUNT : Fd := ⟨31, 0⟩
abbrev Fd.MDM_CFG.RX_MUTE : Fd := ⟨18, 18⟩
abbrev Fd.MDM_CFG.NOTCH_EN : Fd := ⟨16, 16⟩
abbrev Fd.MDM_CFG.CAPTURE_DB : Fd := ⟨12, 8⟩
abbrev Fd.MDM_FAX_CFG.MAX_DGRAM : Fd := ⟨26, 16⟩
abbrev Fd.MDM_FAX_CFG.FAX_MON : Fd := ⟨12, 12⟩
abbrev Fd.MDM_FAX_CFG.REDUND : Fd := ⟨5, 4⟩
abbrev Fd.MDM_TX_CMD.RATE : Fd := ⟨21, 20⟩
abbrev Fd.MDM_TX_CMD.MAP : Fd := ⟨19, 16⟩
abbrev Fd.MDM_TX_CMD.CHANNEL : Fd := ⟨15, 0⟩
abbrev Fd.MDM_TX_LEN.TAG : Fd := ⟨31, 16⟩
abbrev Fd.MDM_TX_LEN.LEN : Fd := ⟨8, 0⟩
abbrev Fd.MDM_MAP_CMD.OP : Fd := ⟨17, 16⟩
abbrev Fd.MDM_MAP_CMD.MAP : Fd := ⟨15, 12⟩
abbrev Fd.MDM_MAP_CMD.SESSION : Fd := ⟨11, 0⟩
abbrev Fd.MDM_STAT_CHAN.CHANNEL : Fd := ⟨15, 0⟩
abbrev Fd.MDM_RX_OK_CNT.COUNT : Fd := ⟨31, 0⟩
abbrev Fd.MDM_HDR_FAIL_CNT.COUNT : Fd := ⟨31, 0⟩
abbrev Fd.MDM_CHECK_FAIL_CNT.COUNT : Fd := ⟨31, 0⟩
abbrev Fd.MDM_TRUNC_CNT.COUNT : Fd := ⟨31, 0⟩
abbrev Fd.MDM_CAPTURE_CNT.COUNT : Fd := ⟨31, 0⟩
abbrev Fd.MDM_RESTART_CNT.COUNT : Fd := ⟨31, 0⟩
abbrev Fd.MDM_RX_ABORT_CNT.COUNT : Fd := ⟨31, 0⟩
abbrev Fd.MDM_TX_CNT.COUNT : Fd := ⟨31, 0⟩
abbrev Fd.MDM_TX_ABORT_CNT.COUNT : Fd := ⟨31, 0⟩
abbrev Fd.MDM_FAX_IFP_LOST_CNT.COUNT : Fd := ⟨31, 0⟩
abbrev Fd.MDM_FAX_UNDERRUN_CNT.COUNT : Fd := ⟨31, 0⟩
abbrev Fd.MDM_TRELLIS_LAST.BITS : Fd := ⟨31, 0⟩
abbrev Fd.MDM_MASK.GAIN3 : Fd := ⟨29, 24⟩
abbrev Fd.MDM_MASK.GAIN2 : Fd := ⟨21, 16⟩
abbrev Fd.MDM_MASK.GAIN1 : Fd := ⟨13, 8⟩
abbrev Fd.MDM_MASK.GAIN0 : Fd := ⟨5, 0⟩
abbrev Fd.MDM_MAP_DATA.GAIN1 : Fd := ⟨25, 20⟩
abbrev Fd.MDM_MAP_DATA.BITS1 : Fd := ⟨18, 16⟩
abbrev Fd.MDM_MAP_DATA.GAIN0 : Fd := ⟨9, 4⟩
abbrev Fd.MDM_MAP_DATA.BITS0 : Fd := ⟨2, 0⟩
abbrev Fd.MDM_ST_STATUS.FAX_MOD : Fd := ⟨31, 24⟩
abbrev Fd.MDM_ST_STATUS.FAX_STATE : Fd := ⟨23, 20⟩
abbrev Fd.MDM_ST_STATUS.TX_STATE : Fd := ⟨19, 18⟩
abbrev Fd.MDM_ST_STATUS.RX_STATE : Fd := ⟨17, 16⟩
abbrev Fd.MDM_ST_STATUS.FAX : Fd := ⟨10, 10⟩
abbrev Fd.MDM_ST_STATUS.TALDY : Fd := ⟨9, 9⟩
abbrev Fd.MDM_ST_RX.SNR : Fd := ⟨31, 24⟩
abbrev Fd.MDM_ST_RX.LEVEL : Fd := ⟨23, 16⟩
abbrev Fd.MDM_ST_RX.SESSION : Fd := ⟨11, 0⟩
abbrev Fd.ARC_CFG.DYNAMIC : Fd := ⟨0, 0⟩
abbrev Fd.ARC_CMD.OP : Fd := ⟨31, 28⟩
abbrev Fd.ARC_CMD.SEGMENT : Fd := ⟨14, 0⟩
abbrev Fd.ARC_ARG_OFFSET.BYTES : Fd := ⟨14, 0⟩
abbrev Fd.ARC_ARG_LEN.BYTES : Fd := ⟨15, 0⟩
abbrev Fd.ARC_RES_SEG.SSTATE : Fd := ⟨31, 30⟩
abbrev Fd.ARC_RES_SEG.USED : Fd := ⟨15, 0⟩
abbrev Fd.ARC_RES_DEC.CAUSE : Fd := ⟨31, 28⟩
abbrev Fd.ARC_DONE_LOST.COUNT : Fd := ⟨31, 0⟩
abbrev Fd.ARC_CHAIN_LOW.COUNT : Fd := ⟨14, 0⟩
abbrev Fd.ARC_IN_BYTES.BYTES : Fd := ⟨31, 0⟩
abbrev Fd.ARC_BLOCK_CNT.COUNT : Fd := ⟨31, 0⟩
abbrev Fd.ARC_ABANDON_CNT.COUNT : Fd := ⟨31, 0⟩
abbrev Fd.ARC_STALL_CNT.COUNT : Fd := ⟨31, 0⟩
abbrev Fd.ARC_CHECK_FAIL_CNT.COUNT : Fd := ⟨31, 0⟩
abbrev Fd.MEM_CFG.DENSITY : Fd := ⟨4, 4⟩
abbrev Fd.MEM_CFG.RATE : Fd := ⟨0, 0⟩
abbrev Fd.MEM_STATE.DEGRADED : Fd := ⟨16, 16⟩
abbrev Fd.MEM_STATE.LOST : Fd := ⟨11, 8⟩
abbrev Fd.MEM_STATE.DEV_OK : Fd := ⟨7, 4⟩
abbrev Fd.MEM_STATE.STATE : Fd := ⟨1, 0⟩
abbrev Fd.MEM_TRAIN_MS.MS : Fd := ⟨7, 0⟩
abbrev Fd.MEM_DEV_TEMP.TEMP : Fd := ⟨7, 0⟩
abbrev Fd.MEM_DEV_CORR_CNT.COUNT : Fd := ⟨31, 0⟩
abbrev Fd.MEM_EDC_RETRY_CNT.COUNT : Fd := ⟨31, 0⟩
abbrev Fd.MEM_UNCORR_CNT.COUNT : Fd := ⟨31, 0⟩
abbrev Fd.MEM_UNCORR_ADDR_HI.ADDR : Fd := ⟨0, 0⟩
abbrev Fd.MEM_SCRUB.PASS_H : Fd := ⟨7, 0⟩
abbrev Fd.MEM_SCRUB_PASSES.COUNT : Fd := ⟨31, 0⟩
abbrev Fd.MEM_BW_HWM.BYTES : Fd := ⟨31, 0⟩
abbrev Fd.MEM_XFER_OFFSET.BYTES : Fd := ⟨28, 0⟩
abbrev Fd.MEM_XFER_CMD.OP : Fd := ⟨31, 28⟩
abbrev Fd.MEM_XFER_CMD.LEN : Fd := ⟨16, 0⟩
abbrev Fd.STRIPE_XLAT_HI.ADDR : Fd := ⟨0, 0⟩
abbrev Fd.STRIPE_RECON_CNT.COUNT : Fd := ⟨31, 0⟩
abbrev Fd.STRIPE_PARTIAL_CNT.COUNT : Fd := ⟨31, 0⟩
abbrev Fd.STRIPE_CHECK_FAIL_CNT.COUNT : Fd := ⟨31, 0⟩
abbrev Fd.STRIPE_LOSS_THR.CORR_PER_BEAT : Fd := ⟨7, 0⟩
abbrev Fd.RETIRE_CMD.OP : Fd := ⟨31, 28⟩
abbrev Fd.RETIRE_CMD.ENTRY : Fd := ⟨11, 0⟩
abbrev Fd.RETIRE_FRAME.FRAME : Fd := ⟨20, 0⟩
abbrev Fd.RETIRE_USED.COUNT : Fd := ⟨12, 0⟩
abbrev Fd.RETIRE_POOL_BAD.COUNT : Fd := ⟨14, 0⟩
abbrev Fd.RETIRE_THR.CORR : Fd := ⟨3, 0⟩
abbrev Fd.RETIRE_CNT.COUNT : Fd := ⟨31, 0⟩
abbrev Fd.RETIRE_RES_POOL.POOL : Fd := ⟨13, 0⟩
abbrev Fd.REL_LAST_FAULT.INJECTED : Fd := ⟨31, 31⟩
abbrev Fd.REL_LAST_FAULT.CLASS : Fd := ⟨28, 24⟩
abbrev Fd.REL_LAST_FAULT.CLUSTER : Fd := ⟨23, 20⟩
abbrev Fd.REL_LAST_FAULT.INDEX : Fd := ⟨19, 16⟩
abbrev Fd.REL_LAST_FAULT.DETECT : Fd := ⟨7, 0⟩
abbrev Fd.REL_UNRESOLVED_CNT.COUNT : Fd := ⟨31, 0⟩
abbrev Fd.REL_CORE_SEL.CLUSTER : Fd := ⟨7, 4⟩
abbrev Fd.REL_CORE_SEL.CORE : Fd := ⟨3, 0⟩
abbrev Fd.REL_FAULT_CNT.COUNT : Fd := ⟨31, 0⟩
abbrev Fd.MGMT_STATE.RESTARTS : Fd := ⟨15, 8⟩
abbrev Fd.MGMT_ROT.CUR : Fd := ⟨19, 16⟩
abbrev Fd.MGMT_ROT.DONE : Fd := ⟨4, 0⟩
abbrev Fd.MGMT_NET_CTRL.MIN_COLOUR : Fd := ⟨7, 6⟩
abbrev Fd.MGMT_NET_CTRL.EN : Fd := ⟨0, 0⟩
abbrev Fd.MGMT_NET_PORT.PORT : Fd := ⟨15, 0⟩
abbrev Fd.MGMT_NET_DROP.COUNT : Fd := ⟨31, 0⟩
abbrev Fd.MBX_CMD.OP : Fd := ⟨31, 24⟩
abbrev Fd.MBX_CMD.LEN : Fd := ⟨11, 0⟩
abbrev Fd.SENSOR_T_WARN.C : Fd := ⟨7, 0⟩
abbrev Fd.SENSOR_T_CRIT.C : Fd := ⟨7, 0⟩
abbrev Fd.SENSOR_T_HYST.C : Fd := ⟨3, 0⟩
abbrev Fd.SENSOR_T_TRIP.C : Fd := ⟨7, 0⟩
abbrev Fd.SENSOR_V_LIMITS.CRIT_PCT : Fd := ⟨15, 8⟩
abbrev Fd.SENSOR_V_LIMITS.WARN_PCT : Fd := ⟨7, 0⟩
abbrev Fd.SENSOR_VCORE_TGT.MV : Fd := ⟨9, 0⟩
abbrev Fd.SENSOR_PLL.FAULT : Fd := ⟨13, 8⟩
abbrev Fd.SENSOR_PLL.LOCK : Fd := ⟨5, 0⟩
abbrev Fd.SENSOR_HOTTEST.SITE : Fd := ⟨20, 16⟩
abbrev Fd.SENSOR_HOTTEST.TEMP : Fd := ⟨15, 0⟩
abbrev Fd.SENSOR_TEMP.FAILED : Fd := ⟨19, 19⟩
abbrev Fd.SENSOR_TEMP.TWIN : Fd := ⟨18, 18⟩
abbrev Fd.SENSOR_TEMP.CRIT : Fd := ⟨17, 17⟩
abbrev Fd.SENSOR_TEMP.WARN : Fd := ⟨16, 16⟩
abbrev Fd.SENSOR_TEMP.TEMP : Fd := ⟨15, 0⟩
abbrev Fd.SENSOR_VOLT.MV : Fd := ⟨15, 0⟩
abbrev Fd.LOG_CTRL.SLATE : Fd := ⟨0, 0⟩
abbrev Fd.LOG_RD_STORE.STORE : Fd := ⟨1, 0⟩
abbrev Fd.LOG_LOST_CNT.COUNT : Fd := ⟨31, 0⟩
abbrev Fd.LOG_NOTE.COLOUR : Fd := ⟨1, 0⟩
abbrev Fd.LIFE_STATE.LAST : Fd := ⟨10, 8⟩
abbrev Fd.LIFE_STATE.RETURNS : Fd := ⟨5, 4⟩
abbrev Fd.LIFE_STATE.STATE : Fd := ⟨2, 0⟩
abbrev Fd.LIFE_CMD.CONFIRM : Fd := ⟨31, 16⟩
abbrev Fd.LIFE_CMD.TARGET : Fd := ⟨2, 0⟩
abbrev Fd.LIFE_JTAG.ACCESS : Fd := ⟨1, 0⟩
abbrev Fd.IO_CTRL.MON_EN : Fd := ⟨9, 9⟩
abbrev Fd.IO_CTRL.CLK25_EN : Fd := ⟨8, 8⟩
abbrev Fd.IO_CTRL.SSC : Fd := ⟨3, 0⟩
abbrev Fd.IO_STRAP.STRAPS : Fd := ⟨4, 0⟩
abbrev Fd.IO_GPIO_IN.IN : Fd := ⟨15, 0⟩
abbrev Fd.IO_GPIO_OUT.OUT : Fd := ⟨15, 0⟩
abbrev Fd.IO_GPIO_OE.OE : Fd := ⟨15, 0⟩
abbrev Fd.IO_GPIO_PULL.PULL : Fd := ⟨15, 0⟩
abbrev Fd.IO_GPIO_EDGE_EN.EN : Fd := ⟨15, 0⟩
abbrev Fd.IO_GPIO_EDGE.EDGE : Fd := ⟨15, 0⟩
abbrev Fd.IO_MUX.ALT : Fd := ⟨5, 4⟩
abbrev Fd.IO_MUX.USER : Fd := ⟨1, 0⟩
/-! Event source bits, by page. -/
abbrev Ev.DEV.BAD_ACCESS : Nat := 0
abbrev Ev.OWN.OWNER_CHANGED : Nat := 0
abbrev Ev.OWN.OWNER_LOST : Nat := 1
abbrev Ev.OWN.CLAIM_LAPSED : Nat := 2
abbrev Ev.OWN.OBS_WRITE : Nat := 3
abbrev Ev.TXN.FAILED : Nat := 16
abbrev Ev.TXN.STRAY : Nat := 17
abbrev Ev.BEAT.SKIP : Nat := 0
abbrev Ev.BEAT.REF_SWITCH : Nat := 1
abbrev Ev.BEAT.HOLDOVER : Nat := 2
abbrev Ev.BEAT.ALIGN_CHANGE : Nat := 3
abbrev Ev.BEAT.REBASE : Nat := 4
abbrev Ev.BEAT.WRAP : Nat := 5
abbrev Ev.BEAT.SEAL_LATE : Nat := 6
abbrev Ev.BEAT.RECOVERY_USED : Nat := 7
abbrev Ev.BEAT.PULL_LIMIT : Nat := 8
abbrev Ev.MODE.MODE_CHANGE : Nat := 0
abbrev Ev.MODE.BRINGUP_END : Nat := 1
abbrev Ev.MODE.BRINGUP_HELD : Nat := 2
abbrev Ev.MODE.CONSTRAINED : Nat := 3
abbrev Ev.MODE.SHED : Nat := 4
abbrev Ev.MODE.STANDING_FAIL : Nat := 5
abbrev Ev.MODE.SEAL_DRAINED : Nat := 6
abbrev Ev.MODE.SEAL_WIPED : Nat := 7
abbrev Ev.CLU.CSTATE_CHANGE : Nat := 0
abbrev Ev.CLU.CORE_ROLE : Nat := 1
abbrev Ev.CLU.OVERRUN : Nat := 2
abbrev Ev.CLU.WB_STALL : Nat := 3
abbrev Ev.CLU.HOME_HIGH : Nat := 4
abbrev Ev.DSP.HOLD : Nat := 0
abbrev Ev.DSP.PEND_HIGH : Nat := 1
abbrev Ev.TRACE.STOPPED : Nat := 0
abbrev Ev.TRACE.LOST : Nat := 1
abbrev Ev.CHAN.NOCAP : Nat := 0
abbrev Ev.CHAN.QUERY_DONE : Nat := 1
abbrev Ev.CHAN.EMERG_SKIP : Nat := 2
abbrev Ev.CHAN.MISMATCH : Nat := 3
abbrev Ev.CODEC.SSRC_CHANGE : Nat := 0
abbrev Ev.CODEC.BYE : Nat := 1
abbrev Ev.CODEC.VBD : Nat := 2
abbrev Ev.CODEC.MALFORMED : Nat := 3
abbrev Ev.CODEC.STAT_DONE : Nat := 4
abbrev Ev.JBUF.OVERFLOW : Nat := 0
abbrev Ev.JBUF.INBOX_FULL : Nat := 1
abbrev Ev.JBUF.RESYNC : Nat := 2
abbrev Ev.JBUF.DEPTH_LIMIT : Nat := 3
abbrev Ev.JBUF.STAT_DONE : Nat := 4
abbrev Ev.TONE.RELAY_TIMEOUT : Nat := 0
abbrev Ev.TONE.RELAY_UNSUPPORTED : Nat := 1
abbrev Ev.TONE.TALDY_NO_SESSION : Nat := 2
abbrev Ev.RATE.SAT : Nat := 0
abbrev Ev.RATE.STAT_DONE : Nat := 1
abbrev Ev.ECAN.DIVERGE : Nat := 0
abbrev Ev.ECAN.DISABLER : Nat := 1
abbrev Ev.ECAN.STAT_DONE : Nat := 2
abbrev Ev.ECAN.WIN_MOVE : Nat := 3
abbrev Ev.PKT.MEM_DROP : Nat := 0
abbrev Ev.PKT.OVERLOAD : Nat := 1
abbrev Ev.PKT.PARSE_ERR : Nat := 2
abbrev Ev.EPD.FULL : Nat := 0
abbrev Ev.EPD.CMD_DONE : Nat := 1
abbrev Ev.MTR.RED_DROP : Nat := 0
abbrev Ev.MTR.EMERG_OVER : Nat := 1
abbrev Ev.SRTP.AUTH_FAIL : Nat := 0
abbrev Ev.SRTP.KEY_LIMIT : Nat := 1
abbrev Ev.EGS.FQ_DROP : Nat := 0
abbrev Ev.EGS.AGED : Nat := 1
abbrev Ev.EGS.STAT_DONE : Nat := 2
abbrev Ev.HWM.DEPTH_WM : Nat := 0
abbrev Ev.HWM.SOJOURN_WM : Nat := 1
abbrev Ev.HWM.FLOW_WM : Nat := 2
abbrev Ev.MAC.LINK_CHANGE : Nat := 0
abbrev Ev.MAC.PAUSE_BREAK : Nat := 1
abbrev Ev.MAC.CNT_HALF : Nat := 2
abbrev Ev.MAC.VERIFY_FAIL : Nat := 3
abbrev Ev.LPAIR.FAILOVER : Nat := 0
abbrev Ev.LPAIR.PAIR_DOWN : Nat := 1
abbrev Ev.LPAIR.REVERTED : Nat := 2
abbrev Ev.TIME.STEP : Nat := 0
abbrev Ev.TIME.SLEW_DONE : Nat := 1
abbrev Ev.TIME.PPS_IN : Nat := 2
abbrev Ev.TIME.PG_LATE : Nat := 3
abbrev Ev.TIME.PG_FIRED : Nat := 4
abbrev Ev.PTIME.TSQ_OVF : Nat := 0
abbrev Ev.PTIME.TSQ_READY : Nat := 1
abbrev Ev.GATE.START_ADJ : Nat := 0
abbrev Ev.GATE.CHANGED : Nat := 1
abbrev Ev.PCM.FS_LOST : Nat := 0
abbrev Ev.PCM.FS_LOCKED : Nat := 1
abbrev Ev.PCM.SLIP : Nat := 2
abbrev Ev.PCM.FRAME_ERR : Nat := 3
abbrev Ev.PCM.FIFO_ERR : Nat := 4
abbrev Ev.RING.DB_ERR : Nat := 0
abbrev Ev.RING.ORPHAN : Nat := 1
abbrev Ev.RING.FIFO_ERR : Nat := 2
abbrev Ev.RING.RING_STOPPED : Nat := 3
abbrev Ev.MDM.CHECK_FAIL : Nat := 0
abbrev Ev.MDM.CAPTURED : Nat := 1
abbrev Ev.MDM.TRUNCATED : Nat := 2
abbrev Ev.MDM.FAX_LOSS : Nat := 3
abbrev Ev.MDM.STAT_DONE : Nat := 4
abbrev Ev.ARC.DONE : Nat := 0
abbrev Ev.ARC.DONE_OVF : Nat := 1
abbrev Ev.ARC.ABANDON : Nat := 2
abbrev Ev.ARC.EMERG_ABANDON : Nat := 3
abbrev Ev.ARC.CHAIN_LOW : Nat := 4
abbrev Ev.ARC.CMD_DONE : Nat := 5
abbrev Ev.MEM.DEV_LOST : Nat := 0
abbrev Ev.MEM.UNCORR : Nat := 1
abbrev Ev.MEM.SCRUB_PASS : Nat := 2
abbrev Ev.MEM.XFER_DONE : Nat := 3
abbrev Ev.MEM.STATE_CHANGE : Nat := 4
abbrev Ev.STRIPE.CHECK_FAIL : Nat := 0
abbrev Ev.RETIRE.RETIRED : Nat := 0
abbrev Ev.RETIRE.TABLE_FULL : Nat := 1
abbrev Ev.REL.FAULT : Nat := 0
abbrev Ev.REL.CORE_RETIRED : Nat := 1
abbrev Ev.REL.CLUSTER_LOST : Nat := 2
abbrev Ev.REL.SRAM_REPAIR : Nat := 3
abbrev Ev.REL.REPAIR_EXHAUSTED : Nat := 4
abbrev Ev.REL.PLL_SWITCH : Nat := 5
abbrev Ev.REL.TOL_LOST : Nat := 6
abbrev Ev.REL.MISMATCH_UNRESOLVED : Nat := 7
abbrev Ev.MGMT.CMD_DONE : Nat := 0
abbrev Ev.MGMT.KWAKEL_RESTART : Nat := 1
abbrev Ev.MGMT.ROT_DONE : Nat := 2
abbrev Ev.MGMT.IMG_CHECK_FAIL : Nat := 3
abbrev Ev.SENSOR.T_WARN : Nat := 0
abbrev Ev.SENSOR.T_CRIT : Nat := 1
abbrev Ev.SENSOR.V_WARN : Nat := 2
abbrev Ev.SENSOR.V_CRIT : Nat := 3
abbrev Ev.SENSOR.PLL_UNLOCK : Nat := 4
abbrev Ev.SENSOR.SENSOR_FAIL : Nat := 5
abbrev Ev.LOG.LOST : Nat := 0
abbrev Ev.LIFE.WIPED : Nat := 0
abbrev Ev.LIFE.REFUSED : Nat := 1
abbrev Ev.IO.GPIO_EDGE : Nat := 0

end Sys2Proof.Machine
end

