-- ==== Sys2Proof/Config.lean ====
section
/-! DEFINITION. What an implementation or a board fixes, and the free values: opaque constants that
nothing can evaluate, for what the manual leaves open. -/

namespace Sys2Proof.Config

/-- A 32-bit free value: the k-th draw of a value that the manual does not determine (random numbers
of R149 and R525, results it does not state). DESIGN CHOICE (log entry 12), safe: nothing constrains it. -/
opaque freeWord : Nat → BitVec 32

/-- The code that Kwakel writes in bytes 24 and 25 of its own log records (R520 gives no values), by
kind of record. DESIGN CHOICE (log entry 12), safe. -/
opaque kwakelCode : Nat → BitVec 16

/-- The severity colour, less one, of Kwakel's own log records by kind (R13, R519). DESIGN CHOICE (log entry 12), safe. -/
opaque kwakelColour : Nat → Fin 3

/-- The data after the code in Kwakel's own log records (R520), by kind and what the record is about.
DESIGN CHOICE (log entry 12), safe. -/
opaque kwakelData : Nat → Nat → BitVec 48

/-- The MAC address of the management port, which board data holds in a layout that R505 does not give.
DESIGN CHOICE (log entry 12), safe. -/
opaque mgmtMac : BitVec 48

/-- The board and fuse data this model runs with (DESIGN CHOICE, log entry 4; unsafe): unit serial number. -/
def serial : Nat := 0

/-- Firmware slot size in bytes (R505). -/
def fwSlotBytes : Nat := 2 * 1024 * 1024

/-- Library slot size (R505). -/
def libSlotBytes : Nat := 12 * 1024 * 1024

end Sys2Proof.Config
end

