-- ==== Sys2Proof/Machine/Init.lean ====
section
/-! DEFINITION. The parts of the state right after reset: registers and parts whose reset the manual gives, and the board
and fuse content of log entry 4. -/

namespace Sys2Proof.Machine

/-- The clock at the release of PORn. -/
def Clk.zero : Clk := { now := 0, at0 := 0, n := 0, started := false, t0 := 0 }

/-- A stamp of 0 s in generation 0. -/
def Stamp.zero : Stamp := { sec := 0, ns := 0, frac := 0, gen := 0 }

/-- A port's part in ownership at reset: no claim (R43). -/
def PortOwn.fresh : PortOwn :=
  { claim := false, deadline := 0, expired := false, beaten := false, claimReq := false, withdrawReq := false,
    releaseReq := false, handoverReq := none, flr := false }

/-- Ownership at reset (R43). -/
def Own.fresh : Own := { owner := .none, epoch := 0, lastCause := 0, pa := PortOwn.fresh, pb := PortOwn.fresh }

/-- A port's MSI-X structures at reset: every entry masked, as PCIe has it (log entry 5). -/
def Msix.fresh : Msix :=
  { table := List.replicate 64 { addrLo := 0, addrHi := 0, data := 0, ctrl := 1 }, pba := List.replicate 64 false }

/-- A transaction slot at reset. -/
def TxnSlot.fresh : TxnSlot :=
  { state := .free, done := false, status := 0, poisoned := false, entries := [], target := 0, tag := 0, failValid := false,
    failEntry := 0, order := 0, reached := false }

/-- The network clock at reset: 0 s, generation 0 (R348); `todUntil` 0, no line in progress. -/
def NetClock.fresh : NetClock :=
  { at0 := 0, base := 0, freq16 := 0, slewLeft := 0, slewPpm := 0, gen := 0, todUntil := 0 }

/-- A pulse generator at reset. -/
def PulseGen.fresh : PulseGen :=
  { st := .idle, start := 0, next := 0, fireAt := none, period := 0, width := 0, high := false, endAt := 0 }

/-- Gate control of a port at reset: no list, none in operation (R364). -/
def GateState.fresh : GateState := { pend := none, oper := none, entry := 0 }

/-- The references at reset: free-running, nothing qualified (R49). -/
def Refs.fresh : Refs :=
  { active := .free, qualNet := false, qualPcm := false, qualTen := false, aligned := false, holdover := false,
    limited := false, hist := [], dco := 0, rebase := false, stamp := Stamp.zero, sealWait := false, late := false }

/-- The log with nothing in it.
DESIGN CHOICE (log entry 4). -/
def LogState.fresh : LogState :=
  { next := 0, ram := [], mem := [], flash := [], due := [], queue := [], sentSecond := 0, sent := 0, spare := 16 }

/-- The image a board's slot holds (log entry 4): a header of R502 with version, security version and format 0 and an
empty body. -/
def shippedImage (kind : Nat) : ImageSlot :=
  { bytes := leBytes 4 0x4B574C31 ++ leBytes 1 kind ++ List.replicate 155 0, sigOk := true }

/-- A slot with no image. -/
def ImageSlot.empty : ImageSlot := { bytes := [], sigOk := false }

/-- An empty standing configuration. -/
def StandingConfig.empty : StandingConfig := { regs := [], aggs := [], shpAggs := [], shpFlows := [] }

/-- Flash as a board is shipped (log entry 4). -/
def Flash.shipped : Flash :=
  { board := [], fwSel := 0, fwPrev := none, libSel := 0, retired := [], retiredUnits := [], retiredLanes := [],
    lostClusters := [], lostDevices := [], retiredFrames := [], repairs := [], standing := [], config := StandingConfig.empty }

/-- Fuses as shipped: no security version burned, life-cycle state MANUFACTURE (log entry 4). -/
def Fuses.shipped : Fuses := { svnFw := 0, svnLib := 0, lifeState := 0, lifeLast := 0, returns := 0, changed := false }

/-- The management core at reset.
DESIGN CHOICE (log entry 4). -/
def Mgmt.fresh : Mgmt :=
  { kstate := .boot, fwSlot := 0, libSlot := 0, fwA := shippedImage 0, fwB := ImageSlot.empty, libA := shippedImage 1,
    libB := ImageSlot.empty, package := none, clips := [], session := none, mbx := none, rot := none, watchdogs := [],
    held := false, boots := false, firstStart := none, flash := Flash.shipped, work := [], fuses := Fuses.shipped,
    lifeReq := none, challenge := 0, restoredConfig := false, repair := [] }

/-- The sensors at reset: no sample taken, none failed. -/
def Sensors.fresh : Sensors :=
  { temps := List.replicate 12 [], volts := List.replicate 8 [], tempFail := List.replicate 12 (false, false),
    voltFail := List.replicate 8 (false, false) }

/-- The modes at reset: none holds (R534). -/
def Modes.fresh : Modes :=
  { mode := 0, bringup := false, everBringup := false, ended := false, sealOn := false, isolate := false, maint := false,
    rotMaint := false, constrain := false, forced := false, power := false, quietSince := 0, quietDone := false,
    phase := .none, drainedAt := 0, holdDue := false, sealReq := false, forceReq := false,
    unsealReq := false, wipeReq := false, enterReq := false, leaveReq := false, rotReq := false, rotEnded := false,
    dirCopied := false, memFailed := false, compactFreed := false }

/-- A core at reset. -/
def Core.fresh : Core :=
  { role := .offline, slot := none, run := none, history := [], total := 0, lastFault := 0, checking := none,
    retire := false, sat := false, inject := false }

/-- A cluster at reset: OFF (R249). -/
def Cluster.fresh : Cluster :=
  { cstate := .off, cores := List.replicate 10 Core.fresh, lib := 0, libSlot := 0, wb := [], lostInjected := false,
    restoring := false, sramLost := false, charged := [], cycNow := 0, jobsNow := 0, srtpNow := 0 }

/-- A unit of a pool at reset. -/
def PoolUnit.fresh : PoolUnit := { alive := true, run := none, history := [] }

/-- The dispatcher at reset: four trellis units and sixteen archive lanes (R251). -/
def Disp.fresh : Disp :=
  { jobs := [], nextId := 0, nextSeq := 0, lastCore := [], held := [], granted := [], work := [],
    trellis := List.replicate 4 PoolUnit.fresh, lanes := List.replicate 16 PoolUnit.fresh, trellisNow := 0 }

/-- The trace at reset. -/
def Trace.fresh : Trace :=
  { recs := [], count := 0, stopped := false, post := none, queued := 0, drainAt := 0, lostRun := 0 }

/-- The spares at reset: none spent; the classes without tolerance are those of a 9340 in which nothing serves yet.
DEDUCED (log entry 19). -/
def Spares.fresh : Spares :=
  { banks := [], corrections := [], due := [], onStandby := false, standbyLocked := false, spareDiodes := 12, spareMonitors := 8,
    notol := 0x1821, mismatches := [] }

/-- A class that nothing holds. -/
def Hold.none : Hold := { held := false, since := 0, stop := 0, effect := 0, holdoff := .none }

/-- A class at reset. -/
def ClassRun.fresh : ClassRun := { v := 0, train := none, hostq := [], hostTag := 0 }

/-- A port at reset. -/
def MacRun.fresh : MacRun :=
  { wire := none, parked := none, holds := List.replicate 8 Hold.none, xoff := false, repeatAt := 0, upSince := 0, tsNext := 0,
    classes := List.replicate 8 ClassRun.fresh }

/-- A group at reset. -/
def PcmGroup.fresh : PcmGroup := { st := .off, regular := 0, lastEdge := 0, edges := 0, whole := false }

/-- A highway at reset. -/
def Highway.fresh : Highway := { rx := [], ins := [] }

/-- A link pair at reset. -/
def PairRun.fresh : PairRun := { active := 0, down := false }

/-- A host ring at reset. -/
def Ring.fresh : Ring := { avail := [], since := 0, tx := [], gen := 0 }

/-- The endpoint directory with no record. -/
def Epd.fresh : Epd := { recs := [], chip := [], ways := [], cmd := none }

/-- The network side at reset. -/
def Net.fresh : Net :=
  { rings := List.replicate 256 Ring.fresh, partials := [], waiting := [], frags := [], reasm := [], epd := Epd.fresh,
    srtp := [], flows := [], aggs := [], nextTrain := 0, refills := 0, macs := List.replicate 8 MacRun.fresh,
    pairs := List.replicate 4 PairRun.fresh, groups := List.replicate 4 PcmGroup.fresh,
    hwys := List.replicate 16 Highway.fresh, pcmOut := [] }

/-- The archive engine with every segment in the chain (R443). -/
def ArcRun.empty : ArcRun :=
  { fresh := 0, tail := [], segs := [], streams := [], done := [], cmd := none, nextKey := 1, inNow := 0, appendAt := [] }

/-- GDDR-6 before its first training. -/
def MemRun.fresh : MemRun :=
  { table := [], bad := [], copies := [], history := [], corrNow := [0, 0, 0, 0], fullSeen := false, scratch := [], xfer := none,
    since := 0 }

end Sys2Proof.Machine
end

