-- ==== Sys2Proof/Machine/State.lean ====
section
/-! DEFINITION. The state of the 9340 as plain data, the reasons a command can stop, and the state
right after reset: PORn asserted, VDD_AON present, nothing started. -/

namespace Sys2Proof.Machine

/-- Why the machine stops with a fault. -/
inductive Fault where
  /-- Raised by VDD_AON_RETURN while PORn is high: R562 promises nothing outside the power sequence of
  the manual. Safe: the model stops where the hardware's behaviour is not described. -/
  | outsideRatings
  deriving DecidableEq, Repr

/-- Why a command is refused by the model. -/
inductive Refusal where
  /-- A command that has no meaning yet; raised by `exec` alone. Safe. -/
  | notModelled (mnemonic : String)
  deriving DecidableEq, Repr

/-- The result of a QUERY or of a status snapshot that waits for its HOSTCMD job (R116, R142): page, status, and
the words of the record. -/
structure Snapshot where
  page : Nat
  status : Nat
  words : List Word
  deriving DecidableEq, Repr

/-- The whole 9340. `regs` holds every register that is not a view of another field, by BAR0 address, an
unlisted register having its reset value; `cfgs` the register values in effect at the latest
boundaries, for the jobs of those beats (R92); `freeCtr` is the model's own: the number of free values
drawn so far; `pending` the commands that wait, first in first out. -/
structure State where
  clk : Clk
  pwr : Power
  regs : Assoc Word
  cfgs : List (BeatNo × Assoc Word)
  own : Own
  msixA : Msix
  msixB : Msix
  out : List Output
  recent : Recent
  lastRead : Word
  timeSnapA : Stamp
  timeSnapB : Stamp
  txns : List TxnSlot
  net : NetClock
  pgs : List PulseGen
  gates : List GateState
  tsq : List (List TsqEntry)
  refs : Refs
  log : LogState
  mgmt : Mgmt
  sens : Sensors
  modes : Modes
  clusters : List Cluster
  disp : Disp
  trace : Trace
  spares : Spares
  chans : Assoc Chan
  closing : List Chan
  nextUid : Nat
  nw : Net
  mem : MemRun
  arc : ArcRun
  snaps : List Snapshot
  freeCtr : Nat
  pending : List Instr
  deriving DecidableEq, Repr

/-- The machine right after reset (R534): VDD_AON present, PORn asserted, every register at its reset value, every
channel, transaction, session, ring and stream gone.
DESIGN CHOICE (log entry 4).
DESIGN CHOICE (log entry 59). -/
def State.reset : State :=
  { clk := Clk.zero, pwr := { vddAon := true, porn := false, trip := false, linkA := true, linkB := true }, regs := [], cfgs := [], own := Own.fresh,
    msixA := Msix.fresh, msixB := Msix.fresh, out := [], recent := { at0 := 0, bits := [] }, lastRead := 0,
    timeSnapA := Stamp.zero, timeSnapB := Stamp.zero, txns := List.replicate 16 TxnSlot.fresh, net := NetClock.fresh,
    pgs := List.replicate 5 PulseGen.fresh, gates := List.replicate 8 GateState.fresh,
    tsq := List.replicate 8 [], refs := Refs.fresh, log := LogState.fresh, mgmt := Mgmt.fresh, sens := Sensors.fresh,
    modes := Modes.fresh, clusters := List.replicate 16 Cluster.fresh, disp := Disp.fresh, trace := Trace.fresh,
    spares := Spares.fresh, chans := [], closing := [], nextUid := 0, nw := Net.fresh, mem := MemRun.fresh,
    arc := ArcRun.empty, snaps := [], freeCtr := 0, pending := [] }

end Sys2Proof.Machine
end

