-- ==== Sys2Proof/Machine/Ticks.lean ====
section
/-! DEFINITION. Instants: how durations of the manual count in ticks, the advance of the clock, and the
readings of the network clock (R6, R256, R348 to R351). -/

namespace Sys2Proof.Machine

/-- Ticks of one cycle of the sample timebase: a tick is 1/230.4 GHz.
DESIGN CHOICE (log entry 2). -/
def cycTicks : Nat := 9375

/-- Ticks of one dispatcher cycle at 900 MHz (R256).
DESIGN CHOICE (log entry 2). -/
def dspTicks : Nat := 256

/-- Ticks of one beat: exactly 122,880 timebase cycles (R6).
DESIGN CHOICE (log entry 2). -/
def beatTicks : Nat := 122880 * cycTicks

/-- Ticks of `n` microseconds of the nominal timebase. -/
def usTicks (n : Nat) : Nat := n * 230400

/-- Ticks of `n` milliseconds. -/
def msTicks (n : Nat) : Nat := n * 230400000

/-- Ticks of `n` seconds. -/
def secTicks (n : Nat) : Nat := n * 230400000000

/-- The clock moved on to instant `t`. It never moves back; once the beat runs, no instant of a beat
reaches the next boundary, which only BEAT_BOUNDARY passes.
DESIGN CHOICE (log entry 2). -/
def Clk.advance (c : Clk) (t : Nat) : Clk :=
  let n := max c.now t
  { c with now := if c.started then min n (c.at0 + beatTicks - 1) else n }

/-- The clock at the next boundary: B(0) at instant `t` when the timebase starts, and from then on
exactly one beat after the boundary before (R6, R51).
DESIGN CHOICE (log entry 2). -/
def Clk.boundary (c : Clk) (t : Nat) : Clk :=
  if c.started then
    { c with now := c.at0 + beatTicks, at0 := c.at0 + beatTicks, n := c.n + 1 }
  else
    { now := max c.now t, at0 := max c.now t, n := 0, started := true, t0 := max c.now t }

/-- Timebase cycles since the latest boundary. -/
def Clk.cycle (c : Clk) : Nat := (c.now - c.at0) / cycTicks

/-- Timebase cycles since the timebase started (R287). -/
def Clk.cycles (c : Clk) : Nat := if c.started then (c.now - c.t0) / cycTicks else 0

/-- Dispatcher cycles since the latest boundary (R256). -/
def Clk.dspCycle (c : Clk) : Nat := (c.now - c.at0) / dspTicks

/-- The tick of D(n−1), the deadline of the beat before the latest boundary: B(n+1) − 100 µs (R61). -/
def Clk.prevDeadline (c : Clk) : Nat := c.at0 + beatTicks - usTicks 100

/-- An instant lies before D(k), for a beat k at most one before the latest boundary; D(k) = B(k+2) −
100 µs. Beats before that have passed their deadline; later ones have not. -/
def Clk.beforeDeadline (c : Clk) (k : BeatNo) : Bool :=
  if k = c.n then true
  else if k + 1 = c.n then c.now < c.prevDeadline
  else beatAfter k c.n

/-- Nanosecond units of 2^-16 in one second. -/
def unitsPerSec : Nat := 1000000000 * 65536

/-- Elapsed time of the 25 MHz reference, in 2^-16 ns, over `d` ticks of a timebase whose DCO is off
nominal by `dco` ppb: one nominal tick is 2560/9 units (R47, R348). -/
def refUnits (d : Nat) (dco : Int) : Nat := d * 2560 * 1000000000 / (9 * (1000000000 + dco).toNat)

/-- What a slew has applied after `e` units: at `ppm` until the whole offset is applied (R350).
DEDUCED (log entry 35). -/
def slewApplied (left : Int) (ppm e : Nat) : Int :=
  let a := min left.natAbs (e * ppm / 1000000)
  if left < 0 then -(a : Int) else a

/-- The clock reading at tick `now`, in 2^-16 ns.
DESIGN CHOICE (log entry 2). -/
def NetClock.read (c : NetClock) (now : Nat) (dco : Int) : Nat :=
  let e := refUnits (now - c.at0) dco
  ((c.base : Int) + e * (16000000000 + c.freq16) / 16000000000 + slewApplied c.slewLeft c.slewPpm e).toNat

/-- The offset still to slew at tick `now`, in 2^-16 ns. -/
def NetClock.left (c : NetClock) (now : Nat) (dco : Int) : Int :=
  c.slewLeft - slewApplied c.slewLeft c.slewPpm (refUnits (now - c.at0) dco)

/-- The same clock with its base point moved to tick `now`. -/
def NetClock.rebase (c : NetClock) (now : Nat) (dco : Int) : NetClock :=
  { c with at0 := now, base := c.read now dco, slewLeft := c.left now dco }

/-- A reading as seconds, nanoseconds, fraction and generation. -/
def stampOf (units : Nat) (gen : BitVec 8) : Stamp :=
  { sec := units / unitsPerSec, ns := units / 65536 % 1000000000, frac := units % 65536, gen := gen.toNat }

namespace State

/-- The network time now, in 2^-16 ns. -/
def netUnits (s : State) : Nat := s.net.read s.clk.now s.refs.dco

/-- The network time now, in whole ns. -/
def netNs (s : State) : Nat := s.netUnits / 65536

/-- The network time now as a stamp. -/
def netStamp (s : State) : Stamp := stampOf s.netUnits s.net.gen

/-- The 9340 runs: VDD_AON present, PORn released, no thermal trip (R534). -/
def up (s : State) : Bool := s.pwr.vddAon && s.pwr.porn && !s.pwr.trip

/-- The state at instant `t`. -/
def atTick (s : State) (t : Nat) : State := { s with clk := s.clk.advance t }

/-- Run the effect of a command at instant `t`: in OFF and RESET it has none (R534). Neither the clock nor
the queue is the effect's to change.
DESIGN CHOICE (log entry 2). -/
def act (s : State) (t : Nat) (f : State → State) : Host.Outcome State Fault Refusal :=
  let s1 := s.atTick t
  if s1.up then .next { f s1 with clk := s1.clk, pending := s.pending } else .next s1

/-- Draw a free 32-bit value.
DESIGN CHOICE (log entry 12). -/
def freeWord (s : State) : Word × State := (Config.freeWord s.freeCtr, { s with freeCtr := s.freeCtr + 1 })

end State

end Sys2Proof.Machine
end

