-- ==== Sys2Proof/Machine/Ops.lean ====
section
/-! DEFINITION. The named operations over registers, events, interrupts, the log and host writes that
every block shares. -/

namespace Sys2Proof.Machine

/-! ## The register map -/

/-- The page group and instance at a page index (R25). -/
def findPage (i : Nat) : Option (PageSpec × Nat) :=
  match pages.find? (fun p => p.first ≤ i && i < p.first + p.count) with
  | some p => some (p, i - p.first)
  | none => none

/-- The register of a list at an offset, with its index in an array. -/
def findIn (rs : List RegSpec) (off : Nat) : Option (RegSpec × Nat) :=
  match rs.find? (fun r => r.off ≤ off && (off - r.off) % r.stride = 0 && (off - r.off) / r.stride < r.count) with
  | some r => some (r, (off - r.off) / r.stride)
  | none => none

/-- The register at a BAR0 word address: page group, instance, register and index. -/
def findReg (a : Nat) : Option (PageSpec × Nat × RegSpec × Nat) :=
  match findPage (a / 0x1000) with
  | none => none
  | some (p, i) =>
    match findIn (if a % 0x1000 < 0x40 && !(p.name = "TRACE" && a % 0x1000 = 8) then regsCommon else p.regs) (a % 0x1000) with
    | some (r, k) => some (p, i, r, k)
    | none => none

/-- The fields of the register at an address; none at a reserved or unmapped one. -/
def fieldsAt (a : Nat) : List FieldSpec :=
  match findReg a with
  | some (_, _, r, _) => r.fields
  | none => []

/-- The value of a register's fields at reset. -/
def resetOf (fs : List FieldSpec) : Word := fs.foldl (fun w f => withBits w f.hi f.lo f.reset) 0

/-- The reset value of the register at an address (R4; log entry 4 where the manual gives none).
DESIGN CHOICE (log entry 4). -/
def resetWord (a : Nat) : Word := resetOf (fieldsAt a)

/-- The event sources of a page: their number (PAGE_CAPS.EVT_SOURCES). -/
def sourcesOf (page : Nat) : Nat :=
  match findPage page with
  | some (p, _) => p.severities.length
  | none => 0

/-- The severity of an event source, coded as R13; 0 where there is no such source. -/
def severityOf (page b : Nat) : Nat :=
  match findPage page with
  | some (p, _) => p.severities.getD b 0
  | none => 0

/-! ## Status codes (R12) -/

/-- The status codes of R12. -/
inductive Status where
  | ok | late | conflict | noCapacity | full | notOwner | badParam | aborted | truncated | captured
  | checkFail | busy | unknownChannel | notInMode | startAdjusted | degraded
  deriving DecidableEq, Repr

/-- The 8-bit encoding of a status. -/
def Status.code : Status → Nat
  | .ok => 0 | .late => 1 | .conflict => 2 | .noCapacity => 3 | .full => 4 | .notOwner => 5
  | .badParam => 6 | .aborted => 7 | .truncated => 8 | .captured => 9 | .checkFail => 10 | .busy => 11
  | .unknownChannel => 12 | .notInMode => 13 | .startAdjusted => 14 | .degraded => 15

namespace State

/-! ## Registers -/

/-- Read a stored register word. -/
def rd (s : State) (a : Nat) : Word := s.regs.get resetWord a

/-- Write a stored register word, keeping the register file canonical. -/
def wr (s : State) (a : Nat) (w : Word) : State := { s with regs := s.regs.set resetWord a w }

/-- Read a field. -/
def get (s : State) (a : Nat) (f : Fd) : Nat := bitsOf (s.rd a) f.hi f.lo

/-- A one-bit field. -/
def flag (s : State) (a : Nat) (f : Fd) : Bool := s.get a f = 1

/-- Write a field. -/
def put (s : State) (a : Nat) (f : Fd) (v : Nat) : State := s.wr a (withBits (s.rd a) f.hi f.lo v)

/-- Write a one-bit field. -/
def putB (s : State) (a : Nat) (f : Fd) (b : Bool) : State := s.put a f (b2n b)

/-- Write a signed number in a field. -/
def putI (s : State) (a : Nat) (f : Fd) (v : Int) : State := s.put a f (toField (f.hi + 1 - f.lo) v)

/-- Count up in a field that saturates. -/
def inc (s : State) (a : Nat) (f : Fd) (d : Nat := 1) : State :=
  s.put a f (min (s.get a f + d) (2 ^ (f.hi + 1 - f.lo) - 1))

/-- Count up in a field that wraps. -/
def incWrap (s : State) (a : Nat) (f : Fd) (d : Nat := 1) : State := s.put a f (s.get a f + d)

/-- Raise a high-water mark. -/
def raise (s : State) (a : Nat) (f : Fd) (v : Nat) : State := s.put a f (max (s.get a f) v)

/-- Set PAGE_STATUS.LAST_STATUS of a page.
DEDUCED (log entry 8). -/
def status (s : State) (page : Nat) (st : Status) : State :=
  s.put (Reg.PAGE_STATUS page) Fd.PAGE_STATUS.LAST_STATUS st.code

/-- PAGE_STATUS.BUSY of a page. -/
def isBusy (s : State) (page : Nat) : Bool := s.flag (Reg.PAGE_STATUS page) Fd.PAGE_STATUS.BUSY

/-- From the start of WIPING, commands that R553 names complete with NOT_IN_MODE. -/
def wipeBars (s : State) : Bool := s.modes.phase = .wiping || s.modes.phase = .sealed

/-- Set or clear PAGE_STATUS.BUSY. -/
def setBusy (s : State) (page : Nat) (b : Bool) : State :=
  s.putB (Reg.PAGE_STATUS page) Fd.PAGE_STATUS.BUSY b

/-- The signed value of a field. -/
def getI (s : State) (a : Nat) (f : Fd) : Int := asSigned (f.hi + 1 - f.lo) (s.get a f)

/-- Let something leave the 9340. -/
def emit (s : State) (o : Output) : State := { s with out := o :: s.out }

/-! ## MSI-X (R22, R27) -/

/-- A port's MSI-X structures. -/
def msix (s : State) : Port → Msix
  | .a => s.msixA
  | .b => s.msixB

/-- Replace a port's MSI-X structures. -/
def setMsix (s : State) (p : Port) (m : Msix) : State :=
  match p with
  | .a => { s with msixA := m }
  | .b => { s with msixB := m }

/-- Send the message of a vector, or mark it pending while the vector is masked.
PRESUMED (log entry 5). -/
def sendMsix (s : State) (p : Port) (vec : Nat) : State :=
  let m := s.msix p
  match m.table[vec]? with
  | none => s
  | some e =>
    if e.ctrl.getLsbD 0 then s.setMsix p { m with pba := m.pba.set vec true }
    else s.emit (.msix p vec (e.addrLo.toNat + e.addrHi.toNat * 2 ^ 32) e.data)

/-- Send a page's message on every port whose EN bit in EVT_ROUTE is 1 (R27). -/
def pageMsix (s : State) (page : Nat) : State :=
  let r := Reg.EVT_ROUTE page
  let s := if s.flag r Fd.EVT_ROUTE.EN_A then s.sendMsix .a (s.get r Fd.EVT_ROUTE.VEC_A) else s
  if s.flag r Fd.EVT_ROUTE.EN_B then s.sendMsix .b (s.get r Fd.EVT_ROUTE.VEC_B) else s

end State

/-! ## The log (R519 to R523) -/

/-- The bytes of a record (R520). -/
def LogRec.bytes (r : LogRec) : List Byte :=
  leBytes 4 r.seq.toNat ++ leBytes 4 r.beat.toNat ++ leBytes 6 r.stamp.sec ++ leBytes 4 r.stamp.ns
    ++ leBytes 1 r.stamp.gen ++ leBytes 1 (r.colour + 4 * b2n r.kwakel + 8 * b2n r.host)
    ++ leBytes 1 r.page ++ leBytes 1 r.bit ++ leBytes 2 r.rep ++ slice r.data 0 8

/-- Records that log RAM holds (R521). -/
def ramRecords : Nat := 8192

/-- Records that the GDDR-6 log area holds. -/
def memRecords : Nat := 2097152

/-- Records that the flash log holds, in blocks of 2,048. -/
def flashRecords : Nat := 131072

/-- A record newer than the rest put in a store that keeps the `cap` newest. -/
def pushCap (cap : Nat) (r : LogRec) (l : List LogRec) : List LogRec := (r :: l).take cap

/-- Flash takes a record; when it needs room it erases its oldest block of 2,048 records (R521). -/
def pushFlash (r : LogRec) (l : List LogRec) : List LogRec :=
  r :: (if l.length < flashRecords then l else l.take (flashRecords - 2048))

/-- The RFC 5424 severity of a colour (R523). -/
def syslogSeverity (colour : Nat) : Nat := if colour = 3 then 2 else if colour = 2 then 4 else 6

namespace State

/-- Whether GDDR-6 is READY (R456). -/
def memReady (s : State) : Bool := s.get Reg.MEM_STATE Fd.MEM_STATE.STATE = 3

/-- The management port sends a record whose colour reaches MIN_COLOUR, at most 100 in a second (R523). -/
def syslog (s : State) (r : LogRec) : State :=
  if s.flag Reg.MGMT_NET_CTRL Fd.MGMT_NET_CTRL.EN
      && s.get Reg.MGMT_NET_CTRL Fd.MGMT_NET_CTRL.MIN_COLOUR ≤ r.colour then
    let sec := s.clk.now / secTicks 1
    let sent := if s.log.sentSecond = sec then s.log.sent else 0
    if sent < 100 then
      { s with log := { s.log with sentSecond := sec, sent := sent + 1 } }.emit
        (.syslog (128 + syslogSeverity r.colour) (s.rd Reg.MGMT_NET_IP).toNat (s.rd Reg.MGMT_NET_COLL).toNat
          (s.get Reg.MGMT_NET_PORT Fd.MGMT_NET_PORT.PORT) r.bytes)
    else s.inc Reg.MGMT_NET_DROP Fd.MGMT_NET_DROP.COUNT
  else s

/-- Whether a store of log records still has a record. -/
def heldIn (l : List LogRec) (seq : Word) : Bool := l.any (fun r => r.seq = seq)

/-- Put a new record in the stores: log RAM always, GDDR-6 while READY, flash within 100 ms (`due`) for
amber, vermilion and Kwakel records. Answers whether log RAM lost a record that had reached neither
GDDR-6 nor flash. -/
def storeRec (s : State) (r : LogRec) : State × Bool :=
  let l := s.log
  let lost := match l.ram.drop (ramRecords - 1) with
    | [] => false
    | o :: _ => !(heldIn l.mem o.seq || heldIn l.flash o.seq)
  let flashy := r.kwakel || 2 ≤ r.colour
  let l := { l with next := l.next + 1, ram := pushCap ramRecords r l.ram,
                    mem := if s.memReady then pushCap memRecords r l.mem else l.mem,
                    due := if flashy then l.due ++ [r] else l.due }
  (syslog { s with log := l } r, lost)

/-- The occurrence of a source is already recorded in this beat: raise REPEAT (R519).
DEDUCED (log entry 51). -/
def bumpRec (page b : Nat) (beat : BeatNo) (l : List LogRec) : List LogRec :=
  l.map (fun r => if r.page = page && r.bit = b && r.beat = beat && !r.kwakel && !r.host then
    { r with rep := sat16 (r.rep + 1) } else r)

/-- Whether this beat's record of a source exists. -/
def hasRec (page b : Nat) (beat : BeatNo) (l : List LogRec) : Bool :=
  l.any (fun r => r.page = page && r.bit = b && r.beat = beat && !r.kwakel && !r.host)

/-- A new event record with the stamps of now. -/
def eventRec (s : State) (page b : Nat) (latchWord : Word) : LogRec :=
  { seq := s.log.next, beat := s.clk.n, stamp := s.netStamp, colour := severityOf page b, kwakel := false,
    host := false, page := page % 256, bit := b, rep := 0, data := wordBytes latchWord }

/-- The occurrence of a source enters the log (R519), or the hardware queue of 512 entries while Kwakel
does not run (R509). Answers whether a record was lost. -/
def logSource (s : State) (page b : Nat) (latchWord : Word) : State × Bool :=
  let c := severityOf page b
  if c = 0 || (c = 1 && !s.flag Reg.LOG_CTRL Fd.LOG_CTRL.SLATE) then (s, false)
  else if s.mgmt.kstate = .running then
    if hasRec (page % 256) b s.clk.n s.log.ram then
      ({ s with log := { s.log with ram := bumpRec (page % 256) b s.clk.n s.log.ram,
                                    mem := bumpRec (page % 256) b s.clk.n s.log.mem,
                                    due := bumpRec (page % 256) b s.clk.n s.log.due } }, false)
    else s.storeRec (s.eventRec page b latchWord)
  else if s.log.queue.length < 512 then
    ({ s with log := { s.log with queue := s.log.queue ++ [s.eventRec page b latchWord] } }, false)
  else (s, true)

/-! ## Events (R23, R27, R28) -/

/-- Note that a source occurred at this instant (R28). -/
def noteRecent (s : State) (page b : Nat) : State :=
  { s with recent := { at0 := s.clk.now,
                       bits := (page, b) :: (if s.recent.at0 = s.clk.now then s.recent.bits else []) } }

/-- Whether a source occurred at this very instant (R28). -/
def isRecent (s : State) (page b : Nat) : Bool := s.recent.at0 = s.clk.now && s.recent.bits.contains (page, b)

/-- Set a latch bit; when it goes from 0 to 1 and is enabled, the page's message is sent (R27). -/
def setLatch (s : State) (page b : Nat) : State :=
  let w := s.rd (Reg.EVT_LATCH page)
  if w.getLsbD b then s
  else
    let s := s.wr (Reg.EVT_LATCH page) (w ||| Word.of (2 ^ b))
    if (s.rd (Reg.EVT_ENABLE page)).getLsbD b then s.pageMsix page else s

/-- The log takes an occurrence of a source whose latch bit is already set (R519). A record lost on the way is
itself an event of the LOG page (R521). -/
def logEvent (s : State) (page b : Nat) : State :=
  match s.logSource page b (s.rd (Reg.EVT_LATCH page)) with
  | (s, false) => s
  | (s, true) =>
    let s := (s.inc Reg.LOG_LOST_CNT Fd.LOG_LOST_CNT.COUNT).setLatch Pg.LOG Ev.LOG.LOST
    (s.logSource Pg.LOG Ev.LOG.LOST (s.rd (Reg.EVT_LATCH Pg.LOG))).1

/-- An event source occurs: its latch bit sets and the log takes it (R23, R27, R519). -/
def event (s : State) (page b : Nat) : State := ((s.noteRecent page b).setLatch page b).logEvent page b

/-- An event that occurs under a condition. -/
def eventIf (s : State) (c : Bool) (page b : Nat) : State := if c then s.event page b else s

/-- Kinds of Kwakel's own records (R519). -/
inductive KwakelKind where
  | boot | activation | rotation | restart | life | failover | standingFail | entryFail | trip
  deriving DecidableEq, Repr

/-- The index under which the free record code of a kind is drawn. -/
def KwakelKind.idx : KwakelKind → Nat
  | .boot => 0 | .activation => 1 | .rotation => 2 | .restart => 3 | .life => 4 | .failover => 5
  | .standingFail => 6 | .entryFail => 7 | .trip => 8

/-- Kwakel writes a record of its own, with KWAKEL = 1 (R519). The manual gives it a severity colour (R13) and a code,
and does not say which: both are free values, as is the data after the code. -/
def kwakelLog (s : State) (k : KwakelKind) (detail : Nat) : State :=
  let r : LogRec :=
    { seq := s.log.next, beat := s.clk.n, stamp := s.netStamp, colour := 1 + (Config.kwakelColour k.idx).val, kwakel := true,
      host := false, page := 0, bit := 0, rep := 0,
      data := leBytes 2 (Config.kwakelCode k.idx).toNat ++ leBytes 6 (Config.kwakelData k.idx detail).toNat }
  match s.storeRec r with
  | (s, false) => s
  | (s, true) => (s.inc Reg.LOG_LOST_CNT Fd.LOG_LOST_CNT.COUNT).event Pg.LOG Ev.LOG.LOST

/-! ## Host writes (R32, R33, R503, R537, R581) -/

/-- Ownership held by a port. -/
def ownedBy (s : State) (p : Port) : Bool := s.own.owner = .host p

/-- A port's part in ownership. -/
def portOwn (s : State) : Port → PortOwn
  | .a => s.own.pa
  | .b => s.own.pb

/-- Replace a port's part in ownership. -/
def setPortOwn (s : State) (p : Port) (o : PortOwn) : State :=
  match p with
  | .a => { s with own := { s.own with pa := o } }
  | .b => { s with own := { s.own with pb := o } }

/-- OWN_DROP of a port. -/
def dropReg : Port → Nat
  | .a => Reg.OWN_DROP_A
  | .b => Reg.OWN_DROP_B

/-- A write dropped under R32: counted, recorded and latched.
DEDUCED (log entry 16). -/
def dropWrite (s : State) (p : Port) (bar2 : Bool) (off : Nat) : State :=
  let s := s.inc (dropReg p) Fd.OWN_DROP_A.COUNT
  let s := s.wr Reg.OWN_LAST_DROP
    (withBits (withBits (withBits 0 29 29 (if p = .b then 1 else 0)) 28 28 (b2n bar2)) 25 0 off)
  s.event Pg.OWN Ev.OWN.OBS_WRITE

/-- A BAR0 access dropped under R20 or R21: recorded, counted and latched.
DEDUCED (log entry 16). -/
def badAccess (s : State) (p : Port) (off : Nat) : State :=
  let s := s.wr Reg.DEV_BADACC (withBits (withBits 0 29 29 (if p = .b then 1 else 0)) 25 0 off)
  (s.inc Reg.DEV_BADACC_CNT Fd.DEV_BADACC_CNT.COUNT).event Pg.DEV Ev.DEV.BAD_ACCESS

/-- The mailbox registers that RECOVERY accepts from either port (R503): the mailbox commands' own. -/
def isMailbox (off : Nat) : Bool :=
  off = Reg.MBX_CMD || (Reg.MBX_ARG 0 ≤ off && off ≤ Reg.MBX_ARG 2) || (Reg.MBX_DATA 0 ≤ off && off ≤ Reg.MBX_DATA 511)

/-- The owner's BAR0 writes that SEALED serves (R581).
DEDUCED (log entry 16). -/
def sealedServes (off : Nat) : Bool :=
  (off / 0x1000 = Pg.OWN && (off = Reg.OWN_CLAIM || off = Reg.OWN_HEARTBEAT || off = Reg.OWN_HANDOVER))
    || (off % 0x1000 = 0x10 || off % 0x1000 = 0x14 || off % 0x1000 = 0x18 || off % 0x1000 = 0x1C)
    || isMailbox off || off = Reg.LIFE_CMD

/-- A port's PCIe link runs: its PERST_N is high (R568). -/
def linked (s : State) : Port → Bool
  | .a => s.pwr.linkA
  | .b => s.pwr.linkB

/-- A well-formed BAR0 write of a mapped page: accepted from the owner, from any port for the claim and
heartbeat registers (R32), with the exceptions of RECOVERY (R503) and SEALED (R581); before KSTATE is
RUNNING nothing is served (R537), nor over a link that is held down (R568). `f` is what the write does when it is
accepted.
DEDUCED (log entry 16). -/
def hostWrite (s : State) (p : Port) (off : Nat) (f : State → State) : State :=
  if !s.linked p then s
  else match s.mgmt.kstate with
  | .boot => s
  | .recovery => if isMailbox off then f s else s
  | _ =>
    if s.ownedBy p then
      if s.modes.phase = .sealed && !sealedServes off then s.status (off / 0x1000) .notInMode else f s
    else if off = Reg.OWN_CLAIM || off = Reg.OWN_HEARTBEAT then f s
    else s.dropWrite p false off

/-- A BAR0 read: served once KSTATE is RUNNING (R537), over a link that runs (R568). `f` answers the value and what the
read does.
DEDUCED (log entry 16). -/
def hostRead (s : State) (p : Port) (f : State → Word × State) : State :=
  if !s.linked p then s
  else match s.mgmt.kstate with
  | .boot => s
  | _ =>
    let (v, s) := f s
    { s with lastRead := v }

end State

end Sys2Proof.Machine
end

