-- ==== Sys2Proof/Machine/DispOps.lean ====
section
/-! DEFINITION. The dispatcher: clusters and partners, the decision trace, entries and back-pressure, ready
lists, eligibility, the choice of R261 and grants (R251 to R272). -/

namespace Sys2Proof.Machine

/-! ## Jobs, flows and codes -/

/-- The code of a job type (R251). -/
def JobType.code : JobType → Nat
  | .beat => 0 | .pkt => 1 | .modem => 2 | .archive => 3 | .hostcmd => 4 | .maint => 5

/-- The flow of a job (R251). -/
def flowOf (k : JobType) (partner : Bool) (x : Nat) : Nat :=
  match k with
  | .beat => if partner then 0x10000 + x else x
  | .pkt => 0x30000 + x
  | .modem => x
  | .archive => 0x20000 + x
  | .hostcmd => 0x40000 + x % 256
  | .maint => 0x50000 + x

/-- In service: from the grant until the job commits, completes, aborts or is skipped (R253). -/
def JobState.inService : JobState → Bool
  | .ready => false | .staging => true | .running => true | .committing => true | .poisoned => false

/-- Entries of the dispatcher (R254). -/
def maxEntries : Nat := 262144

/-- The role code of CLU_CORE_MAP. -/
def Role.code : Role → Nat
  | .serving => 0 | .reserve => 1 | .retired => 2 | .offline => 3

/-- The code of CLU_STATE.CSTATE. -/
def CState.code : CState → Nat
  | .off => 0 | .serving => 1 | .evacuated => 2 | .lost => 3

namespace State

/-! ## Clusters -/

/-- A cluster. -/
def cluster (s : State) (k : Nat) : Option Cluster := s.clusters[k]?

/-- Change a cluster. -/
def modCluster (s : State) (k : Nat) (f : Cluster → Cluster) : State :=
  { s with clusters := s.clusters.modify k f }

/-- Change a core. -/
def modCore (s : State) (k i : Nat) (f : Core → Core) : State :=
  s.modCluster k fun c => { c with cores := c.cores.modify i f }

/-- A core. -/
def core (s : State) (k i : Nat) : Option Core := (s.cluster k).bind fun c => c.cores[i]?

/-- Whether a cluster is SERVING. -/
def serves (s : State) (k : Nat) : Bool :=
  match s.cluster k with
  | some c => c.cstate = .serving
  | none => false

/-- The SERVING clusters in ascending order. -/
def servingClusters (s : State) : List Nat := (List.range 16).filter fun k => s.serves k

/-- The library version that a cluster runs. -/
def libOf (s : State) (k : Nat) : Word :=
  match s.cluster k with
  | some c => c.lib
  | none => 0

/-- The partner cluster of R119, counting only clusters that run the home's version (R512): (home + 8) mod 16, or
else the next higher-numbered serving cluster modulo 16 that is not the home; none when no other such cluster serves. -/
def partnerOf (s : State) (home : Nat) : Option Nat :=
  ((List.range 16).map (fun d => (home + 8 + d) % 16)).find? fun k => k != home && s.serves k && s.libOf k = s.libOf home

/-- A cluster that can be the home of a channel: it serves, and for a paired channel another cluster serves with its
version (R512). -/
def canHome (s : State) (paired : Bool) (k : Nat) : Bool := s.serves k && (!paired || (s.partnerOf k).isSome)

/-- The clusters that can be a channel's home, in ascending order; where none can take a paired channel, those that
run it unpaired (R119). -/
def homeList (s : State) (paired : Bool) : List Nat :=
  match (List.range 16).filter fun k => s.canHome paired k with
  | [] => s.servingClusters
  | l => l

/-- The home of a channel from a boundary on (R11, R493, R511, R512): its original home once that can take it, else the
home it has, else entry (c >> 4) mod k of the list of clusters that can. -/
def homeFor (s : State) (num cur : Nat) (paired : Bool) : Nat :=
  let l := s.homeList paired
  if l.contains (num % 16) then num % 16
  else if l.contains cur then cur
  else (l[num / 16 % l.length]?).getD cur

/-! ## Trace (R266 to R269) -/

/-- The tick at which the dispatcher cycle of now begins (R256). -/
def cycStart (s : State) : Nat := s.clk.at0 + s.clk.dspCycle * dspTicks

/-- TRACE_CTRL.MODE. -/
def traceMode (s : State) : Nat := s.get Reg.TRACE_CTRL Fd.TRACE_CTRL.MODE

/-- Records that a trace mode holds (R267).
DEDUCED (log entry 49). -/
def traceCap (mode : Nat) : Nat := if mode = 3 || mode = 4 then 4194304 else 8192

/-- The on-chip queue of the spill modes drained to now at 1 GB/s, one 16-byte record in 16 ns, while GDDR-6
is READY (R267).
DEDUCED (log entry 49). -/
def traceDrain (s : State) : State :=
  let x := s.trace
  let k := if s.memReady then (s.clk.now - x.drainAt) * 5 / 18432 else 0
  { s with trace := { x with queued := x.queued - k, drainAt := s.clk.now } }

/-- One record enters the store with the next index; the store keeps what its mode holds. -/
def traceStore (s : State) (ws : List Word) : State :=
  let m := s.traceMode
  let idx := s.rd Reg.TRACE_WR_IDX
  let recs := ({ idx := idx, words := ws } :: s.trace.recs).take (traceCap m)
  let s := { s with trace := { s.trace with
    recs := recs, count := s.trace.count + 1, queued := if 3 ≤ m then s.trace.queued + 1 else 0,
    post := s.trace.post.map (· - 1) } }
  let s := s.wr Reg.TRACE_WR_IDX (idx + 1)
  match recs.getLast? with
  | some r => s.wr Reg.TRACE_OLDEST r.idx
  | none => s

/-- Whether a stop mode's store is full (R267). -/
def traceFull (s : State) : Bool :=
  (s.traceMode = 2 || s.traceMode = 4) && traceCap s.traceMode ≤ s.trace.count

/-- Whether the records after the trigger have all been written (R268). -/
def tracePosted (s : State) : Bool := s.trace.post = some 0

/-- Whether capture goes on. -/
def traceOn (s : State) : Bool := s.traceMode != 0 && !s.trace.stopped && !s.traceFull && !s.tracePosted

/-- The words of a record stamped now (R266). -/
def traceWords (s : State) (event level flow type server jbeat : Nat) : List Word :=
  [s.clk.n, Word.of (s.clk.dspCycle % 2 ^ 24 + event % 16 * 2 ^ 24 + level % 8 * 2 ^ 28),
   Word.of (flow % 2 ^ 20 + type % 8 * 2 ^ 20), Word.of (server % 65536 + jbeat % 65536 * 65536)]

/-- A record enters the store; in the spill modes one that finds the queue of 8,192 full is lost (R267). -/
def traceTry (s : State) (ws : List Word) : State :=
  if 3 ≤ s.traceMode && 8192 ≤ s.trace.queued then
    { s with trace := { s.trace with lostRun := s.trace.lostRun + 1 } }.inc Reg.TRACE_LOST Fd.TRACE_LOST.COUNT
      |>.event Pg.TRACE Ev.TRACE.LOST
  else s.traceStore ws

/-- The LOSS record that stands before the first record written after lost ones (R267).
DEDUCED (log entry 49). -/
def traceLoss (s : State) : State :=
  if s.trace.lostRun = 0 || (3 ≤ s.traceMode && 8192 ≤ s.trace.queued) then s
  else
    let s := s.traceStore (s.traceWords 15 0 (min s.trace.lostRun 0xFFFFF) 0 (3 * 256) 0)
    { s with trace := { s.trace with lostRun := 0 } }

/-- Write a record while capture goes on (R266, R267). -/
def traceWrite (s : State) (ws : List Word) : State :=
  if !s.traceOn then s
  else
    let s := (if 3 ≤ s.traceMode then s.traceDrain else s).traceLoss
    if s.traceOn then s.traceTry ws else s

/-- A decision about a job passes the filters of R266. -/
def traceFilter (s : State) (event : Nat) (k : JobType) (flow : Nat) : Bool :=
  (s.rd Reg.TRACE_EVT_MASK).getLsbD event && (s.rd Reg.TRACE_TYPE_MASK).getLsbD k.code
    && s.get Reg.TRACE_FLOW_LO Fd.TRACE_FLOW_LO.FLOW ≤ flow && flow ≤ s.get Reg.TRACE_FLOW_HI Fd.TRACE_FLOW_HI.FLOW

/-- The server fields of a record: INDEX, CLUSTER and CLASS. -/
def serverBits : Option Server → Nat
  | some (.core k i) => i + 16 * k
  | some (.unit i) => i + 256
  | some (.lane i) => i + 512
  | none => 768

/-- A decision about a job. `flags` are bits [15:10] of the last word's low half. -/
def traceJob (s : State) (event : Nat) (j : Job) (server : Option Server) (flags : Nat) : State :=
  if s.traceFilter event j.kind j.flow then
    s.traceWrite (s.traceWords event j.level j.flow j.kind.code (serverBits server + flags) j.beat.toNat)
  else s

/-- A CANCEL or ABORT with CAUSE deadline arms the trigger while TRACE_CTRL.STOP_ON_SKIP is 1 (R268). -/
def traceTrigger (s : State) : State :=
  if s.traceMode != 0 && s.flag Reg.TRACE_CTRL Fd.TRACE_CTRL.STOP_ON_SKIP && s.trace.post.isNone && !s.trace.stopped then
    { s with trace := { s.trace with post := some (s.get Reg.TRACE_CTRL Fd.TRACE_CTRL.POST) } }
  else s

/-- Capture stops: STOPPED latches (R267, R268). -/
def traceStop (s : State) : State :=
  if s.trace.stopped then s
  else { s with trace := { s.trace with stopped := true } }.event Pg.TRACE Ev.TRACE.STOPPED

/-! ## Entries and readiness (R254, R255, R259) -/

/-- A job in the dispatcher by its id. -/
def job (s : State) (id : Nat) : Option Job := s.disp.jobs.find? fun j => j.id = id

/-- Change a job. -/
def modJob (s : State) (id : Nat) (f : Job → Job) : State :=
  { s with disp := { s.disp with jobs := s.disp.jobs.map fun j => if j.id = id then f j else j } }

/-- DSP_PEND after a change of the entries held: high-water mark and PEND_HIGH (R254, R270, R271). -/
def pendChanged (s : State) : State :=
  let old := s.get Reg.DSP_PEND Fd.DSP_PEND.COUNT
  let new := s.disp.jobs.length
  let lim := s.get Reg.DSP_PEND_LIMIT Fd.DSP_PEND_LIMIT.COUNT
  ((s.put Reg.DSP_PEND Fd.DSP_PEND.COUNT new).raise Reg.DSP_PEND_HWM Fd.DSP_PEND_HWM.COUNT new).eventIf
    (lim != 0 && old ≤ lim && lim < new) Pg.DSP Ev.DSP.PEND_HIGH

/-- The ready list of a job (R259). -/
def listFor (s : State) (j : Job) : ListId :=
  match j.kind with
  | .beat =>
    let k := if j.partner then s.partnerOf j.home else some j.home
    match k with
    | some k => if s.serves k then .cluster k else .global
    | none => .global
  | .modem => .pool
  | .archive => .pool
  | _ => .global

/-- A job enters its ready list: last in the order made ready (R259). -/
def enlist (s : State) (j : Job) : State :=
  let j := { j with state := .ready, server := none, staged := false, list := s.listFor j, seq := s.disp.nextSeq,
                    readyAt := s.cycStart }
  let s := { s with disp := { s.disp with nextSeq := s.disp.nextSeq + 1,
                                          jobs := s.disp.jobs.filter (fun (x : Job) => x.id ≠ j.id) ++ [j] } }
  s.traceJob 1 j none (if j.redisp then 1024 else 0)

/-- A new job takes an entry and is made ready. -/
def enterJob (s : State) (j : Job) : State :=
  let j := { j with id := s.disp.nextId }
  let s := { s with disp := { s.disp with nextId := s.disp.nextId + 1 } }
  (s.enlist j).pendChanged

/-- DSP_HOLD.SRC from the held jobs. -/
def showHolds (s : State) : State :=
  s.put Reg.DSP_HOLD Fd.DSP_HOLD.SRC
    ((s.disp.held.foldl (fun (w : Word) j => w ||| Word.of (2 ^ j.kind.code)) 0).toNat)

/-- A source has a job to make ready: it is made ready, or held back while every entry is held or while
earlier jobs of its source are held (R255). -/
def makeReady (s : State) (j : Job) : State :=
  let holding := s.disp.held.any fun x => x.kind = j.kind
  if holding then { s with disp := { s.disp with held := s.disp.held ++ [j] } }
  else if s.disp.jobs.length < maxEntries then s.enterJob j
  else
    let s := { s with disp := { s.disp with held := s.disp.held ++ [j] } }.showHolds
    let s := (s.inc Reg.DSP_HOLD_CNT Fd.DSP_HOLD_CNT.COUNT).event Pg.DSP Ev.DSP.HOLD
    s.traceJob 7 j none 0

/-- The order in which held sources are served (R255). -/
def holdOrder : List JobType := [.beat, .modem, .hostcmd, .pkt, .archive, .maint]

/-- The first held job in the order of R255. -/
def firstHeld (held : List Job) : Option Job :=
  holdOrder.findSome? fun k => held.find? fun j => j.kind = k

/-- Remove the first held job equal to one. -/
def unhold (j : Job) : List Job → List Job
  | [] => []
  | x :: xs => if x = j then xs else x :: unhold j xs

/-- A freed entry lets the first held source make its job ready (R255). -/
def holdRelease (s : State) : State :=
  if s.disp.jobs.length < maxEntries then
    match firstHeld s.disp.held with
    | none => s
    | some j =>
      let s := { s with disp := { s.disp with held := unhold j s.disp.held } }.showHolds
      (s.traceJob 8 j none 0).enterJob j
  else s

/-- A job frees its entry. -/
def freeEntry (s : State) (id : Nat) : State :=
  { s with disp := { s.disp with jobs := s.disp.jobs.filter (fun j => j.id ≠ id) } }.pendChanged

/-- A job with nothing of a beat's about it. -/
def blankCfg : ChanCfg :=
  { emergency := false, paired := false, standing := false, record := false, phaseSet := false, phase := 0, ec := .off,
    detA := false, detB := false, relayA := false, relayB := false, sess := .none, sessSideB := false,
    legA := .source false 0, legB := .source false 0, ring := 0 }

/-- A new job of a type other than BEAT, made ready in the current beat (R251, R252).
PRESUMED (log entry 20). -/
def plainJob (s : State) (k : JobType) (x uid : Nat) : Job :=
  { id := 0, kind := k, flow := flowOf k false x, beat := s.clk.n,
    level := match k with
      | .pkt => 5
      | .modem => 4
      | .archive => 6
      | .hostcmd => 0
      | .maint => 7
      | .beat => 3,
    chan := x, uid := uid, partner := false, paired := false, home := 0, state := .ready, list := .global,
    server := none, excluded := [], redisp := false, seq := 0, readyAt := 0, staged := false, version := 0,
    flagged := false, digest := none, peer := none, startAt := 0, grantAt := 0, acc := 0, stalled := false,
    cfg := blankCfg }

/-- The BEAT job of a channel for beat `n`, on its home or its partner side (R251, R252). -/
def beatJob (s : State) (c : Chan) (n : BeatNo) (partner : Bool) : Job :=
  { s.plainJob .beat c.num c.uid with
      flow := flowOf .beat partner c.num, beat := n, level := if c.cfg.emergency then 2 else 3, partner := partner,
      paired := c.cfg.paired && (s.partnerOf c.home).isSome, home := c.home, cfg := c.cfg }

/-! ## Choosing (R260, R261) -/

/-- A job's flow has a job in service (R253). -/
def flowBusy (s : State) (flow : Nat) : Bool := s.disp.jobs.any fun j => j.flow = flow && j.state.inService

/-- A BEAT job that must wait for its channel: for an earlier beat's job of the channel (R61), or for a MODEM
job of its flow, whose results belong to its state (R251). -/
def waitsForChannel (s : State) (j : Job) : Bool :=
  j.kind = .beat && s.disp.jobs.any fun x =>
    x.uid = j.uid && ((x.kind = .beat && !x.partner && x.state != .poisoned && beatAfter j.beat x.beat)
      || (x.kind = .modem && x.seq < j.seq))

/-- Eligible for a server, apart from what the server itself asks for (R253, R258, R260). -/
def open_ (s : State) (j : Job) : Bool :=
  j.state = .ready && j.readyAt < s.cycStart && !s.flowBusy j.flow && !s.waitsForChannel j

/-- Eligible for a core of cluster k (R260). -/
def eligible (s : State) (k i : Nat) (j : Job) : Bool :=
  s.open_ j && !j.excluded.contains (k, i)
    && !(j.kind = .beat && j.paired && (if j.partner then k = j.home else s.partnerOf j.home = some k))

/-- Order of a ready list: by beat, then by the order made ready (R259). -/
def listBefore (a b : Job) : Bool := beatAfter b.beat a.beat || (a.beat = b.beat && a.seq < b.seq)

/-- Insert a job in its place. -/
def insertJob (j : Job) : List Job → List Job
  | [] => [j]
  | x :: xs => if listBefore j x then j :: x :: xs else x :: insertJob j xs

/-- The eligible jobs of a list at a level, in order. -/
def eligibleIn (s : State) (k i : Nat) (l : ListId) (level : Nat) : List Job :=
  (s.disp.jobs.filter fun j => j.list = l && j.level = level && j.kind != .modem && j.kind != .archive && s.eligible k i j).foldr
    insertJob []

/-- Whether a job's flow last started on a core. -/
def lastHere (s : State) (k i : Nat) (j : Job) : Bool := s.disp.lastCore.find? j.flow = some (k, i)

/-- Step 2: affinity among the first DSP_AFF_DEPTH eligible jobs, else the first. -/
def affine (s : State) (k i : Nat) (l : List Job) : Option Job :=
  match (l.take (s.get Reg.DSP_AFF_DEPTH Fd.DSP_AFF_DEPTH.DEPTH)).find? fun j => s.lastHere k i j with
  | some j => some j
  | none => l.head?

/-- Levels that media cores see (R252), highest priority first. -/
def coreLevels : List Nat := [0, 1, 2, 3, 5, 7]

/-- Step 1 and 2 for a serving core. -/
def firstChoice (s : State) (k i : Nat) : Option Job :=
  coreLevels.findSome? fun lv =>
    match s.eligibleIn k i (.cluster k) lv with
    | [] => s.affine k i (s.eligibleIn k i .global lv)
    | l => s.affine k i l

/-- The first eligible BEAT job of another cluster's list at a level. -/
def firstBeat (s : State) (k i c lv : Nat) : Option Job :=
  (s.eligibleIn k i (.cluster c) lv).find? fun j => j.kind = .beat

/-- The earlier of two candidates of step 3; the first stays on a tie. -/
def earlier (a : Option Job) (b : Option Job) : Option Job :=
  match a, b with
  | none, b => b
  | some a, none => some a
  | some a, some b => if beatAfter a.beat b.beat then some b else some a

/-- Step 3: the earliest eligible BEAT job of an earlier beat in another cluster's list at the level. -/
def olderChoice (s : State) (k i : Nat) (j : Job) : Option Job :=
  if j.kind = .beat then
    (((List.range 16).filter (· != k)).map fun c => (s.firstBeat k i c j.level).filter fun x => beatAfter j.beat x.beat).foldl
      earlier none
  else none

/-- The eligible BEAT jobs in a cluster's lists, highest level first. -/
def backlog (s : State) (k i c : Nat) : List Job :=
  ((List.range 8).map fun lv => (s.eligibleIn k i (.cluster c) lv).filter fun j => j.kind = .beat).flatten

/-- Step 4: backlog stealing. -/
def stealChoice (s : State) (k i : Nat) : Option Job :=
  let thr := s.get Reg.DSP_STEAL_THR Fd.DSP_STEAL_THR.JOBS
  if thr = 0 then none
  else
    let bs := ((List.range 16).filter (· != k)).map fun c => s.backlog k i c
    let most := bs.foldl (fun m l => max m l.length) 0
    if thr ≤ most then (bs.find? fun l => l.length = most).bind List.head? else none

/-- The choice for an asking core (R257, R261): the job, and whether step 3 made it. -/
def choose (s : State) (k i : Nat) (role : Role) : Option (Job × Bool) :=
  match role with
  | .reserve => (s.affine k i ((s.eligibleIn k i (.cluster k) 1).filter fun j => j.kind = .beat)).map fun j => (j, false)
  | .serving =>
    match s.firstChoice k i with
    | some j =>
      match s.olderChoice k i j with
      | some o => some (o, true)
      | none => some (j, false)
    | none => (s.stealChoice k i).map fun j => (j, false)
  | _ => none

/-- A core holds an ask: its slot is empty, it awaits no self-check and no retirement, and its cluster serves
(R257, R485, R486). -/
def asks (c : Core) : Bool :=
  (c.role = .serving || c.role = .reserve) && c.slot.isNone && c.checking.isNone && !c.retire

/-- The asking cores of a cluster with the choice each would get, in ascending order of index. -/
def firstAsk (s : State) (k : Nat) : Option (Nat × Job × Bool) :=
  if s.serves k then
    (List.range 10).findSome? fun i =>
      match s.core k i with
      | some c => if asks c then (s.choose k i c.role).map fun (j, o) => (i, j, o) else none
      | none => none
  else none

/-- Whether a pool's grant of this dispatcher cycle has been made (R258). -/
def poolGranted (s : State) (p : Pool) : Bool := s.disp.granted.contains (p, s.cycStart)

/-- Note a pool's grant in this dispatcher cycle. -/
def notePool (s : State) (p : Pool) : State :=
  { s with disp := { s.disp with granted := (p, s.cycStart) :: s.disp.granted.filter fun g => g.2 = s.cycStart } }

/-- A grant to a core (R257, R258, R261). -/
def grantCore (s : State) (k i : Nat) (j : Job) (older : Bool) : State :=
  let aff := s.lastHere k i j
  let steal := match j.list with
    | .cluster c => c != k
    | _ => false
  let glob := j.list = .global
  let srv := some (Server.core k i)
  let s := s.modJob j.id fun x => { x with state := .staging, server := srv, staged := false, grantAt := s.clk.now }
  let s := s.modCore k i fun c => { c with slot := some j.id }
  let s := (s.incWrap Reg.DSP_GRANT_CNT Fd.DSP_GRANT_CNT.COUNT).notePool (.cluster k)
  let s := if aff then s.incWrap Reg.DSP_AFF_CNT Fd.DSP_AFF_CNT.COUNT else s
  let s := if steal then s.inc Reg.DSP_STEAL_CNT Fd.DSP_STEAL_CNT.COUNT else s
  let s := if older then s.inc Reg.DSP_OLDER_CNT Fd.DSP_OLDER_CNT.COUNT else s
  s.traceJob 2 j srv (2048 * b2n aff + 4096 * b2n steal + 8192 * b2n glob)

/-- The units of a pool that ask: in service and idle. -/
def poolAsks (us : List PoolUnit) : List Nat :=
  (List.range us.length).filter fun i => match us[i]? with
    | some u => u.alive && u.run.isNone
    | none => false

/-- The first eligible job of a pool's list for a unit: the list is ordered as R259 says; a unit on which the
job faulted is excluded (R495). -/
def poolJob (s : State) (k : JobType) (cls i : Nat) : Option Job :=
  ((s.disp.jobs.filter fun j => j.kind = k && s.open_ j && !j.excluded.contains (cls, i)).foldr insertJob []).head?

/-- A grant in a unit pool: the unit starts the job at once (R257). -/
def grantPool (s : State) (k : JobType) (cls : Nat) (p : Pool) (srv : Nat → Server) (us : List PoolUnit)
    (put : List PoolUnit → State → State) : State :=
  match (poolAsks us).findSome? fun i => (s.poolJob k cls i).map fun j => (i, j) with
  | none => s
  | some (i, j) =>
    let s := s.modJob j.id fun x =>
      { x with state := .running, server := some (srv i), grantAt := s.clk.now, startAt := s.clk.now, acc := s.clk.now }
    let s := put (us.modify i fun u => { u with run := some j.id }) s
    let s := (s.incWrap Reg.DSP_GRANT_CNT Fd.DSP_GRANT_CNT.COUNT).notePool p
    (s.traceJob 2 j (some (srv i)) 0).traceJob 3 j (some (srv i)) 0

/-- One grant in a pool of servers in this dispatcher cycle (R258). -/
def grant (s : State) (p : Pool) : State :=
  if s.poolGranted p then s
  else match p with
    | .cluster k =>
      match s.firstAsk k with
      | some (i, j, o) => s.grantCore k i j o
      | none => s
    | .trellis =>
      s.grantPool .modem 100 p .unit s.disp.trellis fun us s => { s with disp := { s.disp with trellis := us } }
    | .archive =>
      s.grantPool .archive 101 p .lane s.disp.lanes fun us s => { s with disp := { s.disp with lanes := us } }

end State

/-! ## Trace commands of the host -/

/-- A write of TRACE_CTRL (R267, R272): MODE 5 to 7 leave it unchanged. -/
def State.traceCtrl (s : State) (v : Word) : State :=
  let old := s.traceMode
  let m := bitsOf v 2 0
  if s.modes.bringup && (m = 3 || m = 4) then s.status Pg.TRACE .notInMode
  else if 5 ≤ m then s.status Pg.TRACE .badParam
  else
    let w := withBits (withBits (withBits 0 28 16 (bitsOf v 28 16)) 3 3 (bitsOf v 3 3)) 2 0 m
    let s := (s.wr Reg.TRACE_CTRL w).status Pg.TRACE .ok
    if old = 0 && m != 0 then
      { s with trace := { s.trace with stopped := false, count := 0, post := none, queued := 0, drainAt := s.clk.now,
                                       lostRun := 0, recs := [] } }.wr Reg.TRACE_OLDEST (s.rd Reg.TRACE_WR_IDX)
    else s

/-- A write of TRACE_MARK (R266): a MARK record whatever the filters say. -/
def State.traceMark (s : State) (v : Word) : State :=
  (s.traceWrite (s.traceWords 14 0 (bitsOf v 19 0) 0 768 0)).status Pg.TRACE .ok

/-- A write of TRACE_RD_IDX (R269). -/
def State.traceFetch (s : State) (idx : Word) : State :=
  let (ws, st) : List Word × Status :=
    match s.trace.recs.find? fun r => r.idx = idx with
    | some r => (r.words, .ok)
    | none => ([], if beatAfter (s.rd Reg.TRACE_OLDEST) idx then .late else .badParam)
  let s := (List.range 4).foldl (fun s k => s.wr (Reg.TRACE_RD_DATA k) (ws.getD k 0)) s
  s.status Pg.TRACE st

end Sys2Proof.Machine
end

