-- ==== Sys2Proof/Machine/RelOps.lean ====
section
/-! DEFINITION. Spares, tolerance and fault records (R482, R483, R486, R499), and what Kwakel has still to
write to flash. -/

namespace Sys2Proof.Machine

namespace State

/-! ## Tolerance (R483) -/

/-- Spare rows (or columns) spent in local memories, or in shared SRAM. -/
def spent (s : State) (shared column : Bool) : Nat :=
  ((s.spares.banks.filter fun b => b.shared = shared).map fun b => if column then b.cols else b.rows).foldl (· + ·) 0

/-- Cores with a role: those of a cluster that does not serve are offline (R231). -/
def coresWith (s : State) (r : Role) : Nat :=
  (((s.clusters.filter fun c => c.cstate = .serving).map fun c => (c.cores.filter fun x => x.role = r).length)).foldl (· + ·) 0

/-- Units of a pool in service. -/
def unitsAlive (us : List PoolUnit) : Nat := (us.filter fun u => u.alive).length

/-- Devices that serve. -/
def devicesOk (s : State) : Nat :=
  ((List.range 4).filter fun d => (s.get Reg.MEM_STATE Fd.MEM_STATE.DEV_OK).testBit d).length

/-- Spare frames of the pool (R472). -/
def poolFrames : Nat := 16384

/-- Entries of the retirement table. -/
def tableEntries : Nat := 4096

/-- Free good spare frames: neither in use, nor being copied to, nor bad. -/
def goodSpares (s : State) : Nat := poolFrames - s.mem.table.length - s.mem.copies.length - s.mem.bad.length

/-- Free retirement entries. -/
def freeEntries (s : State) : Nat := tableEntries - s.mem.table.length - s.mem.copies.length

/-- The references listed in BEAT_REF_CTRL: an entry of 0b11 ends the list (R49). -/
def listedRefs (s : State) : List Nat :=
  let r := Reg.BEAT_REF_CTRL
  ([s.get r Fd.BEAT_REF_CTRL.FIRST, s.get r Fd.BEAT_REF_CTRL.SECOND, s.get r Fd.BEAT_REF_CTRL.THIRD].takeWhile (· != 3))

/-- Whether a reference is qualified. -/
def refQualified (s : State) (r : Nat) : Bool :=
  if r = 0 then s.refs.qualNet else if r = 1 then s.refs.qualPcm else if r = 2 then s.refs.qualTen else false

/-- The code of the active reference. -/
def activeRef (s : State) : Nat :=
  match s.refs.active with
  | .net => 0 | .pcm => 1 | .ten => 2 | .free => 3

/-- A port has link. -/
def linkIsUp (s : State) (i : Nat) : Bool := s.flag (Reg.MAC_LINK i) Fd.MAC_LINK.LINK_UP

/-- The enabled link pairs as (pair, standby port). -/
def standbys (s : State) : List Nat :=
  (List.range 4).filterMap fun k =>
    if s.flag (Reg.LPAIR_PAIR k) Fd.LPAIR_PAIR.EN then
      let a := s.get (Reg.LPAIR_PAIR k) Fd.LPAIR_PAIR.PRIMARY
      let b := s.get (Reg.LPAIR_PAIR k) Fd.LPAIR_PAIR.SECONDARY
      match s.nw.pairs[k]? with
      | some p => some (if p.active = a then b else a)
      | none => none
    else none

/-- TOTAL and LEFT of class k (R483).
DEDUCED (log entry 19). -/
def inventory (s : State) (k : Nat) : Nat × Nat :=
  match k with
  | 0 => (16, s.coresWith .reserve)
  | 1 => (20480, 20480 - s.spent false false)
  | 2 => (20480, 20480 - s.spent false true)
  | 3 => (2048, 2048 - s.spent true false)
  | 4 => (2048, 2048 - s.spent true true)
  | 5 => (1, b2n (s.servingClusters.length = 16))
  | 6 => (1, unitsAlive s.disp.trellis - 3)
  | 7 => (9, unitsAlive s.disp.lanes - 7)
  | 8 => (s.get Reg.MEM_CFG Fd.MEM_CFG.RATE, b2n (s.flag Reg.MEM_CFG Fd.MEM_CFG.RATE && s.devicesOk = 4))
  | 9 => (4096, min s.freeEntries s.goodSpares)
  | 10 => (s.standbys.length, (s.standbys.filter fun p => s.linkIsUp p).length)
  | 11 =>
    (1, match s.own.owner with
      | .host .a => b2n s.own.pb.claim
      | .host .b => b2n s.own.pa.claim
      | _ => 0)
  | 12 => (1, b2n (!s.spares.onStandby && s.spares.standbyLocked))
  | 13 => (s.listedRefs.length, (s.listedRefs.filter fun r => s.refQualified r && r != s.activeRef).length)
  | 14 => (12, s.spares.spareDiodes)
  | 15 => (8, s.spares.spareMonitors)
  | 16 => (16, s.log.spare)
  | _ => (0, 0)

/-- NO_TOL of class k (R483). -/
def noTol (s : State) (k : Nat) : Bool := (s.inventory k).2 = 0 && (s.inventory k).1 != 0

/-- REL_STATE.NOTOL. -/
def notolBits (s : State) : Nat :=
  (List.range 17).foldl (fun n k => if s.noTol k then n + 2 ^ k else n) 0

/-- TOL_LOST latches when a bit of REL_STATE.NOTOL sets (R500). -/
def relCheck (s : State) : State :=
  let new := s.notolBits
  let rise := (List.range 17).any fun k => new.testBit k && !s.spares.notol.testBit k
  { s with spares := { s.spares with notol := new } }.eventIf rise Pg.REL Ev.REL.TOL_LOST

/-! ## Fault records (R499) -/

/-- A fault of a class is detected: counts, REL_LAST_FAULT, REL_LAST_BEAT and FAULT.
PRESUMED (log entry 18). -/
def recordFault (s : State) (cls cluster index detect : Nat) (injected : Bool) : State :=
  let w := withBits (withBits (withBits (withBits (withBits 0 31 31 (b2n injected)) 28 24 cls) 23 20 cluster) 19 16 index) 7 0 detect
  let s := (s.wr Reg.REL_LAST_FAULT w).wr Reg.REL_LAST_BEAT s.clk.n
  (((s.inc (Reg.REL_FAULT_CNT cls) Fd.REL_FAULT_CNT.COUNT).event Pg.REL Ev.REL.FAULT)).relCheck

/-- Work that Kwakel has still to write to flash (R458, R473, R487, R490, R494). -/
def addWork (s : State) (w : FlashWork) : State := { s with mgmt := { s.mgmt with work := s.mgmt.work ++ [w] } }

/-- Beats of the fault history: the last 24 h (R486). -/
def historyBeats : Nat := 17280000

/-- The faults of a history that lie within the last 24 h of beat n. -/
def recentFaults (n : BeatNo) (h : List BeatNo) : List BeatNo := h.filter fun b => (n - b).toNat < historyBeats

end State

end Sys2Proof.Machine
end

