-- ==== Sys2Proof/Machine/MemOps.lean ====
section
/-! DEFINITION. GDDR-6: stripes, reads with correction and poison, device loss, retirement, and host scratch
(R454 to R475). -/

namespace Sys2Proof.Machine

/-! ## Address map (R455, R459, R461) -/

/-- Bytes of a mebibyte. -/
def mib : Nat := 1048576

/-- Bases and sizes of the two densities (R455, R459). `small` names 8 Gb devices. -/
structure MemMap where
  usable : Nat
  spareBase : Nat
  scratchBase : Nat
  scratchSize : Nat
  slotBase : Nat
  segments : Nat
  deriving DecidableEq, Repr

/-- The map of a density. -/
def memMap (small : Bool) : MemMap :=
  if small then
    { usable := 2976 * mib, spareBase := 0x98000000, scratchBase := 0x9C000000, scratchSize := 480 * mib,
      slotBase := 0x40000000, segments := 8192 }
  else
    { usable := 5952 * mib, spareBase := 0x168000000, scratchBase := 0x16C000000, scratchSize := 128 * mib,
      slotBase := 0x80000000, segments := 20480 }

/-- Where an address lies: data device, parity device and device byte address (R461). -/
structure StripeAt where
  dev : Nat
  par : Nat
  daddr : Nat
  deriving DecidableEq, Repr

/-- The stripe arithmetic of R461 after the retirement lookup. -/
def stripeOf (a : Nat) : StripeAt :=
  let sN := a / 768
  let u := a % 768 / 256
  let p := sN % 4
  { dev := (p + 1 + u) % 4, par := p, daddr := sN * 256 + a % 256 }

/-! ## Host scratch as bytes -/

/-- What a byte of scratch reads as while nothing has written it: initialisation writes zeros (R456).
DESIGN CHOICE (log entry 38). -/
def scratchDefault : BitVec 8 := 0

/-- Read one byte.
DESIGN CHOICE (log entry 38). -/
def memGet (m : List Host.Cell) (a : Nat) : BitVec 8 := Assoc.get (fun _ => scratchDefault) m a

/-- Write one byte, keeping the canonical form.
DESIGN CHOICE (log entry 38). -/
def memPut (m : List Host.Cell) (a : Nat) (b : BitVec 8) : List Host.Cell := Assoc.set (fun _ => scratchDefault) m a b

/-- Write bytes at rising addresses. -/
def memWrite (m : List Host.Cell) (a : Nat) : List (BitVec 8) → List Host.Cell
  | [] => m
  | b :: bs => memWrite (memPut m a b) (a + 1) bs

/-- Read `n` bytes from an address on. -/
def memRead (m : List Host.Cell) (a n : Nat) : List (BitVec 8) := (List.range n).map fun i => memGet m (a + i)

/-- The form of a memory: addresses strictly rising, no entry equal to what an unlisted address reads as.
DESIGN CHOICE (log entry 38). -/
abbrev Memory.wf (m : List Host.Cell) : Prop := Assoc.Canonical (fun _ => scratchDefault) m

namespace State

/-- The map of the devices present. -/
def memMap (s : State) : MemMap := Machine.memMap (s.flag Reg.MEM_CFG Fd.MEM_CFG.DENSITY)

/-- The retirement entry of a logical frame, with its number. -/
def retEntry (s : State) (frame : Nat) : Option (Nat × RetEntry) := List.find? (fun e => e.2.frame = frame) s.mem.table

/-- The address after the retirement lookup. -/
def physAddr (s : State) (a : Nat) : Nat :=
  match s.retEntry (a / 4096) with
  | some e => s.memMap.spareBase + e.2.pool * 4096 + a % 4096
  | none => a

/-- A device is lost. -/
def deviceLost (s : State) (d : Nat) : Bool := (s.get Reg.MEM_STATE Fd.MEM_STATE.LOST).testBit d

/-- Number of lost devices. -/
def devicesLost (s : State) : Nat := ((List.range 4).filter fun d => s.deviceLost d).length

/-- MEM_STATE.STATE changes (R477). -/
def setMemState (s : State) (v : Nat) : State :=
  (s.put Reg.MEM_STATE Fd.MEM_STATE.STATE v).eventIf (s.get Reg.MEM_STATE Fd.MEM_STATE.STATE != v) Pg.MEM Ev.MEM.STATE_CHANGE

/-- Note a device as lost in MEM_STATE. -/
def markLost (s : State) (d : Nat) : State :=
  let r := Reg.MEM_STATE
  let lost := s.get r Fd.MEM_STATE.LOST
  let s := s.put r Fd.MEM_STATE.LOST (lost ||| 2 ^ d)
  (s.put r Fd.MEM_STATE.DEV_OK (15 - (lost ||| 2 ^ d))).put r Fd.MEM_STATE.DEGRADED 1

/-- GDDR-6 ends in OFF (R457, R468), with no device in service: while BRINGUP has not ended it is held until the next reset (R545).
DEDUCED (log entry 37). -/
def memOff (s : State) : State :=
  let again := s.modes.memFailed || s.modes.ended
  { (s.setMemState 0).put Reg.MEM_STATE Fd.MEM_STATE.DEV_OK 0 with modes := { s.modes with memFailed := true } }.eventIf (!again) Pg.MODE Ev.MODE.BRINGUP_HELD

/-- A device is lost in service or in training (R467, R468): a second loss ends every access. -/
def loseDevice (s : State) (d detect : Nat) : State :=
  if s.deviceLost d then s
  else
    let s := ((s.markLost d).event Pg.MEM Ev.MEM.DEV_LOST).addWork (.device d)
    let s := s.recordFault 8 0 d detect false
    if 2 ≤ s.devicesLost then s.memOff else s

/-! ## Retirement (R470 to R473) -/

/-- RETIRE_USED and RETIRE_POOL_BAD. -/
def showRetire (s : State) : State :=
  (s.put Reg.RETIRE_USED Fd.RETIRE_USED.COUNT s.mem.table.length).put Reg.RETIRE_POOL_BAD Fd.RETIRE_POOL_BAD.COUNT
    s.mem.bad.length

/-- The lowest free, good spare frame. -/
def lowestSpare (s : State) : Option Nat :=
  (List.range poolFrames).find? fun p =>
    !s.mem.bad.contains p && !(s.mem.table.any fun e => e.2.pool = p) && !(s.mem.copies.any fun c => c.pool = p)

/-- The lowest free entry of the table. -/
def lowestEntry (s : State) : Option Nat :=
  (List.range tableEntries).find? fun i => (s.mem.table.find? i).isNone

/-- Whether a retirement of a frame can be made: a spare frame is free, and an entry unless the frame has
one (R470, R472). -/
def canRetire (s : State) (frame : Nat) : Bool :=
  s.lowestSpare.isSome && ((s.retEntry frame).isSome || 0 < s.freeEntries)

/-- Start the copy of a retirement, or refuse it: TABLE_FULL latches at the first refused one (R471, R472). -/
def startRetire (s : State) (frame : Nat) (poison : List Nat) (byCmd : Bool) : State :=
  if s.mem.copies.any fun c => c.frame = frame then
    { s with mem := { s.mem with copies := s.mem.copies.map fun c =>
        if c.frame = frame then { c with poison := c.poison ++ poison.filter fun x => !c.poison.contains x } else c } }
  else match s.lowestSpare with
    | some p =>
      if s.canRetire frame then
        let s := if byCmd then s else s.recordFault 9 0 0 7 false
        let c : RetCopy := { frame := frame, pool := p, poison := poison, byCmd := byCmd, lastFree := s.freeEntries = 1 }
        { s with mem := { s.mem with copies := s.mem.copies ++ [c] } }
      else refuse s
    | none => refuse s
where
  /-- A refused retirement. -/
  refuse (s : State) : State :=
    if s.mem.fullSeen then s
    else { s with mem := { s.mem with fullSeen := true } }.event Pg.RETIRE Ev.RETIRE.TABLE_FULL

/-- The oldest copy completes and the entry switches to the spare frame; a spare frame in use before is bad
from now on (R470, R471). RETIRE_CMD completes with it. -/
def retireSwitch (s : State) : State :=
  match s.mem.copies with
  | [] => s
  | c :: rest =>
    let s := { s with mem := { s.mem with copies := rest } }
    let s := match s.retEntry c.frame with
      | some (i, e) =>
        let e' : RetEntry := { e with pool := c.pool, poison := e.poison ++ c.poison.filter fun x => !e.poison.contains x }
        { s with mem := { s.mem with table := s.mem.table.insert i e', bad := e.pool :: s.mem.bad } }
      | none =>
        match s.lowestEntry with
        | some i =>
          let e : RetEntry := { frame := c.frame, pool := c.pool, poison := c.poison }
          { s with mem := { s.mem with table := s.mem.table.insert i e } }
        | none => s
    let s := s.showRetire
    let s := (s.inc Reg.RETIRE_CNT Fd.RETIRE_CNT.COUNT).event Pg.RETIRE Ev.RETIRE.RETIRED
    let s := s.addWork (.frame c.frame c.pool 0)
    if c.byCmd then (s.setBusy Pg.RETIRE false).status Pg.RETIRE (if c.lastFree then .degraded else .ok) else s

/-! ## Reads (R465, R466) -/

/-- Whether a sector carries a poison bit. -/
def isPoisoned (s : State) (a : Nat) : Bool :=
  (match s.retEntry (a / 4096) with
    | some e => e.2.poison.contains (a % 4096 / 64)
    | none => false)
  || s.mem.copies.any fun c => c.frame = a / 4096 && c.poison.contains (a % 4096 / 64)

/-- A sector written whole loses its poison bit (R465). -/
def clearPoison (s : State) (a : Nat) : State :=
  let f := a / 4096
  let k := a % 4096 / 64
  { s with mem := { s.mem with
      table := s.mem.table.map fun e => if e.2.frame = f then (e.1, { e.2 with poison := e.2.poison.filter (· ≠ k) }) else e,
      copies := s.mem.copies.map fun c => if c.frame = f then { c with poison := c.poison.filter (· ≠ k) } else c } }

/-- A corrected sector on a device that serves: counts, device loss by corrected sectors, and the frame's
history (R465, R467, R470). -/
def corrected (s : State) (d a : Nat) : State :=
  let s := s.inc (Reg.MEM_DEV_CORR_CNT d) Fd.MEM_DEV_CORR_CNT.COUNT
  let n := s.mem.corrNow.getD d 0 + 1
  let frame := a / 4096
  let old := match s.mem.history.find? fun h => h.1 = frame with
    | some h => recentFaults s.clk.n h.2
    | none => []
  let hist := ((frame, s.clk.n :: old) :: s.mem.history.filter fun h => h.1 ≠ frame).take 64
  let s := { s with mem := { s.mem with corrNow := s.mem.corrNow.set d n, history := hist } }
  let s := if s.get Reg.STRIPE_LOSS_THR Fd.STRIPE_LOSS_THR.CORR_PER_BEAT ≤ n then s.loseDevice d 7 else s
  if s.get Reg.RETIRE_THR Fd.RETIRE_THR.CORR ≤ old.length + 1 && (s.retEntry frame).isNone then s.startRetire frame [] false
  else s

/-- An uncorrectable sector: counted, recorded, its frame retired with the poison bit (step 4 of R465). -/
def uncorrectable (s : State) (a : Nat) : State :=
  let s := s.inc Reg.MEM_UNCORR_CNT Fd.MEM_UNCORR_CNT.COUNT
  let s := (s.wr Reg.MEM_UNCORR_ADDR_LO (Word.of a)).put Reg.MEM_UNCORR_ADDR_HI Fd.MEM_UNCORR_ADDR_HI.ADDR (a / 2 ^ 32)
  (s.event Pg.MEM Ev.MEM.UNCORR).startRetire (a / 4096) [a % 4096 / 64] false

/-- Reconstruction of a sector of device d (steps 3 and 4 of R465). -/
def rebuild (s : State) (d : Nat) (x : SectorRead) : State × Bool :=
  if x.srcFail || (List.range 4).any fun e => e != d && s.deviceLost e then (s.uncorrectable x.addr, true)
  else
    let s := s.inc Reg.STRIPE_RECON_CNT Fd.STRIPE_RECON_CNT.COUNT
    (if s.deviceLost d then s else s.corrected d x.addr, false)

/-- A read of one sector (R465): answers whether poison is delivered. No access is served outside READY;
every reader then sees poison (R468, R476). -/
def readSector (s : State) (x : SectorRead) : State × Bool :=
  if !s.memReady then (s, true)
  else if s.isPoisoned x.addr then (s, true)
  else
    let d := (stripeOf (s.physAddr x.addr)).dev
    if s.deviceLost d then s.rebuild d x
    else
      let s := s.inc Reg.MEM_EDC_RETRY_CNT Fd.MEM_EDC_RETRY_CNT.COUNT (min x.retries 4)
      if x.edcFail then (s.loseDevice d 6).rebuild d x
      else if x.checkFail then
        ((s.inc Reg.STRIPE_CHECK_FAIL_CNT Fd.STRIPE_CHECK_FAIL_CNT.COUNT).event Pg.STRIPE Ev.STRIPE.CHECK_FAIL).rebuild d x
      else (s, false)

/-- Reads of several sectors: whether any delivers poison. -/
def readSectors (s : State) : List SectorRead → State × Bool
  | [] => (s, false)
  | x :: xs =>
    let (s, p) := s.readSector x
    let (s, q) := s.readSectors xs
    (s, p || q)

/-! ## Scratch transfers (R460) -/

/-- Stripes that a write of `n` bytes at address `a` touches in part (R464). -/
def partialStripes (a n : Nat) : Nat :=
  if n = 0 then 0
  else
    let first := a / 768
    let last := (a + n - 1) / 768
    if first = last then b2n (n != 768)
    else b2n (a % 768 != 0) + b2n ((a + n) % 768 != 0)

/-- Write bytes into host scratch: sectors written whole lose their poison. -/
def scratchWrite (s : State) (off : Nat) (bs : List Byte) : State :=
  let a := s.memMap.scratchBase + off
  let s := { s with mem := { s.mem with scratch := memWrite s.mem.scratch off bs } }
  let s := s.incWrap Reg.STRIPE_PARTIAL_CNT Fd.STRIPE_PARTIAL_CNT.COUNT (partialStripes a bs.length)
  let first := (a + 63) / 64
  let last := (a + bs.length) / 64
  (List.range (last - first)).foldl (fun s i => s.clearPoison ((first + i) * 64)) s

/-- A transfer ends with a status (R460). -/
def endXfer (s : State) (st : Status) : State :=
  ({ s with mem := { s.mem with xfer := none } }.setBusy Pg.MEM false).status Pg.MEM st |>.event Pg.MEM Ev.MEM.XFER_DONE

/-- The bytes of a transfer that its direction moves, up to `n`. -/
def moveXfer (s : State) (x : XferRun) (n : Nat) : State :=
  if x.toHost then
    if n = 0 then s else s.emit (.dma x.port x.addr (memRead s.mem.scratch x.off n))
  else s.scratchWrite x.off ((slice x.data 0 x.len).take n)

/-- A transfer whose port loses ownership stops with ABORTED, at a place the manual does not give (R460).
DEDUCED (log entry 37). -/
def abortXfer (s : State) (p : Port) : State :=
  match s.mem.xfer with
  | some x =>
    if x.port = p then
      let (w, s) := s.freeWord
      (s.moveXfer x (w.toNat % (x.len + 1))).endXfer .aborted
    else s
  | none => s

/-- A transfer starts (R460).
DEDUCED (log entry 37). -/
def startXfer (s : State) (p : Port) (toHost : Bool) (len : Nat) (data : List Byte) : State :=
  let off := s.get Reg.MEM_XFER_OFFSET Fd.MEM_XFER_OFFSET.BYTES
  if s.modes.bringup || s.wipeBars then s.status Pg.MEM .notInMode
  else if s.isBusy Pg.MEM then s.status Pg.MEM .busy
  else if len = 0 || 65536 < len || len % 4 != 0 || s.memMap.scratchSize < off + len then s.status Pg.MEM .badParam
  else
    let x : XferRun :=
      { toHost := toHost, len := len, off := off,
        addr := (s.rd Reg.MEM_XFER_ADDR_LO).toNat + (s.rd Reg.MEM_XFER_ADDR_HI).toNat * 2 ^ 32, port := p, data := data }
    let s := { s with mem := { s.mem with xfer := some x } }
    let s := s.setBusy Pg.MEM true
    if toHost then s else s.emit (.dmaRead p x.addr len)

end State

end Sys2Proof.Machine
end

