-- ==== Sys2Proof/Machine/ArcOps.lean ====
section
/-! DEFINITION. The archive engine: streams, blocks, segments and the chain (R434 to R448). -/

namespace Sys2Proof.Machine

/-- Bytes of a segment. -/
def segBytes : Nat := 32768

/-- Samples of a whole block (R435). -/
def blockSamples : Nat := 4096

namespace State

/-- Change the archive engine. -/
def modArc (s : State) (f : ArcRun → ArcRun) : State := { s with arc := f s.arc }

/-- The stream of a life. -/
def stream (s : State) (key : Nat) : Option ArcStream := s.arc.streams.find? fun x => x.key = key

/-- Change a stream. -/
def modStream (s : State) (key : Nat) (f : ArcStream → ArcStream) : State :=
  s.modArc fun a => { a with streams := a.streams.map fun x => if x.key = key then f x else x }

/-- The stream that takes samples under a number. -/
def liveStream (s : State) (num : Nat) : Option ArcStream := s.arc.streams.find? fun x => x.num = num && x.live

/-- The lowest free stream number (R434, R437).
DEDUCED (log entry 36).
DEDUCED (log entry 41). -/
def freeStream (s : State) : Option Nat := (List.range 4096).find? fun n => (s.liveStream n).isNone

/-- Streams in use. -/
def streamCount (s : State) : Nat := (s.arc.streams.filter fun x => x.live).length

/-- A stream starts, with the table kind in effect (R440). -/
def openStream (s : State) (num chan uid : Nat) (emergency : Bool) : State :=
  let x : ArcStream :=
    { key := s.arc.nextKey, num := num, chan := chan, uid := uid, emergency := emergency,
      dynamic := s.flag Reg.ARC_CFG Fd.ARC_CFG.DYNAMIC, live := true, endAt := none, nextSeq := 0, cur := none, ready := none,
      write := none, waitSince := none, seg := none, segSeq := 0, full := [] }
  s.modArc fun a => { a with streams := a.streams ++ [x], nextKey := a.nextKey + 1 }

/-! ## Segments -/

/-- Segments in the chain (R443). -/
def chainLen (s : State) : Nat := s.memMap.segments - s.arc.fresh + s.arc.tail.length

/-- Take the head of the chain; CHAIN_LOW latches when it falls below its threshold (R448). -/
def takeSegment (s : State) : Option (Nat × State) :=
  let old := s.chainLen
  let low := s.get Reg.ARC_CHAIN_LOW Fd.ARC_CHAIN_LOW.COUNT
  let warn (s : State) : State := s.eventIf (low ≤ old && old - 1 < low) Pg.ARC Ev.ARC.CHAIN_LOW
  if s.arc.fresh < s.memMap.segments then some (s.arc.fresh, warn (s.modArc fun a => { a with fresh := a.fresh + 1 }))
  else match s.arc.tail with
    | [] => none
    | g :: rest => some (g, warn (s.modArc fun a => { a with tail := rest, appendAt := a.appendAt.filter fun x => x.1 ≠ g }))

/-- A segment goes to the tail of the chain with the stamp of its APPEND. -/
def appendSegment (s : State) (g stamp : Nat) : State :=
  s.modArc fun a => { a with tail := a.tail ++ [g], segs := a.segs.erase g, appendAt := a.appendAt ++ [(g, stamp)] }

/-- Replace bytes of a segment from an offset on. -/
def patchSeg (s : State) (g off : Nat) (bs : List Byte) : State :=
  s.modArc fun a => { a with segs := a.segs.modify g fun x =>
    { x with bytes := x.bytes.take off ++ bs ++ x.bytes.drop (off + bs.length) } }

/-- The next segment of a stream's segment (R444). -/
def nextSeg (s : State) (g : Nat) : Nat :=
  match s.arc.segs.find? g with
  | some x => leAt x.bytes 6 2
  | none => 0xFFFF

/-- Replace one byte at a place that may lie in the following segment. -/
def patchByte (s : State) (g off : Nat) (b : Byte) : State :=
  if off < segBytes then s.patchSeg g off [b] else s.patchSeg (s.nextSeg g) (16 + (off - segBytes)) [b]

/-- Replace bytes of a block's header, those that were written. -/
def patchHeader (s : State) (g off from_ done : Nat) : List Byte → State
  | [] => s
  | b :: bs => (if from_ < done then s.patchByte g (off + from_) b else s).patchHeader g off (from_ + 1) done bs

/-- A stream takes a new segment: it is linked after the one before (R444, R445). -/
def linkSegment (s : State) (x : ArcStream) : Option State :=
  match s.takeSegment with
  | none => none
  | some (g, s) =>
    let head := leBytes 4 0x5AC37E5E ++ leBytes 2 x.num ++ leBytes 2 0xFFFF ++ leBytes 4 x.segSeq ++ leBytes 2 x.chan ++ leBytes 2 0
    let s := match x.seg with
      | some p => s.patchSeg p 6 (leBytes 2 g)
      | none => s
    let y : ArcSeg := { stream := x.num, key := x.key, seq := x.segSeq, bytes := head, filled := false, abandon := false }
    let s := s.modArc fun a => { a with segs := a.segs.insert g y }
    some (s.modStream x.key fun y => { y with seg := some g, segSeq := y.segSeq + 1, full := y.full ++ y.seg.toList })

/-- Bytes still free in a stream's segment. -/
def segRoom (s : State) (x : ArcStream) : Nat :=
  match x.seg.bind fun g => s.arc.segs.find? g with
  | some g => segBytes - g.bytes.length
  | none => 0

/-- Post a segment (R447): FILLED, with a completion entry. -/
def postSeg (s : State) (g : Nat) (ended : Bool) : State :=
  match s.arc.segs.find? g with
  | none => s
  | some x =>
    let e : ArcDone := { seg := g, stream := x.stream, ended := ended, abandon := x.abandon, seq := x.seq, used := x.bytes.length }
    let s := s.modArc fun a => { a with segs := a.segs.insert g { x with filled := true } }
    if s.arc.done.length < 256 then (s.modArc fun a => { a with done := a.done ++ [e] }).event Pg.ARC Ev.ARC.DONE
    else (s.inc Reg.ARC_DONE_LOST Fd.ARC_DONE_LOST.COUNT).event Pg.ARC Ev.ARC.DONE_OVF

/-- After a block has closed: full segments are posted, and the stream's last one once the stream has ended
with no block left; then the stream is gone (R437, R447). -/
def afterBlock (s0 : State) (key : Nat) : State :=
  let s := s0
  match s.stream key with
  | none => s
  | some x =>
    let whole := match x.seg with
      | some g => if s.segRoom x = 0 then [g] else []
      | none => []
    let spent := !x.live && x.cur.isNone && x.ready.isNone && x.write.isNone
    let rest := if whole.isEmpty then x.seg.toList else []
    let posts := x.full ++ whole ++ (if spent then rest else [])
    let lastG := posts.getLast?
    let s := posts.foldl (fun s g => s.postSeg g (spent && lastG = some g)) s
    if x.write.isSome then s0
    else if spent then s.modArc fun a => { a with streams := a.streams.filter fun y => y.key ≠ key }
    else s.modStream key fun y => { y with full := [], seg := if whole.isEmpty then y.seg else none }

/-- A block is abandoned (R446). -/
def countAbandon (s : State) (x : ArcStream) : State :=
  ((s.inc Reg.ARC_ABANDON_CNT Fd.ARC_ABANDON_CNT.COUNT).event Pg.ARC Ev.ARC.ABANDON).eventIf x.emergency Pg.ARC Ev.ARC.EMERG_ABANDON

/-- The block being written is abandoned: its header, as far as it was written, gets ABANDONED and LEN
(R446). -/
def abandonWrite (s : State) (x : ArcStream) (w : ArcWrite) : State :=
  let s := match w.at_ with
    | none => s
    | some (g, off) =>
      let b5 : Byte := match s.arc.segs.find? g with
        | some y =>
          (if off + 5 < segBytes then (y.bytes.getD (off + 5) 0)
           else match s.arc.segs.find? (s.nextSeg g) with
             | some z => z.bytes.getD (16 + (off + 5 - segBytes)) 0
             | none => 0)
        | none => 0
      let s := s.patchHeader g off 5 w.done [b5 ||| 0x80]
      let s := s.patchHeader g off 20 w.done (leBytes 4 w.done)
      let touched := g :: x.full ++ x.seg.toList
      let mark (e : Nat × ArcSeg) : Nat × ArcSeg :=
        if touched.contains e.1 && e.2.key = x.key then (e.1, { e.2 with abandon := true }) else e
      s.modArc fun a => { a with segs := a.segs.map mark }
  let s := s.modStream x.key fun y => { y with write := none, waitSince := none }
  (s.countAbandon x).afterBlock x.key

/-! ## Writing a block into segments (R445) -/

/-- Write as much of a stream's block as its segments take. It ends with the block complete or with the
stream waiting for a segment; `fuel` bounds the segments one block needs. -/
def pour (s : State) (key : Nat) : Nat → State
  | 0 => s
  | fuel + 1 =>
    match s.stream key with
    | none => s
    | some x =>
      match x.write with
      | none => s
      | some w =>
        if w.rest.isEmpty then
          let s := s.modStream key fun y => { y with write := none }
          (s.incWrap Reg.ARC_BLOCK_CNT Fd.ARC_BLOCK_CNT.COUNT).afterBlock key
        else
          match x.seg, s.segRoom x with
          | some g, room + 1 =>
            let chunk := w.rest.take (room + 1)
            let off := match s.arc.segs.find? g with
              | some y => y.bytes.length
              | none => 0
            let s := s.patchSeg g off chunk
            let w' : ArcWrite := { w with rest := w.rest.drop (room + 1), done := w.done + chunk.length,
                                          at_ := match w.at_ with
                                            | some p => some p
                                            | none => some (g, off) }
            (s.modStream key fun y => { y with write := some w' }).pour key fuel
          | _, _ =>
            let mid := x.seg.isSome && 48 < w.done && !w.marks.contains (8 * w.done)
            let s := if mid then s.inc Reg.ARC_STALL_CNT Fd.ARC_STALL_CNT.COUNT else s
            match s.linkSegment x with
            | some s => s.pour key fuel
            | none => s.modStream key fun y => { y with waitSince := some s.clk.now }

/-- An ARCHIVE job of a stream. -/
def archiveJob (s : State) (num key : Nat) : State := s.makeReady (s.plainJob .archive num key)

/-- Whether the ARCHIVE job of a stream's life has started compression. -/
def compressing (s : State) (key : Nat) : Bool :=
  s.disp.jobs.any fun j => j.kind = .archive && j.uid = key && j.state.inService

/-! ## Samples (R435 to R437) -/

/-- Close the open block of a stream: it waits for a lane. A block of the same number that waits and has not
started compression is abandoned with nothing written (R446). -/
def closeBlock (s : State) (key : Nat) (last : Bool) : State :=
  match s.stream key with
  | none => s
  | some x =>
    match x.cur with
    | none => s
    | some b =>
      let old := s.arc.streams.find? fun y => y.num = x.num && y.ready.isSome && !s.compressing y.key
      let had : Bool := match old with
        | some y => y.key = key
        | none => false
      let s := match old with
        | some y => ((s.modStream y.key fun z => { z with ready := none }).countAbandon y)
        | none => s
      let s := match old with
        | some y => if y.key = key then s else s.afterBlock y.key
        | none => s
      let s := s.modStream key fun z => { z with cur := none, ready := some { b with last := last } }
      if had then s else s.archiveJob x.num key

/-- An open block that starts with a sample of beat `beat` at place `off`. -/
def newBlock (seq rate : Nat) (beat : BeatNo) (off : Nat) : ArcBlock :=
  { seq := seq, rate := rate, firstBeat := beat, firstOff := off, gaps := [], samples := [], last := false }

/-- Gaps of a block with `k` gap samples more after `n` samples: a gap that follows a gap is one gap (R436). -/
def addGap (gaps : List Gap) (n k : Nat) : List Gap :=
  match gaps.getLast? with
  | some g => if g.first + g.len = n then gaps.dropLast ++ [{ g with len := g.len + k }] else gaps ++ [{ first := n, len := k }]
  | none => [{ first := n, len := k }]

/-- Whether gap samples at place `n` would be a fifth gap. -/
def fifthGap (gaps : List Gap) (n : Nat) : Bool :=
  gaps.length = 4 && !(gaps.any fun g => g.first + g.len = n)

/-- Samples of one beat enter a stream, filling blocks in order; `off` counts the samples of the beat that
have entered. -/
def feed (s : State) (key rate : Nat) (beat : BeatNo) (gap : Bool) : Nat → Nat → List (Int × Int) → State
  | 0, _, _ => s
  | _, _, [] => s
  | fuel + 1, off, p :: ps =>
    match s.stream key with
    | none => s
    | some x =>
      match x.cur with
      | none =>
        let s := s.modStream key fun y => { y with cur := some (newBlock y.nextSeq rate beat off), nextSeq := y.nextSeq + 1 }
        s.feed key rate beat gap fuel off (p :: ps)
      | some b =>
        let n := b.samples.length
        if b.rate != rate || (gap && fifthGap b.gaps n) then (s.closeBlock key false).feed key rate beat gap fuel off (p :: ps)
        else
          let k := min (blockSamples - n) (ps.length + 1)
          let b' : ArcBlock := { b with samples := b.samples ++ (p :: ps).take k, gaps := if gap then addGap b.gaps n k else b.gaps }
          let s := s.modStream key fun y => { y with cur := some b' }
          let s := if n + k = blockSamples then s.closeBlock key false else s
          s.feed key rate beat gap fuel (off + k) ((p :: ps).drop k)

/-- A job's samples enter its channel's stream at its commit (R435). -/
def recordSamples (s : State) (num rate : Nat) (beat : BeatNo) (ps : List (Int × Int)) (gap emergency : Bool) : State :=
  match s.liveStream num with
  | none => s
  | some x =>
    let s := s.modStream x.key fun y => { y with emergency := emergency }
    let s := s.modArc fun a => { a with inNow := a.inNow + 4 * ps.length }
    s.feed x.key rate beat gap 8 0 ps

/-- A stream ends: its open block closes with LAST (R435, R437). -/
def endStream (s : State) (num : Nat) : State :=
  match s.liveStream num with
  | none => s
  | some x =>
    let s := s.closeBlock x.key true
    (s.modStream x.key fun y => { y with live := false, endAt := none }).afterBlock x.key

/-! ## Waiting for a segment (R445, R446) -/

/-- Whether the chain holds a segment that came into it before the boundary. -/
def segmentBefore (s : State) : Bool :=
  s.arc.fresh < s.memMap.segments || match s.arc.tail with
    | [] => false
    | g :: _ => (s.arc.appendAt.find? fun x => x.1 = g).all fun x => x.2 < s.clk.at0

/-- One stream that waited for a segment: it takes one and its block continues, or the block is abandoned.
DEDUCED (log entry 36). -/
def resolveWait (s : State) (x : ArcStream) : State :=
  match x.write with
  | none => s.modStream x.key fun y => { y with waitSince := none }
  | some w =>
    if s.segmentBefore then
      match s.linkSegment x with
      | some s => (s.modStream x.key fun y => { y with waitSince := none }).archiveJob x.num x.key
      | none => s.abandonWrite x w
    else s.abandonWrite x w

end State

end Sys2Proof.Machine
end

