-- ==== Sys2Proof/Machine/Arc.lean ====
section
/-! DEFINITION. The commands of the archive engine (R445 to R450). -/

namespace Sys2Proof.Machine

namespace State

/-! ## Jobs of the lanes -/

/-- The units of a pool replaced. -/
def setLanes (s : State) (us : List PoolUnit) : State := { s with disp := { s.disp with lanes := us } }

/-- A lane completes its job: DONE, the entry is freed and the lane idles (R253, R266). -/
def laneDone (s : State) (i : Nat) (j : Job) : State :=
  let s := s.traceJob 4 j (some (.lane i)) 0
  (s.setLanes (s.disp.lanes.modify i fun u => { u with run := none })).freeEntry j.id

/-- The work of an ARCHIVE job of a stream: the block being written goes on, or the waiting block is compressed
(R438, R445). Poison in its input abandons it (R466). -/
def archiveWork (s : State) (key : Nat) (c0 c1 : SectionChoice) (bad : Bool) : State :=
  match s.stream key with
  | none => s
  | some x =>
    match x.write, x.ready with
    | some w, _ => if bad then s.abandonWrite x w else s.pour key 64
    | none, none => s
    | none, some b =>
      let s := s.modStream key fun y => { y with ready := none }
      if bad then (s.countAbandon x).afterBlock key
      else
        let (bs, marks) := encodeBlock b x.num x.chan x.dynamic c0 c1
        (s.modStream key fun y => { y with write := some { rest := bs, done := 0, marks := marks, at_ := none } }).pour key 64

/-- ARCHIVE_JOB_DONE on a lane. A DECODE's job marks its command as run. -/
def archiveDone (s : State) (i : Nat) (c0 c1 : SectionChoice) (reads : List SectorRead) : State :=
  match (s.disp.lanes[i]?).bind fun u => u.run.bind fun id => s.job id with
  | none => s
  | some j =>
    let (s, bad) := if j.uid = 0 then (s, false) else s.readSectors reads
    let s := s.laneDone i j
    if j.uid = 0 then s.modArc fun a => { a with cmd := a.cmd.map fun c => { c with ran := true } }
    else s.archiveWork j.uid c0 c1 bad

/-- At a boundary, the streams that needed a segment before it, in the order of their numbers (R445). An APPEND
stamped before the boundary counts although it has not completed. -/
def resolveWaits (s : State) : State :=
  let s := match s.arc.cmd with
    | some c =>
      if c.op = 1 && !c.applied && c.stamp < s.clk.at0 then
        (s.appendSegment c.seg c.stamp).modArc fun a => { a with cmd := some { c with applied := true } }
      else s
    | none => s
  let waiting := s.arc.streams.filter fun x => match x.waitSince with
    | some w => w < s.clk.at0
    | none => false
  ((List.range 4096).filterMap fun n => waiting.find? fun x => x.num = n).foldl (fun s x => s.resolveWait x) s

/-! ## ARC_CMD (R449, R450) -/

/-- The state code of a segment: 0 CHAIN, 1 ACTIVE, 2 FILLED. -/
def segState (s : State) (g : Nat) : Nat :=
  match s.arc.segs.find? g with
  | some x => if x.filled then 2 else 1
  | none => 0

/-- Bytes used of a segment. -/
def segUsed (s : State) (g : Nat) : Nat :=
  match s.arc.segs.find? g with
  | some x => x.bytes.length
  | none => 0

/-- Why a command is refused.
DEDUCED (log entry 36). -/
def arcRefusal (s : State) (op g : Nat) : Option Status :=
  let off := s.get Reg.ARC_ARG_OFFSET Fd.ARC_ARG_OFFSET.BYTES
  let len := s.get Reg.ARC_ARG_LEN Fd.ARC_ARG_LEN.BYTES
  let filled := s.segState g = 2
  if s.isBusy Pg.ARC then some .busy
  else if s.memMap.segments ≤ g then some .badParam
  else match op with
    | 1 => if filled then none else some .conflict
    | 2 => none
    | 3 => if filled && 1 ≤ len && off + len ≤ segBytes then none else some .badParam
    | _ => if filled && off < s.segUsed g then none else some .badParam

/-- A write of ARC_CMD. DECODE becomes an ARCHIVE job on the flow of the segment's stream.
DEDUCED (log entry 36). -/
def arcCmd (s : State) (p : Port) (op g : Nat) : State :=
  if s.modes.bringup || s.wipeBars then (s.status Pg.ARC .notInMode).event Pg.ARC Ev.ARC.CMD_DONE
  else match s.arcRefusal op g with
  | some st => s.status Pg.ARC st
  | none =>
    let c : ArcCmd :=
      { op := op, seg := g, off := s.get Reg.ARC_ARG_OFFSET Fd.ARC_ARG_OFFSET.BYTES,
        len := s.get Reg.ARC_ARG_LEN Fd.ARC_ARG_LEN.BYTES,
        addr := (s.rd Reg.ARC_ARG_ADDR_LO).toNat + (s.rd Reg.ARC_ARG_ADDR_HI).toNat * 2 ^ 32, port := p, stamp := s.clk.now,
        applied := false, ran := op != 4 }
    let s := (s.modArc fun a => { a with cmd := some c }).setBusy Pg.ARC true
    if op = 4 then
      match s.arc.segs.find? g with
      | some x => s.archiveJob x.stream 0
      | none => s
    else s

/-- A command completes with a status: CMD_DONE latches whatever it is (R449). -/
def endArc (s : State) (st : Status) : State :=
  (((s.modArc fun a => { a with cmd := none }).setBusy Pg.ARC false).status Pg.ARC st).event Pg.ARC Ev.ARC.CMD_DONE

/-- `n` free bytes: what a place in memory holds that nothing of the manual determines.
DESIGN CHOICE (log entry 12). -/
def arcFree (s : State) (n : Nat) : List Byte × State :=
  ((List.range n).map fun i => BitVec.ofNat 8 (Config.freeWord (s.freeCtr + i)).toNat, { s with freeCtr := s.freeCtr + n })

/-- The bytes of a segment from an offset on; past the bytes used, what memory held before. -/
def segSlice (s : State) (g off n : Nat) : List Byte × State :=
  let have_ := match s.arc.segs.find? g with
    | some x => (x.bytes.drop off).take n
    | none => []
  let (more, s) := s.arcFree (n - have_.length)
  (have_ ++ more, s)

/-- The bytes of a stream from a place in a segment on, following NEXT while the next segment is FILLED and
follows in STREAM and SEG_SEQ (R450). Answers whether they end at a break. -/
def chainBytes (s : State) : Nat → Nat → Nat → List Byte × Bool
  | 0, _, _ => ([], true)
  | fuel + 1, g, off =>
    match s.arc.segs.find? g with
    | none => ([], true)
    | some x =>
      let n := leAt x.bytes 6 2
      let bs := x.bytes.drop off
      match s.arc.segs.find? n with
      | some y =>
        if y.filled && y.stream = x.stream && y.seq = (x.seq + 1) % 2 ^ 32 then
          let (more, b) := s.chainBytes fuel n 16
          (bs ++ more, b)
        else (bs, true)
      | none => (bs, true)

/-- A DECODE ends: its samples go to the host, ARC_RES_DEC tells the cause (R450). -/
def decodeDone (s : State) (c : ArcCmd) (bad : Bool) : State :=
  let (bs, broken) := s.chainBytes 64 c.seg c.off
  let r := decodeBlock bs broken
  let s := if r.pairs.isEmpty then s else s.emit (.dma c.port c.addr (pairBytes r.pairs))
  let s := s.wr Reg.ARC_RES_DEC (withBits (withBits 0 31 28 r.cause) 12 0 r.pairs.length)
  if r.cause = 0 && !bad then s.endArc .ok
  else (s.inc Reg.ARC_CHECK_FAIL_CNT Fd.ARC_CHECK_FAIL_CNT.COUNT).endArc .checkFail

/-- The command in progress completes. -/
def arcDone (s : State) (reads : List SectorRead) : State :=
  match s.arc.cmd with
  | none => s
  | some c =>
    if !c.ran then s
    else match c.op with
      | 1 => (if c.applied then s else s.appendSegment c.seg c.stamp).endArc .ok
      | 2 =>
        let st := match s.arc.segs.find? c.seg with
          | some x => x.stream
          | none => 0
        (s.wr Reg.ARC_RES_SEG (withBits (withBits (withBits 0 31 30 (s.segState c.seg)) 27 16 st) 15 0 (s.segUsed c.seg))).endArc .ok
      | 3 =>
        let (s, bad) := s.readSectors reads
        let (bs, s) := s.segSlice c.seg c.off c.len
        if bad then
          let (w, s) := s.freeWord
          (s.emit (.dma c.port c.addr (bs.take (w.toNat % (c.len + 1))))).endArc .checkFail
        else (s.emit (.dma c.port c.addr bs)).endArc .ok
      | _ =>
        let (s, bad) := s.readSectors reads
        s.decodeDone c bad

/-- The ARCHIVE job of a DECODE ends without effect: taken out of the dispatcher and off its lane. -/
def dropDecode (s : State) : State :=
  match s.disp.jobs.find? fun j => j.kind = .archive && j.uid = 0 with
  | none => { s with disp := { s.disp with held := s.disp.held.filter fun j => !(j.kind = .archive && j.uid = 0) } }
  | some j =>
    (s.setLanes (s.disp.lanes.map fun u => if u.run = some j.id then { u with run := none } else u)).freeEntry j.id

/-- A transfer or decode whose port loses ownership stops there with ABORTED, at a place the manual does not
give (R449).
DEDUCED (log entry 36). -/
def abortArc (s : State) (p : Port) : State :=
  match s.arc.cmd with
  | some c =>
    if c.port = p && 3 ≤ c.op then
      let (w, s) := s.freeWord
      let (bs, s) := if c.op = 3 then s.segSlice c.seg c.off c.len
        else (pairBytes (decodeBlock (s.chainBytes 64 c.seg c.off).1 true).pairs, s)
      let part := bs.take (w.toNat % (bs.length + 1))
      let s := if part.isEmpty then s else s.emit (.dma p c.addr part)
      s.dropDecode.endArc .aborted
    else s
  | none => s

/-- A read of ARC_DONE0: the head of the done queue. An owner's read pops it and latches its second word into
ARC_DONE1; a read by another port pops nothing (R31, R447). -/
def arcPop (s : State) (p : Port) : Word × State :=
  match s.arc.done with
  | [] => (0, s)
  | e :: rest =>
    let w := Word.of (2 ^ 31 + b2n e.ended * 2 ^ 30 + b2n e.abandon * 2 ^ 29 + e.stream * 2 ^ 16 + e.seg)
    if s.ownedBy p then
      (w, (s.modArc fun a => { a with done := rest }).wr Reg.ARC_DONE1 (withBits (withBits 0 31 16 e.seq) 15 0 e.used))
    else (w, s)

end State

/-! ## Meanings -/

/-- ARCHIVE_JOB_DONE (R445 to R447). -/
def execArchiveJobDone (t : Nat) (lane : BitVec 4) (c0 c1 : SectionChoice) (reads : List SectorRead) (s : State) :
    Host.Outcome State Fault Refusal :=
  s.act t fun s => s.archiveDone lane.toNat c0 c1 reads

/-- SEGMENT_WAIT_RESOLVE (R445). -/
def execSegmentWaitResolve (t : Nat) (s : State) : Host.Outcome State Fault Refusal := s.act t State.resolveWaits

/-- ARC_APPEND (R449). -/
def execArcAppend (t : Nat) (p : Port) (seg : BitVec 15) (s : State) : Host.Outcome State Fault Refusal :=
  s.act t fun s => s.hostWrite p Reg.ARC_CMD fun s => s.arcCmd p 1 seg.toNat

/-- ARC_QUERY (R449). -/
def execArcQuery (t : Nat) (p : Port) (seg : BitVec 15) (s : State) : Host.Outcome State Fault Refusal :=
  s.act t fun s => s.hostWrite p Reg.ARC_CMD fun s => s.arcCmd p 2 seg.toNat

/-- ARC_XFER (R449). -/
def execArcXfer (t : Nat) (p : Port) (seg : BitVec 15) (s : State) : Host.Outcome State Fault Refusal :=
  s.act t fun s => s.hostWrite p Reg.ARC_CMD fun s => s.arcCmd p 3 seg.toNat

/-- ARC_DECODE (R450). -/
def execArcDecode (t : Nat) (p : Port) (seg : BitVec 15) (s : State) : Host.Outcome State Fault Refusal :=
  s.act t fun s => s.hostWrite p Reg.ARC_CMD fun s => s.arcCmd p 4 seg.toNat

/-- ARC_CMD_DONE (R449, R450). -/
def execArcCmdDone (t : Nat) (reads : List SectorRead) (s : State) : Host.Outcome State Fault Refusal :=
  s.act t fun s => s.arcDone reads

/-- ARC_DONE_POP (R447): only an owner's read pops. -/
def execArcDonePop (t : Nat) (p : Port) (s : State) : Host.Outcome State Fault Refusal :=
  s.act t fun s => s.hostRead p fun s => s.arcPop p

end Sys2Proof.Machine
end

