-- ==== Sys2Proof/Machine/Ecan.lean ====
section
/-! DEFINITION. Echo cancellation of one channel: talk state, adaptation, window moves, measurement,
non-linear processor, comfort noise, tone disabler and controls (R124 to R142). Everything is a function of
the canceller's state and of what a beat's audio measures. -/

namespace Sys2Proof.Machine

/-! ## Controls (R136, R137) -/

/-- No control pending. -/
def EcCtl.none : EcCtl := { adapt := .none, window := .none, reset := false, nlp := .none, profile := .none }

/-- Newer pending values replace older ones of their group. -/
def EcCtl.merge (older newer : EcCtl) : EcCtl :=
  { adapt := newer.adapt <|> older.adapt, window := newer.window <|> older.window, reset := older.reset || newer.reset,
    nlp := newer.nlp <|> older.nlp, profile := newer.profile <|> older.profile }

/-- The pending value an ACTION gives its group; `none` for a reserved code. -/
def ecAction (action profile : Nat) : Option EcCtl :=
  match action with
  | 1 => some { EcCtl.none with adapt := some false }
  | 2 => some { EcCtl.none with adapt := some true }
  | 3 => some { EcCtl.none with window := some false }
  | 4 => some { EcCtl.none with window := some true }
  | 5 => some { EcCtl.none with reset := true }
  | 6 => some { EcCtl.none with nlp := some .none }
  | 7 => some { EcCtl.none with nlp := some (some 0) }
  | 8 => some { EcCtl.none with nlp := some (some 1) }
  | 9 => some { EcCtl.none with nlp := some (some 2) }
  | 10 => some { EcCtl.none with profile := some profile }
  | _ => .none

/-! ## The canceller's state -/

/-- Taps of the dense section: one per sample of 32 ms, or of the 16 ms of BRINGUP (R127, R140). -/
def ecTaps (wide bringup : Bool) : Nat := if bringup then 128 else if wide then 512 else 256

/-- A canceller at OPEN or after a restart, with the controls RUN, UNLOCK, no override and profile 0 (R138). -/
def EcRun.fresh : EcRun :=
  { frozen := false, locked := false, override := none, profile := 0, fg := [], bg := [], loc := [], bringup := false,
    win := 0, locStart := 0, locPct := 0, runW := 0, runLen := 0, conv := 0, convRun := 0, measured := false, erl := 0,
    erle := 0, talk := 0, nearHang := 0, refHist := [], cmpN := 0, cmpFg := 0, cmpBg := 0, cmpIn := 0, engaged := false,
    nlpHang := 0, cngKnown := false, cng := 0, cngEnv := [], effect := .off, quiet := 0, lastRef := 0, lastIn := 0,
    lastOut := 0, levels := false }

/-- A reset: taps, locator, ERL, ERLE and comfort noise clear, WIN_START is 0 and CONV is INIT; the controls
stay (R139). -/
def EcRun.reset (e : EcRun) : EcRun :=
  { e with fg := [], bg := [], loc := [], win := 0, locStart := 0, locPct := 0, runW := 0, runLen := 0, conv := 0,
           convRun := 0, measured := false, erl := 0, erle := 0, cmpN := 0, cmpFg := 0, cmpBg := 0, cmpIn := 0,
           cngKnown := false, cng := 0, cngEnv := [] }

/-- Controls applied at the start of a job: RESET first, then the other pending values (R137). -/
def EcRun.control (e : EcRun) (c : EcCtl) : EcRun :=
  let e := if c.reset then e.reset else e
  { e with frozen := match c.adapt with
             | some run => !run
             | .none => e.frozen,
           locked := match c.window with
             | some free => !free
             | .none => e.locked,
           override := c.nlp.getD e.override, profile := c.profile.getD e.profile }

/-- A tap list with exactly `n` taps, short lists filled with zeros. -/
def padTaps (n : Nat) (l : List Word) : List Word := (l.take n) ++ List.replicate (n - l.length) 0

/-- Taps moved from window start `a` to `b`, both in 0.5 ms: the overlap keeps its values (R129). -/
def shiftTaps (n perHalf a b : Nat) (l : List Word) : List Word :=
  let l := padTaps n l
  if a ≤ b then padTaps n (l.drop ((b - a) * perHalf))
  else padTaps n (List.replicate ((a - b) * perHalf) 0 ++ l)

/-- `n` free tap values from draw `k` on: the proportionate NLMS update of R131 is not given as a number.
DESIGN CHOICE (log entry 12). -/
def freeTaps (k n : Nat) : List Word := (List.range n).map (fun i => Config.freeWord (k + i))

/-! ## Parameters of a job -/

/-- A profile as in effect at the job's beat, and the channel's rate and condition. -/
structure EcCtx where
  wide : Bool
  bringup : Bool
  t38 : Bool
  mu : Nat
  dtdMargin : Nat
  dtdHang : Nat
  floor : Nat
  ceil : Nat
  nlpHang : Nat
  nlpMode : Nat
  disabler : Bool
  convErle : Nat
  moveBeats : Nat
  movePct : Nat
  deriving DecidableEq, Repr

/-- Bypass under R126 or R135. -/
def EcRun.bypass (e : EcRun) (x : EcCtx) : Bool := x.t38 || e.effect = .bypass

/-- The NLP mode in force (R133, R135). -/
def EcRun.mode (e : EcRun) (x : EcCtx) : Nat := if e.effect = .nlpOff then 0 else e.override.getD x.nlpMode

/-- The comfort noise level in thousandths of a dBm0 (R134). -/
def EcRun.cngLevel (e : EcRun) (x : EcCtx) : Int := if e.cngKnown then e.cng / 1000 else -1000 * (x.floor : Int)

/-- The highest reference level over the dense window's delays (R130): sub-blocks of 1 ms, newest first. -/
def EcRun.refMax (e : EcRun) (x : EcCtx) : Int :=
  let span := (e.refHist.drop (e.win / 2)).take (if x.bringup then 16 else (e.win + 65) / 2 - e.win / 2)
  span.foldl max (-200000)

/-- The two tests of R130 and the hangover of NEAR_ACT. -/
def EcRun.talkStep (e : EcRun) (x : EcCtx) (b : EcSub) : EcRun :=
  let e := { e with refHist := (b.ref :: e.refHist).take 130 }
  let far := b.ref > -50000
  let erl : Int := if e.measured && 6000000 ≤ e.erl then e.erl / 1000 else 6000
  let hit := b.inp > e.cngLevel x + 6000 && b.inp > e.refMax x - erl + 1000 * (x.dtdMargin : Int)
  let near := hit || 0 < e.nearHang
  { e with talk := b2n far + 2 * b2n near, nearHang := if hit then x.dtdHang else e.nearHang - 1,
           lastRef := b.ref, lastIn := b.inp, lastOut := b.res, levels := true }

/-- A first-order average of a value in thousandths of a dB, kept in millionths, over `tau` sub-blocks.
DEDUCED (log entry 48). -/
def smooth (tau : Nat) (avg sample : Int) : Int := avg + (sample * 1000 - avg) / tau

/-- ERL and ERLE of a FAR sub-block (R132).
DEDUCED (log entry 48). -/
def EcRun.measure (e : EcRun) (b : EcSub) : EcRun :=
  { e with measured := true, erl := smooth 200 e.erl (b.ref - b.inp), erle := smooth 200 e.erle (b.inp - b.res) }

/-- The convergence state after a FAR sub-block (R132). -/
def EcRun.converge (e : EcRun) (x : EcCtx) : EcRun :=
  let at1 : Int := 1000000 * (x.convErle : Int)
  match e.conv with
  | 0 => { e with conv := 1, convRun := if at1 ≤ e.erle then 1 else 0 }
  | 1 =>
    let n := if at1 ≤ e.erle then e.convRun + 1 else 0
    if 200 ≤ n then { e with conv := 2, convRun := 0 } else { e with convRun := n }
  | _ =>
    let n := if e.erle < at1 - 6000000 then e.convRun + 1 else 0
    if 200 ≤ n then { e with conv := 1, convRun := 0 } else { e with convRun := n }

/-- The comparison of the two filters over 20 FAR sub-blocks (R131): answers whether DIVERGE occurs.
DEDUCED (log entry 48). -/
def EcRun.compare (e : EcRun) : EcRun × Bool :=
  let copy := e.cmpBg < e.cmpFg && e.cmpBg * 12589 ≤ e.cmpFg * 10000
  let bad := e.cmpIn < e.cmpFg && e.cmpIn * 19953 ≤ e.cmpFg * 10000
  let fg := if copy then e.bg else e.fg
  let fg := if bad then (if e.cmpBg < e.cmpIn then e.bg else []) else fg
  ({ e with fg := fg, cmpN := 0, cmpFg := 0, cmpBg := 0, cmpIn := 0 }, bad)

/-- Adaptation of both filters in a FAR sub-block; taps come as free values from draw `k` (R131). -/
def EcRun.adapt (e : EcRun) (x : EcCtx) (b : EcSub) (k : Nat) : EcRun × Bool :=
  let n := ecTaps x.wide x.bringup
  let e := { e with fg := freeTaps k n, bg := freeTaps (k + n) n, cmpN := e.cmpN + 1, cmpFg := e.cmpFg + b.fgE,
                    cmpBg := e.cmpBg + b.bgE, cmpIn := e.cmpIn + b.inE }
  if e.cmpN = 20 then e.compare else (e, false)

/-- Engagement of the non-linear processor (R133). -/
def EcRun.nlpStep (e : EcRun) (x : EcCtx) : EcRun :=
  match e.talk with
  | 1 => { e with engaged := true, nlpHang := x.nlpHang }
  | 0 => if e.engaged && 0 < e.nlpHang then { e with nlpHang := e.nlpHang - 1 } else { e with engaged := false, nlpHang := 0 }
  | _ => { e with engaged := false, nlpHang := 0 }

/-- The comfort noise estimate, in IDLE sub-blocks only (R134). Its envelope is a free value.
DEDUCED (log entry 48). -/
def EcRun.noiseStep (e : EcRun) (x : EcCtx) (b : EcSub) (k : Nat) : EcRun :=
  if e.talk = 0 then
    let now := 1000 * e.cngLevel x
    let next := min (smooth 1000 now b.inp) (now + 6000)
    { e with cngKnown := true, cng := clampInt (-1000000 * (x.floor : Int)) (-1000000 * (x.ceil : Int)) next,
             cngEnv := freeTaps k 10 }
  else e

/-- The end of a disabler effect: input and reference both below −36 dBm0 for 250 ms (R135). -/
def EcRun.quietStep (e : EcRun) (b : EcSub) : EcRun :=
  if e.effect = .off then e
  else
    let n := if b.inp < -36000 && b.ref < -36000 then e.quiet + 1 else 0
    if 250 ≤ n then { e with effect := .off, quiet := 0 } else { e with quiet := n }

/-- Free values one sub-block may draw. -/
def ecDraws : Nat := 1100

/-- One sub-block: answers the canceller, whether a foreground recovery occurred and the draws used. -/
def EcRun.sub (e : EcRun) (x : EcCtx) (b : EcSub) (k : Nat) : EcRun × Bool :=
  let e := (e.talkStep x b).quietStep b
  if e.bypass x then (e, false)
  else
    let far := e.talk = 1
    let e := if far then (e.measure b).converge x else e
    let (e, bad) := if far && !e.frozen then e.adapt x b k else (e, false)
    ((e.nlpStep x).noiseStep x b (k + 1050), bad)

/-- The locator's candidate (R128): W* and CAP of every start, from the energies of the 256 taps. -/
def locFirst (es : List Nat) : Nat :=
  let m := es.foldl max 0
  es.findIdx (fun v => m ≤ v * 16)

/-- The captured share in %. -/
def locCap (es : List Nat) (w : Nat) : Nat :=
  let all := es.foldl (· + ·) 0
  if all = 0 then 0 else ((es.drop w).take 64).foldl (· + ·) 0 * 100 / all

/-- The window after a beat in which the locator adapted (R128, R129): answers whether a move is decided. -/
def EcRun.locate (e : EcRun) (x : EcCtx) (es : List Nat) : EcRun × Bool :=
  let es := (es.take 256) ++ List.replicate (256 - es.length) 0
  let e := { e with loc := es }
  if es.all (· = 0) then (e, false)
  else
    let w := min 192 (locFirst es - 4)
    let cap := locCap es w
    let e := { e with locStart := w, locPct := cap }
    let enough := x.movePct + locCap es e.win ≤ cap
    let run := if enough then (if w = e.runW then e.runLen + 1 else 1) else 0
    if x.moveBeats ≤ run && !e.locked then
      let per := if x.wide then 8 else 4
      let n := ecTaps x.wide false
      ({ e with win := w, runW := w, runLen := 0, fg := shiftTaps n per e.win w e.fg, bg := shiftTaps n per e.win w e.bg }, true)
    else ({ e with runW := w, runLen := run }, false)

/-- The first beat in SERVICE after BRINGUP, and the narrow section of BRINGUP (R140). -/
def EcRun.sizeFor (e : EcRun) (x : EcCtx) : EcRun :=
  let n := ecTaps x.wide x.bringup
  if e.bringup && !x.bringup then { e with bringup := false, fg := padTaps n e.fg, bg := padTaps n e.bg, loc := [] }
  else { e with bringup := x.bringup, fg := padTaps n e.fg, bg := padTaps n e.bg }

/-- What tone detection reports to the disabler (R135): an entry into an effect. -/
def EcRun.disable (e : EcRun) (x : EcCtx) (ans reversed : Bool) : EcRun × Bool :=
  if !x.disabler then (e, false)
  else if reversed then
    if e.effect = .bypass then (e, false) else ({ e with effect := .bypass, quiet := 0 }, true)
  else if ans then
    if e.effect = .off then ({ e with effect := .nlpOff, quiet := 0 }, true) else (e, false)
  else (e, false)

/-- What a job's echo cancellation brings about besides the state. -/
structure EcOut where
  diverges : Nat
  disables : Nat
  moved : Bool
  convs : List Nat
  draws : Nat
  deriving DecidableEq, Repr

/-- Fold the sub-blocks of a beat. -/
def EcRun.subs (x : EcCtx) : List EcSub → Nat → EcRun → Nat → List Nat → EcRun × Nat × List Nat
  | [], _, e, d, cs => (e, d, cs)
  | b :: bs, k, e, d, cs =>
    let (e', bad) := e.sub x b k
    EcRun.subs x bs (k + ecDraws) e' (d + b2n bad) (if e'.conv = e.conv then cs else cs ++ [e'.conv])

/-- Some sub-block adapted: FAR, outside bypass. -/
def EcRun.subsFar (x : EcCtx) : List EcSub → Nat → EcRun → Bool
  | [], _, _ => false
  | b :: bs, k, e =>
    let e' := (e.sub x b k).1
    (e'.talk = 1 && !e'.bypass x) || EcRun.subsFar x bs (k + ecDraws) e'

/-- The canceller's part of a job: controls, sub-blocks, disabler, locator (R124 to R140). -/
def EcRun.job (e : EcRun) (x : EcCtx) (c : EcCtl) (b : EcBeat) (ans reversed : Bool) (k : Nat) : EcRun × EcOut :=
  let e1 := (e.control c).sizeFor x
  let cs0 := if e1.conv = e.conv then [] else [e1.conv]
  let counted := b.subs.take 5
  let (e2, d, cs) := EcRun.subs x counted k e1 0 cs0
  let (e3, dis) := if x.t38 then (e2, false) else e2.disable x ans reversed
  let adapted := EcRun.subsFar x counted k e1 && !e1.frozen && !x.bringup
  let (e4, moved) := if adapted then e3.locate x b.loc else (e3, false)
  (e4, { diverges := d, disables := b2n dis, moved := moved, convs := cs, draws := 5 * ecDraws })

end Sys2Proof.Machine
end

