-- ==== Sys2Proof/Machine/ModemCode.lean ====
section
/-! DEFINITION. The Taldy link frame: checks, sizes, header and payload code, constellations, and the symbols of a frame as
what their subcarriers carry (R411 to R417). -/

namespace Sys2Proof.Machine

/-! ## Checks and sizes (R414 to R416) -/

/-- One bit of a CRC of width `w` that takes its input bit by bit. -/
def crcBit (w poly c : Nat) (b : Bool) : Nat :=
  let top := c.testBit (w - 1) != b
  let c := c * 2 % 2 ^ w
  if top then c ^^^ poly else c

/-- A CRC of width `w` over bits in the order they are sent. -/
def crcBits (w poly init : Nat) (bs : List Bool) : Nat := bs.foldl (crcBit w poly) init

/-- The low `n` bits of a number, bit 0 first. -/
def bitsLsb (n v : Nat) : List Bool := (List.range n).map v.testBit

/-- A header of 24 bits passes its CRC-8, and its RATE is not 3 (R414). -/
def taldyHeaderOk (h : Nat) : Bool := crcBits 8 0x07 0 (bitsLsb 16 h) = h / 65536 % 256 && h / 4096 % 4 != 3

/-- A payload passes its CRC-16 (R415). -/
def payloadOk (x : ModemRes) : Bool := crcBits 16 0x1021 0xFFFF (x.payload.flatMap fun b => bitsLsb 8 b.toNat) = x.crc

/-- The map entries that a notch silences: subcarriers 6, 7, 8, 10, 11, 12 and 13 (R416). -/
def notched (i : Nat) : Bool := [3, 4, 5, 7, 8, 9, 10].contains i

/-- E: effective bits of a map per symbol (R416). -/
def mapBits (m : List (Nat × Nat)) (notch : Bool) : Nat :=
  ((List.range 24).map fun i => if notch && notched i then 0 else ((m[i]?).map (·.1)).getD 0).foldl (· + ·) 0

/-- Every entry of a map when a session is allocated. -/
def freshMap : List (Nat × Nat) := List.replicate 24 (2, 0)

/-- The payload symbols of a frame (R415).
DEDUCED (log entry 21). -/
def payloadSyms (len rate e : Nat) : Nat :=
  let n := 8 * (len + 2) + 6
  let c := if rate = 0 then 2 * n else if rate = 1 then (3 * n + 1) / 2 else (4 * n + 2) / 3
  (c + e - 1) / e

/-! ## The code (R414, R415) -/

/-- Parity of the low seven bits of a number. -/
def parity7 (n : Nat) : Bool := (List.range 7).foldl (fun p i => p != n.testBit i) false

/-- One bit through the encoder of K = 7: its last six bits, newest highest, then the outputs A and B (R415). -/
def convBit (st : Nat) (b : Bool) : Nat × List Bool :=
  let w := (if b then 64 else 0) + st
  (w / 2, [parity7 (w &&& 0o133), parity7 (w &&& 0o171)])

/-- A bit stream through the encoder from a state: A1, B1, A2, B2 and so on. -/
def convBits : Nat → List Bool → List Bool
  | _, [] => []
  | st, b :: rest => let (st', o) := convBit st b; o ++ convBits st' rest

/-- The encoder's state after some bits. -/
def convState (st : Nat) (bs : List Bool) : Nat := bs.foldl (fun st b => (convBit st b).1) st

/-- The kept positions of the encoder's output per period (R415). -/
def punctured (rate : Nat) (c : List Bool) : List Bool :=
  let keep (i : Nat) : Bool := if rate = 0 then true else if rate = 1 then i % 4 != 3 else i % 6 != 3 && i % 6 != 4
  ((List.range c.length).zip c).filterMap fun p => if keep p.1 then some p.2 else none

/-- The header's 24 bits, bit 0 first (R414). -/
def headerBits (len map rate : Nat) : List Bool :=
  let h := bitsLsb 16 ((len - 1) + 256 * map + 4096 * rate)
  h ++ bitsLsb 8 (crcBits 8 0x07 0 h)

/-- The header's 48 coded bits: rate ½, tail-biting, the encoder preloaded with the last 6 bits (R414). -/
def headerCoded (len map rate : Nat) : List Bool :=
  let h := headerBits len map rate
  convBits (convState 0 (h.drop 18)) h

/-- The payload's coded bits (R415). -/
def payloadCoded (payload : List Byte) (rate : Nat) : List Bool :=
  let b := payload.flatMap fun x => bitsLsb 8 x.toNat
  punctured rate (convBits 0 (b ++ (bitsLsb 16 (crcBits 16 0x1021 0xFFFF b)).reverse ++ List.replicate 6 false))

/-! ## Constellations (R411, R412) -/

/-- One axis of a constellation of 802.11 OFDM: BPSK, 16-QAM and 64-QAM levels by their bits, first bit first.
PRESUMED (log entry 65). -/
def axis : List Bool → Int
  | [b0] => if b0 then 1 else -1
  | [b0, b1] => (if b0 then 1 else -1) * (if b1 then 1 else 3)
  | [b0, b1, b2] => (if b0 then 1 else -1) * (if b1 then (if b2 then 3 else 1) else (if b2 then 5 else 7))
  | _ => 0

/-- Mean power of an axis' levels by its bits. -/
def axisPower : Nat → Nat
  | 0 => 0 | 1 => 1 | 2 => 5 | _ => 21

/-- The point of a subcarrier's group of bits: the first go to I, as many as to Q or one more (R411).
PRESUMED (log entry 65). -/
def point (bs : List Bool) (atten : Nat) : Option Carrier :=
  let ni := (bs.length + 1) / 2
  if bs.isEmpty then none
  else some { re := axis (bs.take ni), im := axis (bs.drop ni), power := axisPower ni + axisPower (bs.length - ni), atten := atten }

/-- The sync point of a subcarrier (R412). -/
def syncPoint (i : Nat) : Int := if (0xE24B7A : Nat).testBit (23 - i) then -1 else 1

/-- The sync symbol (R412). -/
def syncSym (mask : List Nat) : List (Option Carrier) :=
  (List.range 24).map fun i => some { re := syncPoint i, im := 0, power := 1, atten := mask.getD i 0 }

/-- The training symbol: the sync point turned by j^(i mod 4) (R412). -/
def trainSym (mask : List Nat) : List (Option Carrier) :=
  (List.range 24).map fun i =>
    let x := syncPoint i
    let p : Int × Int := match i % 4 with
      | 0 => (x, 0) | 1 => (0, x) | 2 => (-x, 0) | _ => (0, -x)
    some { re := p.1, im := p.2, power := 1, atten := mask.getD i 0 }

/-- The header symbol: subcarrier i has coded bit 2i in phase and bit 2i + 1 in quadrature (R414). -/
def headerSym (coded : List Bool) (mask : List Nat) : List (Option Carrier) :=
  (List.range 24).map fun i =>
    some { re := axis [coded.getD (2 * i) false], im := axis [coded.getD (2 * i + 1) false], power := 2, atten := mask.getD i 0 }

/-- One payload symbol from coded bits, subcarrier 3 to 26; it answers the bits that are left. Zeros pad it (R415 to R417). -/
def payloadSym (m : List (Nat × Nat)) (notch : Bool) (mask : List Nat) (coded : List Bool) : List (Option Carrier) × List Bool :=
  (List.range 24).foldl (fun (p : List (Option Carrier) × List Bool) i =>
    let e := m.getD i (0, 0)
    let n := if notch && notched i then 0 else e.1
    let bs := p.2.take n ++ List.replicate (n - p.2.length) false
    (p.1 ++ [point bs (max e.2 (mask.getD i 0))], p.2.drop n)) ([], coded)

/-- `n` payload symbols. -/
def payloadRun (m : List (Nat × Nat)) (notch : Bool) (mask : List Nat) : Nat → List Bool → List (List (Option Carrier))
  | 0, _ => []
  | n + 1, coded => let (x, rest) := payloadSym m notch mask coded; x :: payloadRun m notch mask n rest

/-- The symbols of a frame: two of sync, training, header, and the payload's (R413).
DEDUCED (log entry 21).
PRESUMED (log entry 65). -/
def frameSyms (q : TxReq) (m : List (Nat × Nat)) (notch : Bool) (mask : List Nat) : List (List (Option Carrier)) :=
  [syncSym mask, syncSym mask, trainSym mask, headerSym (headerCoded q.payload.length q.map q.rate) mask]
    ++ payloadRun m notch mask (payloadSyms q.payload.length q.rate (mapBits m notch)) (payloadCoded q.payload q.rate)

end Sys2Proof.Machine
end

