-- ==== Sys2Proof/Machine/RingOps.lean ====
section
/-! DEFINITION. Host rings: start, stop, doorbells, records toward the host and coalescing (R392 to R401). -/

namespace Sys2Proof.Machine

/-- The register of ring g (R394). -/
def ringReg (f : Nat → Nat → Nat) (g : Nat) : Nat := f (g / 32) (g % 32)

/-- The port of a ring: 0 to 127 port A, 128 to 255 port B. -/
def ringPort (g : Nat) : Port := if g < 128 then .a else .b

/-- A record for a receive ring (R397, R398): kind, flags besides DONE, bytes 12 to 31, data, and the full
frame length of kinds 0 and 1. -/
structure RingRec where
  kind : Nat
  flags : Nat
  tail : List Byte
  data : List Byte
  deriving DecidableEq, Repr

namespace State

/-- A ring. -/
def ringOf (s : State) (g : Nat) : Ring := s.nw.rings.getD g Ring.fresh

/-- Replace a ring. -/
def setRing (s : State) (g : Nat) (r : Ring) : State := { s with nw := { s.nw with rings := putAt Ring.fresh s.nw.rings g r } }

/-- Whether a ring runs. -/
def ringRuns (s : State) (g : Nat) : Bool := s.flag (ringReg Reg.RING_STATUS g) Fd.RING_STATUS.RUNNING

/-- Orphan words are dropped (R392).
DEDUCED (log entry 34). -/
def orphanWords (s : State) (n : Nat) : State :=
  if n = 0 then s else (s.inc Reg.RING_ORPHAN_CNT Fd.RING_ORPHAN_CNT.COUNT n).event Pg.RING Ev.RING.ORPHAN

/-- The words still to come of a record being written to a ring. -/
def partialOf (s : State) (g : Nat) : Nat := ((s.nw.partials.find? (fun p => p.1 = g)).map (·.2)).getD 0

/-- A running ring stops with a cause: it is flushed, and EN reads 0 (R392, R395).
DEDUCED (log entry 34). -/
def stopRing (s : State) (g cause : Nat) : State :=
  if s.ringRuns g then
    let s := s.orphanWords (s.partialOf g)
    let s := s.setRing g { s.ringOf g with avail := [], since := 0, tx := [] }
    let s := s.wr (ringReg Reg.RING_STATUS g) (Word.of cause)
    s.put (ringReg Reg.RING_CTRL g) Fd.RING_CTRL.EN 0
  else s

/-- A write of EN = 1 (R395). -/
def ringEnable (s : State) (g : Nat) : State :=
  let page := Pg.RINGS (g / 32)
  let l := s.get (ringReg Reg.RING_CFG g) Fd.RING_CFG.LOG2SIZE
  if !s.ownedBy (ringPort g) then s.status page .notOwner
  else if s.ringRuns g then s.status page .ok
  else if l < 6 || 16 < l then s.status page .badParam
  else
    let s := (s.wr (ringReg Reg.RING_HEAD g) 0).wr (ringReg Reg.RING_TAIL g) 0
    let s := s.setRing g { avail := [], since := 0, tx := [], gen := (s.ringOf g).gen + 1 }
    let s := s.put (ringReg Reg.RING_STATUS g) Fd.RING_STATUS.RUNNING 1
    (s.put (ringReg Reg.RING_CTRL g) Fd.RING_CTRL.EN 1).status page .ok

/-- A write of EN = 0: cause 1. -/
def ringDisable (s : State) (g : Nat) : State := (s.stopRing g 1).status (Pg.RINGS (g / 32)) .ok

/-- A write of FLUSH = 1: cause 2.
DEDUCED (log entry 34). -/
def ringFlush (s : State) (g : Nat) : State := (s.stopRing g 2).status (Pg.RINGS (g / 32)) .ok

/-- The rings of a port. -/
def portRings : Port → List Nat
  | .a => List.range 128
  | .b => (List.range 128).map (· + 128)

/-- A port stops being owner: its running rings stop with cause 3 (R39, R395). -/
def stopPortRings (s : State) (p : Port) : State :=
  let any := (portRings p).any (fun g => s.ringRuns g)
  let s := (portRings p).foldl (fun s g => s.stopRing g 3) s
  s.eventIf any Pg.RING Ev.RING.RING_STOPPED

/-- Two to the LOG2SIZE of a ring. -/
def ringSize (s : State) (g : Nat) : Nat := 2 ^ s.get (ringReg Reg.RING_CFG g) Fd.RING_CFG.LOG2SIZE

/-- A doorbell of the owner carries TAIL; `descs` are the descriptors it makes available (R396). -/
def doorbell (s : State) (g : Nat) (tail : Word) (descs : List RingDesc) : State :=
  let cur := s.rd (ringReg Reg.RING_TAIL g)
  let head := s.rd (ringReg Reg.RING_HEAD g)
  let n := s.ringSize g
  if s.ringRuns g && (tail - cur).toNat ≤ n && (tail - head).toNat ≤ n then
    let k := (tail - cur).toNat
    let more := (descs ++ List.replicate k ({ addr := 0, len := 0, ctrl := 0, clean := true } : RingDesc)).take k
    let r := s.ringOf g
    (s.setRing g { r with avail := r.avail ++ more }).wr (ringReg Reg.RING_TAIL g) tail
  else
    let s := s.inc Reg.RING_DB_ERR_CNT Fd.RING_DB_ERR_CNT.COUNT
    (s.put Reg.RING_DB_LAST Fd.RING_DB_LAST.RING g).event Pg.RING Ev.RING.DB_ERR

/-- Host address of the descriptor for a count (R394). -/
def descAddr (s : State) (g count : Nat) : Nat :=
  s.get (ringReg Reg.RING_BASE_LO g) Fd.RING_BASE_LO.ADDR * 4096 + (s.rd (ringReg Reg.RING_BASE_HI g)).toNat * 2 ^ 32
    + 32 * (count % s.ringSize g)

/-- A write-back counts toward the ring's latch (R401). -/
def ringDone (s : State) (g : Nat) : State :=
  let r := s.ringOf g
  let n := r.since + 1
  let s := s.incWrap (ringReg Reg.RING_HEAD g) Fd.RING_HEAD.COUNT
  if s.get (ringReg Reg.RING_CFG g) Fd.RING_CFG.COAL ≤ n then
    (s.setRing g { r with since := 0 }).event (Pg.RINGS (g / 32)) (g % 32)
  else s.setRing g { r with since := n }

/-- At a boundary, write-backs that no latch has counted latch the ring (R401). -/
def ringBoundary (s : State) (g : Nat) : State :=
  let r := s.ringOf g
  if 0 < r.since then (s.setRing g { r with since := 0 }).event (Pg.RINGS (g / 32)) (g % 32) else s

/-- A record enters a receive ring, or is dropped (R397, R398).
DEDUCED (log entry 34). -/
def ringPost (s : State) (g : Nat) (x : RingRec) : State :=
  if !s.ringRuns g || s.flag (ringReg Reg.RING_CFG g) Fd.RING_CFG.DIR then s.inc Reg.RING_STOP_DROP_CNT Fd.RING_STOP_DROP_CNT.COUNT
  else match (s.ringOf g).avail with
    | [] =>
      let s := (s.inc (ringReg Reg.RING_DROP_CNT g) Fd.RING_DROP_CNT.COUNT).inc Reg.RING_FULL_DROP_CNT Fd.RING_FULL_DROP_CNT.COUNT
      if x.kind = 0 then s.inc Reg.PKT_RING_DROP_CNT Fd.PKT_RING_DROP_CNT.COUNT else s
    | d :: rest =>
      let head := (s.rd (ringReg Reg.RING_HEAD g)).toNat
      let put := x.data.take d.len
      let trunc := d.len < x.data.length
      let len := if x.kind ≤ 1 then x.data.length else put.length
      let wb := leBytes 2 len ++ leBytes 1 x.kind ++ leBytes 1 (x.flags + 1 + 16 * b2n trunc) ++ slice x.tail 0 20
      let r := s.ringOf g
      let s := s.setRing g { r with avail := rest }
      let s := if put.isEmpty then s else s.emit (.dma (ringPort g) d.addr put)
      (s.emit (.dma (ringPort g) (s.descAddr g head + 8) wb)).ringDone g

/-- A channel event (kind 2): channel, code, leg, data (R398). -/
def chanEvent (s : State) (g chan code leg : Nat) (data : Word) (beat : BeatNo) : State :=
  s.ringPost g { kind := 2, flags := 0, data := [],
                 tail := leBytes 4 beat.toNat ++ leBytes 4 (chan + code * 65536 + leg * 2 ^ 24) ++ wordBytes data }

/-- A tone report (kind 3): R197, R398. `pos` is beat × 5 + step. -/
def toneRecord (s : State) (g chan leg cls code : Nat) (isEnd : Bool) (pos level : Nat) : State :=
  s.ringPost g { kind := 3, flags := 0, data := [],
                 tail := leBytes 4 (pos / 5) ++ leBytes 4 (chan + cls * 65536 + code * 2 ^ 24)
                   ++ leBytes 4 (b2n isEnd + 2 * leg + pos % 5 * 8 * 256 + level * 65536) }

end State

end Sys2Proof.Machine
end

