-- ==== Sys2Proof/Machine/ModemOps.lean ====
section
/-! DEFINITION. Taldy link and fax sessions: frame checks, receiver, transmitter and fax relay as functions of
the session, and the records they post (R406 to R431). -/

namespace Sys2Proof.Machine

/-! ## The Taldy link receiver (R419 to R424) -/

/-- A modem without activity. -/
def TaldyRun.fresh : TaldyRun :=
  { frame := none, nextTok := 0, res := [], tail := 0, tx := none, maps := List.replicate 16 freshMap, lastLevel := 0,
    lastSnr := 0 }

/-- A fax session at OPEN. -/
def FaxRun.fresh : FaxRun := { seq := 0, sent := [], next := none, got := [], state := 0, mod := 0 }

/-- How a frame ended: its status, the frame, its payload for OK and CHECK_FAIL, and its mean SNR. -/
structure FrameEnd where
  status : Status
  frame : TaldyFrame
  payload : List Byte
  snr : Nat
  deriving DecidableEq, Repr

/-- Samples of 30 ms: the suspension after a frame (R420). -/
def tailSamples : Nat := 240

/-- What the receiver finds in a job: ends of frames, header failures, restarts, the token whose symbols
leave soft bits, and for each of the 40 samples whether detection is suspended. -/
structure RxOut where
  ends : List FrameEnd
  hdrFails : Nat
  restarts : Nat
  soft : Option Nat
  busy : List Bool
  deriving DecidableEq, Repr

/-- Nothing found. -/
def RxOut.none : RxOut := { ends := [], hdrFails := 0, restarts := 0, soft := .none, busy := [] }

/-- The receiver gives up its frame: SEARCH, with the 30 ms that follow. -/
def TaldyRun.search (r : TaldyRun) : TaldyRun := { r with frame := none, tail := tailSamples }

/-- The result of a MODEM job reaches the frame it belongs to (R420, R424).
DEDUCED (log entry 21). -/
def TaldyRun.result (r : TaldyRun) (notch : Bool) : TaldyRun × RxOut :=
  let res := r.res
  let r := { r with res := [] }
  match r.frame with
  | none => (r, RxOut.none)
  | some f =>
    match res.find? fun x => x.1 = f.tok with
    | none => (r, RxOut.none)
    | some (_, x) =>
      match f.hdr with
      | none =>
        if taldyHeaderOk x.header then
          let len := x.header % 256 + 1
          let map := x.header / 256 % 16
          let rate := x.header / 4096 % 4
          let e := mapBits (r.maps.getD map freshMap) notch
          if e < 24 then
            let f := { f with hdr := some { len := len, map := map, rate := rate, syms := 0 } }
            (r.search, { RxOut.none with ends := [{ status := .badParam, frame := f, payload := [], snr := 0 }] })
          else
            let h : TaldyHdr := { len := len, map := map, rate := rate, syms := payloadSyms len rate e }
            ({ r with frame := some { f with hdr := some h } }, RxOut.none)
        else (r.search, { RxOut.none with hdrFails := 1 })
      | some h =>
        if f.syms < h.syms then (r, RxOut.none)
        else
          let st : Status := if payloadOk x then .ok else .checkFail
          ({ r.search with lastSnr := x.snr, lastLevel := f.level },
           { RxOut.none with ends := [{ status := st, frame := f, payload := x.payload.take h.len, snr := x.snr }] })

/-- A detection at sample `k` of the input of beat `n` (R420): the first sync sample lies 160 samples before. -/
def TaldyRun.detect (r : TaldyRun) (n : BeatNo) (k level : Nat) : TaldyRun :=
  let p : Int := (k : Int) - 160
  { r with nextTok := r.nextTok + 1,
           frame := some { tok := r.nextTok, age := 0, level := level, startBeat := n + BitVec.ofInt 32 (p / 40),
                           startOff := (p % 40).toNat, hdr := none, syms := 0, quiet := 0 } }

/-- A symbol period of the payload ends at this sample of a frame. -/
def TaldyFrame.symbolEnds (f : TaldyFrame) : Bool :=
  160 < f.age && f.age % 80 = 0 && match f.hdr with
    | some h => f.syms < h.syms
    | none => true

/-- One sample passes: the header symbol or a payload symbol may complete, and a third quiet period in a row
ends the frame (R423). -/
def TaldyRun.tick (r : TaldyRun) (quiet : Bool) (o : RxOut) : TaldyRun × RxOut :=
  match r.frame with
  | none => ({ r with tail := r.tail - 1 }, o)
  | some f =>
    let f := { f with age := f.age + 1 }
    if f.symbolEnds then
      let f := { f with syms := f.syms + 1, quiet := if quiet then f.quiet + 1 else 0 }
      let o := { o with soft := some f.tok }
      if f.quiet = 3 then
        ({ r.search with lastLevel := f.level },
         { o with ends := o.ends ++ [{ status := .truncated, frame := f, payload := [], snr := 0 }] })
      else ({ r with frame := some f }, o)
    else ({ r with frame := some f }, if f.age = 160 then { o with soft := some f.tok } else o)

/-- A detection, by what the receiver does: start, restart inside the header window, capture, or nothing
(R421, R422). -/
def TaldyRun.hear (r : TaldyRun) (n : BeatNo) (capture k level : Nat) (win : Bool) (o : RxOut) : TaldyRun × Bool × RxOut :=
  match r.frame with
  | none => (r.detect n k level, true, o)
  | some f =>
    if win then (r.detect n k level, true, { o with restarts := o.restarts + 1, soft := none })
    else if capture != 0 && level + capture ≤ f.level then
      (({ r with lastLevel := f.level }).detect n k level, true,
       { o with ends := o.ends ++ [{ status := .captured, frame := f, payload := [], snr := 0 }] })
    else (r, win, o)

/-- The 40 samples of a beat's input, from sample `k` on; `win` tells that the frame is inside its header
window. -/
def TaldyRun.walk (n : BeatNo) (capture : Nat) (x : TaldyIn) : Nat → Nat → TaldyRun → Bool → RxOut → TaldyRun × RxOut
  | 0, _, r, _, o => (r, o)
  | fuel + 1, k, r, win, o =>
    let (r, o) := r.tick (x.quietEnds.contains k) o
    let (r, win, o) := match x.dets.find? fun d => d.1 = k with
      | some (_, level) => r.hear n capture k level win o
      | none => (r, win, o)
    let o := { o with busy := o.busy ++ [r.frame.isSome || 0 < r.tail] }
    TaldyRun.walk n capture x fuel (k + 1) r win o

/-- The receiver's part of a job of beat `n`. -/
def TaldyRun.receive (r : TaldyRun) (n : BeatNo) (capture : Nat) (notch : Bool) (x : TaldyIn) : TaldyRun × RxOut :=
  let (r, a) := r.result notch
  let win := match r.frame with
    | some f => f.age < 160
    | none => false
  let (r, b) := TaldyRun.walk n capture x 40 1 r win RxOut.none
  (r, { b with ends := a.ends ++ b.ends, hdrFails := a.hdrFails })

/-- RX_STATE of R420. -/
def TaldyRun.rxState (r : TaldyRun) : Nat :=
  match r.frame with
  | none => 0
  | some f => if f.hdr.isSome then 3 else if f.age < 80 then 1 else 2

/-! ## The Taldy link transmitter (R418) -/

/-- One job of a frame being sent: a symbol spans two jobs; none when the frame has gone whole.
DEDUCED (log entry 21). -/
def TaldyTx.job (x : TaldyTx) : Option TaldyTx :=
  if !x.half then some { x with half := true }
  else if x.syms.length ≤ 1 then none
  else some { x with syms := x.syms.tail, half := false }

/-- The transmitter's part of a job: a request starts its frame with the job's first sample; `mask` is the attenuation of
the 24 subcarriers. It answers the request that ended and whether it was sent whole.
DEDUCED (log entry 21). -/
def TaldyRun.transmit (r : TaldyRun) (notch : Bool) (mask : List Nat) (q : Option TxReq) : TaldyRun × Option (TxReq × Bool) :=
  match r.tx, q with
  | none, some q =>
    let m := r.maps.getD q.map freshMap
    if mapBits m notch < 24 then (r, some (q, false))
    else ({ r with tx := TaldyTx.job { req := q, syms := frameSyms q m notch mask, half := false } }, none)
  | some x, _ =>
    match x.job with
    | none => ({ r with tx := none }, some (x.req, true))
    | some y => ({ r with tx := some y }, none)
  | none, none => (r, none)

/-! ## Fax relay over UDPTL (R429, R430) -/

/-- A length determinant of packed encoding: one byte below 128, else two. -/
def perLen (n : Nat) : List Byte := if n < 128 then leBytes 1 n else beBytes 2 (32768 + n)

/-- Read a length determinant: its value and the bytes it takes. -/
def perRead (b : List Byte) : Nat × Nat := if beAt b 0 1 < 128 then (beAt b 0 1, 1) else (beAt b 0 2 - 32768, 2)

/-- A UDPTL packet with its secondary IFPs, newest first.
PRESUMED (log entry 22). -/
def udptlBytes (seq : Nat) (primary : List Byte) (secs : List (List Byte)) : List Byte :=
  beBytes 2 seq ++ perLen primary.length ++ primary ++ [0] ++ perLen secs.length
    ++ secs.flatMap fun x => perLen x.length ++ x

/-- Drop the oldest secondaries until a packet fits (R429).
PRESUMED (log entry 22). -/
def udptlFit (seq : Nat) (primary : List Byte) (limit : Nat) : Nat → List (List Byte) → List Byte
  | 0, _ => udptlBytes seq primary []
  | k + 1, secs =>
    let b := udptlBytes seq primary secs
    if b.length ≤ limit || secs.isEmpty then b else udptlFit seq primary limit k secs.dropLast

/-- The packet of a beat that has an IFP.
PRESUMED (log entry 22). -/
def FaxRun.send (r : FaxRun) (redund limit : Nat) (ifp : List Byte) : FaxRun × List Byte :=
  ({ r with seq := (r.seq + 1) % 65536, sent := (ifp :: r.sent).take 3 }, udptlFit r.seq ifp limit 4 (r.sent.take redund))

/-- The secondary IFPs of a packet, newest first.
PRESUMED (log entry 22). -/
def udptlSecs : Nat → List Byte → List (List Byte)
  | 0, _ => []
  | k + 1, b =>
    let (n, u) := perRead b
    slice b u n :: udptlSecs k (b.drop (u + n))

/-- The IFPs of a UDPTL packet as (sequence number, IFP).
PRESUMED (log entry 22). -/
def udptlParse (b : List Byte) : List (Nat × List Byte) :=
  let seq := beAt b 0 2
  let (n, u) := perRead (b.drop 2)
  let rest := b.drop (2 + u + n)
  let primary := (seq, slice b (2 + u) n)
  if rest.length < 2 || beAt rest 0 1 != 0 then [primary]
  else
    let (c, v) := perRead (rest.drop 1)
    primary :: ((udptlSecs (min c 8) (rest.drop (1 + v))).zipIdx.map fun x => ((seq + 65536 - 1 - x.2) % 65536, x.1))

/-- A packet's IFPs fill the receive buffer: duplicates and numbers already passed are discarded (R430).
PRESUMED (log entry 22). -/
def FaxRun.take (r : FaxRun) (b : List Byte) : FaxRun :=
  let ifps := udptlParse b
  let r := if r.next.isNone then { r with next := (ifps.getLast?.map (·.1)) } else r
  let base := r.next.getD 0
  ifps.foldl (fun (r : FaxRun) x =>
    if (x.1 + 65536 - base) % 65536 < 32768 && !(r.got.any fun g => g.1 = x.1) then { r with got := r.got ++ [x] } else r) r

/-- The modulator needs `k` IFPs: answers how many of them are missing (R430). -/
def FaxRun.use : Nat → FaxRun → FaxRun × Nat
  | 0, r => (r, 0)
  | k + 1, r =>
    match r.next with
    | none => (r, 0)
    | some n =>
      let miss := !(r.got.any fun g => g.1 = n)
      let r := { r with next := some ((n + 1) % 65536), got := r.got.filter fun g => g.1 ≠ n }
      let (r, m) := FaxRun.use k r
      (r, m + b2n miss)

/-! ## Posting (R426, R427, R431) -/

namespace State

/-- The count of a frame's status. -/
def frameCount (st : Status) : Nat × Fd :=
  match st with
  | .ok => (Reg.MDM_RX_OK_CNT, Fd.MDM_RX_OK_CNT.COUNT)
  | .truncated => (Reg.MDM_TRUNC_CNT, Fd.MDM_TRUNC_CNT.COUNT)
  | .captured => (Reg.MDM_CAPTURE_CNT, Fd.MDM_CAPTURE_CNT.COUNT)
  | .aborted => (Reg.MDM_RX_ABORT_CNT, Fd.MDM_RX_ABORT_CNT.COUNT)
  | _ => (Reg.MDM_CHECK_FAIL_CNT, Fd.MDM_CHECK_FAIL_CNT.COUNT)

/-- A frame end posts its kind 4 record and counts (R426). -/
def postFrame (s : State) (c : Chan) (n : BeatNo) (e : FrameEnd) : State :=
  let h : TaldyHdr := e.frame.hdr.getD { len := 0, map := 0, rate := 0, syms := 0 }
  let data := if e.status = .ok || e.status = .checkFail then e.payload else []
  let tail := leBytes 4 n.toNat
    ++ leBytes 4 (c.num + b2n c.cfg.sessSideB * 65536 + h.map * 131072 + h.rate * 2 ^ 21 + e.status.code * 2 ^ 24)
    ++ leBytes 4 (c.session.getD 0 + e.frame.level % 256 * 65536 + e.snr % 256 * 2 ^ 24)
    ++ leBytes 4 e.frame.startBeat.toNat ++ leBytes 4 (e.frame.startOff + e.frame.syms % 256 * 256)
  let s := s.ringPost c.cfg.ring { kind := 4, flags := 0, tail := tail, data := data }
  let s := s.inc (frameCount e.status).1 (frameCount e.status).2
  match e.status with
  | .checkFail => s.event Pg.MDM Ev.MDM.CHECK_FAIL
  | .badParam => s.event Pg.MDM Ev.MDM.CHECK_FAIL
  | .captured => s.event Pg.MDM Ev.MDM.CAPTURED
  | .truncated => s.event Pg.MDM Ev.MDM.TRUNCATED
  | _ => s

/-- The end of a transmit request posts TALDY_TX_DONE (R418, R427).
DEDUCED (log entry 21). -/
def postTxDone (s : State) (c : Chan) (n : BeatNo) (q : TxReq) (ok : Bool) : State :=
  let st : Status := if ok then .ok else .aborted
  let s := s.chanEvent c.cfg.ring c.num 0x10 (b2n c.cfg.sessSideB) (Word.of (st.code + q.tag * 65536)) n
  if ok then s.inc Reg.MDM_TX_CNT Fd.MDM_TX_CNT.COUNT else s.inc Reg.MDM_TX_ABORT_CNT Fd.MDM_TX_ABORT_CNT.COUNT

/-- A skipped job ends a frame in reception and a frame being sent (R408). -/
def taldySkip (s : State) (c : Chan) (n : BeatNo) : State :=
  let s := match c.taldy.frame with
    | some f => s.postFrame c n { status := .aborted, frame := f, payload := [], snr := 0 }
    | none => s
  match c.taldy.tx with
  | some x => s.postTxDone c n x.req false
  | none => s

/-- A V.21 frame copied to the host (R431). -/
def postFax (s : State) (c : Chan) (n : BeatNo) (udptl ok : Bool) (frame : List Byte) : State :=
  let st : Status := if ok then .ok else .checkFail
  s.ringPost c.cfg.ring
    { kind := 5, flags := 0, data := frame,
      tail := leBytes 4 n.toNat ++ leBytes 4 (c.num + b2n c.cfg.sessSideB * 65536 + b2n udptl * 131072 + st.code * 2 ^ 24)
        ++ leBytes 4 (beAt frame 2 1) ++ leBytes 8 0 }

end State

/-- The receiver after a skipped job: SEARCH (R408). -/
def TaldyRun.skip (r : TaldyRun) : TaldyRun := { r with frame := none, tail := 0, tx := none, res := [] }

end Sys2Proof.Machine
end

