-- ==== Sys2Proof/Machine/Rate.lean ====
section
/-! DEFINITION. Rate conversion and DC blocking, sample for sample (R214 to R226). -/

namespace Sys2Proof.Machine

/-- 16-bit saturation and whether it clipped (R217). -/
def clip16 (v : Int) : Int × Bool := (clampInt (-32768) 32767 v, v < -32768 || 32767 < v)

/-- The half-band filter h (R218). -/
def halfTaps : List Int :=
  [-161, 0, 419, 0, -862, 0, 1619, 0, -3198, 0, 10375, 16384, 10375, 0, -3198, 0, 1619, 0, -862, 0, 419, 0, -161]

/-- p[18 + j] for j = 0 to 17 (R219). -/
def fracHalf : List Int :=
  [10436, 6855, 1996, -1363, -1993, -754, 580, 896, 345, -263, -396, -147, 106, 149, 52, -36, -55, -24]

/-- The fractional prototype p of 36 taps (R219). -/
def fracTaps : List Int := fracHalf.reverse ++ fracHalf

/-- Sum of products of a coefficient list with samples, newest first; missing samples are 0. -/
def dot : List Int → List Int → Int
  | c :: cs, x :: xs => c * x + dot cs xs
  | _, _ => 0

/-- One kind of stage (R217). -/
inductive StageKind where
  | up2 | down2 | up32 | down32
  deriving DecidableEq, Repr

/-- The output of a half-band decimator for one pair of inputs, given the inputs newest first, the second
of the pair left out: y[m] uses x[2m − n]. -/
def halfDown (hist : List Int) : Int × Bool := clip16 ((dot halfTaps hist + 0x4000) / 32768)

/-- The even and odd taps of h, for the interpolator. -/
def everyOther : List Int → List Int
  | [] => []
  | [a] => [a]
  | a :: _ :: rest => a :: everyOther rest

/-- The two outputs of a half-band interpolator at one input, inputs newest first. -/
def halfUp (hist : List Int) : List (Int × Bool) :=
  [clip16 ((2 * dot (everyOther halfTaps) hist + 0x4000) / 32768),
   clip16 ((2 * dot (everyOther (halfTaps.drop 1)) hist + 0x4000) / 32768)]

/-- Every third tap from `k` on. -/
def everyThird : Nat → List Int → List Int
  | _, [] => []
  | 0, c :: cs => c :: everyThird 2 cs
  | k + 1, _ :: cs => everyThird k cs

/-- The sums of the fractional stage: u is non-zero at multiples of L, so y at position `ph` (mod L) of
the upsampled index uses the taps ph, ph + L, and so on. -/
def fracOut (l ph : Nat) (hist : List Int) : Int × Bool :=
  let taps := if l = 3 then everyThird ph fracTaps else everyOther (fracTaps.drop ph)
  clip16 (((l : Int) * dot taps hist + 0x4000) / 32768)

/-- History a stage keeps. -/
def histLen : Nat := 36

/-- One stage over the samples of a beat, in order: outputs, history, whether anything clipped. `ph` is
the position in the stage's cycle, 0 at the start of every beat. -/
def runStage (k : StageKind) : List Int → Nat → List Int → List Int × List Int × Bool
  | [], _, hist => ([], hist, false)
  | x :: xs, ph, hist =>
    let hist' := (x :: hist).take histLen
    let outs : List (Int × Bool) := match k with
      | .up2 => halfUp hist'
      | .down2 => if ph % 2 = 0 then [halfDown hist'] else []
      | .up32 => if ph % 2 = 0 then [fracOut 3 0 hist', fracOut 3 2 hist'] else [fracOut 3 1 hist']
      | .down32 => if ph % 3 = 0 then [fracOut 2 0 hist'] else if ph % 3 = 1 then [fracOut 2 1 hist'] else []
    let (ys, h, c) := runStage k xs (ph + 1) hist'
    (outs.map (·.1) ++ ys, h, outs.any (·.2) || c)

/-- The upward chain between two rates in kHz (R216). -/
def upChain (a b : Nat) : List StageKind :=
  if a = 8 && b = 16 then [.up2] else if a = 8 && b = 32 then [.up2, .up2] else if a = 8 && b = 48 then [.up2, .up2, .up32]
  else if a = 16 && b = 32 then [.up2] else if a = 16 && b = 48 then [.up2, .up32] else if a = 32 && b = 48 then [.up32]
  else []

/-- The downward chain between two rates in kHz (R216). -/
def downChain (a b : Nat) : List StageKind :=
  (upChain b a).reverse.map (fun k => match k with
    | .up2 => .down2
    | .up32 => .down32
    | other => other)

/-- The chain of a direction. -/
def chainOf (src dst : Nat) : List StageKind := if src < dst then upChain src dst else downChain src dst

/-- A direction with zero history (R221). -/
def ChainRun.fresh (src dst : Nat) : ChainRun := { src := src, dst := dst, hist := (chainOf src dst).map (fun _ => []) }

/-- A direction after a MODIFY: zero history when its chain changes, else kept (R221). -/
def ChainRun.retarget (c : ChainRun) (src dst : Nat) : ChainRun :=
  if chainOf c.src c.dst = chainOf src dst && (c.src = src && c.dst = dst) then c else ChainRun.fresh src dst

/-- Run the stages of a chain one after the other. -/
def runStages : List StageKind → List (List Int) → List Int → List Int × List (List Int) × Bool
  | [], _, xs => (xs, [], false)
  | k :: ks, hs, xs =>
    let (ys, h, c) := runStage k xs 0 (hs.headD [])
    let (zs, hs', c') := runStages ks (hs.drop 1) ys
    (zs, h :: hs', c || c')

/-- One beat through a direction. -/
def ChainRun.run (c : ChainRun) (xs : List Int) : ChainRun × List Int × Bool :=
  let (ys, h, clipped) := runStages (chainOf c.src c.dst) c.hist xs
  ({ c with hist := h }, ys, clipped)

/-- k of the DC blocker by leg rate in kHz (R223). -/
def dcK (khz : Nat) : Int := if khz = 8 then 511 else if khz = 16 then 256 else if khz = 32 then 128 else 86

/-- The DC blocker over the samples of a beat (R223, R224): estimate, outputs, whether anything clipped. -/
def dcBlock (k : Int) (track : Bool) : List Int → Int → Int × List Int × Bool
  | [], d => (d, [], false)
  | x :: xs, d =>
    let d' := if track then d + (k * (x * 4096 - d)) / 32768 else d
    let (y, c) := clip16 (x - (d' + 0x800) / 4096)
    let (d'', ys, c') := dcBlock k track xs d'
    (d'', y :: ys, c || c')

/-- A leg's audio processing at OPEN or a leg restart (R221, R223, R226). -/
def RateRun.fresh (leg int : Nat) : RateRun :=
  { d := 0, frozen := false, satIn := false, satOut := false, up := ChainRun.fresh leg int, down := ChainRun.fresh int leg }

/-- The directions after the internal rate changed (R221). -/
def RateRun.retarget (r : RateRun) (leg int : Nat) : RateRun :=
  { r with up := r.up.retarget leg int, down := r.down.retarget int leg }

/-- No action pending. -/
def RateCtl.none : RateCtl := { freeze := .none, clear := false }

/-- Newer actions replace older ones of the FREEZE and RUN group; CLEAR_SAT is one-shot (R225). -/
def RateCtl.merge (older newer : RateCtl) : RateCtl :=
  { freeze := newer.freeze <|> older.freeze, clear := older.clear || newer.clear }

/-- Actions at the start of a job (R225). -/
def RateRun.control (r : RateRun) (c : RateCtl) : RateRun :=
  let r := if c.clear then { r with satIn := false, satOut := false } else r
  { r with frozen := c.freeze.getD r.frozen }

/-- The input direction of a beat: DC blocker, then the upward chain (R214). -/
def RateRun.input (r : RateRun) (dcb : Bool) (xs : List Int) : RateRun × List Int :=
  let (d, ys, c) := if dcb then dcBlock (dcK r.up.src) (!r.frozen) xs r.d else (r.d, xs, false)
  let (up, zs, c') := r.up.run ys
  ({ r with d := d, up := up, satIn := r.satIn || c || c' }, zs)

/-- The output direction of a beat (R214). -/
def RateRun.output (r : RateRun) (xs : List Int) : RateRun × List Int :=
  let (down, ys, c) := r.down.run xs
  ({ r with down := down, satOut := r.satOut || c }, ys)

/-! ## G.711 companding of PCM timeslots and of the companded bypass -/

/-- The segment of a magnitude: the position of its leading one above bit `base`. -/
def seg711 (base : Nat) : Nat → Nat → Nat
  | 0, _ => 0
  | k + 1, m => if 2 ^ (base + k + 1) ≤ m then k + 1 else seg711 base k m

/-- µ-law expansion of a code to 16-bit linear.
DEDUCED (log entry 29). -/
def muExpand (c : Byte) : Int :=
  let u := (~~~c).toNat
  let m : Int := ((u % 16 * 8 + 132) * 2 ^ (u / 16 % 8) : Nat) - 132
  if 128 ≤ u then -m else m

/-- µ-law compression of a 16-bit linear sample.
DEDUCED (log entry 29). -/
def muCompress (x : Int) : Byte :=
  let m := min (x.natAbs) 32635 + 132
  let e := seg711 7 7 m
  ~~~ (BitVec.ofNat 8 ((if x < 0 then 128 else 0) + e * 16 + m / 2 ^ (e + 3) % 16))

/-- A-law expansion of a code to 16-bit linear.
DEDUCED (log entry 29). -/
def aExpand (c : Byte) : Int :=
  let a := (c ^^^ 0x55).toNat
  let e := a / 16 % 8
  let m := if e = 0 then a % 16 * 16 + 8 else (a % 16 * 16 + 264) * 2 ^ (e - 1)
  if 128 ≤ a then m else -(m : Int)

/-- A-law compression of a 16-bit linear sample.
DEDUCED (log entry 29). -/
def aCompress (x : Int) : Byte :=
  let m := if x < 0 then (-x - 1).toNat else x.toNat
  let m := min m 32767
  let e := seg711 7 7 m
  let q := if e = 0 then m / 16 else e * 16 + m / 2 ^ (e + 3) % 16
  (BitVec.ofNat 8 ((if x < 0 then 0 else 128) + q)) ^^^ 0x55

end Sys2Proof.Machine
end

