-- ==== Sys2Proof/Machine/Jbuf.lean ====
section
/-! DEFINITION. Playout buffers: taking packets, depth control and the decisions of blocks (R170 to
R191). Everything here is a function of one leg's buffer; counts of the JBUF page come back as notes. -/

namespace Sys2Proof.Machine

/-- A count of a page that goes up, with the event source that latches, if one does. -/
structure Note where
  addr : Nat
  fd : Fd
  ev : Option (Nat × Nat)
  deriving DecidableEq, Repr

/-- Apply a note. -/
def State.note (s : State) (x : Note) : State :=
  let s := s.inc x.addr x.fd
  match x.ev with
  | some (p, b) => s.event p b
  | none => s

/-- Timestamp units per millisecond of a codec (R149). -/
def codecKhz (codec : Nat) : Nat :=
  if codec = 6 || codec = 7 || codec = 8 then 16 else if codec = 9 || codec = 10 then 48 else 8

/-- Codecs that play 20 ms blocks at their phase beats (R173). -/
def isFrameCodec (codec : Nat) : Bool := 4 ≤ codec && codec ≤ 10

/-- Beats of a playout block. -/
def blockBeats (codec : Nat) : Nat := if isFrameCodec codec then 4 else 1

/-- What a decision needs of the leg's configuration and of the beat. `atB` is the tick of B(beat);
`cut` the cut guard in ticks; `hmax` in ticks; `tsaOk` whether R189 allows time-scale adjustment. -/
structure JCtx where
  codec : Nat
  phase : Nat
  beat : BeatNo
  atB : Nat
  cut : Nat
  hmax : Nat
  safety : Nat
  hyst : Nat
  windowLen : Nat
  initTicks : Nat
  cnHoldMs : Nat
  tsaOn : Bool
  tsaOk : Bool
  space : Nat
  deriving DecidableEq, Repr

/-- Timestamp units per beat. -/
def JCtx.perBeat (x : JCtx) : Nat := 5 * codecKhz x.codec

/-- Timestamp units of a block. -/
def JCtx.blockUnits (x : JCtx) : Nat := x.perBeat * blockBeats x.codec

/-- Ticks of a signed number of timestamp units. -/
def JCtx.unitTicks (x : JCtx) (u : Int) : Int := u * (230400000 / codecKhz x.codec : Nat)

/-- Whole timestamp units of ticks, rounded up. -/
def JCtx.ticksUp (x : JCtx) (d : Nat) : Nat := (d * codecKhz x.codec + 230400000 - 1) / 230400000

/-- The signed distance of two timestamps. -/
def tsDiff (a b : Word) : Int := asSigned 32 (a - b).toNat

/-- The tick of C(d), for a beat d given by its signed distance from the job's beat. -/
def JCtx.cutTick (x : JCtx) (d : Int) : Int := x.atB + d * beatTicks - x.cut

/-- Signed distance of beats. -/
def beatDiff (a b : BeatNo) : Int := asSigned 32 (a - b).toNat

/-- The decision beat of a timestamp under the mapping, as a distance from the job's beat (R174). -/
def JCtx.decision (x : JCtx) (j : Jbuf) (ts : Word) : Int :=
  beatDiff j.next x.beat + tsDiff ts j.p / (x.blockUnits : Int) * blockBeats x.codec

/-- A packet's margin in ticks under the mapping (R174). -/
def JCtx.margin (x : JCtx) (j : Jbuf) (stamp : Nat) (ts : Word) : Int := x.cutTick (x.decision j ts) - stamp

/-- The margins of the window (R178). -/
def JCtx.margins (x : JCtx) (j : Jbuf) : List Int := j.window.map (fun w => x.margin j w.1 w.2)

/-- The smallest of a list of margins. -/
def minInt : List Int → Option Int
  | [] => none
  | a :: as => some (as.foldl min a)

/-- The largest of a list of margins. -/
def maxInt : List Int → Option Int
  | [] => none
  | a :: as => some (as.foldl max a)

/-- TARGET in ticks (R176): INIT_MS with fewer than two packets in the window, else SPREAD + SAFETY_MS,
clamped to [0, Hmax]. -/
def JCtx.target (x : JCtx) (j : Jbuf) : Nat :=
  let raw : Int :=
    if j.window.length < 2 then x.initTicks
    else
      let t0 := (j.window.head?.map (·.2)).getD 0
      let transits := j.window.map (fun w => (w.1 : Int) - x.unitTicks (tsDiff w.2 t0))
      match maxInt transits, minInt transits with
      | some a, some b => a - b + x.safety
      | _, _ => x.initTicks
  (clampInt 0 x.hmax raw).toNat

/-- The first decision beat at or after the job's beat, as a distance from it, whose cut lies at least
`target` after a stamp (R176). -/
def JCtx.startBeat (x : JCtx) (stamp target : Nat) : Nat :=
  let need : Int := stamp + target - x.cutTick 0
  let d := if need ≤ 0 then 0 else (need.toNat + beatTicks - 1) / beatTicks
  if isFrameCodec x.codec then d + (4 - (x.beat.toNat + d + 4 - x.phase) % 4) % 4 else d

/-- A new talkspurt with its first packet (R176). Goals of the old mapping end with it. -/
def JCtx.talkspurt (x : JCtx) (j : Jbuf) (stamp : Nat) (ts : Word) (cn : Bool) (target : Nat) : Jbuf :=
  let d := x.startBeat stamp target
  let keep := j.entries.filter (fun e => 0 ≤ tsDiff e.ts ts)
  { j with st := if cn then .comfort else .playing, hasP := true, p := ts, next := x.beat + BitVec.ofNat 32 d,
           waitFill := some (if j.hasP then j.st else .empty), goal := 0, entries := keep, run := 0, cnRun := 0,
           past := (j.entries.filter (fun e => tsDiff e.ts ts < 0)).map (·.ext) ++ j.past }

/-- Extend a 16-bit sequence number to the value nearest the highest so far (RFC 3550). -/
def extendSeq (highest : Option Nat) (seq : Nat) : Nat :=
  match highest with
  | none => 65536 + seq
  | some h =>
    let base := h / 65536 * 65536 + seq
    if base + 32768 < h then base + 65536 else if h + 32768 < base then base - 65536 else base

/-- Insert an entry in timestamp order. -/
def insertEntry (e : JEntry) : List JEntry → List JEntry
  | [] => [e]
  | x :: xs => if tsDiff e.ts x.ts < 0 then e :: x :: xs else x :: insertEntry e xs

/-- The margin of a packet enters the window (R178). -/
def JCtx.enterWindow (x : JCtx) (j : Jbuf) (stamp : Nat) (ts : Word) : Jbuf :=
  { j with window := ((stamp, ts) :: j.window).take x.windowLen }

/-- The goals after a packet (R179, R180): grow whenever MLOW < SAFETY_MS; shrink when the window is full,
MLOW > SAFETY_MS + HYST_MS and no grow goal pends. -/
def JCtx.regoal (x : JCtx) (j : Jbuf) : Jbuf :=
  match minInt (x.margins j) with
  | none => j
  | some low =>
    if low < x.safety then { j with goal := x.safety - low }
    else if 0 < j.goal then { j with goal := 0 }
    else if j.window.length = x.windowLen && low > x.safety + x.hyst then { j with goal := x.safety - low }
    else j

/-- Interarrival jitter after a packet, scaled by 16 as RFC 3550 A.8 keeps it (R191). -/
def JCtx.jitterStep (x : JCtx) (j : Jbuf) (stamp : Nat) (ts : Word) : Jbuf :=
  let arrival : Int := (stamp * codecKhz x.codec / 230400000 : Nat)
  let transit := arrival - ts.toNat
  let d := (asSigned 32 (toField 32 (transit - j.lastTransit))).natAbs
  if j.counts.rx = 0 then { j with lastTransit := transit }
  else { j with lastTransit := transit, jitter := j.jitter + d - (j.jitter + 8) / 16 }

/-- Entry space in use (R172). -/
def Jbuf.used (j : Jbuf) : Nat := (j.entries.map (·.bytes)).foldl (· + ·) 0

/-- A count note of the JBUF page. -/
def jNote (addr : Nat) (fd : Fd) (ev : Option Nat) : Note := { addr := addr, fd := fd, ev := ev.map (fun b => (Pg.JBUF, b)) }

/-- Resynchronise with a packet (R177). -/
def JCtx.resync (x : JCtx) (j : Jbuf) (stamp : Nat) (ts : Word) (cn : Bool) : Jbuf :=
  let j := { j with entries := [], window := [], goal := 0, counts := { j.counts with resync := sat32 (j.counts.resync + 1) } }
  x.talkspurt j stamp ts cn (min x.initTicks x.hmax)

/-- The note of a resynchronisation. -/
def resyncNote : Note := jNote Reg.JBUF_RESYNC_CNT Fd.JBUF_RESYNC_CNT.COUNT (some Ev.JBUF.RESYNC)

/-- The entry a packet makes: 16 bytes plus the payload rounded up to a multiple of 16 (R172). -/
def entryOf (pkt : InPkt) (ext units : Nat) (kind : EntryKind) : JEntry :=
  { ext := ext, ts := pkt.ts, units := units, bytes := 16 + (pkt.payload.length + 15) / 16 * 16, kind := kind, payload := pkt.payload }

/-- Keep a taken packet's audio in the buffer, as its talkspurt's first packet or under step 7. -/
def Jbuf.keep (j : Jbuf) (e : JEntry) : Jbuf :=
  { j with entries := insertEntry e j.entries, highest := some (max e.ext (j.highest.getD 0)) }

/-- Steps 2 to 7 of R175 for a packet that passed step 1; `fresh` starts a talkspurt under R153. -/
def JCtx.take (x : JCtx) (j : Jbuf) (pkt : InPkt) (units : Nat) (kind : EntryKind) (fresh : Bool) : Jbuf × List Note :=
  let ext := extendSeq (if fresh then none else j.highest) pkt.seq
  let j := if fresh then { j with highest := none, past := [] } else j
  let dup := j.entries.any (fun e => e.ext = ext) || (j.past.take 128).contains ext
  if dup then
    ({ j with counts := { j.counts with dup := sat32 (j.counts.dup + 1) } }, [jNote Reg.JBUF_DUP_CNT Fd.JBUF_DUP_CNT.COUNT none])
  else
    let j := x.jitterStep j pkt.stamp pkt.ts
    let j := { j with idle := 0, baseSeq := if j.highest.isNone then ext else j.baseSeq,
                      counts := { j.counts with rx := sat32 (j.counts.rx + 1) } }
    let e := entryOf pkt ext units kind
    let cn := kind = .comfort
    let far := j.hasP && (tsDiff pkt.ts j.p < -((1000 * codecKhz x.codec : Nat) : Int)
                          || x.margin j pkt.stamp pkt.ts > x.hmax + msTicks 100)
    if fresh || far then ((x.resync j pkt.stamp pkt.ts cn).keep e, [resyncNote])
    else if j.st = .empty || j.st = .lossCn || j.st = .silent || (j.st = .comfort && pkt.marker) then
      ((x.talkspurt j pkt.stamp pkt.ts cn (x.target j)).keep e, [])
    else if tsDiff pkt.ts j.p < 0 && !(kind = .event && 0 < tsDiff pkt.ts j.p + units) then
      let j := x.regoal (x.enterWindow j pkt.stamp pkt.ts)
      ({ j with past := (ext :: j.past).take 128, highest := some (max ext (j.highest.getD 0)),
                counts := { j.counts with late := sat32 (j.counts.late + 1) } },
       [jNote Reg.JBUF_LATE_CNT Fd.JBUF_LATE_CNT.COUNT none])
    else if x.space < j.used + e.bytes then
      ({ j with counts := { j.counts with ovf := sat32 (j.counts.ovf + 1) } },
       [jNote Reg.JBUF_OVF_CNT Fd.JBUF_OVF_CNT.COUNT (some Ev.JBUF.OVERFLOW)])
    else
      let re : Bool := match j.highest with
        | some h => ext < h
        | none => false
      let j := (x.enterWindow j pkt.stamp pkt.ts).keep e
      let j := if re then { j with counts := { j.counts with reorder := sat32 (j.counts.reorder + 1) } } else j
      (x.regoal j, [])

/-! ## Decisions (R181 to R186) -/

/-- Fill `m` missing units in a state, in sample order: concealment for 60 ms of a loss run, then comfort
noise for CNG_HOLD_MS, then silence (R183). -/
def JCtx.fill (x : JCtx) (j : Jbuf) (m : Nat) : Jbuf :=
  let khz := codecKhz x.codec
  match j.st with
  | .empty => j
  | .silent => { j with counts := { j.counts with silent := j.counts.silent + m } }
  | .comfort => j
  | .lossCn =>
    let room := x.cnHoldMs * khz - j.cnRun
    let a := min m room
    let j := { j with cnRun := j.cnRun + a, counts := { j.counts with lossCn := j.counts.lossCn + a } }
    if a < m || j.cnRun = x.cnHoldMs * khz then
      { j with st := .silent, counts := { j.counts with silent := j.counts.silent + (m - a) } }
    else j
  | _ =>
    let run := if j.st = .playing then 0 else j.run
    let a := min m (60 * khz - run)
    let j := { j with st := .concealing, run := run + a, counts := { j.counts with conceal := j.counts.conceal + a } }
    if j.run < 60 * khz then j
    else
      let b := min (m - a) (x.cnHoldMs * khz)
      let j := { j with st := .lossCn, cnRun := b, counts := { j.counts with lossCn := j.counts.lossCn + b } }
      if b < m - a then { j with st := .silent, counts := { j.counts with silent := j.counts.silent + (m - a - b) } } else j

/-- What a leg hears of a part of a block that the buffer holds. -/
def Jbuf.hear (j : Jbuf) (kind : EntryKind) : Jbuf :=
  match kind with
  | .speech => { j with st := .playing, run := 0, cnRun := 0 }
  | .comfort => { j with st := .comfort, run := 0, cnRun := 0 }
  | .event => j

/-- Play the units [pos, stop) of a block from the entries in timestamp order, filling what is missing.
`pos` and `stop` are distances from the playout point. -/
def JCtx.playFrom (x : JCtx) (p : Word) (stop : Nat) : List JEntry → Nat → Jbuf → Jbuf
  | [], pos, j => if pos < stop then x.fill j (stop - pos) else j
  | e :: es, pos, j =>
    let a := tsDiff e.ts p
    let b := a + e.units
    if b ≤ (pos : Int) then x.playFrom p stop es pos j
    else if (stop : Int) ≤ a || stop ≤ pos then (if pos < stop then x.fill j (stop - pos) else j)
    else
      let from0 := max pos a.toNat
      let j := if pos < from0 then x.fill j (from0 - pos) else j
      x.playFrom p stop es (min stop b.toNat) (j.hear e.kind)

/-- Free the entries whose last sample lies before the playout point. -/
def Jbuf.freePassed (j : Jbuf) : Jbuf × Nat :=
  let gone := j.entries.filter (fun e => tsDiff e.ts j.p + e.units ≤ 0)
  ({ j with entries := j.entries.filter (fun e => 0 < tsDiff e.ts j.p + e.units),
            past := (gone.map (·.ext) ++ j.past).take 128 }, gone.length)

/-- Move the playout point by a signed number of units. -/
def Jbuf.moveP (j : Jbuf) (u : Int) : Jbuf := { j with p := j.p + BitVec.ofInt 32 u }

/-- A goal carried out at a block (R181, R182): in full in COMFORT, by one time-scale step in speech. The
answer is the extra units the block consumes (negative when stretched) and whether a step cleared the
goal at the depth limit. -/
def JCtx.adjust (x : JCtx) (j : Jbuf) (tsa : TsaInput) : Jbuf × List Note :=
  if j.goal = 0 then (j, [])
  else if j.st = .comfort then
    let u := x.ticksUp j.goal.natAbs
    ({ j.moveP (if 0 < j.goal then -(u : Int) else u) with goal := 0 }, [])
  else if j.st = .playing && x.tsaOn && x.tsaOk && (tsa.corr || tsa.low) && 20 * codecKhz x.codec ≤ j.sinceStep then
    let step := if tsa.low then 5 * codecKhz x.codec else tsa.pitch
    let ticks := x.unitTicks step
    if 0 < j.goal then
      let high := ((maxInt (x.margins j)).getD 0) + ticks
      if (x.hmax : Int) < high then
        ({ j with goal := 0 }, [jNote Reg.JBUF_LIMIT_CNT Fd.JBUF_LIMIT_CNT.COUNT (some Ev.JBUF.DEPTH_LIMIT)])
      else
        let c := { j.counts with stretch := sat16 (j.counts.stretch + 1) }
        ({ j.moveP (-(step : Int)) with goal := max 0 (j.goal - ticks), sinceStep := 0, counts := c }, [])
    else if ticks ≤ -j.goal then
      let c := { j.counts with compress := sat16 (j.counts.compress + 1) }
      ({ j.moveP step with goal := j.goal + ticks, sinceStep := 0, counts := c }, [])
    else (j, [])
  else (j, [])

/-- One decision: play the block of `len` units at the playout point, then advance (R183), adjusting the
depth (R181). Before the first block of a talkspurt only the earlier fill goes on. -/
def JCtx.decide (x : JCtx) (j : Jbuf) (tsa : TsaInput) (len : Nat) : Jbuf × List Note :=
  let start := j.p
  let comfort := j.st = .comfort
  let (j, notes) := x.adjust { j with waitFill := none } tsa
  let base := if comfort then j.p else start
  let stop := if comfort then len else (len + tsDiff j.p start).toNat
  let j := x.playFrom base stop j.entries 0 j
  let j := { j with p := base + BitVec.ofNat 32 stop, sinceStep := j.sinceStep + len,
                    next := j.next + BitVec.ofNat 32 (blockBeats x.codec) }
  let j := if j.st = .comfort && x.cnHoldMs ≤ j.idle * 5 then { j with st := .silent } else j
  (j.freePassed.1, notes)

/-- The fill of a beat before a talkspurt's first block. -/
def JCtx.waitBlock (x : JCtx) (j : Jbuf) : Jbuf :=
  match j.waitFill with
  | none => j
  | some f =>
    let st := j.st
    let j' := x.fill { j with st := f } x.perBeat
    { j' with st := st, waitFill := some j'.st, run := j'.run }

/-- Audio of skipped beats is passed over first (R186): `beats` beats of it; each entry freed counts. -/
def JCtx.skipOver (x : JCtx) (j : Jbuf) (beats : Nat) : Jbuf :=
  let (j', n) := (j.moveP ((x.perBeat * beats : Nat) : Int)).freePassed
  { j' with counts := { j'.counts with skipDrop := sat32 (j'.counts.skipDrop + n) } }

/-- The buffer's part of a job: blocks of skipped beats are passed, then a block due is decided, out of
phase when its phase beat was skipped (R183, R186). -/
def JCtx.playout (x : JCtx) (j : Jbuf) (tsa : TsaInput) : Jbuf × List Note :=
  if !j.hasP then (j, [])
  else
    let behind := beatDiff x.beat j.next
    if behind < 0 then (x.waitBlock j, [])
    else
      let bb := blockBeats x.codec
      let whole := behind.toNat / bb
      let j := x.skipOver { j with next := j.next + BitVec.ofNat 32 (whole * bb) } (whole * bb)
      let part := behind.toNat % bb
      let j := x.skipOver j part
      x.decide j tsa (x.perBeat * (bb - part))

/-- A lowered JB_MAX sets a shrink goal when MHIGH exceeds the new Hmax (R182). -/
def JCtx.newLimit (x : JCtx) (j : Jbuf) (jbMax : Nat) : Jbuf :=
  let lower := jbMax < j.jbMax
  let j := { j with jbMax := jbMax }
  match maxInt (x.margins j) with
  | some high => if lower && (x.hmax : Int) < high then { j with goal := x.hmax - high } else j
  | none => j

/-- Counts of a fresh buffer. -/
def JCounts.zero : JCounts :=
  { rx := 0, late := 0, dup := 0, reorder := 0, ovf := 0, resync := 0, conceal := 0, lossCn := 0, silent := 0,
    stretch := 0, compress := 0, skipDrop := 0, inboxDrop := 0 }

/-- A fresh buffer (R114, R187). -/
def Jbuf.fresh (jbMax : Nat) : Jbuf :=
  { st := .empty, hasP := false, p := 0, next := 0, waitFill := none, goal := 0, window := [], entries := [], past := [],
    highest := none, baseSeq := 0, run := 0, cnRun := 0, idle := 0, sinceStep := 0, jbMax := jbMax, jitter := 0,
    lastTransit := 0, lastExpected := 0, lastRx := 0, counts := JCounts.zero }

/-- Cumulative lost under RFC 3550 A.3 (R191). -/
def Jbuf.lost (j : Jbuf) : Int :=
  match j.highest with
  | some h => ((h + 1 - j.baseSeq : Nat) : Int) - j.counts.rx
  | none => 0

/-- PlayoutState code (R183). -/
def JState.code : JState → Nat
  | .empty => 0 | .playing => 1 | .concealing => 2 | .comfort => 3 | .lossCn => 4 | .silent => 5

end Sys2Proof.Machine
end

