-- ==== Sys2Proof/Machine/Codec.lean ====
section
/-! DEFINITION. Codecs of packet legs: receiving checks, RTP sending, silence, RTCP (R145 to R162). The
payloads themselves come from the encoders as operands. -/

namespace Sys2Proof.Machine

/-- A count note of the CODEC page. -/
def cNote (addr : Nat) (fd : Fd) (ev : Option Nat) : Note := { addr := addr, fd := fd, ev := ev.map (fun b => (Pg.CODEC, b)) }

/-- CN_PT of CODEC_OPT on a G.711 leg; 0 on other codecs (R147). -/
def cnPt (codec opt : Nat) : Nat := if codec ≤ 1 then opt / 256 % 128 else 0

/-- The length of a payload in timestamp units by its bytes alone, for the sample codecs; `none` where it
is not whole samples (R152). -/
def sampleUnits (codec opt bytes : Nat) : Option Nat :=
  if codec ≤ 2 then (if bytes = 0 then none else some bytes)
  else
    let b := 2 + opt % 4
    if bytes = 0 || bytes * 8 % b != 0 then none else some (bytes * 8 / b)

/-- What step 1 of R175 makes of a packet's payload (R152). -/
inductive Parsed where
  | badPt
  | malformed
  | audio (units : Nat) (kind : EntryKind)
  deriving DecidableEq, Repr

/-- The payload type, parse and length checks of R152. A payload type above 127 stands for a packet too short to have
one. `evPt` is the RFC 4733 payload type of the leg. -/
def parsePkt (codec pt opt evPt : Nat) (pkt : InPkt) (v : PktParse) : Parsed :=
  let limit := 60 * codecKhz codec
  let known := pkt.pt = pt || (cnPt codec opt != 0 && pkt.pt = cnPt codec opt) || pkt.pt = evPt
  if !pkt.wf then (if known || 127 < pkt.pt then .malformed else .badPt)
  else if pkt.pt = pt then
    if 2 < codec && codec != 3 then
      if v.ok && 0 < v.units && v.units ≤ limit then .audio v.units (if v.sid then .comfort else .speech) else .malformed
    else match sampleUnits codec opt pkt.payload.length with
      | some u => if u ≤ limit then .audio u .speech else .malformed
      | none => .malformed
  else if cnPt codec opt != 0 && pkt.pt = cnPt codec opt then
    if v.ok then .audio (5 * codecKhz codec) .comfort else .malformed
  else if pkt.pt = evPt then
    if v.ok && pkt.payload.length = 4 then .audio (beAt pkt.payload 2 2) .event else .malformed
  else .badPt

/-- What R153 makes of a packet's SSRC. -/
inductive SsrcStep where
  | same | first | foreign | changed
  deriving DecidableEq, Repr

/-- The learned SSRC after a packet (R153). -/
def CodecRun.ssrcStep (c : CodecRun) (ssrc : Word) : CodecRun × SsrcStep :=
  match c.learned with
  | none => ({ c with learned := some ssrc, rivalSsrc := none }, .first)
  | some l =>
    if ssrc = l then ({ c with rivalSsrc := none }, .same)
    else if c.rivalSsrc = some ssrc then ({ c with learned := some ssrc, rivalSsrc := none }, .changed)
    else ({ c with rivalSsrc := some ssrc }, .foreign)

/-- Whether a leg reads the CMR of received packets (R154). -/
def readsCmr (codec opt : Nat) : Bool :=
  ((codec = 5 || codec = 6) && bit opt 6) || (codec = 7 && bit opt 4)

/-- The CMR memory after a packet; CMR 15 clears it (R154). -/
def CodecRun.takeCmr (c : CodecRun) (codec opt : Nat) (v : PktParse) : CodecRun :=
  if readsCmr codec opt then
    match v.cmr with
    | some 15 => { c with cmr := none }
    | some m => { c with cmr := some m }
    | none => c
  else c

/-- Take one RTP packet: step 1, then steps 2 to 7 of R175. -/
def takeRtp (x : JCtx) (pt opt evPt : Nat) (c : CodecRun) (j : Jbuf) (pkt : InPkt) (v : PktParse) : CodecRun × Jbuf × List Note :=
  let c := c.takeCmr x.codec opt v
  match parsePkt x.codec pt opt evPt pkt v with
  | .badPt => (c, j, [cNote Reg.CODEC_BAD_PT_CNT Fd.CODEC_BAD_PT_CNT.COUNT none])
  | .malformed => (c, j, [cNote Reg.CODEC_MALFORMED_CNT Fd.CODEC_MALFORMED_CNT.COUNT (some Ev.CODEC.MALFORMED)])
  | .audio units kind =>
    match c.ssrcStep pkt.ssrc with
    | (c, .foreign) => (c, j, [cNote Reg.CODEC_FOREIGN_CNT Fd.CODEC_FOREIGN_CNT.COUNT none])
    | (c, .changed) =>
      let (j, ns) := x.take j pkt units kind true
      (c, j, cNote Reg.CODEC_SSRC_CHG_CNT Fd.CODEC_SSRC_CHG_CNT.COUNT (some Ev.CODEC.SSRC_CHANGE) :: ns)
    | (c, _) =>
      let (j, ns) := x.take j pkt units kind false
      (c, j, ns)

/-! ## Sending (R149 to R151, R155) -/

/-- Silence is sent at all: VAD of G.711, ANNEX_B of G.729, DTX of the others (R147, R155). -/
def silenceEnabled (codec opt : Nat) : Bool :=
  if codec ≤ 1 then bit opt 0
  else if codec = 4 then bit opt 0
  else if codec = 5 || codec = 6 then bit opt 5
  else if codec = 7 || codec = 8 then bit opt 6
  else if codec = 9 || codec = 10 then bit opt 6
  else false

/-- Whether a frame of silence is due an update (R155). `frames` counts the silent frames since the last
update, this one included; 0 at the start of silence. -/
def sidUpdate (codec : Nat) (start : Bool) (frames : Nat) (tx : TxInput) (lastLevel : Nat) : Bool :=
  if codec ≤ 1 then start || (3 ≤ (max tx.level lastLevel - min tx.level lastLevel)) || 50 ≤ frames
  else if codec = 4 then tx.sid
  else if codec = 9 || codec = 10 then start || 20 ≤ frames
  else start || 8 ≤ frames

/-- The timestamp of the frame of phase beat `f` (R149, R151). -/
def CodecRun.frameTs (c : CodecRun) (codec : Nat) (f : BeatNo) : Word :=
  c.refTs + BitVec.ofInt 32 (beatDiff f c.refBeat * (5 * codecKhz codec : Nat))

/-- The RTP packet of R149: version 2, no padding, extension or CSRC. -/
def rtpBytes (marker : Bool) (pt seq : Nat) (ts ssrc : Word) (payload : List Byte) : List Byte :=
  leBytes 1 0x80 ++ leBytes 1 (128 * b2n marker + pt) ++ beBytes 2 seq ++ beBytes 4 ts.toNat ++ beBytes 4 ssrc.toNat ++ payload

/-- The packetisation interval a phase beat lies in, and whether it is the last beat of it (R150). -/
def CodecRun.interval (c : CodecRun) (ptime : Nat) (f : BeatNo) : Nat := (f - c.grid).toNat / 4 / (ptime / 20)

/-- Account for the frame of this phase beat: speech or silence, and whether an update is due. Frames of an
interval whose sending beat was skipped do not carry over.
DEDUCED (log entry 47). -/
def CodecRun.frame (c : CodecRun) (codec ptime opt : Nat) (f : BeatNo) (tx : TxInput) (bypass : Bool) : CodecRun :=
  let c := if c.frames = 0 || c.interval ptime c.packBeat != c.interval ptime f then
    { c with frames := 0, packBeat := f, speech := false } else c
  let c := { c with frames := c.frames + 1, mode := tx.mode, lastBeat := f }
  if tx.silence && silenceEnabled codec opt && !bypass then
    let n := if c.silent then c.sidFrames + 1 else 0
    let due := sidUpdate codec (!c.silent) n tx c.cnLevel
    { c with silent := true, sidFrames := if due then 0 else n, sidDue := c.sidDue || due,
             cnLevel := if due then tx.level else c.cnLevel }
  else
    { c with speech := true, marker := c.marker || c.silent, silent := false, sidFrames := 0 }

/-- What a leg sends at a phase beat once its packetisation interval is full: a speech packet, a silence
update, or nothing (R150, R155).
DEDUCED (log entry 47). -/
def CodecRun.packet (c : CodecRun) (codec ptime pt opt : Nat) (ssrc : Word) (f : BeatNo) (tx : TxInput) : CodecRun × Option (List Byte) :=
  if ((f - c.grid).toNat / 4 + 1) % (ptime / 20) != 0 then (c, none)
  else
    let done := { c with frames := 0, sidDue := false }
    if c.speech || c.sidDue then
      let ts := c.frameTs codec c.packBeat
      let cn := !c.speech && codec ≤ 1
      let mark := c.marker && c.speech
      let b := rtpBytes mark (if cn then cnPt codec opt else pt) c.seq ts ssrc tx.payload
      ({ done with seq := (c.seq + 1) % 65536, refTs := ts, refBeat := c.packBeat, sentTs := ts,
                   marker := c.marker && !c.speech, sentSince := true, txPackets := c.txPackets + 1,
                   txBytes := c.txBytes + tx.payload.length }, some b)
    else (done, none)

/-- The sending side of a job at beat `f`: only phase beats have frames (R66, R150). -/
def CodecRun.send (c : CodecRun) (codec ptime pt opt phase : Nat) (ssrc : Word) (f : BeatNo) (tx : TxInput)
    (bypass : Bool) : CodecRun × Option (List Byte) :=
  if (f.toNat + 4 - phase) % 4 != 0 then (c, none)
  else (c.frame codec ptime opt f tx bypass).packet codec ptime pt opt ssrc f tx

/-! ## RTCP (R160 to R162) -/

/-- A report interval in beats: INTERVAL seconds times a factor of [0.5, 1.5], truncated; `draw` is a free
value that stands for the uniform draw. -/
def rtcpInterval (seconds : Nat) (draw : Word) : Nat := seconds * 200 * (2 ^ 31 + draw.toNat) / 2 ^ 32

/-- The CNAME: the string of CODEC_CNAME up to its first 0 byte, or the 16 hexadecimal digits of the
serial number when it is empty (R160). -/
def cname (bytes : List Byte) (serial : Nat) : List Byte :=
  let s := bytes.takeWhile (fun b => b != 0)
  if s.isEmpty then (beBytes 8 serial).flatMap (fun b => [hex (b.toNat / 16), hex (b.toNat % 16)]) else s
where
  hex (n : Nat) : Byte := BitVec.ofNat 8 (if n < 10 then 48 + n else 87 + n)

/-- Fill an RTCP item up to whole words. -/
def padWord (b : List Byte) : List Byte := b ++ List.replicate ((4 - b.length % 4) % 4) 0

/-- An RTCP packet: version 2, count, type and length in words less one. -/
def rtcpPacket (count pt : Nat) (body : List Byte) : List Byte :=
  leBytes 1 (0x80 + count) ++ leBytes 1 pt ++ beBytes 2 (body.length / 4) ++ body

/-- The report block of RFC 3550 from the buffer's statistics (R191), and the counts it closes. -/
def reportBlock (c : CodecRun) (j : Jbuf) (now : Nat) : Jbuf × List Byte :=
  let expected := match j.highest with
    | some h => h + 1 - j.baseSeq
    | none => 0
  let dExp := expected - j.lastExpected
  let dRx := j.counts.rx - j.lastRx
  let frac := if dExp = 0 || dExp < dRx then 0 else (dExp - dRx) * 256 / dExp
  let dlsr := if c.lsr = 0 then 0 else (now - c.lsrAt) * 65536 / 230400000000
  ({ j with lastExpected := expected, lastRx := j.counts.rx },
   beBytes 4 ((c.learned.getD 0).toNat) ++ beBytes 1 (min frac 255) ++ beBytes 3 (toField 24 j.lost)
     ++ beBytes 4 ((j.highest.getD 0) - 65536) ++ beBytes 4 (j.jitter / 16) ++ beBytes 4 c.lsr ++ beBytes 4 dlsr)

/-- The VoIP Metrics block of R162. `jbms` is (current target, JB_MAX × 5), `depth` the end system delay,
`rerl` the canceller's ERL or 127. -/
def xrBlock (c : CodecRun) (j : Jbuf) (x : XrInput) (depth rerl nominal maxMs : Nat) (ssrc : Word) : List Byte :=
  let exp := match j.highest with
    | some h => h + 1 - j.baseSeq
    | none => 0
  let rate (n : Nat) : Nat := if exp = 0 then 0 else min 255 (n * 256 / exp)
  let m := slice x.metrics 0 6
  rtcpPacket 0 207 (beBytes 4 ssrc.toNat ++ beBytes 1 7 ++ beBytes 1 0 ++ beBytes 2 8 ++ beBytes 4 (c.learned.getD 0).toNat
    ++ beBytes 1 (rate j.lost.toNat) ++ beBytes 1 (rate (j.counts.late + j.counts.ovf)) ++ m
    ++ beBytes 2 (c.rtt / 1000) ++ beBytes 2 depth ++ beBytes 1 x.signal ++ beBytes 1 x.noise ++ beBytes 1 rerl ++ beBytes 1 16
    ++ beBytes 1 127 ++ beBytes 1 127 ++ beBytes 1 127 ++ beBytes 1 127 ++ beBytes 1 0xB0 ++ beBytes 1 0
    ++ beBytes 2 nominal ++ beBytes 2 maxMs ++ beBytes 2 400)

/-- A compound report: SR if the leg has sent RTP since its last report and RR otherwise, SDES CNAME, the
XR block when enabled, and BYE in the last report before a CLOSE (R160, R162). -/
def report (c : CodecRun) (j : Jbuf) (ssrc : Word) (name : List Byte) (xr : Option (List Byte)) (bye : Bool)
    (ntp : Stamp) (rtpNow : Word) (now : Nat) : CodecRun × Jbuf × List Byte :=
  let (j, blk) := reportBlock c j now
  let blocks := if c.learned.isSome then blk else []
  let rc := if c.learned.isSome then 1 else 0
  let head :=
    if c.sentSince then
      rtcpPacket rc 200 (beBytes 4 ssrc.toNat ++ beBytes 4 ntp.sec ++ beBytes 4 (ntp.ns * 2 ^ 32 / 1000000000)
        ++ beBytes 4 rtpNow.toNat ++ beBytes 4 c.txPackets ++ beBytes 4 c.txBytes ++ blocks)
    else rtcpPacket rc 201 (beBytes 4 ssrc.toNat ++ blocks)
  let sdes := rtcpPacket 1 202 (padWord (beBytes 4 ssrc.toNat ++ beBytes 1 1 ++ beBytes 1 name.length ++ name ++ [0]))
  let tail := if bye then rtcpPacket 1 203 (beBytes 4 ssrc.toNat) else []
  ({ c with sentSince := false }, j, head ++ sdes ++ xr.getD [] ++ tail)

/-- What a received compound packet tells (R161): each packet of it in turn. -/
structure RtcpTaken where
  rtt : Option Nat
  lsr : Option Nat
  bye : Bool
  deriving DecidableEq, Repr

/-- Round-trip time in µs from LSR and DLSR of a block that names the leg's SSRC, at an arrival whose
middle 32 NTP bits are `mid` (RFC 3550). -/
def rttOf (mid lsr dlsr : Nat) : Option Nat :=
  if lsr = 0 then none else some (((mid + 2 ^ 33 - lsr - dlsr) % 2 ^ 32) * 1000000 / 65536)

/-- Look for the leg's SSRC in the report blocks of one SR or RR. -/
def scanBlocks (own mid : Nat) : Nat → List Byte → Option Nat
  | 0, _ => none
  | k + 1, b =>
    if beAt b 0 4 = own then rttOf mid (beAt b 16 4) (beAt b 20 4) else scanBlocks own mid k (b.drop 24)

/-- Walk the packets of a compound (fuel: one step per packet). -/
def scanRtcp (own mid : Nat) (learned : Option Word) : Nat → List Byte → RtcpTaken → RtcpTaken
  | 0, _, r => r
  | k + 1, b, r =>
    if b.length < 8 then r
    else
      let len := (beAt b 2 2 + 1) * 4
      let rc := beAt b 0 1 % 32
      let pt := beAt b 1 1
      let sender := beAt b 4 4
      let r :=
        if pt = 200 then
          let m := scanBlocks own mid rc (b.drop 28)
          { r with rtt := m <|> r.rtt,
                   lsr := if learned = some (Word.of sender) then some (beAt b 10 4) else r.lsr }
        else if pt = 201 then { r with rtt := scanBlocks own mid rc (b.drop 8) <|> r.rtt }
        else if pt = 203 then { r with bye := r.bye || learned = some (Word.of sender) }
        else r
      scanRtcp own mid learned k (b.drop len) r

/-- The middle 32 bits of an NTP reading of a stamp.
PRESUMED (log entry 28). -/
def ntpMid (t : Stamp) : Nat := t.sec % 65536 * 65536 + t.ns * 65536 / 1000000000

/-- A leg's codec state at OPEN: sequence number and timestamp drawn from the random source, the drawn
timestamp standing for the frame of phase beat `f0` (R149, R151). -/
def CodecRun.fresh (d1 d2 : Word) (f0 : BeatNo) : CodecRun :=
  { seq := d1.toNat % 65536, refTs := d2, refBeat := f0, grid := f0, sentTs := d2, marker := true, frames := 0,
    packBeat := 0, speech := false, sidDue := false, learned := none, rivalSsrc := none, cmr := none, mode := 0,
    silent := false, cnLevel := 0, sidFrames := 0, rtcpDue := none, sentSince := false, txPackets := 0,
    txBytes := 0, rtt := 0, lsr := 0, lsrAt := 0, lastBeat := 0 }

/-- A codec restart: sequence number and timestamps go on, everything else starts fresh, and the first
packet carries the marker bit (R114, R151). -/
def CodecRun.restart (c : CodecRun) : CodecRun :=
  { CodecRun.fresh 0 0 0 with
    seq := c.seq, refTs := c.refTs, refBeat := c.refBeat, grid := c.grid, sentTs := c.sentTs,
    sentSince := c.sentSince, txPackets := c.txPackets, txBytes := c.txBytes, rtcpDue := c.rtcpDue }

end Sys2Proof.Machine
end

