-- ==== Sys2Proof/Machine/Tones.lean ====
section
/-! DEFINITION. Tone detection, RFC 4733 relay and generation of a channel (R195 to R211). Detectors are
state machines over 1 ms steps of what the input measures. -/

namespace Sys2Proof.Machine

/-! ## DTMF (R198, R199) -/

/-- The settings of TONE_DTMF_DET and TONE_DTMF_DET2 in effect. -/
structure DtmfCfg where
  offMs : Nat
  onMs : Nat
  rev : Nat
  fwd : Nat
  minLevel : Nat
  fdev : Nat
  bridge : Nat
  deriving DecidableEq, Repr

/-- The event code of a row and a column: digits 0 to 9, *, #, A to D as 0 to 15 (R197). -/
def dtmfCode (row col : Nat) : Nat :=
  ([[1, 2, 3, 12], [4, 5, 6, 13], [7, 8, 9, 14], [10, 0, 11, 15]].getD row []).getD col 0

/-- Whether a step is a valid DTMF step, and its event code (R198). -/
def DtmfCfg.valid (x : DtmfCfg) (m : DtmfMeas) : Option Nat :=
  let lo : Int := -1000 * (x.minLevel : Int)
  let inBand (l : Int) : Bool := lo ≤ l && l ≤ 0
  if m.rowDev ≤ 10 * x.fdev && m.colDev ≤ 10 * x.fdev && inBand m.rowLvl && inBand m.colLvl
      && m.colLvl - m.rowLvl ≤ 1000 * (x.fwd : Int) && m.rowLvl - m.colLvl ≤ 1000 * (x.rev : Int)
      && m.other ≤ min m.rowLvl m.colLvl - 10000 then some (dtmfCode m.row m.col) else none

/-- The level a report carries: whole dB below 0 dBm0 of the strongest component. -/
def levelOf (l : Int) : Nat := min 255 (-(l / 1000)).toNat

/-- The strongest level of a step. -/
def strongest (t : ToneStep) : Int :=
  let d : Int := match t.dtmf with
    | some m => max m.rowLvl m.colLvl
    | none => -99000
  (t.comps.map (·.2)).foldl max d

/-- No candidate: begin one, or let the gap after a digit pass. -/
def DtmfRun.idle (r : DtmfRun) (pos : Nat) (c : Option Nat) (lvl : Nat) : DtmfRun :=
  match c with
  | none => { r with off := r.off - 1 }
  | some k => if r.off = 0 then
      { r with cand := some { code := k, pos := pos, valid := 1, run := [], accepted := false, level := lvl } } else r

/-- One step of the DTMF class (R199). -/
def DtmfRun.step (x : DtmfCfg) (r : DtmfRun) (pos : Nat) (c : Option Nat) (lvl : Nat) : DtmfRun × List ToneReport :=
  match r.cand with
  | none => (r.idle pos c lvl, [])
  | some d =>
    if c = some d.code then
      let v := d.valid + 1
      if !d.accepted && x.onMs ≤ v then
        ({ r with cand := some { d with valid := v, run := [], accepted := true, level := lvl } },
         [{ cls := 0, code := d.code, isEnd := false, pos := d.pos, level := lvl }])
      else ({ r with cand := some { d with valid := v, run := [], level := lvl } }, [])
    else
      let run := d.run ++ [(pos, c)]
      if run.length ≤ x.bridge then ({ r with cand := some { d with run := run } }, [])
      else
        let start : DtmfRun := { cand := none, off := if d.accepted then x.offMs else 0 }
        let r' := run.foldl (fun (q : DtmfRun) st =>
          match q.cand with
          | none => q.idle st.1 st.2 lvl
          | some e => if st.2 = some e.code then { q with cand := some { e with valid := e.valid + 1, run := [] } }
                      else { q with cand := some { e with run := e.run ++ [st] } }) start
        let stop := (run.head?.map (·.1)).getD pos
        (r', if d.accepted then [{ cls := 0, code := d.code, isEnd := true, pos := stop, level := d.level }] else [])

/-! ## Descriptors (R200, R201) -/

/-- One descriptor as its registers hold it. -/
structure Desc where
  f1 : Nat
  f2 : Nat
  minLevel : Nat
  twist : Nat
  l1 : Nat
  l2 : Nat
  on1 : Nat
  off1 : Nat
  on2 : Nat
  off2 : Nat
  rep : Nat
  cycles : Nat
  ftol : Nat
  cadTol : Nat
  gen : Bool
  det : Bool
  deriving DecidableEq, Repr

/-- A descriptor from its five register words (R212). -/
def Desc.ofWords (freq level cad1 cad2 ctrl : Word) : Desc :=
  { f1 := bitsOf freq 11 0, f2 := bitsOf freq 27 16, minLevel := bitsOf level 31 24, twist := bitsOf level 19 16,
    l1 := bitsOf level 7 0, l2 := bitsOf level 15 8, on1 := bitsOf cad1 15 0, off1 := bitsOf cad1 31 16,
    on2 := bitsOf cad2 15 0, off2 := bitsOf cad2 31 16, rep := bitsOf ctrl 31 28, cycles := bitsOf ctrl 27 24,
    ftol := bitsOf ctrl 23 16, cadTol := bitsOf ctrl 15 8, gen := bitsOf ctrl 1 1 = 1, det := bitsOf ctrl 0 0 = 1 }

/-- The checks of a whole descriptor at apply (R200). -/
def Desc.ok (d : Desc) : Bool :=
  (!d.det || (d.f1 != 0 && d.on1 != 0 && d.minLevel != 0 && d.ftol != 0 && d.cycles != 0))
    && (!d.gen || (d.f1 != 0 && d.on1 != 0 && d.l1 != 0 && (d.f2 = 0 || d.l2 != 0)))

/-- The strongest component within FTOL of a frequency in Hz. -/
def compAt (comps : List (Nat × Int)) (f ftol : Nat) : Option Int :=
  (comps.filter (fun c => 10 * f ≤ c.1 + 10 * ftol && c.1 ≤ 10 * f + 10 * ftol)).foldl
    (fun acc c => match acc with
      | none => some c.2
      | some l => some (max l c.2)) none

/-- Presence of a descriptor in a step that is no valid DTMF step (R201). -/
def Desc.present (d : Desc) (comps : List (Nat × Int)) : Bool :=
  let lo : Int := -1000 * (d.minLevel : Int)
  match compAt comps d.f1 d.ftol with
  | none => false
  | some a =>
    if d.f2 = 0 then lo ≤ a
    else match compAt comps d.f2 d.ftol with
      | none => false
      | some b => lo ≤ a && lo ≤ b && (a - b).natAbs ≤ 1000 * d.twist

/-- The length of a segment of the cadence; segments 0 and 2 sound. -/
def Desc.segLen (d : Desc) (k : Nat) : Nat := [d.on1, d.off1, d.on2, d.off2].getD k 0

/-- Segments of a cycle: ON1 and OFF1 alone while ON2 is 0. -/
def Desc.segs (d : Desc) : Nat := if d.on2 = 0 then 2 else 4

/-- The allowed deviation of a segment: the larger of CAD_TOL % and 20 ms. -/
def Desc.tol (d : Desc) (k : Nat) : Nat := max (d.segLen k * d.cadTol / 100) 20

/-- No match in progress. -/
def DescRun.fresh : DescRun :=
  { on := false, len := 0, segPos := 0, seg := 0, cycles := 0, startPos := 0, active := false, reported := false }

/-- What a step of a descriptor finds. -/
inductive DescStep where
  | none
  | onset (pos : Nat)
  | ended (pos : Nat)
  deriving DecidableEq, Repr

/-- One step of a continuous descriptor (OFF1 = 0): onset after ON1 ms of unbroken presence, end at the
first absence longer than 50 ms. -/
def DescRun.continuous (d : Desc) (r : DescRun) (pos : Nat) (p : Bool) : DescRun × DescStep :=
  if !r.active then
    if p then
      let n := r.len + 1
      let start := if r.len = 0 then pos else r.startPos
      if d.on1 ≤ n then ({ r with on := true, active := true, len := n, startPos := start, seg := 0 }, .onset start)
      else ({ r with on := true, len := n, startPos := start }, .none)
    else (DescRun.fresh, .none)
  else if p then ({ r with on := true, len := 0 }, .none)
  else
    let first := if r.on then pos else r.segPos
    let n := if r.on then 1 else r.len + 1
    if 50 < n then (DescRun.fresh, .ended first) else ({ r with on := false, len := n, segPos := first }, .none)

/-- The match is lost at the segment that begins at `first`: start again, with a sounding segment as a
new first one. -/
def DescRun.lose (r : DescRun) (first pos : Nat) (p : Bool) : DescRun × DescStep :=
  ({ DescRun.fresh with on := p, len := if p then 1 else 0, segPos := pos, startPos := pos },
   if r.active then .ended first else .none)

/-- One step of a cadenced descriptor. -/
def DescRun.cadenced (d : Desc) (r : DescRun) (pos : Nat) (p : Bool) : DescRun × DescStep :=
  if r.len = 0 then (if p then { DescRun.fresh with on := true, len := 1, segPos := pos, startPos := pos } else r, .none)
  else if p = r.on then
    if d.segLen r.seg + d.tol r.seg < r.len + 1 then
      (if r.active then { DescRun.fresh with on := false, len := 0 } else { DescRun.fresh with on := false, len := 0 },
       if r.active then .ended r.segPos else .none)
    else ({ r with len := r.len + 1 }, .none)
  else if r.len + d.tol r.seg < d.segLen r.seg then r.lose r.segPos pos p
  else
    let k := r.seg + 1
    if k < d.segs then ({ r with on := p, len := 1, segPos := pos, seg := k }, .none)
    else
      let c := r.cycles + 1
      let r' := { r with on := p, len := 1, segPos := pos, seg := 0, cycles := min c 15 }
      if d.cycles ≤ c && !r.active then ({ r' with active := true }, .onset r.startPos) else (r', .none)

/-- One step of a descriptor. -/
def DescRun.step (d : Desc) (r : DescRun) (pos : Nat) (p : Bool) : DescRun × DescStep :=
  if d.off1 = 0 then r.continuous d pos p else r.cadenced d pos p

/-- One step of the descriptor class: only the lowest-numbered of the descriptors that match the same
steps is reported (R201). -/
def descClass (ds : List Desc) (rs : Assoc DescRun) (pos : Nat) (valid : Bool) (comps : List (Nat × Int)) (lvl : Nat) :
    Assoc DescRun × List ToneReport :=
  go ds 0 rs false []
where
  go : List Desc → Nat → Assoc DescRun → Bool → List ToneReport → Assoc DescRun × List ToneReport
    | [], _, rs, _, reps => (rs, reps)
    | d :: rest, i, rs, lower, reps =>
      if !d.det then go rest (i + 1) (rs.erase i) lower reps
      else
        let r := (rs.find? i).getD DescRun.fresh
        let (r', st) := r.step d pos (!valid && d.present comps)
        let (r', reps) : DescRun × List ToneReport := match st with
          | .none => (r', reps)
          | .onset p => if lower then (r', reps)
              else ({ r' with reported := true }, reps ++ [{ cls := 1, code := i, isEnd := false, pos := p, level := lvl }])
          | .ended p => (r', if r.reported then reps ++ [{ cls := 1, code := i, isEnd := true, pos := p, level := lvl }] else reps)
        go rest (i + 1) (if r' = DescRun.fresh then rs.erase i else rs.insert i r') (lower || r'.active) reps

/-! ## Fax and modem tones (R202) -/

/-- A fax tone at rest. -/
def FaxTone.fresh : FaxTone :=
  { present := 0, absent := 0, absPos := 0, firstPos := 0, am := 0, rev := false, flags := 0, code := none }

/-- Presence and absence of a tone's condition: the tone ends after 50 ms of absence. Answers whether it
ends and where. -/
def FaxTone.track (f : FaxTone) (pos : Nat) (p : Bool) : FaxTone × Option Nat :=
  if p then ({ f with present := f.present + 1, absent := 0, firstPos := if f.present = 0 then pos else f.firstPos }, none)
  else
    let n := f.absent + 1
    let first := if f.absent = 0 then pos else f.absPos
    if f.code.isNone then (FaxTone.fresh, none)
    else if 50 ≤ n then (FaxTone.fresh, some first)
    else ({ f with absent := n, absPos := first, am := 0 }, none)

/-- A report of the fax class. -/
def faxReport (code : Nat) (isEnd : Bool) (pos lvl : Nat) : ToneReport :=
  { cls := 2, code := code, isEnd := isEnd, pos := pos, level := lvl }

/-- The end report of a tone that ended, with the last code reported. -/
def faxEnd (old : FaxTone) (e : Option Nat) (lvl : Nat) : List ToneReport :=
  match old.code, e with
  | some c, some p => [faxReport c true p lvl]
  | _, _ => []

/-- CNG: 1,100 Hz for 400 ms. -/
def FaxTone.cngStep (f : FaxTone) (t : ToneStep) (pos lvl : Nat) : FaxTone × List ToneReport :=
  let p := t.comps.any (fun c => 10620 ≤ c.1 && c.1 ≤ 11380 && -43000 ≤ c.2)
  let (g, e) := f.track pos p
  if g.code.isNone && 400 ≤ g.present then ({ g with code := some 0 }, [faxReport 0 false g.firstPos lvl])
  else (g, faxEnd f e lvl)

/-- The code of the 2,100 Hz tone: reversals add 1 to ANS (1) and ANSAM (3). -/
def ansCode (rev am : Bool) : Nat := if am then (if rev then 4 else 3) else if rev then 2 else 1

/-- ANS and its upgrades: 2,100 Hz for 300 ms, phase reversals, 300 ms of modulation. -/
def FaxTone.ansStep (f : FaxTone) (t : ToneStep) (pos lvl : Nat) : FaxTone × List ToneReport :=
  let p := t.comps.any (fun c => 20790 ≤ c.1 && c.1 ≤ 21210 && -31000 ≤ c.2)
  let (g, e) := f.track pos p
  let g := if p then { g with am := if t.am then g.am + 1 else (if 300 ≤ g.am then g.am else 0), rev := g.rev || t.reversal } else g
  match g.code with
  | none =>
    if 300 ≤ g.present then
      let c := ansCode g.rev (300 ≤ g.am)
      ({ g with code := some c },
       faxReport 1 false g.firstPos lvl :: (if c = 1 then [] else [faxReport c false pos lvl]))
    else (g, faxEnd f e lvl)
  | some old =>
    let c := ansCode g.rev (300 ≤ g.am)
    if old < c then ({ g with code := some c }, [faxReport c false pos lvl]) else (g, faxEnd f e lvl)

/-- V.21 channel 2: the third HDLC flag in a row. -/
def FaxTone.v21Step (f : FaxTone) (t : ToneStep) (pos lvl : Nat) : FaxTone × List ToneReport :=
  let (g, e) := f.track pos t.v21
  let g := if t.v21 then { g with flags := g.flags + b2n t.hdlcFlag } else { g with flags := 0 }
  if g.code.isNone && 3 ≤ g.flags then ({ g with code := some 5 }, [faxReport 5 false pos lvl])
  else (g, faxEnd f e lvl)

/-! ## All classes of a leg (R195, R196, R203, R204) -/

/-- Detectors at rest. -/
def DetRun.fresh : DetRun :=
  { dtmf := { cand := none, off := 0 }, descs := [], cng := FaxTone.fresh, ans := FaxTone.fresh, v21 := FaxTone.fresh,
    taldy := false, taldyLow := 0 }

/-- What detection needs of settings and channel: classes enabled, settings, descriptors, whether the leg
has a Taldy link session, and whether the companded bypass is in force. -/
structure DetCtx where
  classes : Nat
  dtmf : DtmfCfg
  descs : List Desc
  session : Bool
  vbd : Bool
  deriving DecidableEq, Repr

/-- The Taldy link class (R204). -/
def DetRun.taldyStep (r : DetRun) (t : ToneStep) (pos lvl : Nat) : DetRun × List ToneReport :=
  if r.taldy then
    let n := if t.below50 then r.taldyLow + 1 else 0
    if 30 ≤ n then
      ({ r with taldy := false, taldyLow := 0 }, [{ cls := 3, code := 0, isEnd := true, pos := pos, level := lvl }])
    else ({ r with taldyLow := n }, [])
  else if t.taldy then
    ({ r with taldy := true, taldyLow := 0 }, [{ cls := 3, code := 0, isEnd := false, pos := pos, level := lvl }])
  else (r, [])

/-- One step of a leg's detectors; `hush` suspends the DTMF and descriptor classes under R420. -/
def DetRun.step (x : DetCtx) (hush : Bool) (r : DetRun) (pos : Nat) (t : ToneStep) : DetRun × List ToneReport :=
  let lvl := levelOf (strongest t)
  let code := match t.dtmf with
    | some m => x.dtmf.valid m
    | none => none
  let (r, a) := if bit x.classes 3 && !x.session && !x.vbd then r.taldyStep t pos lvl else ({ r with taldy := false, taldyLow := 0 }, [])
  let (r, b) := if bit x.classes 0 && !x.vbd && !r.taldy && !hush then
      let (d, reps) := r.dtmf.step x.dtmf pos code lvl
      ({ r with dtmf := d }, reps)
    else ({ r with dtmf := { cand := none, off := 0 } }, [])
  let (r, c) := if bit x.classes 1 && !x.vbd && !r.taldy && !hush then
      let (d, reps) := descClass x.descs r.descs pos code.isSome t.comps lvl
      ({ r with descs := d }, reps)
    else ({ r with descs := [] }, [])
  let (r, d) := if bit x.classes 2 then
      let (f1, e1) := r.cng.cngStep t pos lvl
      let (f2, e2) := r.ans.ansStep t pos lvl
      let (f3, e3) := r.v21.v21Step t pos lvl
      ({ r with cng := f1, ans := f2, v21 := f3 }, e1 ++ e2 ++ e3)
    else ({ r with cng := FaxTone.fresh, ans := FaxTone.fresh, v21 := FaxTone.fresh }, [])
  (r, a ++ b ++ c ++ d)

/-- A step of absent signal (R196). -/
def absentStep : ToneStep :=
  { dtmf := none, comps := [], reversal := false, am := false, v21 := false, hdlcFlag := false, taldy := false,
    below50 := true, below36 := true }

/-- The audio toward a relay leg is muted: from a candidate's first step until the digit ends or fails (R206). -/
def DetRun.muting (r : DetRun) : Bool := r.dtmf.cand.isSome

/-- Detectors over a list of steps, each with its suspension: reports, and for each step whether a digit mutes it. -/
def DetRun.steps (x : DetCtx) : List (ToneStep × Bool) → Nat → DetRun → DetRun × List ToneReport × List Bool
  | [], _, r => (r, [], [])
  | t :: ts, pos, r =>
    let (r', a) := r.step x t.2 pos t.1
    let (r'', b, ms) := DetRun.steps x ts (pos + 1) r'
    (r'', a ++ b, r'.muting :: ms)

/-- A job's detection: five absent steps for each skipped beat since the channel's last commit, then the beat's five steps,
of which `hush` says where they are suspended. The answer's flags are those of the beat's own steps.
DEDUCED (log entry 46). -/
def DetRun.job (x : DetCtx) (r : DetRun) (beat : BeatNo) (skipped : Nat) (hush : List Bool) (ts : List ToneStep) :
    DetRun × List ToneReport × List Bool :=
  let n := min skipped 20000
  let (r, a, _) := DetRun.steps x (List.replicate (5 * n) (absentStep, false)) (5 * beat.toNat - 5 * n) r
  let own := (List.range 5).map fun i => (ts.getD i absentStep, hush.getD i false)
  let (r, b, ms) := DetRun.steps x own (5 * beat.toNat) r
  (r, a ++ b, ms)

/-- A tone is in progress on the leg by the detectors' word (R189). -/
def DetRun.busy (r : DetRun) : Bool :=
  (match r.dtmf.cand with
    | some c => c.accepted
    | none => false) || r.descs.any (fun d => d.2.reported) || r.cng.code.isSome || r.ans.code.isSome || r.v21.code.isSome || r.taldy

/-! ## Sending events (R206) -/

/-- Timestamp of the first sample at a position (beat × 5 + ms) in a leg's clock: the frame of phase beat f
starts with the input of beat f − 3. -/
def CodecRun.posTs (c : CodecRun) (codec pos : Nat) : Word :=
  c.frameTs codec (BitVec.ofNat 32 (pos / 5 + 3)) + BitVec.ofNat 32 (pos % 5 * codecKhz codec)

/-- An RFC 4733 event payload. -/
def eventBytes (code volume dur : Nat) (e : Bool) : List Byte :=
  leBytes 1 code ++ leBytes 1 (128 * b2n e + volume) ++ beBytes 2 dur

/-- One event packet, with the next sequence number. -/
def eventPacket (c : CodecRun) (pt : Nat) (ssrc : Word) (marker : Bool) (ts : Word) (payload : List Byte) : CodecRun × List Byte :=
  ({ c with seq := (c.seq + 1) % 65536, sentSince := true, txPackets := c.txPackets + 1, txBytes := c.txBytes + 4 },
   rtpBytes marker pt c.seq ts ssrc payload)

/-- The packets of a digit at a phase beat: the closing packet and the first of a new segment when the
duration outgrows 16 bits, then the packet of this beat (R206). -/
def RelayTx.packets (r : RelayTx) (c : CodecRun) (codec pt : Nat) (ssrc : Word) (f : BeatNo) : RelayTx × CodecRun × List (List Byte) :=
  let here := 5 * f.toNat + 5
  let endPos := min here (r.stop.getD here)
  let total := (endPos - r.pos) * codecKhz codec
  let dur := total - (r.ts - c.posTs codec r.pos).toNat
  let (r, c, first) : RelayTx × CodecRun × List (List Byte) :=
    if 65535 < dur then
      let (c, b) := eventPacket c pt ssrc false r.ts (eventBytes r.code r.volume 65535 false)
      ({ r with ts := r.ts + 65535 }, c, [b])
    else (r, c, [])
  let dur := if first.isEmpty then dur else dur - 65535
  let last := match r.stop with
    | some p => p ≤ here
    | none => false
  let (c, b) := eventPacket c pt ssrc (r.sent = 0) r.ts (eventBytes r.code r.volume (min dur 65535) last)
  ({ r with sent := r.sent + 1, copies := if last then 2 else 0, lastDur := min dur 65535 }, c, first ++ [b])

/-- What a leg sends of its digits at a phase beat: due end copies first, then the packet of the digit in
progress. Answers whether a packet other than an end copy was sent.
DEDUCED (log entry 47). -/
def relaySend (rs : List RelayTx) (c : CodecRun) (codec pt : Nat) (ssrc : Word) (f : BeatNo) :
    List RelayTx × CodecRun × List (List Byte) × Bool :=
  match rs with
  | [] => ([], c, [], false)
  | r :: rest =>
    if 0 < r.copies then
      let (c, b) := eventPacket c pt ssrc false r.ts (eventBytes r.code r.volume r.lastDur true)
      let r' := { r with copies := r.copies - 1 }
      let (rest', c, bs, live) := relaySend rest c codec pt ssrc f
      (if r'.copies = 0 then rest' else r' :: rest', c, b :: bs, live)
    else if 5 * f.toNat + 5 ≤ r.pos then (r :: rest, c, [], false)
    else
      let (r', c, bs) := r.packets c codec pt ssrc f
      (r' :: rest, c, bs, true)

/-! ## Receiving events (R207) -/

/-- The relay receiver of a leg at rest. -/
def RelayRx.fresh : RelayRx := { evs := [], silence := 1000000, past := [], timedOut := false }

/-- A decided event packet reaches the receiver: it extends the event with its timestamp, is discarded for
one that has ended, or is a new event that starts `off` units into the block. -/
def RelayRx.take (r : RelayRx) (e : JEntry) (off : Nat) : RelayRx :=
  let code := beAt e.payload 0 1
  let b := beAt e.payload 1 1
  let dur := beAt e.payload 2 2
  let fin := 128 ≤ b
  if r.past.contains e.ts then r
  else if r.evs.any (fun v => v.ts = e.ts) then
    { r with evs := r.evs.map (fun v => if v.ts = e.ts then { v with units := max v.units dur, ended := v.ended || fin } else v) }
  else
    { r with evs := r.evs ++ [{ code := code, volume := max 3 (min 40 (b % 64)), ts := e.ts, units := dur, ended := fin,
                                wait := off, played := 0 }] }

/-- The first event ends `after` units before the end of the block. -/
def RelayRx.finish (r : RelayRx) (after : Nat) : RelayRx :=
  match r.evs with
  | [] => r
  | v :: rest => { evs := rest, silence := after, past := (v.ts :: r.past).take 16, timedOut := false }

/-- One beat of `u` units at `khz`: the first event plays once its wait and 40 ms of silence are over. It
answers whether an event started. -/
def RelayRx.beat (r : RelayRx) (u khz : Nat) : RelayRx × Bool :=
  match r.evs with
  | [] => ({ r with silence := min 1000000 (r.silence + u) }, false)
  | v :: rest =>
    let wait := if v.played = 0 then max v.wait (40 * khz - r.silence) else 0
    if u ≤ wait then ({ r with evs := { v with wait := v.wait - u } :: rest, silence := min 1000000 (r.silence + u) }, false)
    else
      let n := v.played + (u - wait)
      let goal := if v.ended then max v.units (40 * khz) else v.units + 60 * khz
      let r' := { r with evs := { v with wait := 0, played := n } :: rest }
      if n < goal then (r', v.played = 0)
      else if v.ended then (r'.finish (n - goal), v.played = 0)
      else ({ r' with timedOut := true }, v.played = 0)

/-! ## Generation (R208 to R211) -/

/-- Length in ms of a descriptor's cycle. -/
def Desc.cycleMs (d : Desc) : Nat := if d.off1 = 0 then 0 else d.on1 + d.off1 + (if d.on2 = 0 then 0 else d.on2 + d.off2)

/-- Whether playing a descriptor has ended after `ms` (R200, R209); a continuous tone and REPEAT = 0 never
end. -/
def Desc.isOver (d : Desc) (ms : Nat) : Bool := d.rep != 0 && d.off1 != 0 && d.cycleMs * d.rep ≤ ms

/-- Whether a host tone has played to its end after `ms`. -/
def GenReq.isOver (ds : List Desc) (onMs offMs : Nat) (ms : Nat) : GenReq → Bool
  | .dtmf digits => digits.length * (onMs + offMs) ≤ ms
  | .desc d => match ds[d]? with
      | some x => x.isOver ms
      | none => true
  | .stop => true

/-- A request reaches a leg: it stops the tone that is playing. Answers whether one was replaced. -/
def GenRun.start (g : GenRun) (q : Option GenReq) : GenRun × Bool :=
  match q with
  | none => (g, false)
  | some .stop => ({ playing := none, ms := 0 }, g.playing.isSome)
  | some r => ({ playing := some r, ms := 0 }, g.playing.isSome)

/-- One beat of generation: answers whether the tone played to its end. -/
def GenRun.beat (g : GenRun) (ds : List Desc) (onMs offMs : Nat) : GenRun × Bool :=
  match g.playing with
  | none => (g, false)
  | some r =>
    let ms := g.ms + 5
    if r.isOver ds onMs offMs ms then ({ playing := none, ms := 0 }, true) else ({ g with ms := ms }, false)

/-- The digits of a DTMF request as events toward a relay leg, digit i from `pos` + i (ON + OFF) ms. -/
def genEvents (codec volume onMs offMs : Nat) (c : CodecRun) : List Nat → Nat → List RelayTx
  | [], _ => []
  | d :: ds, pos =>
    { code := d, volume := min volume 63, ts := c.posTs codec pos, pos := pos, stop := some (pos + onMs), sent := 0, copies := 0,
      lastDur := 0 } :: genEvents codec volume onMs offMs c ds (pos + onMs + offMs)

/-- A source leg at its open. -/
def SrcRun.fresh (clip : Option (Nat × Nat × Nat)) : SrcRun := { ms := 0, ended := false, lastDesc := [], clip := clip }

/-- One beat of a descriptor source leg: a descriptor change restarts the cadence, and one that clears GEN
silences it from then on (R209). -/
def SrcRun.descBeat (r : SrcRun) (words : List Word) (d : Desc) : SrcRun :=
  let changed := r.lastDesc != words
  let r := if changed then { r with ms := 0, ended := (!r.lastDesc.isEmpty && !d.gen), lastDesc := words } else r
  if r.ended then r
  else { r with ms := r.ms + 5, ended := d.isOver (r.ms + 5) }

/-- One beat of an announcement source leg of `perBeat` samples; a repeat count of 0 has no end (R210). -/
def SrcRun.clipBeat (r : SrcRun) (khz : Nat) : SrcRun :=
  match r.clip with
  | none => { r with ended := true }
  | some (len, rep, gapMs) =>
    let n := r.ms + 5 * khz
    { r with ms := n, ended := r.ended || (rep != 0 && rep * len + (rep - 1) * gapMs * khz ≤ n) }

end Sys2Proof.Machine
end

