-- ==== Sys2Proof/Machine/ChanOps.lean ====
section
/-! DEFINITION. Channels: rates, costs and loads of a configuration, access to channels and legs, and what a
fresh channel and a fresh leg are (R97 to R102, R66 to R69, R114). -/

namespace Sys2Proof.Machine

/-! ## Rates (R99) -/

/-- The audio rate of a packet codec in kHz. -/
def codecRate (codec : Nat) : Nat :=
  match codec with
  | 2 => 16 | 6 => 16 | 7 => 16 | 8 => 32 | 9 => 16 | 10 => 48 | _ => 8

/-- A leg's own rate; none for a source leg, which takes the other leg's. -/
def LegCfg.ownRate : LegCfg → Option Nat
  | .packet codec _ _ _ _ _ _ _ _ _ _ _ => some (codecRate codec)
  | .pcm _ _ _ => some 8
  | .source _ _ => none

/-- The rate of a leg in kHz, given the other leg. -/
def legKhz (x other : LegCfg) : Nat := (x.ownRate <|> other.ownRate).getD 8

/-- The leg on a side. -/
def ChanCfg.leg (c : ChanCfg) (b : Bool) : LegCfg := if b then c.legB else c.legA

/-- The rate of the leg on a side. -/
def ChanCfg.khz (c : ChanCfg) (b : Bool) : Nat := legKhz (c.leg b) (c.leg !b)

/-- The internal rate: the higher of the two. -/
def ChanCfg.intKhz (c : ChanCfg) : Nat := max (c.khz false) (c.khz true)


/-- KIND of a leg (R98). -/
def LegCfg.kind : LegCfg → Nat
  | .packet _ _ _ _ _ _ _ _ _ _ _ _ => 0
  | .pcm _ _ _ => 1
  | .source _ _ => 2

/-- The codec of a packet leg. -/
def LegCfg.codec? : LegCfg → Option Nat
  | .packet codec _ _ _ _ _ _ _ _ _ _ _ => some codec
  | _ => none

/-- CODEC_OPT of a packet leg. -/
def LegCfg.opt : LegCfg → Nat
  | .packet _ _ _ _ _ _ _ _ _ _ _ opt => opt
  | _ => 0

/-- Codec 0x0B. -/
def LegCfg.isFax (x : LegCfg) : Bool := x.codec? = some 11

/-- G.711 under R101: packet codec 0x00 or 0x01, or a PCM leg in A-law or µ-law. -/
def LegCfg.isG711 : LegCfg → Bool
  | .packet codec _ _ _ _ _ _ _ _ _ _ _ => codec ≤ 1
  | .pcm format _ _ => format ≤ 1
  | .source _ _ => false

/-- A-law, among G.711 legs. -/
def LegCfg.aLaw : LegCfg → Bool
  | .packet codec _ _ _ _ _ _ _ _ _ _ _ => codec = 0
  | .pcm format _ _ => format = 0
  | .source _ _ => false

/-- A leg that has a DC blocker and conversion directions (R214). -/
def LegCfg.hasRate (x : LegCfg) : Bool := x.kind != 2 && !x.isFax

/-- The timeslots a PCM leg holds, as (highway, slot). -/
def LegCfg.slots : LegCfg → List (Nat × Nat)
  | .pcm format h t => if format = 2 then [(h, t), (h, t + 1)] else [(h, t)]
  | _ => []

/-- Detection on a side. -/
def ChanCfg.det (c : ChanCfg) (b : Bool) : Bool := if b then c.detB else c.detA

/-- RELAY on a side. -/
def ChanCfg.relay (c : ChanCfg) (b : Bool) : Bool := (if b then c.relayB else c.relayA) && (c.leg b).kind = 0

/-- Both legs G.711. -/
def ChanCfg.bothG711 (c : ChanCfg) : Bool := c.legA.isG711 && c.legB.isG711

/-- VBD_FORCE on either leg (R146). -/
def ChanCfg.vbdForce (c : ChanCfg) : Bool := bit c.legA.opt 27 || bit c.legB.opt 27

/-- The side a canceller faces. -/
def EcSide.side? : EcSide → Option Bool
  | .off => none
  | .legA => some false
  | .legB => some true

/-- SIDE of a session, and whether it sits on this side. -/
def ChanCfg.sessOn (c : ChanCfg) (k : SessKind) (b : Bool) : Bool := c.sess = k && c.sessSideB = b

/-! ## Costs (R101, R102, R67, R247) -/

/-- Every-beat cycles of a leg alone: base, companding or waveform codec. -/
def LegCfg.every (x : LegCfg) : Nat :=
  2200 + (if x.isG711 then 600 else 0) + (if x.codec? = some 3 then 3600 else 0) + (if x.codec? = some 2 then 5000 else 0)

/-- Encode plus decode cycles of a frame codec. -/
def frameCycles (codec : Nat) : Nat :=
  match codec with
  | 4 => 9000 | 5 => 22000 | 6 => 34000 | 7 => 64000 | 8 => 64000 | 9 => 37000 | 10 => 37000 | _ => 0

/-- Frame work of a leg in the phase beat. -/
def LegCfg.frame (x : LegCfg) : Nat := 4 * ((x.codec?.map frameCycles).getD 0)

/-- Rate conversion cycles of a side. -/
def ChanCfg.convert (c : ChanCfg) (b : Bool) : Bool := (c.leg b).hasRate && c.khz b != c.intKhz

/-- Every-beat work before R102. -/
def ChanCfg.everyOnce (c : ChanCfg) : Nat :=
  c.legA.every + c.legB.every + (if c.bothG711 then 300 else 0)
    + (if c.ec = .off then 0 else if c.intKhz = 8 then 5800 else 11000)
    + 1400 * (b2n c.detA + b2n c.detB) + 1200 * (b2n (c.convert false) + b2n (c.convert true))
    + match c.sess with
      | .none => 0
      | .taldy => 9000
      | .fax => 14000

/-- COST_EVERY: every-beat work admitted. -/
def ChanCfg.costEvery (c : ChanCfg) : Nat := c.everyOnce * (if c.paired then 2 else 1)

/-- COST_FRAME: frame work in the phase beat. -/
def ChanCfg.costFrame (c : ChanCfg) : Nat := (c.legA.frame + c.legB.frame) * (if c.paired then 2 else 1)

/-- Phase beats (R66). -/
def isPhase (phase : Nat) (n : BeatNo) : Bool := (n.toNat + 4 - phase) % 4 = 0

/-! ## Fresh state (R114, R138, R221, R226) -/

/-- Detection, relay, generation and source state at rest. -/
def LegRun.fresh (codec : CodecRun) (rate : RateRun) (src : SrcRun) (jbMax : Nat) : LegRun :=
  { inbox := [], pktOut := 0, pktIn := 0, jb := Jbuf.fresh jbMax, codec := codec, rate := rate, det := DetRun.fresh,
    relayTx := [], relayRx := RelayRx.fresh, gen := { playing := none, ms := 0 }, src := src }

/-- JB_MAX of a leg. -/
def LegCfg.jbMax : LegCfg → Nat
  | .packet _ _ _ _ _ _ _ _ _ jb _ _ => jb
  | _ => 0

/-- A leg that restarts at the boundary of tick `at0` (R114, R187, R225): the packets stamped before it leave the
inbox; packet counts of the channel record go on, as do tone detection, host generation and events being sent. -/
def LegRun.restart (x : LegRun) (leg : LegCfg) (khz int : Nat) (src : SrcRun) (at0 : Nat) : LegRun :=
  { x with inbox := x.inbox.filter fun p => at0 ≤ p.stamp, src := src, jb := Jbuf.fresh leg.jbMax,
           codec := x.codec.restart, rate := RateRun.fresh khz int, relayRx := RelayRx.fresh }

/-- The leg's running state on a side. -/
def Chan.leg (c : Chan) (b : Bool) : LegRun := if b then c.legB else c.legA

/-- Replace a leg's running state. -/
def Chan.setLeg (c : Chan) (b : Bool) (x : LegRun) : Chan := if b then { c with legB := x } else { c with legA := x }

/-- Change a leg's running state. -/
def Chan.modLeg (c : Chan) (b : Bool) (f : LegRun → LegRun) : Chan := c.setLeg b (f (c.leg b))

namespace State

/-! ## Access -/

/-- An open channel by its number. -/
def chan (s : State) (num : Nat) : Option Chan := s.chans.find? num

/-- A life of a channel, open or closing, by its id. -/
def life (s : State) (uid : Nat) : Option Chan :=
  match List.find? (fun (p : Nat × Chan) => p.2.uid = uid) s.chans with
  | some p => some p.2
  | none => s.closing.find? fun c => c.uid = uid

/-- Change one life of a channel. -/
def modLife (s : State) (uid : Nat) (f : Chan → Chan) : State :=
  { s with chans := s.chans.map (fun p => if p.2.uid = uid then (p.1, f p.2) else p),
           closing := s.closing.map fun c => if c.uid = uid then f c else c }

/-- The open channels. -/
def openChans (s : State) : List Chan := s.chans.map fun p => p.2

/-- An action enters a channel for its next beat's job (R137).
DEDUCED (log entry 24). -/
def addCtl (s : State) (num : Nat) (x : ChanCtl) : State :=
  match s.chan num with
  | some c => s.modLife c.uid fun c => { c with ctls := c.ctls ++ [(s.clk.n + 1, x)] }
  | none => s

/-! ## Loads (R68, R69, R248) -/

/-- Peak beat load of a set of channels: every-beat work plus the largest frame-work sum. -/
def peakOf (cs : List Chan) : Nat :=
  let every := (cs.map fun (c : Chan) => c.costEvery).foldl (· + ·) 0
  let phase (p : Nat) : Nat := ((cs.filter fun (c : Chan) => c.phase = p).map fun (c : Chan) => c.costFrame).foldl (· + ·) 0
  every + max (max (phase 0) (phase 1)) (max (phase 2) (phase 3))

/-- BEAT_PHASE_LOADp. -/
def phaseLoad (s : State) (p : Nat) : Nat := s.get (Reg.BEAT_PHASE_LOAD p) Fd.BEAT_PHASE_LOAD.CYCLES

/-- BEAT_EVERY_LOAD. -/
def everyLoad (s : State) : Nat := s.get Reg.BEAT_EVERY_LOAD Fd.BEAT_EVERY_LOAD.CYCLES

/-- The largest of the four phase loads, with `add` more in phase `p` and `sub` less. -/
def maxPhase (s : State) (p add sub : Nat) : Nat :=
  ((List.range 4).map fun q => s.phaseLoad q + (if q = p then add else 0) - (if q = p then sub else 0)).foldl max 0

/-- The peak beat load now (R69). -/
def peakLoad (s : State) : Nat := s.everyLoad + s.maxPhase 0 0 0

/-- The phase whose frame-work sum is smallest, the lowest on a tie (R68). -/
def freePhase (s : State) : Nat :=
  let least := ((List.range 4).map s.phaseLoad).foldl min (s.phaseLoad 0)
  ((List.range 4).find? fun p => s.phaseLoad p = least).getD 0

/-- CLU_HOME_LOAD of a cluster (R248). -/
def homeLoad (s : State) (k : Nat) : Nat := peakOf (s.openChans.filter fun c => c.home = k)

/-- Loads after a change of costs in a phase. -/
def addLoad (s : State) (p : Nat) (every frame : Nat) : State :=
  let s := s.put Reg.BEAT_EVERY_LOAD Fd.BEAT_EVERY_LOAD.CYCLES (s.everyLoad + every)
  s.put (Reg.BEAT_PHASE_LOAD p) Fd.BEAT_PHASE_LOAD.CYCLES (s.phaseLoad p + frame)

/-- Loads without a channel's costs. -/
def subLoad (s : State) (p : Nat) (every frame : Nat) : State :=
  let s := s.put Reg.BEAT_EVERY_LOAD Fd.BEAT_EVERY_LOAD.CYCLES (s.everyLoad - every)
  s.put (Reg.BEAT_PHASE_LOAD p) Fd.BEAT_PHASE_LOAD.CYCLES (s.phaseLoad p - frame)

end State

end Sys2Proof.Machine
end

