-- ==== Sys2Proof/Machine/ChanCmd.lean ====
section
/-! DEFINITION. Channel commands: their bytes and the checks at staging (R108 to R113, R121, R147, R148, R580). -/

namespace Sys2Proof.Machine

/-- Whether CODEC_OPT is a value of R146 and R147 under R148: reserved bits clear and fields within their encodings;
`pt` is the leg's payload type. -/
def optOk (codec pt opt : Nat) : Bool :=
  let cbits := opt % 2 ^ 24
  let cn := cbits / 256 % 128
  let mux := bit opt 25
  let muxBad (x : Nat) : Bool := mux && 64 ≤ x && x ≤ 95
  let rate := cbits % 16
  let fields := match codec with
    | 0 => cbits % 256 < 2 && cbits < 2 ^ 15 && !(cn != 0 && (cn = pt || muxBad cn))
    | 1 => cbits % 256 < 2 && cbits < 2 ^ 15 && !(cn != 0 && (cn = pt || muxBad cn))
    | 2 => cbits = 0
    | 3 => cbits < 8
    | 4 => cbits < 2
    | 5 => cbits < 128 && rate ≤ 7
    | 6 => cbits < 128 && rate ≤ 8
    | 7 => cbits < 128 && (if bit cbits 4 then rate ≤ 8 else rate ≤ 5)
    | 8 => cbits < 128 && !bit cbits 4 && 2 ≤ rate && rate ≤ 5
    | 9 => cbits < 512 && 6 ≤ cbits % 64 && cbits % 64 ≤ 40
    | 10 => cbits < 512 && 6 ≤ cbits % 64 && cbits % 64 ≤ 40
    | _ => cbits = 0 && opt / 2 ^ 24 % 16 = 0
  fields && opt / 2 ^ 28 = 0 && !muxBad pt

/-- A leg descriptor (R112): none where a reserved byte or bit is set or a field lies outside its encoding. -/
def parseLeg (b : List Byte) : Option LegCfg :=
  let zero (o n : Nat) : Bool := leAt b o n = 0
  let b1 := leAt b 1 1
  let b2 := leAt b 2 1
  let b3 := leAt b 3 1
  match leAt b 0 1 with
  | 0 =>
    let pt := b3 % 128
    let opt := leAt b 20 4
    if b1 ≤ 11 && (b2 = 20 || b2 = 40 || b2 = 60) && leAt b 4 4 < 2 ^ 23 && leAt b 12 2 < 2 ^ 14 && 1 ≤ leAt b 14 1
        && leAt b 15 1 ≤ 80 && leAt b 16 4 < 2 ^ 17 && zero 24 8 && optOk b1 pt opt then
      some (.packet b1 b2 pt (128 ≤ b3) (leAt b 4 4) (leAt b 8 4) (leAt b 12 2 % 2048) (leAt b 12 2 / 2048 % 8)
        (leAt b 14 1) (leAt b 15 1) (leAt b 16 4) opt)
    else none
  | 1 =>
    if b1 ≤ 2 && b2 ≤ 15 && b3 ≤ 127 && !(b1 = 2 && b3 % 2 = 1) && zero 4 28 then some (.pcm b1 b2 b3) else none
  | 2 =>
    let n := leAt b 4 2
    if b1 ≤ 1 && zero 2 2 && zero 6 26 && (b1 = 1 || n ≤ 63) then some (.source (b1 = 1) n) else none
  | _ => none

/-- SESSION.KIND by its code. -/
def sessOf (k : Nat) : SessKind := if k = 1 then .taldy else if k = 2 then .fax else .none

/-- EC_SIDE by its code. -/
def ecSideOf (k : Nat) : EcSide := if k = 1 then .legA else if k = 2 then .legB else .off

/-- The parts that a CHANGE mask selects (R113); an OPEN selects all. -/
def partSel (mask i : Nat) : Bool := bit mask i

/-- A configuration with the selected parts taken from a command's bytes (R111, R113); none where a selected leg is
no descriptor. -/
def mergeCfg (old : ChanCfg) (mask : Nat) (b : List Byte) : Option ChanCfg :=
  let cf := leAt b 8 1
  let ec := leAt b 9 1
  let tn := leAt b 10 1
  let ss := leAt b 11 1
  let c := if partSel mask 0 then
      { old with emergency := bit cf 0, paired := bit cf 1, standing := bit cf 2, record := bit cf 3 }
    else old
  let c := if partSel mask 1 then { c with ec := ecSideOf (ec % 4) } else c
  let c := if partSel mask 2 then { c with detA := bit tn 0, detB := bit tn 1, relayA := bit tn 2, relayB := bit tn 3 } else c
  let c := if partSel mask 3 then { c with sess := sessOf (ss % 4), sessSideB := bit ss 2 } else c
  let c := if partSel mask 6 then { c with ring := leAt b 76 1 } else c
  let la := if partSel mask 4 then parseLeg (slice b 12 32) else some c.legA
  let lb := if partSel mask 5 then parseLeg (slice b 44 32) else some c.legB
  match la, lb with
  | some la, some lb => some { c with legA := la, legB := lb }
  | _, _ => none

/-- The mask that selects every part. -/
def allParts : Nat := 127

/-- The rules that join two or more parts (R110, R121, R148, R580), each where every part it joins is selected.
DEDUCED (log entry 42). -/
def jointOk (c : ChanCfg) (mask : Nat) : Bool :=
  let sel := partSel mask
  let leg (b : Bool) : Bool := sel (if b then 5 else 4)
  let src (b : Bool) : Bool := (c.leg b).kind = 2
  let sides : List Bool := [false, true]
  let bothSrc := leg false && leg true && src false && src true
  let ecSrc := match c.ec.side? with
    | some b => sel 1 && leg b && src b
    | none => false
  let detSrc := sides.any fun b => sel 2 && leg b && c.det b && src b
  let sessSrc := c.sess != .none && sel 3 && leg c.sessSideB && src c.sessSideB
  let faxLeg := sides.any fun b => sel 3 && leg b && (c.leg b).isFax && !c.sessOn .fax b
  let legStanding (x : LegCfg) : Bool := match x with
    | .packet codec ptime _ srtp _ _ _ _ _ _ _ _ => codec ≤ 1 && ptime = 20 && !srtp
    | .pcm format _ _ => format ≤ 1
    | .source _ _ => false
  let standing := c.standing && sel 0 && sel 1 && sel 3 && sel 4 && sel 5
    && !(legStanding c.legA && legStanding c.legB && c.sess = .none && !c.record)
  let vbd := leg false && leg true && c.vbdForce && !c.bothG711
  !(bothSrc || ecSrc || detSrc || sessSrc || faxLeg || standing || vbd)

/-- CHANNEL of a command. -/
def cmdChan (b : List Byte) : Nat := leAt b 4 4

/-- The CHANGE mask of a MODIFY. -/
def cmdMask (b : List Byte) : Nat := leAt b 80 4

/-- The kind of a stageable command (R110): its opcode, with the LEN that matches it. -/
def cmdKind (b : List Byte) : Option CmdOp :=
  match leAt b 0 1, leAt b 1 1 with
  | 1, 12 => some .openCh
  | 2, 12 => some .modify
  | 3, 1 => some .close
  | _, _ => none

/-- Reserved bits and encodings of the selected parts that are no leg descriptors. -/
def partsOk (mask : Nat) (b : List Byte) : Bool :=
  let cf := leAt b 8 1
  let ec := leAt b 9 1
  let tn := leAt b 10 1
  let ss := leAt b 11 1
  (!partSel mask 0 || (cf < 128 && !(bit cf 1 && !bit cf 0))) && (!partSel mask 1 || ec < 3) && (!partSel mask 2 || tn < 16)
    && (!partSel mask 3 || (ss < 8 && ss % 4 != 3))

/-- The checks of R110 at staging. -/
def stageOk (op : CmdOp) (b : List Byte) : Bool :=
  let head := leAt b 2 2 = 0
  match op with
  | .close => head
  | _ =>
    let change := cmdMask b
    let mask := if op = .openCh then allParts else change % 128
    let maskOk := if op = .openCh then change = 0
      else change != 0 && change % 2 ^ 16 < 128 && change / 2 ^ 16 < 2 && !(bit change 0 && bit (leAt b 8 1) 4)
    head && leAt b 77 3 = 0 && leAt b 84 12 = 0 && maskOk && partsOk mask b
      && match mergeCfg State.blankCfg mask b with
        | some c => jointOk c mask
        | none => false

/-- The configuration that an OPEN gives. -/
def openCfg (b : List Byte) : ChanCfg :=
  let cf := leAt b 8 1
  match mergeCfg State.blankCfg allParts b with
  | some c => { c with phaseSet := bit cf 4, phase := cf / 32 % 4 }
  | none => State.blankCfg

/-- The timeslots that a command's own bytes name (R85). -/
def cmdSlots (op : CmdOp) (b : List Byte) : List (Nat × Nat) :=
  let mask := if op = .openCh then allParts else if op = .modify then cmdMask b % 128 else 0
  match mergeCfg State.blankCfg mask b with
  | some c => (if partSel mask 4 then c.legA.slots else []) ++ (if partSel mask 5 then c.legB.slots else [])
  | none => []

end Sys2Proof.Machine
end

