-- ==== Sys2Proof/Machine/JobOps.lean ====
section
/-! DEFINITION. The life of a job after its grant: cycles, release of servers, aborts, re-dispatch, cancels and
skips (R62, R73 to R77, R262 to R264). -/

namespace Sys2Proof.Machine

/-- The idle pattern of a PCM leg, one sample (R62). -/
def idleSample (format : Nat) : List Byte := if format = 0 then [0xD5] else if format = 1 then [0xFF] else [0, 0]

namespace State

/-! ## Cycles and servers -/

/-- Core cycles in a span of ticks on a cluster, at the rate of CLU_CYC_BEAT (R234). -/
def cyclesIn (s : State) (k ticks : Nat) : Nat :=
  ticks * s.get (Reg.CLU_CYC_BEAT k) Fd.CLU_CYC_BEAT.CYCLES / beatTicks

/-- A job that spends core cycles: RUNNING or COMMITTING on a core. -/
def spends (j : Job) : Bool := j.state = .running || j.state = .committing

/-- The cycles of a job up to now enter its cluster's count for the current beat (CLU_CYC_LAST). -/
def chargeCycles (s : State) (j : Job) : State :=
  match j.server with
  | some (.core k _) =>
    if spends j then
      (s.modCluster k fun c => { c with cycNow := c.cycNow + s.cyclesIn k (s.clk.now - j.acc) }).modJob j.id
        fun x => { x with acc := s.clk.now }
    else s
  | _ => s

/-- A core holds a job no longer, in its slot or in its run. -/
def Core.drop (id : Nat) (x : Core) : Core :=
  { x with slot := if x.slot = some id then none else x.slot, run := if x.run = some id then none else x.run }

/-- A unit of a pool holds a job no longer. -/
def dropUnit (id : Nat) (us : List PoolUnit) : List PoolUnit :=
  us.map fun u => if u.run = some id then { u with run := none } else u

/-- A core finishes its job before the job in its slot is staged: it waits (R240). -/
def stageWaits (s : State) (k i : Nat) (j : Job) : Bool :=
  match s.core k i with
  | some c => c.run = some j.id && match c.slot.bind s.job with
      | some x => !x.staged
      | none => false
  | none => false

/-- A job leaves its server. -/
def leaveServer (s : State) (j : Job) : State :=
  match j.server with
  | some (.core k i) =>
    let s := if s.stageWaits k i j then s.inc (Reg.CLU_STAGE_WAIT_CNT k) Fd.CLU_STAGE_WAIT_CNT.COUNT else s
    s.modCore k i (Core.drop j.id)
  | some (.unit _) => { s with disp := { s.disp with trellis := dropUnit j.id s.disp.trellis } }
  | some (.lane _) => { s with disp := { s.disp with lanes := dropUnit j.id s.disp.lanes } }
  | none => s

/-- The other side's job of a paired channel's beat. -/
def otherSide (s : State) (j : Job) : Option Job :=
  s.disp.jobs.find? fun x => x.kind = .beat && x.uid = j.uid && x.beat = j.beat && x.partner != j.partner

/-! ## Skips (R62) -/

/-- The idle pattern of a skipped job on one leg (R62). -/
def idleLeg (s : State) (num : Nat) (n : BeatNo) (b : Bool) (x : LegCfg) : State :=
  match x with
  | .pcm format h t =>
    { s with nw := { s.nw with pcmOut :=
      { beat := n, leg := 2 * num + b2n b, hwy := h, slot := t, samples := List.replicate 40 (idleSample format) } :: s.nw.pcmOut } }
  | _ => s

/-- The end of a closed channel's last job: its recording stream ends and its life is over (R106, R115). -/
def lastJobDone (s : State) (uid : Nat) (n : BeatNo) : State :=
  match s.closing.find? fun c => c.uid = uid with
  | none => s
  | some c =>
    if c.lastJob = some n then
      let s := match c.stream with
        | some k => s.endStream k
        | none => s
      { s with closing := s.closing.filter fun x => x.uid ≠ uid }
    else s

/-- A stream that a MODIFY ends with this beat's job (R435). -/
def streamAt (s : State) (num : Nat) (n : BeatNo) : State :=
  match s.liveStream num with
  | some x => if x.endAt = some n then s.endStream num else s
  | none => s

/-- The stream that a channel's job of beat `n` records into: its own, or one that a MODIFY ends with it. -/
def streamOf (s : State) (c : Chan) (n : BeatNo) : Option Nat :=
  match s.arc.streams.find? fun x => x.uid = c.uid && x.live && (match x.endAt with
      | some e => beatAtOrAfter e n
      | none => false) with
  | some x => some x.num
  | none => c.stream

/-- A job of beat `n` is skipped: counts, idle patterns, the recording gap, session ends, and the mark in the
channel's state (R62, R118, R186, R408, R435). -/
def skipBeat (s : State) (j : Job) : State :=
  let s := s.inc Reg.BEAT_SKIP_CNT Fd.BEAT_SKIP_CNT.COUNT
  let s := (s.wr Reg.BEAT_SKIP_LAST_BEAT j.beat).put Reg.BEAT_SKIP_LAST_CHAN Fd.BEAT_SKIP_LAST_CHAN.CHAN j.chan
  let s := (s.event Pg.BEAT Ev.BEAT.SKIP).eventIf j.cfg.emergency Pg.CHAN Ev.CHAN.EMERG_SKIP
  match s.life j.uid with
  | none => s
  | some c =>
    let left := isPhase c.phase j.beat && 0 < j.cfg.costFrame
    let taldy := j.cfg.sess = .taldy
    let s := if taldy then s.taldySkip { c with cfg := j.cfg } j.beat else s
    let s := s.modLife j.uid fun c =>
      { c with skips := sat32 (c.skips + 1), lastBeat := j.beat, leftover := c.leftover || left,
               taldy := if taldy then c.taldy.skip else c.taldy }
    let s := (s.idleLeg j.chan j.beat false j.cfg.legA).idleLeg j.chan j.beat true j.cfg.legB
    let s := match (if j.cfg.record then s.streamOf c j.beat else none) with
      | some k =>
        let n := 5 * j.cfg.intKhz
        (s.recordSamples k j.cfg.intKhz j.beat (List.replicate n (0, 0)) true j.cfg.emergency).streamAt k j.beat
      | none => s
    s.lastJobDone j.uid j.beat

/-! ## Aborts, re-dispatch and cancels (R74, R262 to R264) -/

/-- A READY job is cancelled: its entry is freed (R263, R264). -/
def cancelJob (s : State) (j : Job) (cause : Nat) : State :=
  let s := (s.traceJob 6 j none (cause * 16384)).freeEntry j.id
  let s := if cause = 0 then s.traceTrigger else s
  s.inc Reg.DSP_CANCEL_CNT Fd.DSP_CANCEL_CNT.COUNT

/-- A job that leaves the dispatcher skipped: its channel is skipped once, for the home side. -/
def skipIfHome (s : State) (j : Job) : State := if j.kind = .beat && !j.partner then s.skipBeat j else s

/-- An aborted job is made ready again: a BEAT job at level 1, or made ready and cancelled at once when its
deadline has come (R74, R264). -/
def redispatch (s : State) (j : Job) (exclude : List (Nat × Nat)) : State :=
  let j := { j with excluded := exclude ++ j.excluded, staged := false, flagged := false, digest := none, peer := none,
                    stalled := false, startAt := 0, acc := 0, redisp := j.kind = .beat,
                    level := if j.kind = .beat then 1 else j.level }
  if j.kind = .beat then
    let s := (s.inc Reg.DSP_REDISP_CNT Fd.DSP_REDISP_CNT.COUNT).enlist j
    if s.clk.beforeDeadline j.beat then s else (s.cancelJob { j with server := none } 0).skipIfHome j
  else s.enlist j

/-- A job in service aborts: its server is free, and an abort of a BEAT job counts (R74, R77, R117). -/
def abortOnly (s : State) (j : Job) (cause : Nat) (refused : Bool) : State :=
  let s := s.traceJob 5 j j.server (cause * 16384)
  let s := if cause = 3 then s.traceTrigger else s
  let s := (s.chargeCycles j).leaveServer j
  if j.kind = .beat then
    let s := s.inc Reg.TXN_JOB_ABORT_CNT Fd.TXN_JOB_ABORT_CNT.COUNT
    let s := if refused then s.inc Reg.TXN_JOB_REFUSED_CNT Fd.TXN_JOB_REFUSED_CNT.COUNT else s
    s.modLife j.uid fun c => { c with aborts := sat32 (c.aborts + 1) }
  else s

/-- The core a job is on, for exclusion. -/
def coreOf (j : Job) : List (Nat × Nat) :=
  match j.server with
  | some (.core k i) => [(k, i)]
  | _ => []

/-- The partner of an aborted job aborts too when it is in service (R74). -/
def abortPartner (s : State) (j : Job) : State :=
  match s.otherSide j with
  | some x =>
    if x.state.inService && x.state != .poisoned then (s.abortOnly x 1 false).redispatch x []
    else s.modJob x.id fun x => { x with peer := none }
  | none => s

/-- Abort of a job in service with CAUSE `cause`, excluding the core it was on when `exclude` is set. -/
def abortJob (s : State) (j : Job) (cause : Nat) (exclude : Bool) : State :=
  let refused := cause = 1 && j.kind = .beat
  ((s.abortOnly j cause refused).redispatch j (if exclude then coreOf j else [])).abortPartner j

/-- Abort by poison, under condition 4 of R75 (R466): the job stays ABORTED, holding its entry, until D(n). -/
def poisonOne (s : State) (j : Job) (refused : Bool) : State :=
  (s.abortOnly j 1 refused).modJob j.id fun x => { x with state := .poisoned, server := none }

/-- Both sides of a job whose staged data held poison. -/
def poisonJob (s : State) (j : Job) : State :=
  let s := s.poisonOne j true
  match s.otherSide j with
  | some x => if x.state.inService && x.state != .poisoned then s.poisonOne x false else s
  | none => s

/-- At D(n) a job of beat n that has not committed ends: READY ones are cancelled, those in service aborted,
made ready and cancelled; the channel is skipped (R62, R263, R264). -/
def deadlineJob (s : State) (j : Job) : State :=
  if j.state = .ready then (s.cancelJob j 0).skipIfHome j
  else if j.state = .poisoned then (s.freeEntry j.id).skipIfHome j
  else
    let s := (s.abortOnly j 3 false).inc Reg.DSP_REDISP_CNT Fd.DSP_REDISP_CNT.COUNT
    let x := { j with level := 1, redisp := true, staged := false, server := none }
    ((s.enlist x).cancelJob x 0).skipIfHome j

/-- A job that has committed or completed frees its server and its entry. -/
def completeJob (s : State) (j : Job) : State :=
  let s := ((s.chargeCycles j).leaveServer j).traceJob 4 j j.server 0
  s.freeEntry j.id

/-- The jobs of a beat. -/
def beatJobs (s : State) (n : BeatNo) : List Job := s.disp.jobs.filter fun j => j.kind = .beat && j.beat = n

/-- The record of a beat's work. -/
def workOf (s : State) (n : BeatNo) : Option BeatWork := s.disp.work.find? fun w => w.beat = n

/-- A commit of a job of beat `n` now (R63, R71). -/
def noteCommit (s : State) (n : BeatNo) : State :=
  { s with disp := { s.disp with work := s.disp.work.map fun w => if w.beat = n then { w with last := some s.clk.now } else w } }

/-- The window of beat `n` closes: BEAT_DONE_LAST and BEAT_RECOV_CNT (R63, R71). `start` is the tick of B(n). -/
def closeWindow (s : State) (n : BeatNo) (start : Nat) : State :=
  match s.workOf n with
  | none => s.put Reg.BEAT_DONE_LAST Fd.BEAT_DONE_LAST.US 0
  | some w =>
    let us := if !w.had then 0 else match w.last with
      | some t => (t - start) / usTicks 1
      | none => 9900
    let s := { s with disp := { s.disp with work := s.disp.work.filter fun x => x.beat ≠ n } }
    let s := (s.put Reg.BEAT_DONE_LAST Fd.BEAT_DONE_LAST.US us).raise Reg.BEAT_DONE_HWM Fd.BEAT_DONE_HWM.US us
    match w.last with
    | some t =>
      if start + beatTicks ≤ t then (s.inc Reg.BEAT_RECOV_CNT Fd.BEAT_RECOV_CNT.COUNT).event Pg.BEAT Ev.BEAT.RECOVERY_USED else s
    | none => s

/-- Held BEAT jobs of beat `n` are skipped without ever being made ready (R255). -/
def skipHeld (s : State) (n : BeatNo) : State :=
  let mine (j : Job) : Bool := j.kind = .beat && j.beat = n
  let s1 := { s with disp := { s.disp with held := s.disp.held.filter fun j => !mine j } }.showHolds
  (s.disp.held.filter mine).foldl skipIfHome s1

/-- D(n), the deadline of beat n: the instant lies at or after it, and its jobs end (R61, R62). The deadline that can
fall in the current beat is that of the beat before.
DESIGN CHOICE (log entry 3). -/
def deadline (s : State) : State :=
  let n := s.clk.n - 1
  if s.clk.started && s.clk.prevDeadline ≤ s.clk.now && (s.workOf n).isSome then
    let s := (s.beatJobs n).foldl (fun s j => match s.job j.id with
      | some j => s.deadlineJob j
      | none => s) s
    (s.skipHeld n).closeWindow n (s.clk.at0 - beatTicks)
  else s

end State

/-- JOB_DEADLINE (R62, R63, R263). -/
def execJobDeadline (t : Nat) (s : State) : Host.Outcome State Fault Refusal := s.act t State.deadline

end Sys2Proof.Machine
end

