-- ==== Sys2Proof/Machine/FaultOps.lean ====
section
/-! DEFINITION. Faults of cores, clusters, local memories and units: charging, retirement, loss and re-homing
(R485 to R495). -/

namespace Sys2Proof.Machine

/-- Banks' spares of each kind (R483). -/
def bankSpares : Nat := 4

namespace State

/-! ## Re-homing (R100, R265, R493) -/

/-- A channel's READY jobs move to the lists of its new home, and its flows' last-core records clear (R265). -/
def moveJobs (s : State) (c : Chan) (home : Nat) : State :=
  let s := { s with disp := { s.disp with
    jobs := s.disp.jobs.map fun j =>
      if j.kind = .beat && j.uid = c.uid && j.state = .ready then
        let j := { j with home := home }
        { j with list := s.listFor j } else j,
    lastCore := (s.disp.lastCore.erase c.num).erase (0x10000 + c.num) } }
  s

/-- Re-home an open channel (R100). -/
def rehome (s : State) (c : Chan) (home : Nat) : State :=
  if home = c.home then s else (s.modLife c.uid fun x => { x with home := home }).moveJobs c home

/-- Every open channel takes the home of R493, R498, R511 and R512. -/
def rehomeAll (s : State) : State := s.openChans.foldl (fun s c => s.rehome c (s.homeFor c.num c.home c.cfg.paired)) s

/-! ## Loss of a cluster (R492, R493) -/

/-- A cluster's state changes (R249, R250); its cores become or cease to be offline with it (R231, R233). -/
def setCState (s : State) (k : Nat) (x : CState) : State :=
  match s.cluster k with
  | some c => if c.cstate = x then s
    else
      let on := c.cstate = .serving || x = .serving
      ((s.modCluster k fun c => { c with cstate := x }).event (Pg.CLU k) Ev.CLU.CSTATE_CHANGE).eventIf on (Pg.CLU k)
        Ev.CLU.CORE_ROLE
  | none => s

/-- The jobs in service on a cluster's cores. -/
def clusterJobs (s : State) (k : Nat) : List Job :=
  s.disp.jobs.filter fun j => j.state.inService && j.state != .poisoned && match j.server with
    | some (.core c _) => c = k
    | _ => false

/-- Abort jobs one after the other, each as it then stands. -/
def abortAll (s : State) (js : List Job) (cause : Nat) (exclude : Bool) : State :=
  js.foldl (fun s j => match s.job j.id with
    | some j => if j.state.inService && j.state != .poisoned then s.abortJob j cause exclude else s
    | none => s) s

/-- A cluster's READY jobs move to the global lists (R265). -/
def toGlobal (s : State) (k : Nat) : State :=
  { s with disp := { s.disp with jobs := s.disp.jobs.map fun j => if j.list = .cluster k && j.state = .ready then { j with list := .global } else j } }

/-- A cluster is lost (R492, R493): its READY jobs move to the global lists, its STAGING jobs follow them, then the others
that abort (R265). A rotation stops once its current step has ended (R513).
DESIGN CHOICE (log entry 39). -/
def loseCluster (s : State) (k detect : Nat) (injected : Bool) : State :=
  match s.cluster k with
  | none => s
  | some c =>
    if c.cstate = .lost then s
    else
      let s := (s.setCState k .lost).modCluster k fun c => { c with lostInjected := injected, sramLost := false }
      let s := s.toGlobal k
      let s := s.abortAll ((s.clusterJobs k).filter fun j => j.state = .staging) 0 false
      let s := s.abortAll (s.clusterJobs k) 0 false
      let s := if injected then s else s.addWork (.cluster k)
      let s := { s with mgmt := { s.mgmt with rot := s.mgmt.rot.map fun (r : Rotation) => { r with stop := true } } }
      (s.recordFault 5 k 0 detect injected).event Pg.REL Ev.REL.CLUSTER_LOST

/-! ## Core faults (R485, R486) -/

/-- A fault is charged to a core: its history, and the cluster's loss when it is the third core of its cluster
in this beat (R486, R492). -/
def chargeCore (s : State) (k i detect : Nat) : State :=
  let n := s.clk.n
  let s := s.modCore k i fun c =>
    let h := recentFaults n c.history ++ [n]
    { c with history := h, total := sat16 (c.total + 1), lastFault := n, retire := c.retire || 3 ≤ h.length }
  let s := s.modCluster k fun c => { c with charged := if c.charged.contains i then c.charged else i :: c.charged }
  let s := s.recordFault 0 k i detect false
  match s.cluster k with
  | some c => if 3 ≤ c.charged.length then s.loseCluster k detect false else s
  | none => s

/-- A job that the core handed over less than 1 µs ago aborts under condition 4 of R75, and then the job it runs and the job in
its slot; the core is excluded for them and begins its self-check (R485).
DESIGN CHOICE (log entry 39). -/
def haltCore (s : State) (k i : Nat) : State :=
  match s.core k i with
  | none => s
  | some c =>
    let js := (c.run.toList ++ c.slot.toList).filterMap s.job
    let late := s.disp.jobs.filter fun j =>
      j.state = .committing && j.kind = .beat && j.server = some (.core k i) && s.clk.now ≤ j.startAt + usTicks 1
    ((s.abortAll late 1 true).abortAll js 0 true).modCore k i fun c => { c with checking := some s.clk.now }

/-- Whether a repair of the same row or column is already due. -/
def sameLine (a b : RepairDue) : Bool :=
  a.column = b.column && a.loc.shared = b.loc.shared && a.loc.cluster = b.loc.cluster && a.loc.core = b.loc.core
    && a.loc.bank = b.loc.bank && (if a.column then a.loc.bitPos = b.loc.bitPos else a.loc.row = b.loc.row)

/-- A repair becomes due: the class's fault is detected (R483, R489). -/
def repairDue (s : State) (x : RepairDue) : State :=
  if s.spares.due.any fun y => sameLine x y then s
  else
    let s := { s with spares := { s.spares with due := s.spares.due ++ [x] } }
    let cls := (if x.loc.shared then 3 else 1) + b2n x.column
    s.recordFault cls x.loc.cluster (if x.loc.shared then 0 else x.loc.core) 2 false

/-- A core's checkers flag a fault (R485): `loc` is the place of an uncorrectable memory error, whose row is then
due for repair and which is a fault of the memory; any other fault is charged to the core. -/
def coreFault (s : State) (k i detect : Nat) (loc : Option SramLoc) : State :=
  let s := s.haltCore k i
  match loc with
  | some l => s.repairDue { loc := { l with cluster := k, core := i }, column := false }
  | none => s.chargeCore k i detect

/-- The injected fault strikes the core's job: it charges no core (R498). -/
def injectedFault (s : State) (k i : Nat) : State := (s.haltCore k i).recordFault 0 k i 1 true

/-- An ECC error was corrected (R237, R489): a row repair is due after corrections in two words of one row within
200 beats, a column repair after corrections at one bit position in three rows of a bank. -/
def sramCorrected (s : State) (l : SramLoc) : State :=
  let s := s.inc (Reg.CLU_ECC_CORR_CNT l.cluster) Fd.CLU_ECC_CORR_CNT.COUNT
  let n := s.clk.n
  let old := s.spares.corrections
  let near := old.filter fun x => x.1.shared = l.shared && x.1.cluster = l.cluster && x.1.core = l.core && x.1.bank = l.bank
  let rowDue := near.any fun x => x.1.row = l.row && x.1.word != l.word && (n - x.2).toNat ≤ 200
  let rows := ((near.filter fun x => x.1.bitPos = l.bitPos).map fun x => x.1.row) ++ [l.row]
  let colDue := 3 ≤ rows.eraseDups.length
  let s := { s with spares := { s.spares with corrections := if old.contains (l, n) then old else old ++ [(l, n)] } }
  let s := if rowDue then s.repairDue { loc := l, column := false } else s
  if colDue then s.repairDue { loc := l, column := true } else s

/-! ## Work of a boundary (R233, R486, R490, R493, R498) -/

/-- A core's role changes (R233). -/
def setRole (s : State) (k i : Nat) (r : Role) : State :=
  (s.modCore k i fun c => { c with role := r, retire := false }).event (Pg.CLU k) Ev.CLU.CORE_ROLE

/-- A core that is to be retired and holds no job is retired, and the cluster's reserve core takes its place
(R486). -/
def retireCore (s : State) (k i : Nat) : State :=
  match s.core k i with
  | none => s
  | some c =>
    if c.retire && c.role != .retired && c.run.isNone && c.slot.isNone then
      let s := ((s.setRole k i .retired).event Pg.REL Ev.REL.CORE_RETIRED).addWork (.core k i)
      if c.role = .serving then
        match (List.range 10).find? fun x => match s.core k x with
            | some y => y.role = .reserve && !y.retire
            | none => false with
        | some x => s.setRole k x .serving
        | none => s
      else s
    else s

/-- Retirements of the serving clusters. -/
def retireCores (s : State) : State :=
  (List.range 16).foldl (fun s k => if s.serves k then (List.range 10).foldl (fun s i => s.retireCore k i) s else s) s

/-- Clusters that a shared SRAM repair without a spare makes LOST at this boundary (R490). -/
def sramLosses (s : State) : State :=
  (List.range 16).foldl (fun s k => match s.cluster k with
    | some c => if c.sramLost then s.loseCluster k 2 false else s
    | none => s) s

/-- RESTORE: an injected lost cluster serves from this boundary (R498). -/
def restoreCluster (s : State) (k : Nat) : State :=
  match s.cluster k with
  | some c =>
    if c.restoring then (s.modCluster k fun c => { c with restoring := false, lostInjected := false }).setCState k .serving else s
  | none => s

/-- A cluster becomes EVACUATED (R511): its READY jobs move to the global lists and its STAGING jobs abort and follow
them (R265). -/
def evacuate (s : State) (k : Nat) : State :=
  let s := s.setCState k .evacuated
  let s := ((s.clusterJobs k).filter fun j => j.state = .staging).foldl (fun s j => match s.job j.id with
    | some j => if j.state = .staging then ((s.abortOnly j 1 false).redispatch j []).abortPartner j else s
    | none => s) s
  s.toGlobal k

/-- HOME_HIGH: a cluster's home load has risen above its limit (R248). `before` are the loads before. -/
def homeHigh (s : State) (before : List Nat) : State :=
  (List.range 16).foldl (fun s k =>
    let lim := s.get (Reg.CLU_HOME_LIMIT k) Fd.CLU_HOME_LIMIT.CYCLES
    s.eventIf (lim != 0 && before.getD k 0 ≤ lim && lim < s.homeLoad k) (Pg.CLU k) Ev.CLU.HOME_HIGH) s

/-- The home loads of all clusters. -/
def homeLoads (s : State) : List Nat := (List.range 16).map s.homeLoad

/-- Fault work of a boundary before re-homing: restores and losses. -/
def faultBoundary (s : State) : State := ((List.range 16).foldl (fun s k => s.restoreCluster k) s).sramLosses

/-! ## Units (R495) -/

/-- The exclusion class of a pool. -/
def poolClass (archive : Bool) : Nat := if archive then 101 else 100

/-- Units of a pool. -/
def poolUnits (s : State) (archive : Bool) : List PoolUnit := if archive then s.disp.lanes else s.disp.trellis

/-- Replace the units of a pool. -/
def setUnits (s : State) (archive : Bool) (us : List PoolUnit) : State :=
  if archive then { s with disp := { s.disp with lanes := us } } else { s with disp := { s.disp with trellis := us } }

/-- A fault in a unit or lane: its job aborts and is made ready with the unit excluded; the third fault in 24 h
retires it (R495).
DESIGN CHOICE (log entry 58). -/
def unitFault (s : State) (archive : Bool) (i detect : Nat) : State :=
  match (s.poolUnits archive)[i]? with
  | none => s
  | some u =>
    if !u.alive then s
    else
      let s := match u.run.bind s.job with
        | some j => (s.abortOnly j 0 false).redispatch j [(poolClass archive, i)]
        | none => s
      let h := recentFaults s.clk.n u.history ++ [s.clk.n]
      let out := 3 ≤ h.length
      let s := s.setUnits archive ((s.poolUnits archive).modify i fun u => { u with history := h, alive := !out })
      let s := if out then (s.addWork (if archive then .lane i else .unit i)).event Pg.REL Ev.REL.CORE_RETIRED else s
      s.recordFault (if archive then 7 else 6) 0 i detect false

end State

end Sys2Proof.Machine
end

