-- ==== Sys2Proof/Machine/FlowOps.lean ====
section
/-! DEFINITION. Flows, aggregates and SRTP contexts: access, attachment to aggregates, and key switches
(R165, R292, R293, R302 to R305). -/

namespace Sys2Proof.Machine

/-- A shaper at reset: disabled, empty. -/
def Shaper.fresh : Shaper :=
  { cfg := { en := false, cir := 0, pir := 0, cbs := 0, pbs := 0 }, tc := 0, tp := 0, pend := none }

/-- A flow that no leg has used. -/
def FlowRun.fresh : FlowRun :=
  { q := [], tag := 0, place := { agg := 0, cls := 0, weight := 1 }, want := none, attached := false, shp := Shaper.fresh }

/-- An aggregate at reset (R304): EN = 0. -/
def AggCfg.fresh : AggCfg := { en := false, port := 0, cls := 0, weight := 1 }

/-- An aggregate's state at reset. -/
def AggRun.fresh : AggRun := { cfg := AggCfg.fresh, cfgAt := 0, eff := AggCfg.fresh, v := 0, tag := 0, shp := Shaper.fresh }

/-- One direction of an SRTP context without keys. -/
def SrtpDir.fresh : SrtpDir :=
  { cur := none, next := none, old := none, switched := 0, highest := none, window := [], rtcpHighest := none,
    rtcpWindow := [], pkts := 0, rtcpPkts := 0, stopped := false }

namespace State

/-- A flow by its leg index. -/
def flow (s : State) (leg : Nat) : FlowRun := (s.nw.flows.find? leg).getD FlowRun.fresh

/-- Replace a flow. -/
def setFlow (s : State) (leg : Nat) (f : FlowRun) : State :=
  { s with nw := { s.nw with flows := s.nw.flows.set (fun _ => FlowRun.fresh) leg f } }

/-- An aggregate. -/
def agg (s : State) (a : Nat) : AggRun := (s.nw.aggs.find? a).getD AggRun.fresh

/-- Replace an aggregate. -/
def setAgg (s : State) (a : Nat) (x : AggRun) : State :=
  { s with nw := { s.nw with aggs := s.nw.aggs.set (fun _ => AggRun.fresh) a x } }

/-- A leg's flow is attached to the aggregate, class and weight of its descriptor (R303, R305): a flow that holds no
placement takes it at once, any other at a refill instant. -/
def attachLeg (s : State) (leg : Nat) (p : Placement) : State :=
  let f := s.flow leg
  let known := (s.nw.flows.find? leg).isSome
  let f := if known && (f.attached || f.want.isSome || f.place != FlowRun.fresh.place)
    then { f with want := some p, attached := true }
    else { f with place := p, want := none, attached := true }
  s.setFlow leg f

/-- A leg no longer belongs to an open channel, or no longer is a packet leg. -/
def detachLeg (s : State) (leg : Nat) : State :=
  let f := s.flow leg
  if f.attached then s.setFlow leg { f with attached := false } else s

/-- A flow is attached to an aggregate: by its open channel, or by packets placed under it (R304). -/
def attachedTo (f : FlowRun) (a : Nat) : Bool :=
  (f.attached && (f.want.getD f.place).agg = a) || (!f.q.isEmpty && f.place.agg = a)

/-- Flows attached to an aggregate. -/
def aggFlows (s : State) (a : Nat) : Nat := (s.nw.flows.filter fun p => attachedTo p.2 a).length

/-! ## SRTP contexts -/

/-- A context. -/
def srtpCtx (s : State) (c : Nat) : SrtpCtx :=
  (s.nw.srtp.find? c).getD { rx := SrtpDir.fresh, tx := SrtpDir.fresh }

/-- Replace a context. -/
def setSrtp (s : State) (c : Nat) (x : SrtpCtx) : State :=
  { s with nw := { s.nw with srtp := s.nw.srtp.set (fun _ => { rx := SrtpDir.fresh, tx := SrtpDir.fresh }) c x } }

/-- A context is valid for check 3 of R103 when both directions hold a current key (R292). -/
def srtpValid (s : State) (c : Nat) : Bool := let x := s.srtpCtx c; x.rx.cur.isSome && x.tx.cur.isSome

/-- A switch (R293, R165): the next key becomes current, its packet counts restart, and the old key stays for
what R165 still uses it for. -/
def switchDir (d : SrtpDir) (n : BeatNo) : Option SrtpDir :=
  match d.next with
  | none => none
  | some k => some { d with cur := some k, next := none, old := d.cur, switched := n, pkts := 0, rtcpPkts := 0, stopped := false }

/-- A staged SRTP_SWITCH applies: DIR 0 names the receive direction, 1 the transmit direction.
DEDUCED (log entry 11). -/
def srtpSwitch (s : State) (c : Nat) (tx : Bool) : Option State :=
  let x := s.srtpCtx c
  if tx then (switchDir x.tx s.clk.n).map fun d => s.setSrtp c { x with tx := d }
  else (switchDir x.rx s.clk.n).map fun d => s.setSrtp c { x with rx := d }

end State

end Sys2Proof.Machine
end

