-- ==== Sys2Proof/Machine/ChanApply.lean ====
section
/-! DEFINITION. What channel commands do at apply: admission, OPEN, MODIFY and CLOSE (R89, R103 to R107, R113 to
R115, R406, R542, R548, R549). -/

namespace Sys2Proof.Machine

/-- Why an entry fails at apply: its status, and the channel and reason that a NO_CAPACITY records (R107). -/
structure Fail where
  status : Status
  nocap : Option (Nat × Nat)
  deriving DecidableEq, Repr

/-- A failure without a NO_CAPACITY record. -/
def Fail.of (st : Status) : Fail := { status := st, nocap := none }

/-- The beats from `f` on at which a channel of a phase does its frame work: the first (R66). -/
def firstPhase (phase : Nat) (f : BeatNo) : BeatNo := f + BitVec.ofNat 32 ((phase + 4 - f.toNat % 4) % 4)

namespace State

/-! ## Configuration that a command refers to (R103, check 3) -/

/-- Slots of a PCM group (R375). -/
def groupSlots (s : State) (h : Nat) : Nat := 32 * 2 ^ s.get (Reg.PCM_GROUP_CFG (h / 4 * 4)) Fd.PCM_GROUP_CFG.RATE

/-- A timeslot is configured (R381). -/
def slotReady (s : State) (h t : Nat) : Bool :=
  s.flag (Reg.PCM_GROUP_CFG (h / 4 * 4)) Fd.PCM_GROUP_CFG.EN && s.flag (Reg.PCM_HWY_CFG h) Fd.PCM_HWY_CFG.EN && t < s.groupSlots h

/-- A tone descriptor in effect. -/
def toneDesc (s : State) (d : Nat) : Desc :=
  Desc.ofWords (s.rd (Reg.TONE_DSC_FREQ d)) (s.rd (Reg.TONE_DSC_LEVEL d)) (s.rd (Reg.TONE_DSC_CAD1 d))
    (s.rd (Reg.TONE_DSC_CAD2 d)) (s.rd (Reg.TONE_DSC_CTRL d))

/-- A loaded announcement. -/
def clip (s : State) (n : Nat) : Option Clip := s.mgmt.clips.find? (fun p => p.1 = n) |>.map fun p => p.2

/-- A leg's references exist: timeslots, descriptor, announcement, SRTP context and aggregate (R103, R303). -/
def legReady (s : State) : LegCfg → Bool
  | .packet _ _ _ srtp _ _ agg cls _ _ ctx _ =>
    (!srtp || s.srtpValid ctx) && (s.agg agg).cfg.en && (s.agg agg).cfg.cls = cls
  | .pcm format h t => s.slotReady h t && (format != 2 || s.slotReady h (t + 1))
  | .source false n => (s.toneDesc n).gen
  | .source true n => (s.clip n).isSome

/-- The session leg meets the rule of R406. -/
def sessReady (c : ChanCfg) : Bool :=
  let x := c.leg c.sessSideB
  let y := c.leg !c.sessSideB
  match c.sess with
  | .none => true
  | .taldy => match x with
    | .packet codec _ _ _ _ _ _ _ _ _ _ opt => codec ≤ 2 || (codec = 3 && 2 ≤ opt % 4)
    | .pcm _ _ _ => true
    | .source _ _ => false
  | .fax => x.isFax && match y with
    | .packet codec _ _ _ _ _ _ _ _ _ _ _ => codec ≤ 1
    | .pcm _ _ _ => true
    | .source _ _ => false

/-- The owner field of a timeslot: 0 free, otherwise leg index + 1 (R381). -/
def slotOwner (s : State) (x : Nat × Nat) : Nat := s.get (Reg.PCM_SLOT_OWNER x.1 x.2) Fd.PCM_SLOT_OWNER.OWNER

/-- Set the owner field of timeslots. -/
def setSlots (s : State) (xs : List (Nat × Nat)) (owner : Nat) : State :=
  xs.foldl (fun s x => s.put (Reg.PCM_SLOT_OWNER x.1 x.2) Fd.PCM_SLOT_OWNER.OWNER owner) s

/-- Claim timeslots for a leg, one after the other; none when one has another owner (R91, R103). -/
def claimSlots (s : State) (owner : Nat) : List (Nat × Nat) → Option State
  | [] => some s
  | x :: xs =>
    if s.slotOwner x = 0 || s.slotOwner x = owner then (s.setSlots [x] owner).claimSlots owner xs else none

/-! ## Modes (R89, R542, R549, R551) -/

/-- A leg that BRINGUP allows (R542). -/
def bringupLeg : LegCfg → Bool
  | .packet codec ptime _ srtp _ _ _ _ _ _ _ _ => codec ≤ 1 && ptime = 20 && !srtp
  | .pcm format _ _ => format ≤ 1
  | .source _ _ => false

/-- The selected parts lie within the limits of R542. -/
def bringupOk (c : ChanCfg) (mask : Nat) : Bool :=
  (!partSel mask 0 || (!c.record && !c.paired)) && (!partSel mask 3 || c.sess = .none)
    && (!partSel mask 4 || bringupLeg c.legA) && (!partSel mask 5 || bringupLeg c.legB)

/-- What CONSTRAIN refuses (R549): setting RECORD, or adding a Taldy link session, on a channel that is neither
emergency nor standing. -/
def constrainOk (s : State) (old new : ChanCfg) : Bool :=
  !(s.modes.constrain && !s.modes.bringup) || new.emergency || new.standing
    || !((new.record && !old.record) || (new.sess = .taldy && old.sess != .taldy))

/-- The mode lets an OPEN apply.
DEDUCED (log entry 42). -/
def openAllowed (s : State) (c : ChanCfg) : Bool :=
  s.modes.mode != 0 && (if s.modes.bringup then bringupOk c allParts else !s.modes.sealOn && !s.modes.isolate)
    && s.constrainOk blankCfg c

/-! ## Pools (R103, check 5) -/

/-- PCM legs of a set of configurations. -/
def pcmLegs (c : ChanCfg) : Nat := b2n (c.legA.kind = 1) + b2n (c.legB.kind = 1)

/-- PCM legs in use. -/
def tdmLegs (s : State) : Nat := ((s.openChans.map fun c => pcmLegs c.cfg)).foldl (· + ·) 0

/-- Open channels with a session of a kind. -/
def sessCount (s : State) (k : SessKind) : Nat := (s.openChans.filter fun c => c.cfg.sess = k).length

/-- Session numbers of a kind (R406). -/
def sessPool : SessKind → Nat
  | .taldy => 4096
  | .fax => 2048
  | .none => 0

/-- The lowest free session number of a kind.
DEDUCED (log entry 41). -/
def freeSession (s : State) (k : SessKind) : Option Nat :=
  (List.range (sessPool k)).find? fun n => !s.openChans.any fun c => c.cfg.sess = k && c.session = some n

/-- Room in the pools for a configuration that replaces another (R103, R105). -/
def poolsOk (s : State) (old new : ChanCfg) : Bool :=
  s.tdmLegs - pcmLegs old + pcmLegs new ≤ 2048
    && (new.sess = old.sess || new.sess = .none || s.sessCount new.sess < sessPool new.sess)
    && (!new.record || old.record || s.streamCount < 4096)
    && (!new.standing || old.standing || (s.openChans.filter fun c => c.cfg.standing).length < 256)

/-! ## OPEN -/

/-- The clip of a source leg at its leg rate: samples, repeat count and gap in ms (R210). -/
def clipAt (s : State) (x : LegCfg) (khz : Nat) : SrcRun :=
  SrcRun.fresh (match x with
    | .source true n => (s.clip n).map fun c => (c.len * khz / c.khz, c.rep, c.gap)
    | _ => none)

/-- The highest channel number: it depends on the density of the GDDR-6 devices (R103, R455).
DEDUCED (log entry 41). -/
def topChannel (s : State) : Nat := if s.flag Reg.MEM_CFG Fd.MEM_CFG.DENSITY then 16383 else 65535

/-- The checks of R103 in their order.
DEDUCED (log entry 41). -/
def openCheck (s : State) (num : Nat) (c : ChanCfg) (phase : Nat) : Option Fail :=
  if !s.openAllowed c then some (Fail.of .notInMode)
  else if s.topChannel < num then some { status := .noCapacity, nocap := some (num, 1) }
  else if (s.chan num).isSome then some { status := .noCapacity, nocap := some (num, 2) }
  else if !(s.legReady c.legA && s.legReady c.legB && sessReady c) then some (Fail.of .badParam)
  else if ((s.claimSlots (2 * num + 1) c.legA.slots).bind fun s => s.claimSlots (2 * num + 2) c.legB.slots).isNone then
    some (Fail.of .conflict)
  else if !s.poolsOk blankCfg c || (s.modes.bringup && 2048 ≤ s.openChans.length) then some (Fail.of .full)
  else if s.get Reg.CHAN_CEILING Fd.CHAN_CEILING.CYCLES < s.everyLoad + c.costEvery + s.maxPhase phase c.costFrame 0 then
    some { status := .noCapacity, nocap := some (num, 3) }
  else none

/-- A leg at OPEN: sequence number and timestamp drawn (R149).
DESIGN CHOICE (log entry 12). -/
def freshLeg (s : State) (c : ChanCfg) (b : Bool) (f0 : BeatNo) : LegRun × State :=
  let (d1, s) := s.freeWord
  let (d2, s) := s.freeWord
  let x := c.leg b
  (LegRun.fresh (CodecRun.fresh d1 d2 f0) (RateRun.fresh (c.khz b) c.intKhz) (s.clipAt x (c.khz b)) x.jbMax, s)

/-- The placement that a packet leg's descriptor names (R303). -/
def legPlace : LegCfg → Option Placement
  | .packet _ _ _ _ _ _ agg cls weight _ _ _ => some { agg := agg, cls := cls, weight := weight }
  | _ => none

/-- Attach or detach a leg's flow after a change of its descriptor. -/
def placeLeg (s : State) (leg : Nat) (x : LegCfg) : State :=
  match legPlace x with
  | some p => s.attachLeg leg p
  | none => s.detachLeg leg

/-- The home of a channel that opens: its number modulo 16 (R11), or, when that cluster cannot take it, the home that
R493 and R512 give.
DEDUCED (log entry 41). -/
def newHome (s : State) (num : Nat) (paired : Bool) : Nat := s.homeFor num (num % 16) paired

/-- The effect of an OPEN that passes its checks. -/
def openChan (s : State) (num : Nat) (c : ChanCfg) (phase : Nat) (tag : Word) : State :=
  let m := s.clk.n
  let uid := s.nextUid
  let f0 := firstPhase phase (m + 1)
  let (la, s) := s.freshLeg c false f0
  let (lb, s) := s.freshLeg c true f0
  let sess := s.freeSession c.sess
  let stream := if c.record then s.freeStream else none
  let maps := List.replicate 16 freshMap
  let x : Chan :=
    { num := num, uid := uid, cfg := c, phase := phase, home := s.newHome num c.paired, openBeat := m, lastBeat := m, commit := none,
      lastJob := none, version := 0, costEvery := c.costEvery, costFrame := c.costFrame, skips := 0, aborts := 0,
      mismatches := 0, lastTag := tag, session := sess, stream := stream, ctls := [], hostMaps := maps,
      compact := s.modes.bringup, leftover := false, vbd := false, vbdQuiet := 0, ec := EcRun.fresh, taldy := TaldyRun.fresh,
      fax := FaxRun.fresh, legA := la, legB := lb }
  let s := { s with chans := s.chans.insert num x, nextUid := uid + 1 }
  let s := (s.setSlots c.legA.slots (2 * num + 1)).setSlots c.legB.slots (2 * num + 2)
  let s := s.addLoad phase c.costEvery c.costFrame
  let s := (s.placeLeg (2 * num) c.legA).placeLeg (2 * num + 1) c.legB
  let s := match stream with
    | some k => s.openStream k num uid c.emergency
    | none => s
  { s with disp := { s.disp with lastCore := (s.disp.lastCore.erase num).erase (0x10000 + num) } }

/-- An OPEN applies or fails (R103). -/
def applyOpen (s : State) (num : Nat) (c : ChanCfg) (tag : Word) : Except Fail State :=
  let phase := if c.phaseSet then c.phase else s.freePhase
  match s.openCheck num c phase with
  | some f => .error f
  | none => .ok (s.openChan num c phase tag)

/-! ## CLOSE (R92, R93, R106, R115, R188) -/

/-- The tick of boundary B(b), at or before the latest one. -/
def tickOf (s : State) (b : BeatNo) : Nat := s.clk.at0 - (s.clk.n - b).toNat * beatTicks

/-- Ticks of the effective cut guard (R58). -/
def cutTicks (s : State) : Nat := s.get Reg.BEAT_CUT Fd.BEAT_CUT.CUT_CYC * cycTicks

/-- Packets that the last job of beat `n` of a closed channel may still take. -/
def keepFor (s : State) (n : BeatNo) (x : LegRun) : LegRun :=
  { x with inbox := x.inbox.filter fun p => p.stamp < s.tickOf n - s.cutTicks }

/-- A CLOSE applies. The last job is that of the beat before, if the channel has one. -/
def closeChan (s : State) (c : Chan) (unlist : Bool) : State :=
  let last := s.clk.n - 1
  let s := { s with chans := s.chans.erase c.num }
  let s := (s.setSlots c.cfg.legA.slots 0).setSlots c.cfg.legB.slots 0
  let s := (s.subLoad c.phase c.costEvery c.costFrame)
  let s := (s.detachLeg (2 * c.num)).detachLeg (2 * c.num + 1)
  let s := if c.cfg.standing && unlist then s.addWork (.unstand c.num) else s
  let x := { c with lastJob := some last, ctls := c.ctls.filter fun k => beatAtOrAfter last k.1,
                    legA := s.keepFor last c.legA, legB := s.keepFor last c.legB }
  let spent := beatAtOrAfter c.lastBeat last
  let x := if spent then { x with lastJob := some c.lastBeat } else x
  let s := { s with closing := s.closing ++ [x] }
  if spent then s.lastJobDone c.uid c.lastBeat else s

/-- A CLOSE command. -/
def applyClose (s : State) (num : Nat) : Except Fail State :=
  match s.chan num with
  | none => .error (Fail.of .unknownChannel)
  | some c => .ok (s.closeChan c true)

/-! ## MODIFY (R105, R113, R114, R138, R407, R435) -/

/-- KIND or CODEC of a leg changes (R114); a source leg that changes plays from its start. -/
def legRestarts (old new : LegCfg) : Bool :=
  old.kind != new.kind || old.codec? != new.codec? || (new.kind = 2 && old != new)

/-- An action of the host, as against one that a MODIFY brings. -/
def hostCtl : ChanCtl → Bool
  | .ec _ => true
  | .rate _ _ => true
  | .gen _ _ => true
  | .map _ _ => true
  | .send _ => true
  | _ => false

/-- Pending actions that a MODIFY discards: those of the canceller when EC_SIDE changes (R137), those of RATE_LEG_CMD
on a leg that restarts (R225). -/
def ctlDropped (ecSide : Bool) (ra rb : Bool) : ChanCtl → Bool
  | .ec _ => ecSide
  | .rate b _ => if b then rb else ra
  | _ => false

/-- What a MODIFY adds to the actions of the target beat's job, in order. -/
def modifyCtls (s : State) (old new : ChanCfg) (ecReset : Bool) : List ChanCtl :=
  let ra := legRestarts old.legA new.legA
  let rb := legRestarts old.legB new.legB
  let restart (b r : Bool) : List ChanCtl :=
    if r then [.restart b (s.clipAt (new.leg b) (new.khz b))]
    else if (old.leg b).opt != (new.leg b).opt then [.opt b] else []
  let rates := old.khz false != new.khz false || old.khz true != new.khz true || old.intKhz != new.intKhz
  let sessLeg := if old.sessSideB then rb else ra
  let sess := old.sess != new.sess || (old.sess != .none && (old.sessSideB != new.sessSideB || sessLeg))
  let fresh := old.sess != new.sess || old.sess = .fax
  let reset := ecReset || (old.ec = new.ec && new.ec != .off && old.intKhz != new.intKhz)
  (if sess then [.sessEnd fresh] else []) ++ restart false ra ++ restart true rb ++ (if rates then [.retarget] else [])
    ++ (if old.ec != new.ec then [.ecRestart] else [])
    ++ (if reset then [.ec { EcCtl.none with reset := true }] else [])

/-- The actions of a channel after a MODIFY with target `m`: those a job of an earlier beat may still perform, those that
MODIFYs bring to the job of beat `m`, and those of the host. -/
def mergeCtls (m : BeatNo) (drop : ChanCtl → Bool) (new : List ChanCtl) (l : List (BeatNo × ChanCtl)) : List (BeatNo × ChanCtl) :=
  let l := l.filter fun k => k.1 != m || !drop k.2
  (l.filter fun k => k.1 != m || !hostCtl k.2) ++ (new.map fun k => (m, k)) ++ (l.filter fun k => k.1 = m && hostCtl k.2)

/-- Whether a MODIFY fails, by the checks of R105, R113 and R580 in their order.
DEDUCED (log entry 42). -/
def modifyCheck (s : State) (num : Nat) (c : Chan) (new : ChanCfg) (mask : Nat) : Option Fail :=
  let old := c.cfg
  let s0 := (if partSel mask 4 then s.setSlots old.legA.slots 0 else s)
  let s0 := (if partSel mask 5 then s0.setSlots old.legB.slots 0 else s0)
  let slots (b : Bool) (i : Nat) : List (Nat × Nat) := if partSel mask i then (new.leg b).slots else []
  let peak := s.peakLoad
  let next := s.everyLoad - c.costEvery + new.costEvery + s.maxPhase c.phase new.costFrame c.costFrame
  if !s.constrainOk old new then some (Fail.of .notInMode)
  else if new.standing != old.standing || !jointOk new allParts then some (Fail.of .badParam)
  else if (partSel mask 4 && !s.legReady new.legA) || (partSel mask 5 && !s.legReady new.legB)
      || ((partSel mask 3 || partSel mask 4 || partSel mask 5) && !sessReady new) then some (Fail.of .badParam)
  else if ((s0.claimSlots (2 * num + 1) (slots false 4)).bind fun s => s.claimSlots (2 * num + 2) (slots true 5)).isNone then
    some (Fail.of .conflict)
  else if !s.poolsOk old new then some (Fail.of .full)
  else if peak < next && s.get Reg.CHAN_CEILING Fd.CHAN_CEILING.CYCLES < next then
    some { status := .noCapacity, nocap := some (num, 3) }
  else none

/-- The session number after a change: kept while the KIND stays, else drawn from the pool of the new KIND (R406, R407). -/
def sessionAfter (s : State) (c : Chan) (new : ChanCfg) : Option Nat :=
  if new.sess = c.cfg.sess then c.session else s.freeSession new.sess

/-- The recording stream after a change of RECORD (R435): one that stops ends with the job of the beat before. -/
def streamAfter (s : State) (c : Chan) (new : ChanCfg) : Option Nat × State :=
  if new.record = c.cfg.record then (c.stream, s)
  else if new.record then
    match s.freeStream with
    | some k => (some k, s.openStream k c.num c.uid new.emergency)
    | none => (none, s)
  else
    let last := s.clk.n - 1
    let s := match c.stream.bind s.liveStream with
      | some x =>
        if beatAtOrAfter c.lastBeat last then s.endStream x.num
        else s.modStream x.key fun y => { y with endAt := some last }
      | none => s
    (none, s)

/-- The effect of a MODIFY that passes its checks. -/
def modifyChan (s : State) (c : Chan) (new : ChanCfg) (ecReset : Bool) (tag : Word) : State :=
  let old := c.cfg
  let num := c.num
  let m := s.clk.n
  let s := if old.legA = new.legA then s else s.setSlots old.legA.slots 0
  let s := if old.legB = new.legB then s else s.setSlots old.legB.slots 0
  let s := (s.setSlots new.legA.slots (2 * num + 1)).setSlots new.legB.slots (2 * num + 2)
  let s := (s.subLoad c.phase c.costEvery c.costFrame).addLoad c.phase new.costEvery new.costFrame
  let s := if old.legA = new.legA then s else s.placeLeg (2 * num) new.legA
  let s := if old.legB = new.legB then s else s.placeLeg (2 * num + 1) new.legB
  let sess := s.sessionAfter c new
  let (stream, s) := s.streamAfter c new
  let drop := ctlDropped (old.ec != new.ec) (legRestarts old.legA new.legA) (legRestarts old.legB new.legB)
  let ctls := mergeCtls m drop (s.modifyCtls old new ecReset) c.ctls
  s.modLife c.uid fun c =>
    { c with cfg := new, costEvery := new.costEvery, costFrame := new.costFrame, session := sess, stream := stream,
             ctls := ctls, lastTag := tag, hostMaps := if old.sess = new.sess then c.hostMaps else List.replicate 16 freshMap }

/-- A MODIFY command. -/
def applyModify (s : State) (num : Nat) (b : List Byte) (tag : Word) : Except Fail State :=
  let mask := cmdMask b % 128
  let parts := (mergeCfg blankCfg mask b).getD blankCfg
  if s.modes.mode = 0 || (s.modes.bringup && !bringupOk parts mask) then .error (Fail.of .notInMode)
  else match s.chan num with
    | none => .error (Fail.of .unknownChannel)
    | some c =>
      match mergeCfg c.cfg mask b with
      | none => .error (Fail.of .badParam)
      | some new =>
        match s.modifyCheck num c new mask with
        | some f => .error f
        | none => .ok (s.modifyChan c new (bit (cmdMask b) 16) tag)

/-- A staged channel command applies or fails (R89). -/
def applyCmd (s : State) (op : CmdOp) (b : List Byte) (tag : Word) : Except Fail State :=
  let num := cmdChan b
  match op with
  | .openCh =>
    let c := openCfg b
    (s.applyOpen num c tag).map fun s => if c.standing then (s.addWork (.standing num b)).addWork .config else s
  | .modify => s.applyModify num b tag
  | .close => if s.modes.mode = 0 then .error (Fail.of .notInMode) else s.applyClose num

/-- A NO_CAPACITY refusal is recorded (R107). -/
def noteFail (s : State) (f : Fail) : State :=
  match f.nocap with
  | none => s
  | some (num, why) =>
    let s := s.inc Reg.CHAN_NOCAP_CNT Fd.CHAN_NOCAP_CNT.COUNT
    ((s.put Reg.CHAN_NOCAP_CHAN Fd.CHAN_NOCAP_CHAN.CHANNEL num).put Reg.CHAN_NOCAP_INFO Fd.CHAN_NOCAP_INFO.REASON why).event
      Pg.CHAN Ev.CHAN.NOCAP

end State

end Sys2Proof.Machine
end

