-- ==== Sys2Proof/Machine/JobCtx.lean ====
section
/-! DEFINITION. What a job of a beat sees of the configuration: the register values of its beat, and the
parameters of a leg's playout buffer and of a canceller (R92, R143, R182, R189, R190, R193). -/

namespace Sys2Proof.Machine

/-- Register values of one beat. -/
abbrev BeatRegs := Assoc Word

/-- A field of a register in a beat's values. -/
def BeatRegs.field (m : BeatRegs) (a : Nat) (f : Fd) : Nat := bitsOf (Assoc.get resetWord m a) f.hi f.lo

/-- A one-bit field. -/
def BeatRegs.flag (m : BeatRegs) (a : Nat) (f : Fd) : Bool := BeatRegs.field m a f = 1

/-- An extent of dB as a thousandth-dB level: whole dB below 0 dBm0, 0 to 99 (R143). -/
def levelBelow (l : Int) : Nat := min 99 (-(l / 1000)).toNat

/-- Whole microseconds of a signed tick count. -/
def usOf (d : Int) : Int := d / 230400

namespace State

/-- The register values in effect in a beat. The MODE_STATE kept there says whether the beat lies in BRINGUP, and
the BEAT_CUT is that of the beat's own cut. -/
def beatRegs (s : State) (n : BeatNo) : BeatRegs := ((s.cfgs.find? fun p => p.1 = n).map fun p => p.2).getD s.regs

/-- A beat lies in BRINGUP. -/
def beatBringup (s : State) (n : BeatNo) : Bool := BeatRegs.field (s.beatRegs n) Reg.MODE_STATE Fd.MODE_STATE.MODE = 1

/-- A leg meets a case of R189. -/
def tsaHeld (c : Chan) (cfg : ChanCfg) (b : Bool) : Bool :=
  c.vbd || cfg.sessOn .taldy b || !(c.leg b).relayRx.evs.isEmpty || (c.leg b).det.busy

/-- The parameters of a packet leg's playout buffer in a beat. -/
def jctx (s : State) (m : BeatRegs) (bringup : Bool) (c : Chan) (cfg : ChanCfg) (b : Bool) (n : BeatNo) : JCtx :=
  let x := cfg.leg b
  let codec := x.codec?.getD 0
  let h := max (msTicks (5 * x.jbMax)) (msTicks (5 * blockBeats codec))
  { codec := codec, phase := c.phase, beat := n, atB := s.tickOf n,
    cut := BeatRegs.field m Reg.BEAT_CUT Fd.BEAT_CUT.CUT_CYC * cycTicks,
    hmax := if bringup then min h (msTicks 60) else h,
    safety := msTicks (BeatRegs.field m Reg.JBUF_CTRL Fd.JBUF_CTRL.SAFETY_MS),
    hyst := msTicks (BeatRegs.field m Reg.JBUF_CTRL Fd.JBUF_CTRL.HYST_MS),
    windowLen := BeatRegs.field m Reg.JBUF_CTRL Fd.JBUF_CTRL.WINDOW,
    initTicks := msTicks (BeatRegs.field m Reg.JBUF_TIMES Fd.JBUF_TIMES.INIT_MS),
    cnHoldMs := BeatRegs.field m Reg.JBUF_TIMES Fd.JBUF_TIMES.CNG_HOLD_MS,
    tsaOn := BeatRegs.flag m Reg.JBUF_CTRL Fd.JBUF_CTRL.TSA_EN, tsaOk := !tsaHeld c cfg b,
    space := if bringup then 1024 else 16128 }

/-- The parameters of a canceller with profile `p`. -/
def ectx (m : BeatRegs) (bringup : Bool) (cfg : ChanCfg) (p : Nat) : EcCtx :=
  let faced := match cfg.ec.side? with
    | some b => (cfg.leg b).isFax
    | none => false
  let ad := Reg.ECAN_PRF_ADAPT p
  let nl := Reg.ECAN_PRF_NLP p
  let lo := Reg.ECAN_PRF_LOC p
  { wide := cfg.intKhz != 8, bringup := bringup, t38 := faced,
    mu := BeatRegs.field m ad Fd.ECAN_PRF_ADAPT.MU, dtdMargin := BeatRegs.field m ad Fd.ECAN_PRF_ADAPT.DTD_MARGIN,
    dtdHang := BeatRegs.field m ad Fd.ECAN_PRF_ADAPT.DTD_HANG,
    floor := BeatRegs.field m nl Fd.ECAN_PRF_NLP.CNG_FLOOR, ceil := BeatRegs.field m nl Fd.ECAN_PRF_NLP.CNG_CEIL,
    nlpHang := BeatRegs.field m nl Fd.ECAN_PRF_NLP.NLP_HANG, nlpMode := BeatRegs.field m nl Fd.ECAN_PRF_NLP.NLP_MODE,
    disabler := BeatRegs.flag m lo Fd.ECAN_PRF_LOC.DISABLER_EN, convErle := BeatRegs.field m lo Fd.ECAN_PRF_LOC.CONV_ERLE,
    moveBeats := BeatRegs.field m lo Fd.ECAN_PRF_LOC.MOVE_BEATS, movePct := BeatRegs.field m lo Fd.ECAN_PRF_LOC.MOVE_PCT }

end State

end Sys2Proof.Machine
end

