-- ==== Sys2Proof/Machine/BeatRefs.lean ====
section
/-! DEFINITION. The beat's references, alignment and stamps, the cut and the seal, and the snapshot of BEAT_NOW (R47 to R58,
R71). -/

namespace Sys2Proof.Machine

/-- Control words in 16 s of boundaries (R50). -/
def histBeats : Nat := 3200

/-- Nanoseconds of a beat. -/
def beatNs : Int := 5000000

/-- A phase in the range [-2.5 ms, +2.5 ms) (R52). -/
def phaseOf (x : Int) : Int := (x + beatNs / 2).emod beatNs - beatNs / 2

/-- The code of a reference (R48). -/
def RefCode.code : RefCode → Nat
  | .net => 0 | .pcm => 1 | .ten => 2 | .free => 3

/-- The reference of a code. -/
def RefCode.ofCode (n : Nat) : RefCode := if n = 0 then .net else if n = 1 then .pcm else if n = 2 then .ten else .free

/-- The mean of control words, 0 where there is none.
DEDUCED (log entry 14). -/
def meanWord (l : List Int) : Int := if l.isEmpty then 0 else l.foldl (· + ·) 0 / (l.length : Nat)

namespace State

/-! ## Qualification (R49, R353, R497) -/

/-- Replace the references. -/
def setRefs (s : State) (r : Refs) : State := { s with refs := r }

/-- BEAT_REF_STATUS from the references. -/
def showRefs (s : State) : State :=
  let r := s.refs
  let a := Reg.BEAT_REF_STATUS
  let s := ((s.putB a Fd.BEAT_REF_STATUS.QUAL_NET r.qualNet).putB a Fd.BEAT_REF_STATUS.QUAL_PCM r.qualPcm).putB a
    Fd.BEAT_REF_STATUS.QUAL_10M r.qualTen
  let s := ((s.putB a Fd.BEAT_REF_STATUS.ALIGNED r.aligned).putB a Fd.BEAT_REF_STATUS.HOLDOVER r.holdover).putB a
    Fd.BEAT_REF_STATUS.PULL_LIMIT r.limited
  s.put a Fd.BEAT_REF_STATUS.ACTIVE r.active.code

/-- Set or clear the qualification of a reference. -/
def setQual (s : State) (ref : Nat) (on : Bool) : State :=
  let r := s.refs
  (s.setRefs (if ref = 0 then { r with qualNet := on } else if ref = 1 then { r with qualPcm := on }
    else if ref = 2 then { r with qualTen := on } else r)).showRefs

/-- Network time may serve: SYNCED is set and TIME_FREQ lies within ±100 ppm.
DEDUCED (log entry 14). -/
def netMayQualify (s : State) : Bool :=
  s.flag Reg.TIME_CTRL Fd.TIME_CTRL.SYNCED && s.net.freq16.natAbs ≤ 1600000

/-- A reference has stayed within ±100 ppm for 2 s without a missing edge. -/
def qualify (s : State) (ref : Nat) : State :=
  if ref = 3 || (ref = 0 && !s.netMayQualify) then s else (s.setQual ref true).relCheck

/-- A reference is disqualified; the loss of the active one is a fault of class 13. -/
def disqualify (s : State) (ref : Nat) : State :=
  if !s.refQualified ref then s
  else
    let lost := s.activeRef = ref
    let s := s.setQual ref false
    if lost then s.recordFault 13 0 0 11 false else s.relCheck

/-! ## Selection and pull at a boundary (R49, R50, R52, R53) -/

/-- The highest-listed qualified reference.
DEDUCED (log entry 14). -/
def bestRef (s : State) : Option Nat := s.listedRefs.find? fun r => s.refQualified r

/-- The reference that a boundary makes active: while the active one is listed and qualified it stays, unless REVERT lets
a higher-listed one take over.
DEDUCED (log entry 14). -/
def nextRef (s : State) : Nat :=
  let cur := s.activeRef
  match s.bestRef with
  | none => 3
  | some b =>
    if s.listedRefs.contains cur && s.refQualified cur && !s.flag Reg.BEAT_REF_CTRL Fd.BEAT_REF_CTRL.REVERT then cur else b

/-- The active reference changes. -/
def switchRef (s : State) : State :=
  let new := s.nextRef
  if new = s.activeRef then s
  else
    let s := s.setRefs { s.refs with active := RefCode.ofCode new, dco := if new = 3 then meanWord s.refs.hist else s.refs.dco }
    (s.inc Reg.BEAT_REF_STATUS Fd.BEAT_REF_STATUS.SWITCHES).event Pg.BEAT Ev.BEAT.REF_SWITCH

/-- Holdover: references are listed and none is qualified.
DEDUCED (log entry 14). -/
def evalHoldover (s : State) : State :=
  let new := !s.listedRefs.isEmpty && s.bestRef.isNone
  let old := s.refs.holdover
  (s.setRefs { s.refs with holdover := new }).eventIf (new && !old) Pg.BEAT Ev.BEAT.HOLDOVER

/-- The phase error of the latest boundary in ns, where the active reference gives phase. -/
def phaseErr (s : State) (inp : BoundaryInput) : Option Int :=
  match s.refs.active with
  | .net => some (phaseOf s.netNs)
  | .pcm => some (phaseOf inp.phaseNs)
  | .ten => if s.flag Reg.BEAT_REF_CTRL Fd.BEAT_REF_CTRL.PPS_PHASE then some (phaseOf inp.phaseNs) else none
  | .free => none

/-- The frequency that the active reference asks for, in ppb. -/
def refFreq (s : State) (inp : BoundaryInput) : Int :=
  match s.refs.active with
  | .net => s.net.freq16 / 16
  | .pcm => inp.pcmPpb
  | .ten => inp.tenPpb
  | .free => s.refs.dco

/-- The pull toward the phase grid, in ppb.
DEDUCED (log entry 14). -/
def phasePull (s : State) (e : Int) : Int :=
  let k : Int := s.get Reg.BEAT_SLEW Fd.BEAT_SLEW.PPM * 1000
  if e = 0 then 0 else if 0 < e then k else -k

/-- ALIGNED after a boundary with a phase error.
DEDUCED (log entry 14). -/
def alignedAfter (was : Bool) (e : Option Int) : Bool :=
  match e with
  | none => false
  | some e => if e.natAbs < 1000 then true else if 10000 ≤ e.natAbs then false else was

/-- BEAT_SECPOS.
DEDUCED (log entry 14). -/
def showSecPos (s : State) : State :=
  let ok := s.refs.aligned && s.refs.active = .net
  let pos := (s.refs.stamp.ns + 2500000) / 5000000 % 200
  (s.putB Reg.BEAT_SECPOS Fd.BEAT_SECPOS.VALID ok).put Reg.BEAT_SECPOS Fd.BEAT_SECPOS.POS (if ok then pos else 0)

/-- The boundary is stamped; after a step it carries the new mapping (R54). -/
def stampBoundary (s : State) : State :=
  let s := s.setRefs { s.refs with stamp := s.netStamp }
  if s.refs.rebase then
    ((s.setRefs { s.refs with rebase := false }).wr Reg.BEAT_REBASE s.clk.n).event Pg.BEAT Ev.BEAT.REBASE
  else s

/-- The DCO takes a control word: the network clock goes on from its reading. -/
def setDco (s : State) (w : Int) : State :=
  let s := { s with net := s.net.rebase s.clk.now s.refs.dco }
  (s.setRefs { s.refs with dco := w, hist := (w :: s.refs.hist).take histBeats }).putI Reg.BEAT_FREQ Fd.BEAT_FREQ.PPB w

/-- The references at a boundary. -/
def refBoundary (s : State) (inp : BoundaryInput) : State :=
  let s := s.stampBoundary
  let s := if s.netMayQualify then s else s.disqualify 0
  let s := s.switchRef.evalHoldover
  let e := s.phaseErr inp
  let want := s.refFreq inp + (match e with
    | some e => s.phasePull e
    | none => 0)
  let limited := want < -700000 || 700000 < want
  let aligned := alignedAfter s.refs.aligned e
  let wasLimited := s.refs.limited
  let wasAligned := s.refs.aligned
  let s := s.setRefs { s.refs with aligned := aligned, limited := limited }
  let s := s.setDco (clampInt (-700000) 700000 want)
  let s := s.putI Reg.BEAT_PHASE_ERR Fd.BEAT_PHASE_ERR.ERR_NS (e.getD 0)
  let s := s.eventIf (limited && !wasLimited) Pg.BEAT Ev.BEAT.PULL_LIMIT
  ((s.eventIf (aligned != wasAligned) Pg.BEAT Ev.BEAT.ALIGN_CHANGE).showSecPos.showRefs).relCheck

/-! ## The cut and the seal (R56 to R58) -/

/-- The tick of the cut of the next beat. -/
def nextCut (s : State) : Nat := s.clk.at0 + beatTicks - s.cutTicks

/-- The tick of the cut of the current beat. -/
def lastCut (s : State) : Nat := s.clk.at0 - BeatRegs.field (s.beatRegs s.clk.n) Reg.BEAT_CUT Fd.BEAT_CUT.CUT_CYC * cycTicks

/-- C(n) of the next beat: its seal is awaited. -/
def cutNext (s : State) : State :=
  if s.clk.started && s.nextCut ≤ s.clk.now then s.setRefs { s.refs with sealWait := true } else s

/-- A frame stamped before an instant still waits for the classifier.
DESIGN CHOICE (log entry 15). -/
def framesBefore (s : State) (t : Nat) : Bool := s.nw.waiting.any fun w => w.stamp < t

/-- The BEAT jobs of the current beat are made ready, for every channel that was open before its boundary's commands, home
side first (R60, R119). -/
def readyBeat (s : State) : State :=
  s.openChans.foldl (fun s c =>
    if c.openBeat = s.clk.n then s
    else
      let s := s.makeReady (s.beatJob c s.clk.n false)
      if c.cfg.paired && (s.partnerOf c.home).isSome then s.makeReady (s.beatJob c s.clk.n true) else s) s

/-- A seal that falls after its boundary releases the beat's jobs.
DESIGN CHOICE (log entry 3).
DESIGN CHOICE (log entry 15). -/
def lateSeal (s : State) : State :=
  if s.refs.late then
    (((s.setRefs { s.refs with late := false }).inc Reg.BEAT_SEAL_LATE Fd.BEAT_SEAL_LATE.COUNT).event Pg.BEAT Ev.BEAT.SEAL_LATE).readyBeat
  else s

/-- The ingress seal: every frame stamped before the cut has been placed or dropped. -/
def ingressSeal (s : State) : State :=
  if s.refs.late then (if s.framesBefore s.lastCut then s else s.lateSeal)
  else if s.framesBefore s.nextCut then s
  else s.setRefs { s.refs with sealWait := false }

/-! ## BEAT_NOW (R71) -/

/-- A read of BEAT_NOW latches the cycle and the stamp of the latest boundary. -/
def beatNow (s : State) : Word × State :=
  let x := s.refs.stamp
  let s := s.put Reg.BEAT_CYCLE Fd.BEAT_CYCLE.CYC (if s.clk.started then s.clk.cycle else 0)
  let s := (s.wr Reg.BEAT_STAMP_SEC_LO (Word.of x.sec)).wr Reg.BEAT_STAMP_SEC_HI (Word.of (x.gen * 2 ^ 24 + x.sec / 2 ^ 32 % 65536))
  (s.clk.n, s.wr Reg.BEAT_STAMP_NS (Word.of x.ns))

end State

/-! ## Meanings -/

/-- REFERENCE_QUALIFY (R49). -/
def execReferenceQualify (t : Nat) (ref : BitVec 2) (s : State) : Host.Outcome State Fault Refusal :=
  s.act t fun s => s.qualify ref.toNat

/-- REFERENCE_DISQUALIFY (R49, R497). -/
def execReferenceDisqualify (t : Nat) (ref : BitVec 2) (s : State) : Host.Outcome State Fault Refusal :=
  s.act t fun s => s.disqualify ref.toNat

/-- CUT (R56). -/
def execCut (t : Nat) (s : State) : Host.Outcome State Fault Refusal := s.act t State.cutNext

/-- INGRESS_SEAL (R57). -/
def execIngressSeal (t : Nat) (s : State) : Host.Outcome State Fault Refusal := s.act t State.ingressSeal

/-- BEAT_NOW_READ (R71). -/
def execBeatNowRead (t : Nat) (p : Port) (s : State) : Host.Outcome State Fault Refusal :=
  s.act t fun s => s.hostRead p fun s => s.beatNow

end Sys2Proof.Machine
end

