-- ==== Sys2Proof/Machine/Epd.lean ====
section
/-! DEFINITION. The endpoint directory: keys, hash and buckets, insertion by displacement, records and the
EPD commands (R278 to R285, R541). -/

namespace Sys2Proof.Machine

/-! ## Hash and buckets (R279) -/

/-- F of a hash: 11 bits, never 0. -/
def epdF (h : Nat) : Nat := (h / 2 ^ 21) ||| 1

/-- B0 of a hash for bucket width `w`. -/
def epdB0 (w h : Nat) : Nat := h % 2 ^ w

/-- The other bucket of an entry held in bucket `b`. -/
def epdAlt (w b h : Nat) : Nat := b ^^^ (epdF h * 2 ^ (w - 11))

/-- The hash of a key: CRC-32C of its 40 bytes. -/
def epdHash (key : List Byte) : Nat := crc32c (slice key 0 40)

/-- A way of a bucket. -/
def wayOf (ways : Assoc (Nat × Nat)) (b w : Nat) : Option (Nat × Nat) := ways.find? (4 * b + w)

/-- The lowest free way of a bucket. -/
def freeWay (ways : Assoc (Nat × Nat)) (b : Nat) : Option Nat := [0, 1, 2, 3].find? (fun w => (wayOf ways b w).isNone)

/-- The displacement walk of R281 from bucket `b` with entry `cur` in hand: `fuel` moves are left. It
answers the ways and DISP, or nothing when 500 moves found no free way. -/
def epdWalk (w : Nat) : Nat → Nat → Nat → (Nat × Nat) → Assoc (Nat × Nat) → Option (Assoc (Nat × Nat) × Nat)
  | 0, _, _, _, _ => none
  | fuel + 1, d, b, cur, ways =>
    let i := 4 * b + d % 4
    match ways.find? i with
    | none => some (ways.insert i cur, d)
    | some out =>
      let ways := ways.insert i cur
      let b' := epdAlt w b out.1
      match freeWay ways b' with
      | some v => some (ways.insert (4 * b' + v) out, d + 1)
      | none => epdWalk w fuel (d + 1) b' out ways

/-- INSERT of a way entry (R281): both buckets first, then the walk from B0. -/
def epdPlace (w : Nat) (e : Nat × Nat) (ways : Assoc (Nat × Nat)) : Option (Assoc (Nat × Nat) × Nat) :=
  let b0 := epdB0 w e.1
  let b1 := epdAlt w b0 e.1
  match freeWay ways b0 with
  | some v => some (ways.insert (4 * b0 + v) e, 0)
  | none => match freeWay ways b1 with
    | some v => some (ways.insert (4 * b1 + v) e, 0)
    | none => epdWalk w 500 0 b0 e ways

/-- A lookup (R280): bucket B0, ways 0 to 3, then bucket B1; the first way whose hash and key match. -/
def epdFind (w : Nat) (recs : Assoc EpRec) (ways : Assoc (Nat × Nat)) (key : List Byte) : Option Nat :=
  let h := epdHash key
  let b0 := epdB0 w h
  let at4 (b : Nat) : List Nat := [4 * b, 4 * b + 1, 4 * b + 2, 4 * b + 3]
  (at4 b0 ++ at4 (epdAlt w b0 h)).findSome? (fun i =>
    match ways.find? i with
    | some (h', hd) => if h' = h && (recs.find? hd).any (fun r => r.key = key) then some hd else none
    | none => none)

/-! ## Records (R284) -/

/-- Bits of the 192 record bytes that must be 0: FLAGS [7:5], CLASS [7:4], byte 107, LEG [31:17], bytes 184
to 255; bit 0 of FLAGS is read only. -/
def recReserved (d : List Byte) : Bool :=
  leAt d 40 1 / 32 != 0 || leAt d 41 1 / 16 != 0 || leAt d 43 1 != 0 || leAt d 44 4 / 2 ^ 17 != 0
    || (slice d 120 72).any (fun b => b != 0)

/-- The reserved bits of the key: bits [15:12] of DOMAIN and byte 3. -/
def keyReserved (d : List Byte) : Bool := leAt d 0 2 / 4096 != 0 || leAt d 3 1 != 0

/-- PROTO is TCP, UDP or SCTP. -/
def protoOk (p : Nat) : Bool := p = 6 || p = 17 || p = 132

/-- The field values of a record with protocol `proto` (R284). -/
def recFieldsOk (d : List Byte) (proto : Nat) : Bool :=
  let flags := leAt d 40 1
  let leg := leAt d 44 4
  !recReserved d && protoOk proto
    && (bit flags 2 || (proto = 17 && leg ≤ 131071))
    && (!bit flags 4 || (leAt d 48 2 != 0 && leAt d 50 2 != 0 && leAt d 52 2 != 0 && leAt d 54 2 != 0 && leAt d 48 2 ≤ leAt d 52 2))

/-- Meter units of a packet (R287). -/
def meterUnit : Nat := 24576000

/-- A record from the bytes of EPD_DATA, with a full meter last run at `now` and counts at 0. -/
def recOf (d : List Byte) (now : Nat) : EpRec :=
  let f := leAt d 40 1
  { key := slice d 0 40, emergency := bit f 1, bindRing := bit f 2, redRing := bit f 3, meterEn := bit f 4,
    cls := leAt d 41 1 % 16, ring := leAt d 42 1, leg := leAt d 44 4 % 2 ^ 17, cir := leAt d 48 2, cbs := leAt d 50 2,
    pir := leAt d 52 2, pbs := leAt d 54 2, tc := leAt d 50 2 * meterUnit, tp := leAt d 54 2 * meterUnit, last := now,
    green := 0, yellow := 0, red := 0, host := slice d 88 32 }

/-- The 192 bytes of a record as READ returns them. -/
def EpRec.bytes (r : EpRec) : List Byte :=
  slice r.key 0 40
    ++ leBytes 1 (1 + 2 * b2n r.emergency + 4 * b2n r.bindRing + 8 * b2n r.redRing + 16 * b2n r.meterEn)
    ++ leBytes 1 r.cls ++ leBytes 1 r.ring ++ [0] ++ leBytes 4 r.leg ++ leBytes 2 r.cir ++ leBytes 2 r.cbs ++ leBytes 2 r.pir
    ++ leBytes 2 r.pbs ++ leBytes 6 r.tc ++ leBytes 6 r.tp ++ leBytes 8 r.last ++ leBytes 4 r.green ++ leBytes 4 r.yellow
    ++ leBytes 4 r.red ++ slice r.host 0 32 ++ List.replicate 72 0

/-- MODIFY replaces everything but the key, the meter state and the counts; TC and TP are clamped (R282). -/
def EpRec.modify (r : EpRec) (d : List Byte) : EpRec :=
  let n := recOf d 0
  { n with key := r.key, tc := min r.tc (n.cbs * meterUnit), tp := min r.tp (n.pbs * meterUnit), last := r.last, green := r.green,
           yellow := r.yellow, red := r.red }

namespace State

/-- MEM_CFG.DENSITY: bucket number width 21 with 16 Gb devices, 20 with 8 Gb devices (R279). -/
def epdWidth (s : State) : Nat := if s.flag Reg.MEM_CFG Fd.MEM_CFG.DENSITY then 20 else 21

/-- Positions P: handles run from 0 to P − 1. -/
def epdPositions (s : State) : Nat := 4 * 2 ^ s.epdWidth

/-- The on-chip directory serves until BRINGUP has ended (R541, R544).
DESIGN CHOICE (log entry 57). -/
def epdOnChip (s : State) : Bool := !s.modes.ended

/-- The records of the directory in use. -/
def epdRecs (s : State) : Assoc EpRec := if s.epdOnChip then s.nw.epd.chip else s.nw.epd.recs

/-- Replace the records of the directory in use. -/
def setEpdRecs (s : State) (m : Assoc EpRec) : State :=
  let e := if s.epdOnChip then { s.nw.epd with chip := m } else { s.nw.epd with recs := m }
  let s := { s with nw := { s.nw with epd := e } }
  let s := s.put Reg.EPD_COUNT Fd.EPD_COUNT.COUNT m.length
  if s.epdOnChip then s.put Reg.MODE_EPD_ONCHIP Fd.MODE_EPD_ONCHIP.COUNT m.length else s

/-- A record of the on-chip directory has changed: Kwakel has it to copy again (R544).
DESIGN CHOICE (log entry 57). -/
def copyAgain (s : State) : State := if s.epdOnChip then { s with modes := { s.modes with dirCopied := false } } else s

/-- Look a key up in the directory in use (R280, R541). -/
def epdLookup (s : State) (key : List Byte) : Option Nat :=
  if s.epdOnChip then (List.find? (fun (p : Nat × EpRec) => p.2.key = key) s.nw.epd.chip).map (·.1)
  else epdFind s.epdWidth s.nw.epd.recs s.nw.epd.ways key

/-- The result registers of a completed command (R282). -/
def epdResult (s : State) (st : Status) (found : Bool) (handle : Nat) : State :=
  let s := (s.putB Reg.EPD_RESULT Fd.EPD_RESULT.FOUND found).put Reg.EPD_RESULT Fd.EPD_RESULT.HANDLE handle
  (((s.setBusy Pg.EPD false).status Pg.EPD st)).event Pg.EPD Ev.EPD.CMD_DONE

/-- Put a new record in the directory in use: DISP, or nothing when it is full (R281, R541). -/
def epdAdd (s : State) (handle : Nat) (r : EpRec) : Option (State × Nat) :=
  if s.epdOnChip then
    if 4096 ≤ s.nw.epd.chip.length then none else some ((s.setEpdRecs (s.nw.epd.chip.insert handle r)).copyAgain, 0)
  else match epdPlace s.epdWidth (epdHash r.key, handle) s.nw.epd.ways with
    | none => none
    | some (ways, d) =>
      some ({ s with nw := { s.nw with epd := { s.nw.epd with ways := ways } } }.setEpdRecs (s.nw.epd.recs.insert handle r), d)

/-- INSERT at its completion. -/
def epdInsert (s : State) (handle : Nat) (d : List Byte) : State :=
  if keyReserved d || s.epdPositions ≤ handle || !recFieldsOk d (leAt d 2 1) then s.epdResult .badParam false handle
  else if (s.epdRecs.find? handle).isSome then s.epdResult .conflict false handle
  else match s.epdLookup (slice d 0 40) with
    | some h => s.epdResult .conflict true h
    | none =>
      match s.epdAdd handle (recOf d s.clk.cycles) with
      | none => (((s.inc Reg.EPD_FULL_CNT Fd.EPD_FULL_CNT.COUNT).event Pg.EPD Ev.EPD.FULL)).epdResult .full false handle
      | some (s, disp) =>
        ((s.put Reg.EPD_DISP Fd.EPD_DISP.DISP disp).raise Reg.EPD_MAXDISP Fd.EPD_MAXDISP.DISP disp).epdResult .ok false handle

/-- DELETE at its completion: way entry and record cleared. -/
def epdDelete (s : State) (handle : Nat) : State :=
  if (s.epdRecs.find? handle).isNone then s.epdResult .badParam false handle
  else
    let s := (s.setEpdRecs (s.epdRecs.erase handle)).copyAgain
    let s := if s.epdOnChip then s
      else { s with nw := { s.nw with epd := { s.nw.epd with ways := s.nw.epd.ways.filter (fun p => p.2.2 ≠ handle) } } }
    s.epdResult .ok false handle

/-- MODIFY at its completion. -/
def epdModify (s : State) (handle : Nat) (d : List Byte) : State :=
  match s.epdRecs.find? handle with
  | none => s.epdResult .badParam false handle
  | some r =>
    if !recFieldsOk d (leAt r.key 2 1) then s.epdResult .badParam false handle
    else (s.setEpdRecs (s.epdRecs.insert handle (r.modify d))).copyAgain.epdResult .ok false handle

/-- Write words to EPD_DATA. -/
def putEpdData (s : State) : List Word → Nat → State
  | [], _ => s
  | w :: ws, k => putEpdData (s.wr (Reg.EPD_DATA k) w) ws (k + 1)

/-- EPD_DATA as bytes. -/
def epdData (s : State) : List Byte := (List.range 48).flatMap (fun k => wordBytes (s.rd (Reg.EPD_DATA k)))

/-- READ at its completion. -/
def epdRead (s : State) (handle : Nat) : State :=
  match s.epdRecs.find? handle with
  | none => s.epdResult .badParam false handle
  | some r => (s.putEpdData (bytesWords 48 r.bytes) 0).epdResult .ok false handle

/-- LOOKUP at its completion: the key fields, then R280. -/
def epdSearch (s : State) (handle : Nat) (d : List Byte) : State :=
  if keyReserved d || !protoOk (leAt d 2 1) then s.epdResult .badParam false handle
  else match s.epdLookup (slice d 0 40) with
    | some h => s.epdResult .ok true h
    | none => s.epdResult .ok false 0

/-- From the start of WIPING, INSERT and MODIFY complete with NOT_IN_MODE (R553). -/
def wiping (s : State) : Bool := s.modes.phase = .wiping || s.modes.phase = .sealed

/-- A write of EPD_CMD: refused with BUSY while one runs; the command copies EPD_DATA (R282). -/
def epdStart (s : State) (op handle : Nat) : State :=
  if s.isBusy Pg.EPD then s.status Pg.EPD .busy
  else if op = 0 || 5 < op then s.epdResult .badParam false handle
  else { s with nw := { s.nw with epd := { s.nw.epd with cmd := some (op, handle, s.epdData) } } }.setBusy Pg.EPD true

/-- A directory command completes (R283). -/
def epdDone (s : State) : State :=
  match s.nw.epd.cmd with
  | none => s
  | some (op, h, d) =>
    let s := { s with nw := { s.nw with epd := { s.nw.epd with cmd := none } } }
    if s.wiping && (op = 1 || op = 3) then s.epdResult .notInMode false h
    else match op with
      | 1 => s.epdInsert h d
      | 2 => s.epdDelete h
      | 3 => s.epdModify h d
      | 4 => s.epdRead h
      | _ => s.epdSearch h d

end State

/-! ## Meanings -/

/-- EPD_INSERT (R281, R282): the write of EPD_CMD. -/
def execEpdInsert (t : Nat) (p : Port) (handle : BitVec 23) (s : State) : Host.Outcome State Fault Refusal :=
  s.act t fun s => s.hostWrite p Reg.EPD_CMD fun s => s.epdStart 1 handle.toNat

/-- EPD_DELETE (R282). -/
def execEpdDelete (t : Nat) (p : Port) (handle : BitVec 23) (s : State) : Host.Outcome State Fault Refusal :=
  s.act t fun s => s.hostWrite p Reg.EPD_CMD fun s => s.epdStart 2 handle.toNat

/-- EPD_MODIFY (R282). -/
def execEpdModify (t : Nat) (p : Port) (handle : BitVec 23) (s : State) : Host.Outcome State Fault Refusal :=
  s.act t fun s => s.hostWrite p Reg.EPD_CMD fun s => s.epdStart 3 handle.toNat

/-- EPD_READ (R282). -/
def execEpdRead (t : Nat) (p : Port) (handle : BitVec 23) (s : State) : Host.Outcome State Fault Refusal :=
  s.act t fun s => s.hostWrite p Reg.EPD_CMD fun s => s.epdStart 4 handle.toNat

/-- EPD_LOOKUP (R282). -/
def execEpdLookup (t : Nat) (p : Port) (handle : BitVec 23) (s : State) : Host.Outcome State Fault Refusal :=
  s.act t fun s => s.hostWrite p Reg.EPD_CMD fun s => s.epdStart 5 handle.toNat

/-- EPD_CMD_DONE (R282, R283). -/
def execEpdCmdDone (t : Nat) (s : State) : Host.Outcome State Fault Refusal := s.act t fun s => s.epdDone

end Sys2Proof.Machine
end

