-- ==== Sys2Proof/Machine/ShpOps.lean ====
section
/-! DEFINITION. Shapers: buckets, refills and states (R312 to R314). -/

namespace Sys2Proof.Machine

/-- Units of one packet in a bucket (R312). -/
def shpUnit : Nat := 50000

/-- The shaping state of a node, coded as EGS_ST_STATUS.SHAPE: 0 unshaped, 1 COMMIT, 2 EXCESS, 3 BLOCKED (R314). -/
def Shaper.state (x : Shaper) : Nat :=
  if !x.cfg.en then 0 else if x.tp < shpUnit then 3 else if x.tc < shpUnit then 2 else 1

/-- A signed bucket in thousandths of a packet, rounded down. -/
def milliOf (t : Int) : Int := t / 50

/-- New settings at a refill at tick `q`, which is stamped after their WRITE (R313).
DEDUCED (log entry 31). -/
def Shaper.adopt (x : Shaper) (q : Nat) : Shaper :=
  match x.pend with
  | none => x
  | some (at_, c) =>
    if q ≤ at_ then x
    else if c.en && !x.cfg.en then { cfg := c, tc := c.cbs * shpUnit, tp := c.pbs * shpUnit, pend := none }
    else { cfg := c, tc := min x.tc (c.cbs * shpUnit), tp := min x.tp (c.pbs * shpUnit), pend := none }

/-- One refill at tick `q` (R312, R313). -/
def Shaper.refill (x : Shaper) (q : Nat) : Shaper :=
  let x := x.adopt q
  if x.cfg.en then
    { x with tc := min (x.cfg.cbs * shpUnit) (x.tc + x.cfg.cir), tp := min (x.cfg.pbs * shpUnit) (x.tp + x.cfg.pir) }
  else x

/-- What one packet of a train takes (R314). -/
def Shaper.take (x : Shaper) (excess : Bool) : Shaper :=
  if x.cfg.en then { x with tc := if excess then x.tc else x.tc - shpUnit, tp := x.tp - shpUnit } else x

end Sys2Proof.Machine
end

