-- ==== Sys2Proof/Machine/Time.lean ====
section
/-! DEFINITION. The network clock, egress stamps, pulses, PPS and time of day, and gate control lists
(R348 to R367). -/

namespace Sys2Proof.Machine

/-- Ticks of `n` nanoseconds. -/
def nsTicks (n : Nat) : Nat := n * 2304 / 10

/-- Nanoseconds in a second. -/
def nsPerSec : Nat := 1000000000

/-- The first point of a grid start + N × period, N any integer, at or after `x` (R361). -/
def gridAtOrAfter (start period x : Nat) : Nat :=
  if period = 0 then x else x + ((start : Int) - x).emod period |>.toNat

/-- The first point base + N × period, N ≥ 0, at or after `x`. -/
def gridFrom (base period x : Nat) : Nat :=
  if x ≤ base then base else if period = 0 then x else base + (x - base + period - 1) / period * period

/-! ## Gate control lists (R364 to R367) -/

/-- The entry of a list that lies at offset `o` of its cycle, its number counted from `i`: the last entry
extends to the end of the cycle. -/
def entryAt : List GateEntry → Nat → Nat → Nat
  | [], i, _ => i
  | [_], i, _ => i
  | e :: es, i, o => if o < e.interval then i else entryAt es (i + 1) (o - e.interval)

/-- The offset of network time `x` in a list's cycle; the grid extends before its start. -/
def GateList.offset (g : GateList) (x : Nat) : Nat :=
  if g.cycle = 0 then 0 else (((x : Int) - g.start).emod g.cycle).toNat

/-- The entry in force at network time `x`. -/
def GateList.at (g : GateList) (x : Nat) : Nat := entryAt g.entries 0 (g.offset x)

/-- The gates of an entry. -/
def GateList.gates (g : GateList) (i : Nat) : Nat :=
  match g.entries[i]? with
  | some e => e.gates
  | none => 0

/-- The intervals of one cycle as (gates, ns), cut or extended to the cycle time. -/
def cycleParts : List GateEntry → Nat → List (Nat × Nat)
  | [], _ => []
  | [e], left => if left = 0 then [] else [(e.gates, left)]
  | e :: es, left => if left = 0 then [] else (e.gates, min e.interval left) :: cycleParts es (left - min e.interval left)

/-- From offset `o` of the parts, the ns until gate `k` first closes; `none` when it never does in them. -/
def closeIn (k : Nat) : List (Nat × Nat) → Nat → Option Nat
  | [], _ => none
  | (g, d) :: rest, o =>
    if d ≤ o then closeIn k rest (o - d)
    else if !bit g k then some 0
    else (closeIn k rest 0).map (· + (d - o))

/-- The ns from network time `x` to the next close of gate `k`: 0 while it is closed, `none` when it never
closes (R366). -/
def GateList.nextClose (g : GateList) (k x : Nat) : Option Nat :=
  let parts := cycleParts g.entries g.cycle
  closeIn k (parts ++ parts) (g.offset x)

namespace State

/-- A port's gates. -/
def gateOf (s : State) (p : Nat) : GateState := s.gates.getD p GateState.fresh

/-- Replace a port's gates. -/
def setGate (s : State) (p : Nat) (g : GateState) : State := { s with gates := putAt GateState.fresh s.gates p g }

/-- GATE_CUR shows the gates in force: all open with EN = 0, INIT_GATES without an operating list, else
those of the entry in force (R364). -/
def showGates (s : State) (p : Nat) : State :=
  let g := s.gateOf p
  let v := if !s.flag (Reg.GATE_CTRL p) Fd.GATE_CTRL.EN then 0xFF
    else match g.oper with
      | none => s.get (Reg.GATE_CTRL p) Fd.GATE_CTRL.INIT_GATES
      | some o => o.gates g.entry
  (s.put (Reg.GATE_CUR p) Fd.GATE_CUR.GATES v).put (Reg.GATE_CUR p) Fd.GATE_CUR.ENTRY g.entry

/-- Whether a frame of `ns` of a class may start at network time `x`: its gate is open and the frame ends
before the next close (R366). -/
def gateAllows (s : State) (p k ns : Nat) : Bool :=
  if !s.flag (Reg.GATE_CTRL p) Fd.GATE_CTRL.EN then true
  else match (s.gateOf p).oper with
    | none => bit (s.get (Reg.GATE_CTRL p) Fd.GATE_CTRL.INIT_GATES) k
    | some o => match o.nextClose k s.netNs with
      | none => true
      | some d => ns < d

/-- Write a network time in three registers. -/
def putTime (s : State) (lo hi nsr : Nat) (x : Nat) : State :=
  ((s.wr lo (Word.of (x / nsPerSec))).put hi ⟨15, 0⟩ (x / nsPerSec / 2 ^ 32)).wr nsr (Word.of (x % nsPerSec))

/-- A network time from three registers, in ns. -/
def getTime (s : State) (lo hi nsr : Nat) : Nat :=
  ((s.rd lo).toNat + s.get hi ⟨15, 0⟩ * 2 ^ 32) * nsPerSec + (s.rd nsr).toNat

/-- The pending list is placed: it starts at the smallest base + N × cycle at least 2 µs after now. -/
def placeGate (s : State) (p : Nat) (base cycle : Nat) (es : List GateEntry) : State × Bool :=
  let start := gridFrom base cycle (s.netNs + 2000)
  let s := s.setGate p { s.gateOf p with pend := some { start := start, base := base, cycle := cycle, entries := es } }
  let s := s.putTime (Reg.GATE_START_SEC_LO p) (Reg.GATE_START_SEC_HI p) (Reg.GATE_START_NS p) start
  ((s.putB (Reg.GATE_STATE p) Fd.GATE_STATE.ADJUSTED (start != base)).putB (Reg.GATE_STATE p) Fd.GATE_STATE.PENDING true, start != base)

/-- GATE_CMD.CHANGE (R365). -/
def gateChange (s : State) (p : Nat) : State :=
  let len := s.get (Reg.GATE_ADMIN_LEN p) Fd.GATE_ADMIN_LEN.LEN
  let cyc := s.get (Reg.GATE_ADMIN_CYCLE p) Fd.GATE_ADMIN_CYCLE.NS
  let es := (List.range len).map (fun i =>
    { gates := s.get (Reg.GATE_ADMIN p i) Fd.GATE_ADMIN.GATES, interval := s.get (Reg.GATE_ADMIN p i) Fd.GATE_ADMIN.INTERVAL : GateEntry })
  if len < 1 || 256 < len || cyc < 1000 || 1000000000 < cyc || es.any (fun e => e.interval = 0) then s.status (Pg.GATE p) .badParam
  else if (s.gateOf p).pend.isSome then s.status (Pg.GATE p) .busy
  else
    let base := s.getTime (Reg.GATE_ADMIN_BASE_SEC_LO p) (Reg.GATE_ADMIN_BASE_SEC_HI p) (Reg.GATE_ADMIN_BASE_NS p)
    let (s, adj) := s.placeGate p base cyc es
    if adj then (s.status (Pg.GATE p) .startAdjusted).event (Pg.GATE p) Ev.GATE.START_ADJ else s.status (Pg.GATE p) .ok

/-- GATE_CMD.CANCEL withdraws a pending change (R365). -/
def gateCancel (s : State) (p : Nat) : State :=
  ((s.setGate p { s.gateOf p with pend := none }).putB (Reg.GATE_STATE p) Fd.GATE_STATE.PENDING false).status (Pg.GATE p) .ok

/-- A pending list whose start has come becomes the operating list (R365). -/
def gateStart (s : State) (p : Nat) : State :=
  let g := s.gateOf p
  match g.pend with
  | none => s
  | some l =>
    if l.start ≤ s.netNs then
      let s := s.setGate p { pend := none, oper := some l, entry := l.at s.netNs }
      let s := (s.putB (Reg.GATE_STATE p) Fd.GATE_STATE.PENDING false).putB (Reg.GATE_STATE p) Fd.GATE_STATE.OPER true
      let s := (s.put (Reg.GATE_OPER_CYCLE p) Fd.GATE_OPER_CYCLE.NS l.cycle).put (Reg.GATE_OPER_LEN p) Fd.GATE_OPER_LEN.LEN l.entries.length
      ((s.inc (Reg.GATE_CHANGE_CNT p) Fd.GATE_CHANGE_CNT.COUNT).showGates p).event (Pg.GATE p) Ev.GATE.CHANGED
    else s

/-- The entry in force follows the list's grid at the clock reading (R364, R367). -/
def gateEntry (s : State) (p : Nat) : State :=
  let g := s.gateOf p
  match g.oper with
  | none => s
  | some l => (s.setGate p { g with entry := l.at s.netNs }).showGates p

/-- What a step of the clock does to a port's lists: the operating list takes the entry of its grid, and a
pending list whose start a forward step carries the clock past is placed again (R367).
DESIGN CHOICE (log entry 3). -/
def gateStep (s : State) (p : Nat) (before : Nat) : State :=
  let s := s.gateEntry p
  match (s.gateOf p).pend with
  | none => s
  | some l => if before < l.start && l.start < s.netNs then
      let (s, adj) := s.placeGate p l.base l.cycle l.entries
      s.eventIf adj (Pg.GATE p) Ev.GATE.START_ADJ
    else s

/-! ## Pulse generators (R359 to R361) -/

/-- A pulse generator. -/
def pgOf (s : State) (k : Nat) : PulseGen :=
  s.pgs.getD k PulseGen.fresh

/-- Replace a pulse generator. -/
def setPg (s : State) (k : Nat) (g : PulseGen) : State := { s with pgs := putAt PulseGen.fresh s.pgs k g }

/-- PG_STATUS.STATE codes. -/
def pgCode : PgState → Nat
  | .idle => 0 | .armed => 1 | .train => 2 | .fired => 3

/-- Set a generator's state and show it. -/
def showPg (s : State) (k : Nat) (g : PulseGen) : State :=
  (s.setPg k g).put (Reg.PG_STATUS k) Fd.PG_STATUS.STATE (pgCode g.st)

/-- A pulse begins on output k for `ns` of elapsed time, with the polarity of PG_CTRL (R360). -/
def pulse (s : State) (k ns : Nat) (g : PulseGen) : State :=
  let low := k < 4 && s.flag (Reg.PG_CTRL k) Fd.PG_CTRL.POL
  (s.setPg k { g with high := true, endAt := s.clk.now + nsTicks ns }).emit (.pulse k (!low))

/-- A pulse that has reached its width ends (R360). -/
def pulseEnd (s : State) (k : Nat) : State :=
  let g := s.pgOf k
  let low := k < 4 && s.flag (Reg.PG_CTRL k) Fd.PG_CTRL.POL
  if g.high && g.endAt ≤ s.clk.now then (s.setPg k { g with high := false }).emit (.pulse k low) else s

/-- Report the status of an ARM. -/
def armStatus (s : State) (k : Nat) (st : Status) : State :=
  (s.put (Reg.PG_STATUS k) Fd.PG_STATUS.LAST st.code).status Pg.TIME st

/-- PG_ARM.ARM (R360). -/
def pgArm (s : State) (k : Nat) (asap : Bool) : State :=
  let start := s.getTime (Reg.PG_START_SEC_LO k) (Reg.PG_START_SEC_HI k) (Reg.PG_START_NS k)
  let width := s.get (Reg.PG_WIDTH k) Fd.PG_WIDTH.NS
  let period := s.get (Reg.PG_PERIOD k) Fd.PG_PERIOD.NS
  let periodic := s.flag (Reg.PG_CTRL k) Fd.PG_CTRL.PERIODIC
  let g := { s.pgOf k with start := start, period := period, width := width, fireAt := none }
  let passed := start * 65536 ≤ s.netUnits
  if s.get (Reg.PG_CTRL k) Fd.PG_CTRL.USER != 1 then s.armStatus k .conflict
  else if periodic && period ≤ width then s.armStatus k .badParam
  else if passed && !asap then (s.armStatus k .late).event Pg.TIME Ev.TIME.PG_LATE
  else if passed then
    let s := if periodic then s.showPg k { g with st := .train, next := gridFrom start period (s.netNs + 1000) }
      else s.showPg k { g with st := .armed, next := start, fireAt := some (s.clk.now + usTicks 1) }
    s.armStatus k .startAdjusted
  else (s.showPg k { g with st := if periodic then .train else .armed, next := start }).armStatus k .ok

/-- PG_ARM.DISARM: the generator stops; a pulse in progress completes its width (R360). -/
def pgDisarm (s : State) (k : Nat) : State :=
  (s.showPg k { s.pgOf k with st := .idle, fireAt := none }).status Pg.TIME .ok

/-- Whether a generator's edge is due. -/
def pgDue (s : State) (k : Nat) : Bool :=
  let g := s.pgOf k
  match g.st, g.fireAt with
  | .armed, some t => t ≤ s.clk.now
  | .armed, none => g.next * 65536 ≤ s.netUnits
  | .train, _ => g.next * 65536 ≤ s.netUnits
  | _, _ => false

/-- An edge that is due: a pulse begins; a one-shot is then done and latches PG_FIRED (R360). -/
def pgFire (s : State) (k : Nat) : State :=
  let g := s.pgOf k
  if s.pgDue k then
    let s := s.incWrap (Reg.PG_STATUS k) Fd.PG_STATUS.FIRED
    if g.st = .train then s.pulse k g.width { g with next := g.next + g.period }
    else
      let s := s.pulse k g.width { g with st := .fired, fireAt := none }
      (s.put (Reg.PG_STATUS k) Fd.PG_STATUS.STATE 3).event Pg.TIME Ev.TIME.PG_FIRED
  else s

/-- What a step does to a generator: a train re-phases; a pending one-shot keeps its START (R361).
DESIGN CHOICE (log entry 3). -/
def pgStep (s : State) (k : Nat) : State :=
  let g := s.pgOf k
  if g.st = .train then
    let x := (s.netUnits + 65535) / 65536
    s.setPg k { g with next := gridAtOrAfter g.start g.period x }
  else s

/-- The beat marker of a generator with USER = 2: a pulse of PG_WIDTH from B(n) (R359). -/
def beatMarker (s : State) (k : Nat) : State :=
  if s.get (Reg.PG_CTRL k) Fd.PG_CTRL.USER = 2 then
    (s.pulse k (s.get (Reg.PG_WIDTH k) Fd.PG_WIDTH.NS) (s.pgOf k)).incWrap (Reg.PG_STATUS k) Fd.PG_STATUS.FIRED
  else s

/-! ## The clock (R348 to R352) -/

/-- What every step does, the clock having been `before` (R351, R54, R361, R367).
DEDUCED (log entry 35). -/
def afterStep (s : State) (before : Nat) : State :=
  let s := { s with net := { s.net with gen := s.net.gen + 1 }, refs := { s.refs with rebase := true } }
  let s := (s.inc Reg.TIME_STEP_CNT Fd.TIME_STEP_CNT.COUNT).event Pg.TIME Ev.TIME.STEP
  let s := [0, 1, 2, 3, 4].foldl pgStep s
  [0, 1, 2, 3, 4, 5, 6, 7].foldl (fun s p => s.gateStep p before) s

/-- The clock takes a new reading now, in 2^-16 ns; a slew in progress goes on. -/
def setClock (s : State) (units : Nat) : State :=
  { s with net := { s.net.rebase s.clk.now s.refs.dco with base := units } }

/-- A write of TIME_FREQ: ±1,000 ppm in 1/16 ppb, else BAD_PARAM (R349). -/
def timeFreq (s : State) (v : Word) : State :=
  let f := asSigned 32 v.toNat
  if f < -16000000 || 16000000 < f then s.status Pg.TIME .badParam
  else
    let s := { s with net := { s.net.rebase s.clk.now s.refs.dco with freq16 := f } }
    s.wr Reg.TIME_FREQ v

/-- TIME_CMD SET (R351). -/
def timeSet (s : State) : State :=
  let ns := (s.rd Reg.TIME_SET_NS).toNat
  if nsPerSec ≤ ns then s.status Pg.TIME .badParam
  else
    let before := s.netNs
    let x := s.getTime Reg.TIME_SET_SEC_LO Reg.TIME_SET_SEC_HI Reg.TIME_SET_NS
    ((s.setClock (x * 65536)).afterStep before).status Pg.TIME .ok

/-- TIME_CMD ADJUST: a slew below TIME_STEP_THR, a step from it on (R350). -/
def timeAdjust (s : State) : State :=
  let off := asSigned 64 ((s.rd Reg.TIME_ADJ_LO).toNat + (s.rd Reg.TIME_ADJ_HI).toNat * 2 ^ 32)
  let thr := s.get Reg.TIME_STEP_THR Fd.TIME_STEP_THR.US * 1000
  let base := s.net.rebase s.clk.now s.refs.dco
  if off.natAbs < thr then
    { s with net := { base with slewLeft := off * 65536, slewPpm := s.get Reg.TIME_SLEW Fd.TIME_SLEW.PPM } }.status Pg.TIME .ok
  else
    let before := s.netNs
    let s := { s with net := { base with slewLeft := 0, base := ((base.base : Int) + off * 65536).toNat } }
    (s.afterStep before).status Pg.TIME .ok

/-- TIME_CMD STOP_SLEW (R350). -/
def stopSlew (s : State) : State :=
  { s with net := { s.net.rebase s.clk.now s.refs.dco with slewLeft := 0 } }.status Pg.TIME .ok

/-- A slew that has applied its whole offset is done (R350).
DEDUCED (log entry 35). -/
def slewDone (s : State) : State :=
  let c := s.net.rebase s.clk.now s.refs.dco
  if s.net.slewLeft != 0 && c.slewLeft = 0 then { s with net := c }.event Pg.TIME Ev.TIME.SLEW_DONE else s

/-- A read of TIME_NOW_SEC_LO latches that port's snapshot (R352).
DEDUCED (log entry 35). -/
def timeNow (s : State) (p : Port) : Word × State :=
  let x := s.netStamp
  (Word.of x.sec, match p with
    | .a => { s with timeSnapA := x }
    | .b => { s with timeSnapB := x })

/-! ## Transmit timestamp queues (R357, R358) -/

/-- Put the queue length on view. -/
def showTsq (s : State) (p : Nat) : State :=
  s.put (Reg.PTIME_TSQ_CNT p) Fd.PTIME_TSQ_CNT.COUNT (s.tsq.getD p []).length

/-- An egress stamp arrives at a port's queue of 64 entries. -/
def tsqPush (s : State) (p : Nat) (e : TsqEntry) : State :=
  let q := s.tsq.getD p []
  if q.length < 64 then
    ({ s with tsq := putAt [] s.tsq p (q ++ [e]) }.showTsq p).eventIf q.isEmpty (Pg.PTIME p) Ev.PTIME.TSQ_READY
  else (s.inc (Reg.PTIME_TSQ_LOST p) Fd.PTIME_TSQ_LOST.COUNT).event (Pg.PTIME p) Ev.PTIME.TSQ_OVF

/-- The word a read of PTIME_TSQ0 returns. -/
def tsqWord (s : State) (p : Nat) : Word :=
  match s.tsq.getD p [] with
  | [] => 0
  | e :: _ => Word.of (2 ^ 31 + e.stamp.gen * 65536 + e.ident)

/-- A read of PTIME_TSQ0: the owner's pops the head and latches the rest of it (R358). -/
def tsqPop (s : State) (host : Port) (p : Nat) : Word × State :=
  let w := s.tsqWord p
  if s.ownedBy host then
    match s.tsq.getD p [] with
    | [] => (w, s)
    | e :: rest =>
      let s := ({ s with tsq := putAt [] s.tsq p rest }).showTsq p
      let s := (s.wr (Reg.PTIME_TSQ1 p) (Word.of e.stamp.sec)).wr (Reg.PTIME_TSQ2 p) (Word.of (e.stamp.frac * 65536 + e.stamp.sec / 2 ^ 32))
      (w, s.wr (Reg.PTIME_TSQ3 p) (Word.of e.stamp.ns))
  else (w, s)

/-! ## PPS and time of day (R362, R363) -/

/-- PPS out follows the train rule with a grid of whole seconds; a write of TIME_CTRL starts it. -/
def ppsTrain (s : State) : State :=
  s.setPg 4 { s.pgOf 4 with st := if s.flag Reg.TIME_CTRL Fd.TIME_CTRL.PPS_OUT_EN then .train else .idle, start := 0,
                            period := nsPerSec, next := gridAtOrAfter 0 nsPerSec ((s.netUnits + 65535) / 65536) }

/-- PPS out rises at nanosecond 0 of a second (R362). -/
def ppsOut (s : State) : State :=
  let g := s.pgOf 4
  if s.flag Reg.TIME_CTRL Fd.TIME_CTRL.PPS_OUT_EN && g.next * 65536 ≤ s.netUnits then
    s.pulse 4 (s.get Reg.TIME_PPS_OUT Fd.TIME_PPS_OUT.WIDTH_NS) { g with next := g.next + nsPerSec }
  else s

/-- An edge of PPS in is captured with the generation (R362). -/
def ppsIn (s : State) : State :=
  let x := s.netStamp
  let s := s.wr Reg.TIME_PPSIN_SEC_LO (Word.of x.sec)
  let s := s.wr Reg.TIME_PPSIN_SEC_HI (Word.of (x.gen * 2 ^ 24 + x.sec / 2 ^ 32 % 65536))
  let s := s.wr Reg.TIME_PPSIN_NS (Word.of x.ns)
  (s.incWrap Reg.TIME_PPSIN_CNT Fd.TIME_PPSIN_CNT.COUNT).event Pg.TIME Ev.TIME.PPS_IN

/-- Decimal digits of a number. -/
def decimal (n : Nat) : List Byte := (Nat.toDigits 10 n).map (fun c => BitVec.ofNat 8 c.toNat)

/-- The time-of-day line of a second (R363). -/
def todBytes (sec gen : Nat) (synced : Bool) : List Byte :=
  let hex (n : Nat) : Byte := BitVec.ofNat 8 (if n < 10 then 48 + n else 87 + n)
  [84, 65, 73, 44] ++ decimal sec ++ [44, hex (gen / 16), hex (gen % 16), 44, if synced then 49 else 48, 13, 10]

/-- A time-of-day line falls due: it is sent unless the line before it is still in progress (R363). -/
def todLine (s : State) : State :=
  if s.flag Reg.TIME_CTRL Fd.TIME_CTRL.TOD_EN && s.net.todUntil ≤ s.clk.now then
    let l := todBytes (s.netNs / nsPerSec) s.net.gen.toNat (s.flag Reg.TIME_CTRL Fd.TIME_CTRL.SYNCED)
    let baud := if s.get Reg.TIME_TOD Fd.TIME_TOD.BAUD = 0 then 9600 else 115200
    { s with net := { s.net with todUntil := s.clk.now + secTicks 1 * (10 * l.length) / baud } }.emit (.tod l)
  else s

end State

/-! ## Meanings -/

/-- TIME_FREQ_WRITE (R349). -/
def execTimeFreqWrite (t : Nat) (p : Port) (v : Word) (s : State) : Host.Outcome State Fault Refusal :=
  s.act t fun s => s.hostWrite p Reg.TIME_FREQ fun s => s.timeFreq v

/-- TIME_SET (R351). -/
def execTimeSet (t : Nat) (p : Port) (s : State) : Host.Outcome State Fault Refusal :=
  s.act t fun s => s.hostWrite p Reg.TIME_CMD fun s => s.timeSet

/-- TIME_ADJUST (R350). -/
def execTimeAdjust (t : Nat) (p : Port) (s : State) : Host.Outcome State Fault Refusal :=
  s.act t fun s => s.hostWrite p Reg.TIME_CMD fun s => s.timeAdjust

/-- STOP_SLEW (R350). -/
def execStopSlew (t : Nat) (p : Port) (s : State) : Host.Outcome State Fault Refusal :=
  s.act t fun s => s.hostWrite p Reg.TIME_CMD fun s => s.stopSlew

/-- SLEW_DONE (R350). -/
def execSlewDone (t : Nat) (s : State) : Host.Outcome State Fault Refusal := s.act t fun s => s.slewDone

/-- TIME_NOW_READ (R352). -/
def execTimeNowRead (t : Nat) (p : Port) (s : State) : Host.Outcome State Fault Refusal :=
  s.act t fun s => s.hostRead p fun s => s.timeNow p

/-- PTIME_TSQ_POP (R358). -/
def execPtimeTsqPop (t : Nat) (p : Port) (port : BitVec 3) (s : State) : Host.Outcome State Fault Refusal :=
  s.act t fun s => s.hostRead p fun s => s.tsqPop p port.toNat

/-- PG_ARM (R360). -/
def execPgArm (t : Nat) (p : Port) (k : BitVec 2) (asap : Bool) (s : State) : Host.Outcome State Fault Refusal :=
  s.act t fun s => s.hostWrite p (Reg.PG_ARM k.toNat) fun s => s.pgArm k.toNat asap

/-- PG_DISARM (R360). -/
def execPgDisarm (t : Nat) (p : Port) (k : BitVec 2) (s : State) : Host.Outcome State Fault Refusal :=
  s.act t fun s => s.hostWrite p (Reg.PG_ARM k.toNat) fun s => s.pgDisarm k.toNat

/-- PG_FIRED (R360). -/
def execPgFired (t : Nat) (k : BitVec 2) (s : State) : Host.Outcome State Fault Refusal := s.act t fun s => s.pgFire k.toNat

/-- PULSE_END (R360, R362): output 4 is PPS out. -/
def execPulseEnd (t : Nat) (k : BitVec 3) (s : State) : Host.Outcome State Fault Refusal := s.act t fun s => s.pulseEnd k.toNat

/-- PPS_OUT_EDGE (R362). -/
def execPpsOutEdge (t : Nat) (s : State) : Host.Outcome State Fault Refusal := s.act t fun s => s.ppsOut

/-- PPS_IN (R362). -/
def execPpsIn (t : Nat) (s : State) : Host.Outcome State Fault Refusal := s.act t fun s => s.ppsIn

/-- TOD_LINE (R363). -/
def execTodLine (t : Nat) (s : State) : Host.Outcome State Fault Refusal := s.act t fun s => s.todLine

/-- GATE_CHANGE (R365). -/
def execGateChange (t : Nat) (p : Port) (port : BitVec 3) (s : State) : Host.Outcome State Fault Refusal :=
  s.act t fun s => s.hostWrite p (Reg.GATE_CMD port.toNat) fun s => s.gateChange port.toNat

/-- GATE_CANCEL (R365). -/
def execGateCancel (t : Nat) (p : Port) (port : BitVec 3) (s : State) : Host.Outcome State Fault Refusal :=
  s.act t fun s => s.hostWrite p (Reg.GATE_CMD port.toNat) fun s => s.gateCancel port.toNat

/-- CHANGED (R365). -/
def execChanged (t : Nat) (port : BitVec 3) (s : State) : Host.Outcome State Fault Refusal := s.act t fun s => s.gateStart port.toNat

/-- GATE_ENTRY (R364). -/
def execGateEntry (t : Nat) (port : BitVec 3) (s : State) : Host.Outcome State Fault Refusal := s.act t fun s => s.gateEntry port.toNat

end Sys2Proof.Machine
end

