-- ==== Sys2Proof/Machine/MacOps.lean ====
section
/-! DEFINITION. Ethernet ports: which ports exist and how fast they are, the counters, shared packet memory, flow control
in both directions, and link pairs (R307, R325, R336 to R343). -/

namespace Sys2Proof.Machine

/-- The address that pause frames carry, 01-80-C2-00-00-01. -/
def pauseAddr : List Byte := [0x01, 0x80, 0xC2, 0x00, 0x00, 0x01]

/-- Bytes of a frame on the wire after its padding: 60 at least, and the FCS. -/
def wireBytes (bs : List Byte) : Nat := max 60 bs.length + 4

/-- A frame padded to 60 bytes. -/
def padFrame (bs : List Byte) : List Byte := bs ++ List.replicate (60 - bs.length) 0

namespace State

/-! ## Ports (R325) -/

/-- MODE of MAC_LANE_MODE. -/
def laneMode (s : State) : Nat := s.get (Reg.MAC_LANE_MODE 0) Fd.MAC_LANE_MODE.MODE

/-- Ports of a lane mode. -/
def portsOf (mode : Nat) : Nat := if mode ≤ 1 then 8 else if mode = 2 then 4 else 2

/-- A port that the lane mode provides.
DEDUCED (log entry 17). -/
def provided (s : State) (p : Nat) : Bool := p < portsOf s.laneMode

/-- Gigabits per second of a port. -/
def portRate (s : State) : Nat := [10, 25, 50, 100].getD s.laneMode 25

/-- Ticks of a number of bit times. -/
def bitTicks (s : State) (n : Nat) : Nat := n * 2304 / (10 * s.portRate)

/-- Ticks of a frame on the wire with its preamble. -/
def frameTicks (s : State) (bytes : Nat) : Nat := s.bitTicks (8 * (bytes + 8))

/-- Nanoseconds of a frame on the wire, rounded up (R366). -/
def frameNs (s : State) (bytes : Nat) : Nat := (8 * (bytes + 8) + s.portRate - 1) / s.portRate

/-- A port. -/
def mac (s : State) (p : Nat) : MacRun := s.nw.macs.getD p MacRun.fresh

/-- Replace a port. -/
def setMac (s : State) (p : Nat) (m : MacRun) : State := { s with nw := { s.nw with macs := putAt MacRun.fresh s.nw.macs p m } }

/-- Change a port. -/
def modMac (s : State) (p : Nat) (f : MacRun → MacRun) : State := s.setMac p (f (s.mac p))

/-- MAC_CTRL.EN. -/
def macEn (s : State) (p : Nat) : Bool := s.flag (Reg.MAC_CTRL p) Fd.MAC_CTRL.EN

/-- MAC_CTRL.PAUSE_MODE. -/
def pauseMode (s : State) (p : Nat) : Nat := s.get (Reg.MAC_CTRL p) Fd.MAC_CTRL.PAUSE_MODE

/-! ## Counters (R340) -/

/-- Counter i of a port counts `n`: it wraps, and passing half or full range notices it. -/
def macCount (s : State) (p i n : Nat) : State :=
  if n = 0 then s
  else
    let old := (s.rd (Reg.MAC_CNT p i)).toNat
    let s := s.wr (Reg.MAC_CNT p i) (Word.of (old + n))
    if (old < 2 ^ 31 && 2 ^ 31 ≤ old + n) || 2 ^ 32 ≤ old + n then
      let w := s.rd (Reg.MAC_CNT_NOTICE p)
      let s := { s with recent := { at0 := s.clk.now,
                                    bits := (0x1000 + Pg.MAC p, i) :: (if s.recent.at0 = s.clk.now then s.recent.bits else []) } }
      (s.wr (Reg.MAC_CNT_NOTICE p) (w ||| Word.of (2 ^ i))).eventIf (!w.getLsbD i) (Pg.MAC p) Ev.MAC.CNT_HALF
    else s

/-! ## Shared packet memory (R274, R307, R541) -/

/-- Bytes of the packets in a leg's inbox.
DEDUCED (log entry 56). -/
def inboxBytes (x : LegRun) : Nat := (x.inbox.map fun (p : InPkt) => p.size).foldl (· + ·) 0

/-- Bytes that ingress holds: leg inboxes, waiting frames and fragments. -/
def ingressUsed (s : State) : Nat :=
  let legs := ((s.openChans ++ s.closing).map fun (c : Chan) => inboxBytes c.legA + inboxBytes c.legB).foldl (· + ·) 0
  let frames := ((s.nw.waiting ++ s.nw.frags).map fun f => f.bytes.length + 4).foldl (· + ·) 0
  let grams := (s.nw.reasm.map fun (d : Datagram) => d.size).foldl (· + ·) 0
  legs + frames + grams

/-- Bytes of a queued packet.
DEDUCED (log entry 56). -/
def QPacket.bytes (q : QPacket) : Nat := q.payload.length

/-- Bytes of the egress reserve in use (R307). -/
def egressUsed (s : State) : Nat :=
  (s.nw.flows.map fun (p : Nat × FlowRun) => (p.2.q.map QPacket.bytes).foldl (· + ·) 0).foldl (· + ·) 0

/-- Channels that hold a compact slot (R541).
DEDUCED (log entry 56). -/
def compactSlots (s : State) : Nat := ((s.openChans ++ s.closing).filter fun c => c.compact).length

/-- PKT_MEM_USED.
DEDUCED (log entry 56). -/
def memUsed (s : State) : Nat := s.ingressUsed + s.egressUsed + 4096 * s.compactSlots

/-- Bytes that ingress may use: 4 MiB while compact slots take 8 MiB, 12 MiB otherwise. -/
def ingressCap (s : State) : Nat := if s.modes.bringup || !s.modes.compactFreed then 4 * 1048576 else 12 * 1048576

/-! ## Flow control that a port sends (R339) -/

/-- A pause or priority flow control frame: opcode 0x0001 or 0x0101, with quanta for the priorities of a mask. -/
def pauseFrame (sa : List Byte) (pfc : Bool) (pri quanta : Nat) : List Byte :=
  let op := if pfc then beBytes 2 0x0101 else beBytes 2 0x0001
  let body := if pfc then
      beBytes 2 pri ++ ((List.range 8).map fun i => beBytes 2 (if bit pri i then quanta else 0)).flatten
    else beBytes 2 quanta
  padFrame (pauseAddr ++ sa ++ beBytes 2 0x8808 ++ op ++ body)

/-- MAC_SA as bytes. -/
def macSa (s : State) (p : Nat) : List Byte :=
  wordBytes (s.rd (Reg.MAC_SA_LO p)) ++ (wordBytes (s.rd (Reg.MAC_SA_HI p))).take 2

/-- MAC_GW as bytes. -/
def macGw (s : State) (p : Nat) : List Byte :=
  wordBytes (s.rd (Reg.MAC_GW_LO p)) ++ (wordBytes (s.rd (Reg.MAC_GW_HI p))).take 2

/-- A frame that was sent whole leaves, with its counts. -/
def sentFrame (s : State) (p : Nat) (bytes : List Byte) : State :=
  ((s.macCount p 23 1).macCount p 24 (wireBytes bytes)).emit (.frame p (padFrame bytes))

/-- A port sends one flow control frame.
DEDUCED (log entry 32). -/
def sendPause (s : State) (p quanta : Nat) : State :=
  let pfc := s.pauseMode p = 2
  let f := pauseFrame (s.macSa p) pfc (s.get (Reg.MAC_FC_TX p) Fd.MAC_FC_TX.PRI) quanta
  (s.sentFrame p f).macCount p (if pfc then 26 else 25) 1

/-- A port may send flow control now. -/
def fcOn (s : State) (p : Nat) : Bool :=
  s.provided p && s.macEn p && s.linkIsUp p && s.flag (Reg.MAC_FC_TX p) Fd.MAC_FC_TX.TX_EN && (s.pauseMode p = 1 || s.pauseMode p = 2)

/-- Half of QUANTA in ticks: the time between repeats. -/
def fcPeriod (s : State) (p : Nat) : Nat := s.bitTicks (256 * s.get (Reg.MAC_FC_TX p) Fd.MAC_FC_TX.QUANTA)

/-- One port's flow control follows the level of shared packet memory. -/
def fcPort (used : Nat) (s : State) (p : Nat) : State :=
  let m := s.mac p
  if !s.fcOn p then (if m.xoff then s.setMac p { m with xoff := false } else s)
  else if !m.xoff && 1024 * s.get (Reg.MAC_FC_THR p) Fd.MAC_FC_THR.XOFF_KIB < used then
    (s.setMac p { m with xoff := true, repeatAt := s.clk.now + s.fcPeriod p }).sendPause p (s.get (Reg.MAC_FC_TX p) Fd.MAC_FC_TX.QUANTA)
  else if m.xoff && used ≤ 1024 * s.get (Reg.MAC_FC_THR p) Fd.MAC_FC_THR.XON_KIB then
    (s.setMac p { m with xoff := false }).sendPause p 0
  else s

/-- The eight ports. -/
def allPorts : List Nat := [0, 1, 2, 3, 4, 5, 6, 7]

/-- The level of shared packet memory has changed, with `more` bytes that are held only for now. -/
def noteMem (s : State) (more : Nat) : State :=
  let used := s.memUsed + more
  allPorts.foldl (fcPort used) (s.raise Reg.PKT_MEM_HWM Fd.PKT_MEM_HWM.BYTES used)

/-- A repeat that is due (R339). -/
def fcRepeat (s : State) (p : Nat) : State :=
  let m := s.mac p
  if s.fcOn p && m.xoff && m.repeatAt ≤ s.clk.now then
    (s.setMac p { m with repeatAt := m.repeatAt + s.fcPeriod p }).sendPause p (s.get (Reg.MAC_FC_TX p) Fd.MAC_FC_TX.QUANTA)
  else s

/-! ## Flow control that a port obeys (R336 to R338) -/

/-- Preemption is active (R334). -/
def preempts (s : State) (p : Nat) : Bool := s.flag (Reg.MAC_PREEMPT_ST p) Fd.MAC_PREEMPT_ST.ACTIVE

/-- A class that may be preempted now. -/
def preemptable (s : State) (p k : Nat) : Bool := s.preempts p && bit (s.get (Reg.MAC_PREEMPT p) Fd.MAC_PREEMPT.PMASK) k

/-- Bytes of the smallest fragment that is not the last. -/
def minFragment (s : State) (p : Nat) : Nat := 64 * (1 + s.get (Reg.MAC_PREEMPT p) Fd.MAC_PREEMPT.ADD_FRAG)

/-- Ticks at which the frame on the wire ends. -/
def wireEnd (s : State) (w : WireFrame) : Nat := w.start + s.frameTicks (wireBytes w.bytes - w.sent)

/-- The bytes that the current fragment has sent. -/
def fragSent (s : State) (w : WireFrame) : Nat := (s.clk.now - w.start) * 10 * s.portRate / 2304 / 8 - 8

/-- The frame on the wire may be interrupted now: its fragment and what remains are long enough. -/
def canPark (s : State) (p : Nat) (w : WireFrame) : Bool :=
  s.preemptable p w.cls && s.minFragment p ≤ s.fragSent w + 4 && w.sent + s.fragSent w + 64 ≤ wireBytes w.bytes

/-- The instant from which a new hold of class k has its effect. -/
def holdEffect (s : State) (p k : Nat) : Nat :=
  match (s.mac p).wire with
  | none => s.clk.now
  | some w =>
    if w.cls != k then s.clk.now
    else if s.preemptable p k then
      min (s.wireEnd w) (max s.clk.now (w.start + s.frameTicks (s.minFragment p)))
    else s.wireEnd w

/-- A class's hold at this instant. -/
def holdOf (s : State) (p k : Nat) : Hold := (s.mac p).holds.getD k Hold.none

/-- A hold that covers this instant, or begins after it. -/
def holdLive (s : State) (h : Hold) : Bool := h.held && s.clk.now < h.stop

/-- Class k of a port is paused now.
DEDUCED (log entry 32). -/
def isHeld (s : State) (p k : Nat) : Bool :=
  let h := s.holdOf p k
  s.pauseMode p != 0 && s.holdLive h && h.effect ≤ s.clk.now

/-- Class k of a port is in hold-off now. -/
def inHoldoff (s : State) (p k : Nat) : Bool :=
  match (s.holdOf p k).holdoff with
  | none => false
  | some d => s.clk.now < d

/-- Replace a class's hold. -/
def setHold (s : State) (p k : Nat) (h : Hold) : State := s.modMac p fun m => { m with holds := putAt Hold.none m.holds k h }

/-- The watchdog deadline of a hold, where the watchdog is on. -/
def pwdDeadline (s : State) (p : Nat) (h : Hold) : Option Nat :=
  let l := s.get (Reg.MAC_PWD p) Fd.MAC_PWD.LIMIT_MS
  if l = 0 || !h.held then none else some (h.since + msTicks l)

/-- The watchdog breaks a hold that has lasted to its deadline. -/
def breakDue (s : State) (p k : Nat) : Option Nat :=
  let h := s.holdOf p k
  match s.pwdDeadline p h with
  | none => none
  | some d => if d ≤ s.clk.now && d ≤ h.stop then some d else none

/-- The breaks that are due on a port: one break where the eight classes act as one. -/
def pauseBreak (s : State) (p : Nat) : State :=
  let due := (List.range 8).filterMap fun k => (s.breakDue p k).map fun d => (k, d)
  let s1 := due.foldl (fun s x =>
    s.setHold p x.1 { Hold.none with holdoff := some (x.2 + msTicks (s.get (Reg.MAC_PWD p) Fd.MAC_PWD.HOLDOFF_MS)) }) s
  let n := if s.pauseMode p = 1 then min 1 due.length else due.length
  if n = 0 then s1 else (s1.inc (Reg.MAC_PWD_CNT p) Fd.MAC_PWD_CNT.COUNT n).event (Pg.MAC p) Ev.MAC.PAUSE_BREAK

/-- Holds that have reached their end are over. -/
def holdEnd (s : State) (p : Nat) : State :=
  (List.range 8).foldl (fun s k =>
    let h := s.holdOf p k
    if h.held && h.stop ≤ s.clk.now then s.setHold p k { h with held := false } else s) s

/-- Hold-offs that have ended. -/
def holdoffEnd (s : State) (p : Nat) : State :=
  (List.range 8).foldl (fun s k =>
    let h := s.holdOf p k
    match h.holdoff with
    | some d => if d ≤ s.clk.now then s.setHold p k { h with holdoff := none } else s
    | none => s) s

/-- A pause of `q` quanta acts on a class (R337). -/
def pauseClass (s : State) (p k q : Nat) : State :=
  let h := s.holdOf p k
  let stop := s.clk.now + s.bitTicks (512 * q)
  if q = 0 then s.setHold p k { h with held := false }
  else if s.holdLive h then s.setHold p k { h with stop := stop }
  else
    let e := s.holdEffect p k
    if stop ≤ e then s.setHold p k { h with held := false }
    else s.setHold p k { h with held := true, since := e, stop := stop, effect := e }

/-- A pause frame (quanta for every class) or a priority flow control frame (quanta by named class) acts (R336). -/
def pauseTake (s : State) (p : Nat) (pfc : Bool) (named : List (Nat × Nat)) : State :=
  let s := s.macCount p (if pfc then 6 else 5) 1
  let mode := s.pauseMode p
  if mode != (if pfc then 2 else 1) then s.macCount p 30 1
  else
    let s := (s.pauseBreak p).holdoffEnd p
    let off := named.any fun x => s.inHoldoff p x.1
    let s := if off then s.macCount p 30 1 else s
    named.foldl (fun s x => if s.inHoldoff p x.1 then s else s.pauseClass p x.1 x.2) s

/-! ## Link pairs (R341 to R343) -/

/-- The four pairs. -/
def allPairs : List Nat := [0, 1, 2, 3]

/-- A pair's running state. -/
def pair (s : State) (k : Nat) : PairRun := s.nw.pairs.getD k PairRun.fresh

/-- Replace a pair's running state. -/
def setPair (s : State) (k : Nat) (x : PairRun) : State := { s with nw := { s.nw with pairs := putAt PairRun.fresh s.nw.pairs k x } }

/-- A pair is enabled. -/
def pairEn (s : State) (k : Nat) : Bool := s.flag (Reg.LPAIR_PAIR k) Fd.LPAIR_PAIR.EN

/-- PRIMARY of a pair. -/
def primary (s : State) (k : Nat) : Nat := s.get (Reg.LPAIR_PAIR k) Fd.LPAIR_PAIR.PRIMARY

/-- SECONDARY of a pair. -/
def secondary (s : State) (k : Nat) : Nat := s.get (Reg.LPAIR_PAIR k) Fd.LPAIR_PAIR.SECONDARY

/-- The enabled pair that a port belongs to. -/
def pairOf (s : State) (p : Nat) : Option Nat := allPairs.find? fun k => s.pairEn k && (s.primary k = p || s.secondary k = p)

/-- The other member of a pair. -/
def otherMember (s : State) (k p : Nat) : Nat := if s.primary k = p then s.secondary k else s.primary k

/-- The port by which the traffic of a port named by an aggregate leaves (R305, R341). -/
def outPort (s : State) (p : Nat) : Nat :=
  match s.pairOf p with
  | some k => (s.pair k).active
  | none => p

/-- The trains that a member was sending go on at the other. -/
def moveTrains (s : State) (old new : Nat) : State :=
  let a := s.mac old
  let b := s.mac new
  let merged := (List.range 8).map fun k =>
    let x := a.classes.getD k ClassRun.fresh
    let y := b.classes.getD k ClassRun.fresh
    { y with train := y.train <|> x.train }
  (s.setMac new { b with classes := merged }).modMac old fun m => { m with classes := m.classes.map fun c => { c with train := none } }

/-- A pair's active member changes. -/
def activate (s : State) (k p : Nat) (down : Bool) : State :=
  let old := (s.pair k).active
  let s := s.setPair k { active := p, down := down }
  if old = p then s else s.moveTrains old p

end State

end Sys2Proof.Machine
end

