-- ==== Sys2Proof/Machine/Parse.lean ====
section
/-! DEFINITION. The parser of received frames: tags, IP headers, tunnels, fragments and transports (R275 to R278). -/

namespace Sys2Proof.Machine

/-- A frame's tags, Ethertype, and where its payload begins. -/
structure FrameHead where
  tags : List Nat
  etype : Nat
  off : Nat
  deriving DecidableEq, Repr

/-- The tags of 802.1Q and 802.1ad. -/
def isTpid (e : Nat) : Bool := e = 0x8100 || e = 0x88A8

/-- Up to two tags are read; none if there are more. -/
def frameHead (b : List Byte) : Option FrameHead :=
  if !isTpid (beAt b 12 2) then some { tags := [], etype := beAt b 12 2, off := 14 }
  else if !isTpid (beAt b 16 2) then some { tags := [beAt b 14 2], etype := beAt b 16 2, off := 18 }
  else if !isTpid (beAt b 20 2) then some { tags := [beAt b 14 2, beAt b 18 2], etype := beAt b 20 2, off := 22 }
  else none

/-- The first two tags of a frame, whatever follows them. -/
def frameTags (b : List Byte) : List Nat :=
  match frameHead b with
  | some h => h.tags
  | none => [beAt b 14 2, beAt b 18 2]

/-- A frame without its tags. -/
def stripTags (b : List Byte) : List Byte := b.take 12 ++ b.drop (12 + 4 * (frameTags b).length)

/-- The routing domain of a frame (R277). -/
def domainOf (mode domain : Nat) (tags : List Nat) : Nat :=
  let vid := match mode, tags with
    | 1, x :: _ => x % 4096
    | 2, [x] => x % 4096
    | 2, _ :: y :: _ => y % 4096
    | _, _ => 0
  if vid = 0 then domain else vid

/-- The sum of the 16-bit words of a byte list. -/
def sum16 : List Byte → Nat
  | [] => 0
  | [a] => a.toNat * 256
  | a :: b :: rest => a.toNat * 256 + b.toNat + sum16 rest

/-- A one's complement checksum over bytes that hold it is right. -/
def sumOk (b : List Byte) : Bool := sum16 b % 65535 = 0

/-- The checksum that makes `b`, which holds 0 in its place, right. -/
def checksum (b : List Byte) : Nat := (65535 - sum16 b % 65535) % 65535

/-- What an IP header gives. -/
inductive IpRes where
  | part (x : IpPart)
  | control
  | error
  deriving DecidableEq, Repr

/-- An IPv4 address as an IPv6 address (R278). -/
def mapped (a : List Byte) : List Byte := List.replicate 10 0 ++ [0xFF, 0xFF] ++ a

/-- An IPv4 header: options are skipped. -/
def ipv4 (d : List Byte) : IpRes :=
  let hl := beAt d 0 1 % 16 * 4
  let len := beAt d 2 2
  let ff := beAt d 6 2
  if beAt d 0 1 / 16 != 4 || hl < 20 || len < hl || d.length < len || !sumOk (d.take hl) then .error
  else .part { v6 := false, src := mapped (slice d 12 4), dst := mapped (slice d 16 4), proto := beAt d 9 1, head := d.take hl, nhAt := 9,
               frag := if ff % 16384 = 0 then none else some (slice d 4 2, ff % 8192 * 8, bit ff 13),
               pay := (d.take len).drop hl }

/-- The IPv6 extension headers that are skipped: hop-by-hop, routing and destination options. -/
def skipsExt (nh : Nat) : Bool := nh = 0 || nh = 43 || nh = 60

/-- Walk IPv6 extension headers: `left` may still be skipped; `d` is the datagram, `off` where the next header begins. -/
def ipv6Walk (d : List Byte) : Nat → Nat → Nat → Nat → IpRes
  | fuel, nh, nhAt, off =>
    let here (fr : Option (List Byte × Nat × Bool)) (proto skip : Nat) : IpRes :=
      .part { v6 := true, src := slice d 8 16, dst := slice d 24 16, proto := proto, head := d.take off, nhAt := nhAt, frag := fr,
              pay := d.drop (off + skip) }
    if nh = 44 then
      if d.length < off + 8 then .error
      else here (some (slice d (off + 4) 4, beAt d (off + 2) 2 / 8 * 8, beAt d (off + 2) 2 % 2 = 1)) (beAt d off 1) 8
    else if !skipsExt nh then here none nh 0
    else match fuel with
      | 0 => .control
      | fuel + 1 =>
        let l := 8 * (beAt d (off + 1) 1 + 1)
        if d.length < off + l then .error else ipv6Walk d fuel (beAt d off 1) off (off + l)

/-- An IPv6 header with up to two extension headers. -/
def ipv6 (d : List Byte) : IpRes :=
  let len := 40 + beAt d 4 2
  if beAt d 0 1 / 16 != 6 || d.length < 40 || d.length < len then .error else ipv6Walk (d.take len) 2 (beAt d 6 1) 6 40

/-- A LOOKUP frame: the fields of its key, and the payload of a UDP datagram. -/
structure Found where
  proto : Nat
  remote : List Byte
  local_ : List Byte
  rport : Nat
  lport : Nat
  payload : List Byte
  deriving DecidableEq, Repr

/-- The classes of R275. -/
inductive FrameClass where
  | lookup (x : Found)
  | frag (x : IpPart)
  | time
  | macctl (pfc : Bool) (named : List (Nat × Nat))
  | control
  | error
  deriving DecidableEq, Repr

/-- The checksum of a UDP datagram of length `len` is right: IPv4 may leave it out. -/
def udpSumOk (x : IpPart) (len : Nat) : Bool :=
  if beAt x.pay 6 2 = 0 then !x.v6
  else sumOk (x.src ++ x.dst ++ beBytes 2 17 ++ beBytes 2 len ++ x.pay.take len)

/-- A datagram that is whole and no tunnel. -/
def transport (x : IpPart) : FrameClass :=
  let found (pay : List Byte) : Found :=
    { proto := x.proto, remote := x.src, local_ := x.dst, rport := beAt x.pay 0 2, lport := beAt x.pay 2 2, payload := pay }
  if x.proto = 17 then
    let len := beAt x.pay 4 2
    if x.pay.length < 8 || len < 8 || x.pay.length < len || !udpSumOk x len then .error
    else if beAt x.pay 2 2 = 319 || beAt x.pay 2 2 = 320 then .time
    else .lookup (found ((x.pay.take len).drop 8))
  else if x.proto = 6 then (if x.pay.length < 20 then .error else .lookup (found []))
  else if x.proto = 132 then (if x.pay.length < 12 then .error else .lookup (found []))
  else .control

/-- An IP header classifies its frame: one rewind to an inner header.
DEDUCED (log entry 10). -/
def classifyIp : Nat → IpRes → FrameClass
  | _, .control => .control
  | _, .error => .error
  | fuel, .part x =>
    if x.frag.isSome then .frag x
    else if x.proto = 4 || x.proto = 41 then
      match fuel with
      | 0 => .control
      | fuel + 1 => classifyIp fuel (if x.proto = 4 then ipv4 x.pay else ipv6 x.pay)
    else transport x

/-- Flow control frames: pause holds every class; priority flow control those that its vector names (R336). -/
def macControl (b : List Byte) (off : Nat) (toUs : Bool) : FrameClass :=
  if !toUs then .control
  else if beAt b off 2 = 1 then .macctl false ((List.range 8).map fun k => (k, beAt b (off + 2) 2))
  else if beAt b off 2 = 0x0101 then
    .macctl true (((List.range 8).filter fun k => bit (beAt b (off + 2) 2) k).map fun k => (k, beAt b (off + 4 + 2 * k) 2))
  else .control

/-- The class of a frame (R275). -/
def classOf (b : List Byte) : FrameClass :=
  match frameHead b with
  | none => .error
  | some h =>
    if h.etype = 0x88F7 then .time
    else if h.etype = 0x8808 then macControl b h.off (b.take 6 = [0x01, 0x80, 0xC2, 0x00, 0x00, 0x01])
    else if h.etype = 0x0800 then classifyIp 1 (ipv4 (b.drop h.off))
    else if h.etype = 0x86DD then classifyIp 1 (ipv6 (b.drop h.off))
    else .control

/-- The lookup key of a frame (R278). -/
def Found.key (x : Found) (domain : Nat) : List Byte :=
  leBytes 2 domain ++ leBytes 1 x.proto ++ [0] ++ x.remote ++ x.local_ ++ beBytes 2 x.rport ++ beBytes 2 x.lport

/-- Replace the bytes of a list from an offset.
DEDUCED (log entry 10). -/
def overwrite (b : List Byte) (off : Nat) (x : List Byte) : List Byte := b.take off ++ x ++ b.drop (off + x.length)

/-- The header that a reassembled datagram with `n` bytes of data has, from that of its first fragment. -/
def wholeHead (x : IpPart) (n : Nat) : List Byte :=
  if x.v6 then overwrite (overwrite x.head 4 (beBytes 2 (x.head.length - 40 + n))) x.nhAt (beBytes 1 x.proto)
  else
    let h := overwrite (overwrite (overwrite x.head 2 (beBytes 2 (x.head.length + n))) 6 [0, 0]) 10 [0, 0]
    overwrite h 10 (beBytes 2 (checksum h))

/-- The Ethernet header of a frame, with the Ethertype of the IP header that it now carries. -/
def etherHead (b : List Byte) (v6 : Bool) : List Byte :=
  match frameHead b with
  | none => b.take 14
  | some h => b.take (h.off - 2) ++ beBytes 2 (if v6 then 0x86DD else 0x0800)

end Sys2Proof.Machine
end

