-- ==== Sys2Proof/Machine/EgsOps.lean ====
section
/-! DEFINITION. The egress tree: tags and virtual times, queues, ageing, refills, selection, and the frames of leg packets
(R302 to R318, R332). -/

namespace Sys2Proof.Machine

/-! ## Tags (R309) -/

/-- `a` is not after `b`, the two compared by their difference modulo 2^64. -/
def tagLe (a b : Nat) : Bool := (b + 2 ^ 64 - a) % 2 ^ 64 < 2 ^ 63

/-- The later of two tags. -/
def tagMax (a b : Nat) : Nat := if tagLe a b then b else a

/-- What a packet adds to the tag of a child of weight `w`.
DEDUCED (log entry 31). -/
def tagInc (w : Nat) : Nat := 2 ^ 24 / w

/-- The tag of a child whose head a packet becomes.
DEDUCED (log entry 31). -/
def headTag (v prev w : Nat) : Nat := (tagMax v prev + tagInc w) % 2 ^ 64

/-- A child as its node sees it: its number, its tag, and whether its shaping state is EXCESS. -/
structure Child where
  num : Nat
  tag : Nat
  excess : Bool
  deriving DecidableEq, Repr

/-- The child with the smallest tag, the first listed on equal tags. -/
def leastTag : List Child → Option Child
  | [] => none
  | c :: cs =>
    match leastTag cs with
    | none => some c
    | some d => if tagLe c.tag d.tag then some c else some d

/-- The choice among children that may send: the COMMIT band first (R310).
DEDUCED (log entry 31). -/
def pickChild (l : List Child) : Option Child :=
  leastTag (l.filter fun c => !c.excess) <|> leastTag (l.filter fun c => c.excess)

/-- The host queue's number among the children of a class: behind every aggregate (R400). -/
def hostChild : Nat := 2048

/-- What a class would send. -/
inductive Cand where
  | goOn (t : TrainRun)
  | fresh (agg flow : Nat)
  | host (f : HostFrame)
  deriving DecidableEq, Repr

/-- Bytes of the egress reserve (R307). -/
def egressReserve : Nat := 4 * 1048576

/-- Ticks from a boundary to refill instant i (R312). -/
def refillAt (i : Nat) : Nat := i * 12288 / 25 * cycTicks

namespace State

/-! ## Nodes -/

/-- The flows that hold packets placed under an aggregate. -/
def busyFlows (s : State) (a : Nat) : List (Nat × FlowRun) := s.nw.flows.filter fun p => !p.2.q.isEmpty && p.2.place.agg = a

/-- The flow that an aggregate would send from (R310). -/
def aggPick (s : State) (a : Nat) : Option Nat :=
  (pickChild (((s.busyFlows a).filter fun p => p.2.shp.state != 3).map fun p =>
    { num := p.1, tag := p.2.tag, excess := p.2.shp.state = 2 })).map fun c => c.num

/-- An aggregate holds a packet. -/
def aggBusy (s : State) (a : Nat) : Bool := !(s.busyFlows a).isEmpty

/-- A class of a port. -/
def cls (s : State) (p k : Nat) : ClassRun := (s.mac p).classes.getD k ClassRun.fresh

/-- Replace a class of a port. -/
def setCls (s : State) (p k : Nat) (c : ClassRun) : State := s.modMac p fun m => { m with classes := putAt ClassRun.fresh m.classes k c }

/-- The aggregates that a class of a port serves. -/
def classAggs (s : State) (p k : Nat) : List (Nat × AggRun) :=
  s.nw.aggs.filter fun a => s.outPort a.2.eff.port = p && a.2.eff.cls = k

/-- The class of a port from which an aggregate leaves. -/
def aggCls (s : State) (x : AggRun) : ClassRun := s.cls (s.outPort x.eff.port) x.eff.cls

/-- What a class of a port would send now (R310, R311, R400). -/
def classPick (s : State) (p k : Nat) : Option Cand :=
  let c := s.cls p k
  let train := match c.train with
    | some t => match (s.flow t.flow).q with
      | q :: _ => if q.train = t.train && !q.first then some t else none
      | [] => none
    | none => none
  match train with
  | some t => some (.goOn t)
  | none =>
    let aggs := (s.classAggs p k).filterMap fun a =>
      match s.aggPick a.1 with
      | some _ => if a.2.shp.state = 3 then none else some ({ num := a.1, tag := a.2.tag, excess := a.2.shp.state = 2 } : Child)
      | none => none
    let hosts : List Child := if c.hostq.isEmpty then [] else [{ num := hostChild, tag := c.hostTag, excess := false }]
    match pickChild (aggs ++ hosts) with
    | none => none
    | some x =>
      if x.num = hostChild then c.hostq.head?.map Cand.host else (s.aggPick x.num).map fun f => Cand.fresh x.num f

/-! ## Queues (R306 to R308, R316, R318) -/

/-- Packets in flow queues whose aggregate names a port (R316). -/
def depthOf (s : State) (p : Nat) : Nat :=
  ((s.nw.flows.filter fun f => (s.agg f.2.place.agg).eff.port = p).map fun (f : Nat × FlowRun) => f.2.q.length).foldl (· + ·) 0

/-- Set a bit of HWM_NOTICE; its event latches when the bit sets. -/
def notice (s : State) (i ev : Nat) : State :=
  let w := s.rd Reg.HWM_NOTICE
  if w.getLsbD i then s else (s.wr Reg.HWM_NOTICE (w ||| Word.of (2 ^ i))).event Pg.HWM ev

/-- A packet has entered a flow's queue: the marks of R316 and R318 follow. -/
def noteDepth (s : State) (leg : Nat) : State :=
  let f := s.flow leg
  let p := (s.agg f.place.agg).eff.port
  let d := s.depthOf p
  let s := s.raise (Reg.HWM_DEPTH p) Fd.HWM_DEPTH.COUNT d
  let s := if s.get (Reg.HWM_DEPTH_THR p) Fd.HWM_DEPTH_THR.COUNT < d then s.notice p Ev.HWM.DEPTH_WM else s
  let n := f.q.length
  let s := if s.get Reg.HWM_FLOW_DEPTH Fd.HWM_FLOW_DEPTH.COUNT < n then
      (s.put Reg.HWM_FLOW_DEPTH Fd.HWM_FLOW_DEPTH.COUNT n).put Reg.HWM_FLOW_LEG Fd.HWM_FLOW_LEG.LEG leg
    else s
  if s.get Reg.HWM_FLOW_THR Fd.HWM_FLOW_THR.COUNT < n then s.notice 16 Ev.HWM.FLOW_WM else s

/-- An aggregate's tag when a packet becomes its head.
DEDUCED (log entry 31). -/
def retagAgg (s : State) (a : Nat) : State :=
  let x := s.agg a
  s.setAgg a { x with tag := headTag (s.aggCls x).v x.tag x.eff.weight }

/-- A packet enters its flow's queue. -/
def pushPacket (s : State) (leg : Nat) (q : QPacket) : State :=
  let f := s.flow leg
  let a := f.place.agg
  let s := if s.aggBusy a then s else s.retagAgg a
  let tag := if f.q.isEmpty then headTag (s.agg a).v f.tag f.place.weight else f.tag
  (s.setFlow leg { f with q := f.q ++ [q], tag := tag }).noteDepth leg

/-- A train enters at its commit, each packet as (whether it goes to the RTP port plus one, bytes); the first that does not
fit is dropped with all after it. -/
def pushTrain (leg epd train : Nat) : List (Bool × List Byte) → Bool → State → State
  | [], _, s => s
  | (up, bs) :: rest, first, s =>
    let drop (n : Nat) (s : State) : State := (List.range n).foldl (fun s _ => s.event Pg.EGS Ev.EGS.FQ_DROP) s
    let n := rest.length + 1
    if s.get Reg.EGS_CTRL Fd.EGS_CTRL.FQ_LIMIT ≤ (s.flow leg).q.length then
      drop n (s.inc Reg.EGS_FQ_DROP_CNT Fd.EGS_FQ_DROP_CNT.COUNT n)
    else if egressReserve < s.egressUsed + bs.length then
      drop n (s.inc Reg.EGS_MEM_DROP_CNT Fd.EGS_MEM_DROP_CNT.COUNT n)
    else
      let q : QPacket := { stamp := s.clk.now, train := train, first := first, epd := epd, rtcpPort := up, payload := bs }
      pushTrain leg epd train rest false (s.pushPacket leg q)

/-- The packets that one commit gives to one leg (R306). -/
def enqueueTrain (s : State) (leg epd : Nat) (ps : List (Bool × List Byte)) : State :=
  if ps.isEmpty then s
  else
    let k := s.nw.nextTrain
    (pushTrain leg epd k ps true { s with nw := { s.nw with nextTrain := k + 1 } }).noteMem 0

/-- A packet leaves the head of a flow without being sent: the next becomes its head. -/
def dropHead (s : State) (leg : Nat) : State :=
  let f := s.flow leg
  let a := f.place.agg
  let headOfAgg := s.aggPick a = some leg
  let rest := f.q.drop 1
  let s := s.setFlow leg { f with q := rest, tag := if rest.isEmpty then f.tag else headTag (s.agg a).v f.tag f.place.weight }
  if headOfAgg && s.aggBusy a then s.retagAgg a else s

/-- Heads of a flow that are too old are discarded (R308); `fuel` bounds their number.
DEDUCED (log entry 31). -/
def ageFlow (leg : Nat) : Nat → State → State
  | 0, s => s
  | fuel + 1, s =>
    let age := s.get Reg.EGS_CTRL Fd.EGS_CTRL.AGE_MS
    match (s.flow leg).q with
    | [] => s
    | q :: _ =>
      if age != 0 && q.stamp + msTicks age ≤ s.clk.now then
        ageFlow leg fuel (((s.dropHead leg).inc Reg.EGS_AGE_DROP_CNT Fd.EGS_AGE_DROP_CNT.COUNT).event Pg.EGS Ev.EGS.AGED)
      else s

/-- Ageing of every flow that leaves by a port. -/
def agePort (s : State) (p : Nat) : State :=
  let legs := (s.nw.flows.filter fun f => s.outPort (s.agg f.2.place.agg).eff.port = p).map fun (f : Nat × FlowRun) => (f.1, f.2.q.length)
  (legs.foldl (fun s x => ageFlow x.1 x.2 s) s).noteMem 0

/-! ## Refills (R305, R312, R313) -/

/-- A flow's new placement: a new weight at once, another aggregate or class when the queue is empty.
DEDUCED (log entry 31). -/
def takeWant (s : State) (f : FlowRun) : FlowRun :=
  match f.want with
  | none => f
  | some w =>
    if w.agg = f.place.agg && w.cls = f.place.cls then { f with place := w, want := none }
    else if f.q.isEmpty then { f with place := w, want := none, tag := (s.agg w.agg).v }
    else f

/-- One refill instant, at tick `q`: settings that wait take effect, and every bucket refills.
DEDUCED (log entry 31). -/
def refillStep (s : State) (q : Nat) : State :=
  let aggs := s.nw.aggs.map fun (x : Nat × AggRun) =>
    let a := x.2
    let a := if a.cfg != a.eff && a.cfgAt < q then
        { a with eff := a.cfg, tag := if a.cfg.port = a.eff.port && a.cfg.cls = a.eff.cls then a.tag
                                      else (s.cls (s.outPort a.cfg.port) a.cfg.cls).v }
      else a
    (x.1, { a with shp := a.shp.refill q })
  let s := { s with nw := { s.nw with aggs := aggs.filter fun x => x.2 ≠ AggRun.fresh } }
  let flows := s.nw.flows.map fun (x : Nat × FlowRun) => (x.1, { s.takeWant x.2 with shp := x.2.shp.refill q })
  { s with nw := { s.nw with flows := flows.filter fun x => x.2 ≠ FlowRun.fresh } }

/-- Refill instants of this beat up to now. -/
def refillsDue (s : State) : Nat := min 250 ((25 * (s.clk.cycle + 1) - 1) / 12288 + 1)

/-- The refill instants from `i` on, `n` of them. -/
def refillRun (i : Nat) : Nat → State → State
  | 0, s => s
  | n + 1, s => refillRun (i + 1) n (s.refillStep (s.clk.at0 + refillAt i))

/-- Every refill that is due.
DESIGN CHOICE (log entry 3). -/
def refills (s : State) : State :=
  if !s.clk.started then s
  else
    let due := s.refillsDue
    let s1 := refillRun s.nw.refills (due - s.nw.refills) s
    { s1 with nw := { s1.nw with refills := due } }

/-! ## Frames of leg packets (R332) -/

/-- The tags of MAC_TAGk (R332). -/
def macTags (s : State) (p k : Nat) : List Byte :=
  let r := Reg.MAC_TAG p k
  let m := s.get r Fd.MAC_TAG.MODE
  let c := beBytes 2 0x8100 ++ beBytes 2 (k * 8192 + s.get r Fd.MAC_TAG.CVID)
  let v := beBytes 2 0x88A8 ++ beBytes 2 (k * 8192 + s.get r Fd.MAC_TAG.SVID)
  if m = 1 then c else if m = 2 then v else if m = 3 then v ++ c else []

/-- An address of a key is an IPv4 address. -/
def isMapped (a : List Byte) : Bool := a.take 12 = List.replicate 10 0 ++ [0xFF, 0xFF]

/-- Free bytes from draw `k` on.
DESIGN CHOICE (log entry 12). -/
def freeBytes (k n : Nat) : List Byte := ((List.range n).map fun i => wordBytes (Config.freeWord (k + i))).flatten

/-- The key by which a packet's headers are built: its record's, or free addresses and ports where the record is gone. -/
def packetKey (s : State) (q : QPacket) : List Byte :=
  match s.epdRecs.find? q.epd with
  | some r => r.key
  | none =>
    let b := freeBytes (s.freeCtr + 2) 3
    [0, 0, 17, 0] ++ List.replicate 10 0 ++ [0xFF, 0xFF] ++ b.take 4 ++ List.replicate 10 0 ++ [0xFF, 0xFF] ++ (b.drop 4).take 4
      ++ (b.drop 8).take 4

/-- Free values that the headers of one packet take. -/
def headerDraws : Nat := 5

/-- The frame of a leg packet for a class of a port: its source is the record's local side, its destination the remote side.
Traffic class, identification, hop limit and flow label are free values.
DEDUCED (log entry 31). -/
def packetFrame (s : State) (p k : Nat) (q : QPacket) : List Byte :=
  let key := s.packetKey q
  let remote := slice key 4 16
  let local_ := slice key 20 16
  let w0 := Config.freeWord s.freeCtr
  let w1 := Config.freeWord (s.freeCtr + 1)
  let ulen := 8 + q.payload.length
  let ports := beBytes 2 (beAt key 38 2 + b2n q.rtcpPort) ++ beBytes 2 (beAt key 36 2 + b2n q.rtcpPort)
  let sum := checksum (local_ ++ remote ++ beBytes 2 17 ++ beBytes 2 ulen ++ ports ++ beBytes 2 ulen ++ [0, 0] ++ q.payload)
  let udp := ports ++ beBytes 2 ulen ++ beBytes 2 (if sum = 0 then 0xFFFF else sum) ++ q.payload
  let ip :=
    if isMapped remote && isMapped local_ then
      let h := [0x45] ++ (wordBytes w0).take 1 ++ beBytes 2 (20 + ulen) ++ ((wordBytes w0).drop 1).take 2 ++ [w1.extractLsb' 0 8 &&& 0x40, 0]
        ++ (wordBytes w0).drop 3 ++ [17, 0, 0] ++ local_.drop 12 ++ remote.drop 12
      beBytes 2 0x0800 ++ overwrite h 10 (beBytes 2 (checksum h)) ++ udp
    else
      beBytes 2 0x86DD ++ beBytes 4 (6 * 2 ^ 28 + w0.toNat % 2 ^ 28) ++ beBytes 2 ulen ++ [17] ++ (wordBytes w1).take 1 ++ local_ ++ remote ++ udp
  s.macGw p ++ s.macSa p ++ s.macTags p k ++ ip

/-! ## Departure (R309, R311, R314, R317) -/

/-- The packet at a flow's head leaves through aggregate and class: tags and virtual times follow, and the buckets pay. -/
def sendHead (s : State) (p k : Nat) (t : TrainRun) : State :=
  let f := s.flow t.flow
  let a := s.agg t.agg
  let c := s.cls p k
  let v := tagMax a.v f.tag
  let rest := f.q.drop 1
  let s := s.setFlow t.flow { f with q := rest, shp := f.shp.take t.flowExcess,
                                     tag := if rest.isEmpty then f.tag else headTag v f.tag f.place.weight }
  let s := s.setAgg t.agg { a with v := v, shp := a.shp.take t.aggExcess }
  let more := match rest with
    | q :: _ => q.train = t.train && !q.first
    | [] => false
  let s := s.setCls p k { c with v := tagMax c.v a.tag, train := if more then some t else none }
  let s := if s.aggBusy t.agg then s.retagAgg t.agg else s
  s.incWrap Reg.EGS_TX_CNT Fd.EGS_TX_CNT.COUNT

/-- The train that a new selection starts. -/
def newTrain (s : State) (a leg : Nat) : TrainRun :=
  let f := s.flow leg
  { flow := leg, agg := a, train := match f.q with
      | q :: _ => q.train
      | [] => 0,
    flowExcess := f.shp.state = 2, aggExcess := (s.agg a).shp.state = 2 }

/-- A sojourn of `cyc` cycles ends at a port (R317). -/
def noteSojourn (s : State) (p cyc : Nat) : State :=
  let s := s.raise (Reg.HWM_SOJ p) Fd.HWM_SOJ.CYC (sat32 cyc)
  if s.get (Reg.HWM_SOJ_THR p) Fd.HWM_SOJ_THR.CYC ≤ cyc then s.notice (8 + p) Ev.HWM.SOJOURN_WM else s

/-- Aggregates that now leave by port `p` have their heads tagged at its classes (R342). -/
def retagPort (s : State) (p : Nat) : State :=
  let moved := (s.nw.aggs.filter fun x => s.outPort x.2.eff.port = p).map fun (x : Nat × AggRun) => x.1
  moved.foldl (fun s a =>
    let x := s.agg a
    s.setAgg a { x with tag := if s.aggBusy a then headTag (s.aggCls x).v (s.aggCls x).v x.eff.weight else (s.aggCls x).v }) s

end State

end Sys2Proof.Machine
end

