-- ==== Sys2Proof/Machine/Jobs.lean ====
section
/-! DEFINITION. Jobs on media cores between grant and commit: staging, start, hand-over, partner digests,
write-back, overruns, and MAINT jobs (R74, R76, R240 to R244). -/

namespace Sys2Proof.Machine

namespace State

/-- The oldest grant of a cluster whose staging is not complete: the stager serves assignments in order (R240). -/
def nextToStage (s : State) (k : Nat) : Option Job :=
  (s.disp.jobs.filter fun j => j.state = .staging && !j.staged && match j.server with
    | some (.core c _) => c = k
    | _ => false).foldl (fun a j => match a with
      | some x => if j.grantAt < x.grantAt then some j else some x
      | none => some j) none

/-- The job in a core's slot. -/
def slotJob (s : State) (k i : Nat) : Option Job := (s.core k i).bind fun c => c.slot.bind s.job

/-- The job that a core runs. -/
def runJob (s : State) (k i : Nat) : Option Job := (s.core k i).bind fun c => c.run.bind s.job

/-- The stager has copied a job's state: it notes the version read, and poison read flags the job (R239, R240,
R466). A channel outside its compact slot keeps its state in GDDR-6.
DEDUCED (log entry 37). -/
def stage (s : State) (k i : Nat) (reads : List SectorRead) : State :=
  match s.slotJob k i with
  | none => s
  | some j =>
    if (s.nextToStage k).map (fun (x : Job) => x.id) = some j.id then
      let (s, poison) := if j.kind = .beat then s.readSectors reads else (s, false)
      let c := s.life j.uid
      let off := j.kind = .beat && !s.memReady && c.any fun c => !c.compact
      let v := (c.map fun (c : Chan) => c.version).getD 0
      s.modJob j.id fun j => { j with staged := true, flagged := j.flagged || poison || off, version := v }
    else s

/-- A core starts the staged job in its slot (R74, R257, R261); an injected fault strikes it (R498). -/
def startJob (s : State) (k i : Nat) : State :=
  match s.core k i, s.slotJob k i with
  | some c, some j =>
    if s.serves k && c.run.isNone && c.checking.isNone && j.staged then
      let s := s.modJob j.id fun j => { j with state := .running, startAt := s.clk.now, acc := s.clk.now }
      let s := s.modCore k i fun c => { c with slot := none, run := some j.id, inject := false, sat := false }
      let s := { s with disp := { s.disp with lastCore := s.disp.lastCore.insert j.flow (k, i) } }
      let s := s.traceJob 3 j j.server 0
      if c.inject then s.injectedFault k i else s
    else s
  | _, _ => s

/-- The budget of a BEAT job in core cycles (R244). -/
def budget (s : State) (j : Job) : Nat :=
  let frame := match s.life j.uid with
    | some c => c.leftover || isPhase c.phase j.beat
    | none => false
  2 * (j.cfg.everyOnce + (if frame then j.cfg.legA.frame + j.cfg.legB.frame else 0)) + 20000

/-- Cycles that a running job has spent. -/
def elapsed (s : State) (k : Nat) (j : Job) : Nat := s.cyclesIn k (s.clk.now - j.startAt)

/-- A core hands a finished job to the commit unit, before its budget is spent; `digest` is its CRC-64 of R243. -/
def handover (s : State) (k i digest : Nat) : State :=
  match s.runJob k i with
  | none => s
  | some j =>
    if j.state = .running && !(j.kind = .beat && s.budget j ≤ s.elapsed k j) then
      (s.leaveServer j).modJob j.id fun j => { j with state := .committing, digest := some digest, startAt := s.clk.now }
    else s

/-- The partner's digest reaches the home commit unit: the partner job stays COMMITTING until the home job is
accepted or aborted (R243). -/
def partnerDigest (s : State) (chan : Nat) : State :=
  match s.disp.jobs.find? fun j => j.kind = .beat && j.partner && j.chan = chan && j.state = .committing with
  | none => s
  | some x =>
    match s.otherSide x with
    | none => s
    | some h =>
      if h.peer.isSome then s
      else
        let s := match x.server with
          | some (.core k _) => s.inc (Reg.CLU_PARTNER_CNT k) Fd.CLU_PARTNER_CNT.COUNT
          | _ => s
        s.modJob h.id fun h => { h with peer := x.digest }

/-- Remove the first write-back entry of a channel. -/
def dropWb (chan : Nat) : List WbEntry → List WbEntry
  | [] => []
  | x :: xs => if x.chan = chan then xs else x :: dropWb chan xs

/-- A committed state has been written to the channel store (R76, R242); `lost` is a device to which the write failed link EDC
after four retries (R467). -/
def writtenBack (s : State) (k chan : Nat) (lost : Option (BitVec 2)) : State :=
  let s := match lost with
    | some d => if s.memReady then s.loseDevice d.toNat 6 else s
    | none => s
  s.modCluster k fun c => { c with wb := dropWb chan c.wb }

/-- A BEAT job that has spent its budget aborts (R244). -/
def overrun (s : State) (k i : Nat) : State :=
  match s.runJob k i with
  | none => s
  | some j =>
    if j.kind = .beat && j.state = .running && s.budget j ≤ s.elapsed k j then
      ((s.inc (Reg.CLU_OVERRUN_CNT k) Fd.CLU_OVERRUN_CNT.COUNT).event (Pg.CLU k) Ev.CLU.OVERRUN).abortJob j 2 false
    else s

/-- A job that a core runs, or has handed over, of a type other than BEAT. -/
def coreJob (s : State) (k : JobType) (x : Nat) : Option Job :=
  s.disp.jobs.find? fun j => j.kind = k && j.chan = x && (j.state = .running || j.state = .committing)

/-- A MAINT job completes (R251). A library load that reads poison costs the cluster its image (R466).
PRESUMED (log entry 20). -/
def maintDone (s : State) (task : Nat) (reads : List SectorRead) : State :=
  match s.coreJob .maint task with
  | some j =>
    let (s, poison) := s.readSectors reads
    let s := s.completeJob j
    if poison && ((s.cluster task).any fun c => c.cstate = .evacuated) then s.setCState task .off else s
  | none => s

end State

/-- STAGING_COMPLETE (R240). -/
def execStagingComplete (t k i : Nat) (reads : List SectorRead) (s : State) : Host.Outcome State Fault Refusal :=
  s.act t fun s => s.stage k i reads

/-- JOB_START (R74). -/
def execJobStart (t k i : Nat) (s : State) : Host.Outcome State Fault Refusal := s.act t fun s => s.startJob k i

/-- JOB_HANDOVER (R241). -/
def execJobHandover (t k i digest : Nat) (s : State) : Host.Outcome State Fault Refusal :=
  s.act t fun s => s.handover k i digest

/-- PARTNER_DIGEST (R243). -/
def execPartnerDigest (t chan : Nat) (s : State) : Host.Outcome State Fault Refusal :=
  s.act t fun s => s.partnerDigest chan

/-- WRITE_BACK_COMPLETE (R76, R242). -/
def execWriteBackComplete (t k chan : Nat) (lost : Option (BitVec 2)) (s : State) : Host.Outcome State Fault Refusal :=
  s.act t fun s => s.writtenBack k chan lost

/-- JOB_OVERRUN (R244). -/
def execJobOverrun (t k i : Nat) (s : State) : Host.Outcome State Fault Refusal := s.act t fun s => s.overrun k i

/-- MAINT_JOB_DONE (R251). -/
def execMaintJobDone (t task : Nat) (reads : List SectorRead) (s : State) : Host.Outcome State Fault Refusal :=
  s.act t fun s => s.maintDone task reads

end Sys2Proof.Machine
end

