-- ==== Sys2Proof/Machine/RegOps.lean ====
section
/-! DEFINITION. Writes of register fields by access type and range (R4, R20). -/

namespace Sys2Proof.Machine

/-- A field's value in a written word. -/
def FieldSpec.of (f : FieldSpec) (v : Word) : Nat := bitsOf v f.hi f.lo

/-- A value lies in a field's range. -/
def FieldSpec.accepts (f : FieldSpec) (n : Nat) : Bool :=
  f.range.isEmpty || f.range.any fun r => r.1 ≤ n && n ≤ r.2

/-- Every field of the access types has an accepted value in a written word.
DEDUCED (log entry 7). -/
def fieldsOk (fs : List FieldSpec) (acc : List Access) (v : Word) : Bool :=
  fs.all fun f => !acc.contains f.acc || f.accepts (f.of v)

/-- A word with the fields of one access type taken from a written word. -/
def mergeFields (fs : List FieldSpec) (acc : Access) (old v : Word) : Word :=
  fs.foldl (fun w f => if f.acc = acc then withBits w f.hi f.lo (f.of v) else w) old

/-- A register that has a field of an access type. -/
def hasAcc (a : Nat) (acc : Access) : Bool := (fieldsAt a).any fun f => f.acc = acc

/-- The rules that join fields of one staged register: INIT_MS is a multiple of 5 (R193), and CNG_FLOOR is not above
CNG_CEIL in level (R143).
DEDUCED (log entry 7). -/
def stagedOk (a : Nat) (v : Word) : Bool :=
  if a = Reg.JBUF_TIMES then bitsOf v Fd.JBUF_TIMES.INIT_MS.hi Fd.JBUF_TIMES.INIT_MS.lo % 5 = 0
  else if (List.range 4).any fun p => a = Reg.ECAN_PRF_NLP p then
    bitsOf v Fd.ECAN_PRF_NLP.CNG_CEIL.hi Fd.ECAN_PRF_NLP.CNG_CEIL.lo ≤ bitsOf v Fd.ECAN_PRF_NLP.CNG_FLOOR.hi Fd.ECAN_PRF_NLP.CNG_FLOOR.lo
  else true

end Sys2Proof.Machine
end

