-- ==== Sys2Proof/Machine/TxnOps.lean ====
section
/-! DEFINITION. Transaction slots: the operations that commands, boundaries and ownership share
(R78 to R90). -/

namespace Sys2Proof.Machine.State

/-- A transaction slot. -/
def slot (s : State) (i : Nat) : Option TxnSlot := s.txns[i]?

/-- Replace a transaction slot. -/
def setSlot (s : State) (i : Nat) (x : TxnSlot) : State := { s with txns := s.txns.set i x }

/-- The port a slot belongs to: 0 to 7 port A, 8 to 15 port B (R78). -/
def slotPort (i : Nat) : Port := if i < 8 then .a else .b

/-- The slots of a port. -/
def portSlots : Port → List Nat
  | .a => [0, 1, 2, 3, 4, 5, 6, 7]
  | .b => [8, 9, 10, 11, 12, 13, 14, 15]

/-- A transaction ends: its slot is FREE and DONE with the final status; DONE_s latches, and FAILED with
any status other than OK (R84, R96). `fail` is the entry that conflicted or failed, if one did. -/
def endTxn (s : State) (i : Nat) (st : Nat) (fail : Option Nat) (reached : Bool) : State :=
  match s.slot i with
  | none => s
  | some x =>
    let x := { x with state := .free, done := true, status := st, reached := reached }
    let x := match fail with
      | some e => { x with failValid := true, failEntry := e }
      | none => x
    ((s.setSlot i x).event Pg.TXN i).eventIf (st != 0) Pg.TXN Ev.TXN.FAILED

/-- Abort a slot's transaction when it is OPEN. -/
def abortIfOpen (s : State) (i : Nat) : State :=
  match s.slot i with
  | some x => if x.state = .opened then s.endTxn i Status.aborted.code none false else s
  | none => s

/-- Every open transaction of a port aborts with ABORTED (R39). -/
def abortOpenTxns (s : State) (p : Port) : State := (portSlots p).foldl abortIfOpen s

/-- A port holds an open transaction (R40). -/
def hasOpenTxn (s : State) (p : Port) : Bool :=
  (portSlots p).any (fun i => match s.slot i with
    | some x => x.state = .opened
    | none => false)

end Sys2Proof.Machine.State
end

