-- ==== Sys2Proof/Machine/TxnApply.lean ====
section
/-! DEFINITION. Staging, commit and apply of host configuration transactions (R79 to R91, R109, R110). -/

namespace Sys2Proof.Machine

/-- Entries that a transaction holds at most (R82). -/
def maxTxnEntries : Nat := 512

namespace State

/-! ## Staging (R80 to R83) -/

/-- The slot that takes a port's staged writes now: none for a stray write (R81). -/
def stagingSlot (s : State) (p : Port) : Option (Nat × TxnSlot) :=
  let i := s.get Reg.TXN_CUR Fd.TXN_CUR.ID
  if s.flag Reg.TXN_CUR Fd.TXN_CUR.EN && slotPort i = p then
    match s.slot i with
    | some x => if x.state = .opened then some (i, x) else none
    | none => none
  else none

/-- A stray write is dropped (R81). -/
def strayWrite (s : State) (off : Nat) : State :=
  let s := s.status (off / 0x1000) .aborted
  let s := s.inc Reg.TXN_STRAY_CNT Fd.TXN_STRAY_CNT.COUNT
  (s.put Reg.TXN_STRAY Fd.TXN_STRAY.OFFSET off).event Pg.TXN Ev.TXN.STRAY

/-- A staging action poisons its transaction (R83).
DEDUCED (log entry 42). -/
def poisonSlot (s : State) (i : Nat) (x : TxnSlot) (st : Status) (entry : Nat) : State :=
  s.setSlot i { x with poisoned := true, status := st.code, failValid := true, failEntry := entry }

/-- The place of a register among the staged entries. -/
def regEntry (a : Nat) (es : List Entry) : Option Nat :=
  es.findIdx? fun e => match e with
    | .reg b _ => b = a
    | .cmd _ _ => false

/-- An owner's write of the RWT fields of a register (R80 to R83).
DEDUCED (log entry 7). -/
def stageReg (s : State) (p : Port) (a : Nat) (v : Word) : State :=
  match s.stagingSlot p with
  | none => s.strayWrite a
  | some (i, x) =>
    let page := a / 0x1000
    let fs := fieldsAt a
    let w := mergeFields fs .rwt 0 v
    let at_ := (regEntry a x.entries).getD x.entries.length
    if x.poisoned then s.put (Reg.PAGE_STATUS page) Fd.PAGE_STATUS.LAST_STATUS x.status
    else if maxTxnEntries ≤ at_ then s.poisonSlot i x .full at_
    else if !fieldsOk fs [.rwt] v || !stagedOk a v then s.poisonSlot i x .badParam at_
    else s.setSlot i { x with entries :=
      if at_ < x.entries.length then x.entries.set at_ (.reg a w) else x.entries ++ [.reg a w] }

/-- The command buffer as bytes (R108). -/
def cmdBuf (s : State) : List Byte := ((List.range 24).map fun k => wordBytes (s.rd (Reg.CHAN_CMDBUF k))).flatten

/-- A GO that stages the command in the buffer (R109, R110, R122). -/
def stageCmd (s : State) (p : Port) : State :=
  match s.stagingSlot p with
  | none => s.strayWrite Reg.CHAN_CMD_GO
  | some (i, x) =>
    let b := s.cmdBuf
    let k := x.entries.length
    let bad := (s.poisonSlot i x .badParam k).status Pg.CHAN .badParam
    if x.poisoned then s.put (Reg.PAGE_STATUS Pg.CHAN) Fd.PAGE_STATUS.LAST_STATUS x.status
    else if maxTxnEntries ≤ k then (s.poisonSlot i x .full k).status Pg.CHAN .full
    else match cmdKind b with
      | none => bad
      | some op =>
        let b := b.take (leAt b 1 1 * 8)
        if stageOk op b then
          (s.setSlot i { x with entries := x.entries ++ [.cmd op b] }).status Pg.CHAN .ok
        else bad

/-! ## Open, commit and abort (R79, R84 to R87) -/

/-- TXN_OPEN (R79). -/
def txnOpen (s : State) (p : Port) (i : Nat) : State :=
  match s.slot i with
  | none => s.status Pg.TXN .badParam
  | some x =>
    if slotPort i != p then s.status Pg.TXN .badParam
    else if x.state != .free then s.status Pg.TXN .busy
    else
      (s.setSlot i { x with state := .opened, done := false, poisoned := false, entries := [], failValid := false,
                            failEntry := 0, reached := false }).status Pg.TXN .ok

/-- What a transaction touches (R85): a channel number, a register, or a timeslot whose user changes. -/
inductive TxnObj where
  | chan (num : Nat)
  | reg (addr : Nat)
  | timeslot (hwy slot : Nat)
  deriving DecidableEq, Repr

/-- The timeslots that a channel's leg on a side holds, as its configuration in effect says. -/
def heldSlots (s : State) (num : Nat) (b : Bool) : List (Nat × Nat) :=
  match s.chan num with
  | some c => (c.cfg.leg b).slots
  | none => []

/-- The timeslots whose user an entry enables or disables (R85). -/
def entrySlots (s : State) (op : CmdOp) (b : List Byte) : List (Nat × Nat) :=
  let num := cmdChan b
  let mask := cmdMask b % 128
  match op with
  | .openCh => cmdSlots op b
  | .close => s.heldSlots num false ++ s.heldSlots num true
  | .modify =>
    cmdSlots op b ++ (if partSel mask 4 then s.heldSlots num false else [])
      ++ (if partSel mask 5 then s.heldSlots num true else [])

/-- The objects of an entry. -/
def entryObjs (s : State) : Entry → List TxnObj
  | .reg a _ => [.reg a]
  | .cmd op b => .chan (cmdChan b) :: (s.entrySlots op b).map fun x => .timeslot x.1 x.2

/-- The objects that PENDING transactions touch. -/
def pendingObjs (s : State) : List TxnObj :=
  ((s.txns.filter fun x => x.state = .pending).map fun x => (x.entries.map s.entryObjs).flatten).flatten

/-- The first entry that conflicts with a PENDING transaction. -/
def conflictAt (s : State) (es : List Entry) : Option Nat :=
  let objs := s.pendingObjs
  es.findIdx? fun e => (s.entryObjs e).any fun o => objs.contains o

/-- The beat number of the next boundary. -/
def nextBeat (s : State) : BeatNo := if s.clk.started then s.clk.n + 1 else 0

/-- B(m) has come (R84). -/
def reachedBeat (s : State) (m : BeatNo) : Bool := s.clk.started && beatAtOrAfter s.clk.n m

/-- SEQ after an accepted commit (R86). -/
def nextSeq (seq : Nat) : Nat := if seq = 0xFFFFFFF then 1 else seq + 1

/-- TXN_COMMIT (R84). -/
def txnCommit (s : State) (p : Port) (i : Nat) (next : Bool) : State :=
  match s.slot i with
  | none => s.status Pg.TXN .badParam
  | some x =>
    let target := if next then s.nextBeat else s.rd Reg.TXN_TARGET
    if slotPort i != p || x.state != .opened then s.status Pg.TXN .badParam
    else if x.poisoned then
      (s.endTxn i x.status none false).put (Reg.PAGE_STATUS Pg.TXN) Fd.PAGE_STATUS.LAST_STATUS x.status
    else if !next && s.reachedBeat target then (s.endTxn i Status.late.code none false).status Pg.TXN .late
    else if s.wipeBars && !x.entries.isEmpty then (s.endTxn i Status.notInMode.code none false).status Pg.TXN .notInMode
    else match s.conflictAt x.entries with
      | some e =>
        let s := s.inc Reg.TXN_CONFLICT_CNT Fd.TXN_CONFLICT_CNT.COUNT
        (s.endTxn i Status.conflict.code (some e) false).status Pg.TXN .conflict
      | none =>
        let seq := nextSeq (s.get Reg.TXN_SEQ Fd.TXN_SEQ.SEQ)
        let order := (s.txns.map fun (y : TxnSlot) => y.order).foldl max 0 + 1
        let s := s.put Reg.TXN_SEQ Fd.TXN_SEQ.SEQ seq
        (s.setSlot i { x with state := .pending, target := target, tag := Word.of (seq * 16 + i), order := order }).status Pg.TXN .ok

/-- TXN_ABORT (R87). -/
def txnAbort (s : State) (p : Port) (i : Nat) : State :=
  match s.slot i with
  | none => s.status Pg.TXN .badParam
  | some x =>
    if slotPort i != p then s.status Pg.TXN .badParam
    else match x.state with
      | .opened => (s.endTxn i Status.aborted.code none false).status Pg.TXN .ok
      | .pending =>
        if s.reachedBeat x.target then s.status Pg.TXN .late
        else (s.endTxn i Status.aborted.code none false).status Pg.TXN .ok
      | .free => s.status Pg.TXN (if x.reached then .late else .badParam)

/-! ## Apply (R88 to R91) -/

/-- The effect of a change of USER of a pulse generator: it stops, and a free output holds its inactive level (R359). -/
def pgUser (s : State) (k new : Nat) : State :=
  let g := s.pgOf k
  let s := s.showPg k { g with st := .idle, fireAt := none, high := g.high && new != 0 }
  if new = 0 && g.high then s.emit (.pulse k (s.flag (Reg.PG_CTRL k) Fd.PG_CTRL.POL)) else s

/-- A staged register applies or fails (R89, R91, R293, R543). -/
def applyReg (s : State) (a : Nat) (v : Word) : Except Fail State :=
  let new := s.wr a (mergeFields (fieldsAt a) .rwt (s.rd a) v)
  let user := bitsOf v 1 0
  let old := bitsOf (s.rd a) 1 0
  let clash := user != 0 && old != 0 && user != old
  match findReg a with
  | none => .ok s
  | some (_, _, r, k) =>
    if r.name = "SRTP_SWITCH" then
      if s.modes.bringup then .error (Fail.of .notInMode)
      else if bitsOf v 31 31 = 1 then
        match s.srtpSwitch (bitsOf v 16 0) (bitsOf v 24 24 = 1) with
        | some s => .ok (s.wr a 0)
        | none => .error (Fail.of .badParam)
      else .ok new
    else if r.name = "PG_CTRL" then
      if clash then .error (Fail.of .conflict) else .ok (if user = old then new else new.pgUser k user)
    else if r.name = "IO_MUX" then
      if clash then .error (Fail.of .conflict) else .ok new
    else if r.name = "BEAT_CUT" then
      .ok (new.put a Fd.BEAT_CUT.CUT_CYC (new.get a Fd.BEAT_CUT.CUT_US * 24576 / 1000))
    else .ok new

/-- One entry applies or fails. -/
def applyEntry (s : State) (tag : Word) : Entry → Except Fail State
  | .reg a v => s.applyReg a v
  | .cmd op b => s.applyCmd op b tag

/-- Entries apply in staging order; the first that fails ends the list with its index. -/
def applyEntries (tag : Word) : List Entry → Nat → State → Except (Nat × Fail) State
  | [], _, s => .ok s
  | e :: es, i, s =>
    match s.applyEntry tag e with
    | .error f => .error (i, f)
    | .ok s => applyEntries tag es (i + 1) s

/-- The tone descriptor that an entry writes.
DEDUCED (log entry 42). -/
def entryDesc : Entry → Option Nat
  | .reg a _ => if 0x33800 ≤ a && a < 0x33800 + 32 * 64 then some ((a - 0x33800) / 32) else none
  | .cmd _ _ => none

/-- The last entry that writes a descriptor which fails its checks (R200).
DEDUCED (log entry 42). -/
def badDesc (s : State) (es : List Entry) : Option Nat :=
  (List.range es.length).reverse.find? fun i => match (es[i]?).bind entryDesc with
    | some d => !(s.toneDesc d).ok
    | none => false

/-- The pages whose TXN_TAG an applied transaction writes (R90). -/
def taggedPages (es : List Entry) : List Nat :=
  (es.map fun e => match e with
    | .reg a _ => a / 0x1000
    | .cmd _ _ => Pg.CHAN).eraseDups

/-- The entries of one transaction all apply, or it fails with an entry and a status. -/
def tryTxn (s : State) (x : TxnSlot) : Except (Nat × Fail) State :=
  match applyEntries x.tag x.entries 0 s with
  | .error f => .error f
  | .ok s =>
    match s.badDesc x.entries with
    | some i => .error (i, Fail.of .badParam)
    | none => .ok s

/-- One PENDING transaction applies in full or aborts (R88, R89, R90). -/
def applyTxn (s : State) (i : Nat) : State :=
  match s.slot i with
  | none => s
  | some x =>
    match s.tryTxn x with
    | .ok s1 =>
      let before := s.homeLoads
      let s1 := (taggedPages x.entries).foldl (fun s p => s.wr (Reg.TXN_TAG p) x.tag) s1
      (s1.homeHigh before).endTxn i Status.ok.code none true
    | .error (e, f) =>
      let s := s.noteFail f
      let s := if f.status = .conflict then s.inc Reg.TXN_CONFLICT_CNT Fd.TXN_CONFLICT_CNT.COUNT else s
      s.endTxn i f.status.code (some e) true

/-- The PENDING slots whose target is the latest boundary, in the order of their commits. -/
def dueTxns (s : State) : List Nat :=
  let due := (List.range 16).filterMap fun i => match s.slot i with
    | some x => if x.state = .pending && x.target = s.clk.n then some (x.order, i) else none
    | none => none
  (sortKeyed due).map fun p => p.2

/-- Step 2 of R60: the transactions due apply one after another. -/
def applyTxns (s : State) : State := s.dueTxns.foldl applyTxn s

/-- An owner's write of a register with RWT fields: its RW fields act at once, its RWT fields are staged (R80). -/
def rwtWrite (s : State) (p : Port) (a : Nat) (v : Word) : State :=
  let fs := fieldsAt a
  let s := if fieldsOk fs [.rw] v then s.wr a (mergeFields fs .rw (s.rd a) v) else s.status (a / 0x1000) .badParam
  if hasAcc a .rwt then s.stageReg p a v else s

end State

end Sys2Proof.Machine
end

