-- ==== Sys2Proof/Machine/Snap.lean ====
section
/-! DEFINITION. QUERY and the status snapshots: the record of each page, its capture at the write and its delivery by a
HOSTCMD job (R116, R117, R142, R167, R192, R227, R251, R320, R432). -/

namespace Sys2Proof.Machine

/-- A word with fields set one after the other. -/
def packWord (fs : List (Fd × Nat)) : Word := fs.foldl (fun w f => withBits w f.1.hi f.1.lo f.2) 0

/-- A number as a 32-bit two's complement word. -/
def intWord (i : Int) : Word := Word.of (toField 32 i)

namespace State

/-! ## The channel record (R117) -/

/-- The 64 bytes of an open channel's record. -/
def chanRecord (s : State) (c : Chan) : List Byte :=
  let f := c.cfg
  let partner := if f.paired then (s.partnerOf c.home).getD c.home else 0
  leBytes 4 c.num
    ++ leBytes 1 (1 + 2 * b2n f.emergency + 4 * b2n f.paired + 8 * b2n f.standing + 16 * b2n f.record + 32 * c.phase)
    ++ leBytes 1 (c.home + 16 * partner)
    ++ leBytes 1 (f.legA.kind + 4 * f.legB.kind + 16 * (match f.sess with
        | .none => 0
        | .taldy => 1
        | .fax => 2) + 64 * b2n (f.sess != .none && f.sessSideB)) ++ [0]
    ++ leBytes 4 c.openBeat.toNat ++ leBytes 4 c.lastBeat.toNat ++ leBytes 4 c.version.toNat ++ leBytes 4 c.costEvery
    ++ leBytes 4 c.costFrame ++ leBytes 4 c.skips ++ leBytes 4 c.aborts ++ leBytes 4 c.mismatches ++ leBytes 4 c.lastTag.toNat
    ++ leBytes 2 (c.session.getD 0xFFFF) ++ leBytes 2 (c.stream.getD 0xFFFF) ++ leBytes 4 c.legA.pktOut.toNat
    ++ leBytes 4 c.legA.pktIn.toNat ++ leBytes 4 c.legB.pktOut.toNat ++ leBytes 4 c.legB.pktIn.toNat

/-! ## Snapshot words after the status fields -/

/-- The beat of a channel's last commit.
DEDUCED (log entry 24). -/
def commitBeat (c : Chan) : Word := c.commit.getD 0

/-- ECAN_ST_STATUS (above VALID) to ECAN_ST_BEAT. -/
def ecanWords (s : State) (c : Chan) : List Word :=
  if c.cfg.ec = .off then List.replicate 5 0
  else
    let e := c.ec
    let x := ectx s.regs s.modes.bringup c.cfg e.profile
    let lv (l : Int) : Nat := if e.levels then levelBelow l else 0
    [packWord [(Fd.ECAN_ST_STATUS.ENABLED, 1), (Fd.ECAN_ST_STATUS.WIDEBAND, b2n x.wide), (Fd.ECAN_ST_STATUS.PROFILE, e.profile),
       (Fd.ECAN_ST_STATUS.TALK, e.talk), (Fd.ECAN_ST_STATUS.BYPASS, b2n (e.bypass x)), (Fd.ECAN_ST_STATUS.NLP, e.mode x),
       (Fd.ECAN_ST_STATUS.LOCKED, b2n e.locked), (Fd.ECAN_ST_STATUS.FROZEN, b2n e.frozen), (Fd.ECAN_ST_STATUS.CONV, e.conv)],
     packWord [(Fd.ECAN_ST_ERL.ERLE, toField 16 (e.erle / 100000)), (Fd.ECAN_ST_ERL.ERL, toField 16 (e.erl / 100000))],
     packWord [(Fd.ECAN_ST_WIN.LOC_PCT, e.locPct), (Fd.ECAN_ST_WIN.LOC_START, e.locStart), (Fd.ECAN_ST_WIN.WIN_START, e.win)],
     packWord [(Fd.ECAN_ST_LEVEL.CNG, levelBelow (e.cngLevel x)), (Fd.ECAN_ST_LEVEL.OUT, lv e.lastOut),
       (Fd.ECAN_ST_LEVEL.IN, lv e.lastIn), (Fd.ECAN_ST_LEVEL.REF, lv e.lastRef)],
     commitBeat c]

/-- CODEC_ST_STATUS to CODEC_ST_BEAT. -/
def codecWords (c : Chan) (b : Bool) : List Word :=
  let x := (c.leg b).codec
  if (c.cfg.leg b).kind = 0 then
    [packWord [(Fd.CODEC_ST_STATUS.CMR, x.cmr.getD 15), (Fd.CODEC_ST_STATUS.MODE, x.mode), (Fd.CODEC_ST_STATUS.PACKET, 1),
       (Fd.CODEC_ST_STATUS.VBD, b2n c.vbd), (Fd.CODEC_ST_STATUS.SILENT, b2n x.silent)],
     x.learned.getD 0, Word.of x.seq, x.sentTs, Word.of x.rtt, commitBeat c]
  else List.replicate 6 0

/-- JBUF_ST_STATUS to JBUF_ST_BEAT. -/
def jbufWords (s : State) (c : Chan) (b : Bool) : List Word :=
  let leg := c.cfg.leg b
  if leg.kind != 0 then List.replicate 21 0
  else if leg.isFax then packWord [(Fd.JBUF_ST_STATUS.PACKET, 1)] :: List.replicate 20 0
  else
    let j := (c.leg b).jb
    let x := s.jctx s.regs s.modes.bringup c c.cfg b s.clk.n
    let m := x.margins j
    let n := j.counts
    [packWord [(Fd.JBUF_ST_STATUS.TSA_OK, b2n x.tsaOk), (Fd.JBUF_ST_STATUS.STATE, j.st.code),
       (Fd.JBUF_ST_STATUS.GOAL, b2n (0 < j.goal)), (Fd.JBUF_ST_STATUS.PACKET, 1)],
     intWord (usOf ((minInt m).getD 0)), intWord (usOf ((maxInt m).getD 0)), intWord (usOf (x.target j)),
     Word.of (j.goal.natAbs / 230400),
     packWord [(Fd.JBUF_ST_USED.ENTRIES, j.entries.length), (Fd.JBUF_ST_USED.BYTES, j.used)],
     Word.of j.jitter, intWord j.lost, Word.of n.rx, Word.of n.late, Word.of n.dup, Word.of n.reorder, Word.of n.ovf,
     Word.of n.resync, Word.of n.conceal, Word.of n.lossCn, Word.of n.silent,
     packWord [(Fd.JBUF_ST_TSA.COMPRESS, n.compress), (Fd.JBUF_ST_TSA.STRETCH, n.stretch)],
     Word.of n.skipDrop, Word.of n.inboxDrop, commitBeat c]

/-- RATE_ST_STATUS to RATE_ST_BEAT. -/
def rateWords (c : Chan) (b : Bool) : List Word :=
  if (c.cfg.leg b).hasRate then
    let r := (c.leg b).rate
    [packWord [(Fd.RATE_ST_STATUS.INT_RATE, rateCode c.cfg.intKhz), (Fd.RATE_ST_STATUS.LEG_RATE, rateCode (c.cfg.khz b)),
       (Fd.RATE_ST_STATUS.CONVERTS, b2n (c.cfg.convert b)), (Fd.RATE_ST_STATUS.FROZEN, b2n r.frozen),
       (Fd.RATE_ST_STATUS.SAT_OUT, b2n r.satOut), (Fd.RATE_ST_STATUS.SAT_IN, b2n r.satIn)],
     intWord r.d, commitBeat c]
  else List.replicate 3 0

/-- A transmit request waits in a channel. -/
def sendWaits (c : Chan) : Bool :=
  c.ctls.any fun k => match k.2 with
    | .send _ => true
    | _ => false

/-- MDM_ST_STATUS to MDM_ST_BEAT. -/
def mdmWords (c : Chan) : List Word :=
  match c.cfg.sess with
  | .none => List.replicate 3 0
  | .taldy =>
    let tx := if c.taldy.tx.isSome then 2 else if sendWaits c then 1 else 0
    [packWord [(Fd.MDM_ST_STATUS.TX_STATE, tx), (Fd.MDM_ST_STATUS.RX_STATE, c.taldy.rxState), (Fd.MDM_ST_STATUS.TALDY, 1)],
     packWord [(Fd.MDM_ST_RX.SNR, c.taldy.lastSnr), (Fd.MDM_ST_RX.LEVEL, c.taldy.lastLevel),
       (Fd.MDM_ST_RX.SESSION, c.session.getD 0)],
     commitBeat c]
  | .fax =>
    [packWord [(Fd.MDM_ST_STATUS.FAX_MOD, c.fax.mod), (Fd.MDM_ST_STATUS.FAX_STATE, c.fax.state), (Fd.MDM_ST_STATUS.FAX, 1)],
     packWord [(Fd.MDM_ST_RX.SESSION, c.session.getD 0)], commitBeat c]

/-- EGS_ST_STATUS to EGS_ST_BEAT. -/
def egsWords (s : State) (leg : Nat) : List Word :=
  match s.nw.flows.find? leg with
  | none => List.replicate 4 0 ++ [s.clk.n]
  | some f =>
    [packWord [(Fd.EGS_ST_STATUS.CLASS, f.place.cls), (Fd.EGS_ST_STATUS.SHAPE, f.shp.state)],
     packWord [(Fd.EGS_ST_PLACE.WEIGHT, f.place.weight), (Fd.EGS_ST_PLACE.AGG, f.place.agg), (Fd.EGS_ST_PLACE.DEPTH, f.q.length)],
     intWord (milliOf f.shp.tc), intWord (milliOf f.shp.tp), s.clk.n]

/-! ## Capture and delivery -/

/-- A snapshot whose first word is a status word: STATUS in [7:0] and VALID in [8] on every page.
DEDUCED (log entry 24). -/
def snapWords (n : Nat) : Option (List Word) → List Word
  | none => Word.of Status.unknownChannel.code :: List.replicate (n - 1) 0
  | some [] => [256]
  | some (w :: ws) => (w ||| 256) :: ws

/-- A host action that needs a core captures its result, sets BUSY and makes its HOSTCMD job ready; refused with BUSY
while one of the page runs. -/
def snapshot (s : State) (page : Nat) (words : List Word) : State :=
  if s.isBusy page then s.status page .busy
  else
    let x : Snapshot := { page := page, status := if (words.headD 0).getLsbD 8 then 0 else Status.unknownChannel.code, words := words }
    let s := { s with snaps := x :: s.snaps.filter fun y => y.page ≠ page }
    let s := (s.setBusy page true).put (Reg.PAGE_STATUS page) Fd.PAGE_STATUS.LAST_STATUS x.status
    s.makeReady (s.plainJob .hostcmd page 0)

/-- The open channel of a leg index and the leg's side. -/
def legChan (s : State) (leg : Nat) : Option (Chan × Bool) := (s.chan (leg / 2)).map fun c => (c, leg % 2 = 1)

/-- A snapshot of a channel or leg on a page.
DEDUCED (log entry 24). -/
def statWrite (s : State) (page i : Nat) : State :=
  let ch := s.chan i
  let lg := s.legChan i
  let ws :=
    if page = Pg.ECAN then snapWords 5 (ch.map s.ecanWords)
    else if page = Pg.MDM then snapWords 3 (ch.map mdmWords)
    else if page = Pg.CODEC then snapWords 6 (lg.map fun x => codecWords x.1 x.2)
    else if page = Pg.JBUF then snapWords 21 (lg.map fun x => s.jbufWords x.1 x.2)
    else if page = Pg.RATE then snapWords 3 (lg.map fun x => rateWords x.1 x.2)
    else snapWords 5 (lg.map fun _ => s.egsWords i)
  s.snapshot page ws

/-- QUERY (R116): only the opcode of the buffer is checked. -/
def queryGo (s : State) : State :=
  let b := s.cmdBuf
  if s.isBusy Pg.CHAN then s.status Pg.CHAN .busy
  else if leAt b 0 1 != 4 then s.status Pg.CHAN .badParam
  else
    let num := cmdChan b
    s.snapshot Pg.CHAN (snapWords 17 ((s.chan num).map fun c => 0 :: bytesWords 16 (s.chanRecord c)))

/-- The first register of a page's record; a QUERY's follows its status register. -/
def snapBase (page : Nat) : Nat :=
  if page = Pg.ECAN then Reg.ECAN_ST_STATUS
  else if page = Pg.MDM then Reg.MDM_ST_STATUS
  else if page = Pg.CODEC then Reg.CODEC_ST_STATUS
  else if page = Pg.JBUF then Reg.JBUF_ST_STATUS
  else if page = Pg.RATE then Reg.RATE_ST_STATUS
  else Reg.EGS_ST_STATUS

/-- The event source of a finished snapshot. -/
def snapEvent (page : Nat) : Nat :=
  if page = Pg.ECAN then Ev.ECAN.STAT_DONE
  else if page = Pg.MDM then Ev.MDM.STAT_DONE
  else if page = Pg.CODEC then Ev.CODEC.STAT_DONE
  else if page = Pg.JBUF then Ev.JBUF.STAT_DONE
  else if page = Pg.RATE then Ev.RATE.STAT_DONE
  else if page = Pg.EGS then Ev.EGS.STAT_DONE
  else Ev.CHAN.QUERY_DONE

/-- Write words to consecutive registers. -/
def putWords (s : State) (a : Nat) : List Word → State
  | [] => s
  | w :: ws => (s.wr a w).putWords (a + 4) ws

/-- A snapshot fills its registers.
DEDUCED (log entry 24). -/
def deliver (s : State) (x : Snapshot) : State :=
  let s := if x.page = Pg.CHAN then (s.wr Reg.CHAN_QSTATUS (x.words.headD 0)).putWords (Reg.CHAN_QRES 0) x.words.tail
    else s.putWords (snapBase x.page) x.words
  (s.setBusy x.page false).event x.page (snapEvent x.page)

/-- A HOSTCMD job of a page completes. -/
def hostcmdDone (s : State) (page : Nat) : State :=
  match s.coreJob .hostcmd page, s.snaps.find? fun x => x.page = page with
  | some j, some x => ({ s with snaps := s.snaps.filter fun y => y.page ≠ page }.completeJob j).deliver x
  | _, _ => s

end State

/-! ## Meanings -/

/-- QUERY (R116). -/
def execQuery (t : Nat) (p : Port) (s : State) : Host.Outcome State Fault Refusal :=
  s.act t fun s => s.hostWrite p Reg.CHAN_CMD_GO State.queryGo

/-- HOSTCMD_JOB_DONE (R251). -/
def execHostcmdJobDone (t page : Nat) (s : State) : Host.Outcome State Fault Refusal := s.act t fun s => s.hostcmdDone page

/-- ECAN_STAT_CHAN (R142). -/
def execEcanStatChan (t : Nat) (p : Port) (chan : BitVec 16) (s : State) : Host.Outcome State Fault Refusal :=
  s.act t fun s => s.hostWrite p Reg.ECAN_STAT_CHAN fun s => s.statWrite Pg.ECAN chan.toNat

/-- CODEC_STAT_LEG (R167). -/
def execCodecStatLeg (t : Nat) (p : Port) (leg : BitVec 17) (s : State) : Host.Outcome State Fault Refusal :=
  s.act t fun s => s.hostWrite p Reg.CODEC_STAT_LEG fun s => s.statWrite Pg.CODEC leg.toNat

/-- JBUF_STAT_LEG (R192). -/
def execJbufStatLeg (t : Nat) (p : Port) (leg : BitVec 17) (s : State) : Host.Outcome State Fault Refusal :=
  s.act t fun s => s.hostWrite p Reg.JBUF_STAT_LEG fun s => s.statWrite Pg.JBUF leg.toNat

/-- RATE_STAT_LEG (R227). -/
def execRateStatLeg (t : Nat) (p : Port) (leg : BitVec 17) (s : State) : Host.Outcome State Fault Refusal :=
  s.act t fun s => s.hostWrite p Reg.RATE_STAT_LEG fun s => s.statWrite Pg.RATE leg.toNat

/-- EGS_STAT_FLOW (R320). -/
def execEgsStatFlow (t : Nat) (p : Port) (leg : BitVec 17) (s : State) : Host.Outcome State Fault Refusal :=
  s.act t fun s => s.hostWrite p Reg.EGS_STAT_FLOW fun s => s.statWrite Pg.EGS leg.toNat

/-- MDM_STAT_CHAN (R432). -/
def execMdmStatChan (t : Nat) (p : Port) (chan : BitVec 16) (s : State) : Host.Outcome State Fault Refusal :=
  s.act t fun s => s.hostWrite p Reg.MDM_STAT_CHAN fun s => s.statWrite Pg.MDM chan.toNat

end Sys2Proof.Machine
end

