-- ==== Sys2Proof/Machine/HostCtl.lean ====
section
/-! DEFINITION. What the host asks of single channels and legs: the canceller, the DC blocker, tones and Taldy link frames
(R136, R137, R211, R225, R416, R418, R424, R432). -/

namespace Sys2Proof.Machine

/-- A field of a written command word. -/
def fieldOf (v : Word) (f : Fd) : Nat := bitsOf v f.hi f.lo

namespace State

/-- A refusal by status: nothing else changes. -/
def refuse (s : State) (page : Nat) (st : Status) : State := s.status page st

/-! ## Echo canceller (R136, R137) -/

/-- A write of ECAN_CH_CMD. -/
def ecanCmd (s : State) (num action profile : Nat) : State :=
  if s.isBusy Pg.ECAN then s.refuse Pg.ECAN .busy
  else match s.chan num with
    | none => s.refuse Pg.ECAN .unknownChannel
    | some c =>
      match ecAction action profile with
      | none => s.refuse Pg.ECAN .badParam
      | some x => if c.cfg.ec = .off then s.refuse Pg.ECAN .badParam else (s.addCtl num (.ec x)).status Pg.ECAN .ok

/-! ## Rate conversion (R225) -/

/-- The action of a RATE_LEG_CMD. -/
def rateAction (action : Nat) : Option RateCtl :=
  match action with
  | 1 => some { RateCtl.none with freeze := some true }
  | 2 => some { RateCtl.none with freeze := some false }
  | 3 => some { RateCtl.none with clear := true }
  | _ => none

/-- A write of RATE_LEG_CMD.
DEDUCED (log entry 24). -/
def rateCmd (s : State) (leg action : Nat) : State :=
  if s.isBusy Pg.RATE then s.refuse Pg.RATE .busy
  else match s.legChan leg with
    | none => s.refuse Pg.RATE .unknownChannel
    | some (c, b) =>
      match rateAction action with
      | none => s.refuse Pg.RATE .badParam
      | some x =>
        if x.freeze.isSome && !(c.cfg.leg b).hasRate then s.refuse Pg.RATE .badParam
        else (s.addCtl (leg / 2) (.rate b x)).status Pg.RATE .ok

/-! ## Host tones (R211) -/

/-- Digits of TONE_GEN_DIGITS0 and 1: digit i in [4i+3:4i]. -/
def genDigits (s : State) (n : Nat) : List Nat :=
  (List.range n).map fun i =>
    let w := if i < 8 then s.rd Reg.TONE_GEN_DIGITS0 else s.rd Reg.TONE_GEN_DIGITS1
    bitsOf w (4 * (i % 8) + 3) (4 * (i % 8))

/-- The request that a TONE_GEN_CMD word spells; none where BAD_PARAM stops it. -/
def genRequest (s : State) (v : Word) : Option GenReq :=
  match fieldOf v Fd.TONE_GEN_CMD.ACTION with
  | 1 => some (.dtmf (s.genDigits (fieldOf v Fd.TONE_GEN_CMD.NDIG + 1)))
  | 2 =>
    let d := fieldOf v Fd.TONE_GEN_CMD.DESC
    if (s.toneDesc d).gen then some (.desc d) else none
  | 3 => some .stop
  | _ => none

/-- An action that waits is a host tone request for leg `b` and beat `n`. -/
def genWaits (n : BeatNo) (b : Bool) (k : BeatNo × ChanCtl) : Bool :=
  k.1 = n && match k.2 with
    | .gen d _ => d = b
    | _ => false

/-- A request for a leg of channel `num` replaces the one that waits for the same beat. -/
def addGen (s : State) (num : Nat) (c : Chan) (b : Bool) (q : GenReq) : State :=
  (s.modLife c.uid fun c => { c with ctls := c.ctls.filter fun k => !genWaits (s.clk.n + 1) b k }).addCtl num (.gen b q)

/-- A write of TONE_GEN_CMD. -/
def toneGenCmd (s : State) (v : Word) : State :=
  let b := fieldOf v Fd.TONE_GEN_CMD.DIR = 1
  let num := fieldOf v Fd.TONE_GEN_CMD.CHANNEL
  match s.chan num with
  | none => s.refuse Pg.TONE .unknownChannel
  | some c =>
    if (c.cfg.leg b).kind = 2 then s.refuse Pg.TONE .badParam
    else match s.genRequest v with
      | none => s.refuse Pg.TONE .badParam
      | some q => (s.addGen num c b q).status Pg.TONE .ok

/-- A relayed event that has gone on for 60 ms beyond its last received duration ends (R207). -/
def relayTimeout (s : State) (uid : Nat) (b : Bool) : State :=
  match s.life uid with
  | none => s
  | some c =>
    if (c.leg b).relayRx.timedOut then
      let s := s.modLife uid fun c => c.modLeg b fun x => { x with relayRx := x.relayRx.finish 0 }
      (s.inc Reg.TONE_RELAY_TIMEOUT_CNT Fd.TONE_RELAY_TIMEOUT_CNT.COUNT).event Pg.TONE Ev.TONE.RELAY_TIMEOUT
    else s

/-! ## Taldy link sessions (R416, R418, R424, R432) -/

/-- NOTCH_EN now. -/
def notchEn (s : State) : Bool := s.flag Reg.MDM_CFG Fd.MDM_CFG.NOTCH_EN

/-- The payload bytes that a MDM_TX_CMD copies. -/
def txPayload (s : State) (n : Nat) : List Byte :=
  (((List.range 64).map fun k => wordBytes (s.rd (Reg.MDM_TX_BUF k))).flatten).take n

/-- A write of MDM_TX_CMD (R418). -/
def mdmTx (s : State) (v : Word) : State :=
  let num := fieldOf v Fd.MDM_TX_CMD.CHANNEL
  let map := fieldOf v Fd.MDM_TX_CMD.MAP
  let rate := fieldOf v Fd.MDM_TX_CMD.RATE
  let len := s.get Reg.MDM_TX_LEN Fd.MDM_TX_LEN.LEN
  if s.isBusy Pg.MDM then s.refuse Pg.MDM .busy
  else match s.chan num with
    | none => s.refuse Pg.MDM .unknownChannel
    | some c =>
      if c.cfg.sess != .taldy || len = 0 || 256 < len || rate = 3 || mapBits (c.hostMaps.getD map freshMap) s.notchEn < 24 then
        s.refuse Pg.MDM .badParam
      else if sendWaits c || c.taldy.tx.isSome then s.refuse Pg.MDM .busy
      else
        let q : TxReq := { tag := s.get Reg.MDM_TX_LEN Fd.MDM_TX_LEN.TAG, map := map, rate := rate, payload := s.txPayload len }
        (s.addCtl num (.send q)).status Pg.MDM .ok

/-- The open channel that holds a Taldy link session, with its number. -/
def taldyChan (s : State) (session : Nat) : Option (Nat × Chan) :=
  List.find? (fun (p : Nat × Chan) => p.2.cfg.sess = .taldy && p.2.session = some session) s.chans

/-- The 24 entries of MDM_MAP_DATA. -/
def mapData (s : State) : List (Nat × Nat) :=
  ((List.range 12).map fun k =>
    let w := s.rd (Reg.MDM_MAP_DATA k)
    [(fieldOf w Fd.MDM_MAP_DATA.BITS0, fieldOf w Fd.MDM_MAP_DATA.GAIN0),
     (fieldOf w Fd.MDM_MAP_DATA.BITS1, fieldOf w Fd.MDM_MAP_DATA.GAIN1)]).flatten

/-- The words of a map for MDM_MAP_DATA. -/
def mapWords (m : List (Nat × Nat)) : List Word :=
  (List.range 12).map fun k =>
    let a := m.getD (2 * k) (0, 0)
    let b := m.getD (2 * k + 1) (0, 0)
    packWord [(Fd.MDM_MAP_DATA.BITS0, a.1), (Fd.MDM_MAP_DATA.GAIN0, a.2), (Fd.MDM_MAP_DATA.BITS1, b.1), (Fd.MDM_MAP_DATA.GAIN1, b.2)]

/-- A write of MDM_MAP_CMD with its OP (R416, R432).
DEDUCED (log entry 21). -/
def mdmMap (s : State) (op map session : Nat) : State :=
  if s.isBusy Pg.MDM then s.refuse Pg.MDM .busy
  else match s.taldyChan session with
    | none => s.refuse Pg.MDM .badParam
    | some (num, c) =>
      if op = 1 then
        let m := s.mapData
        if m.any fun e => 6 < e.1 || 60 < e.2 then s.refuse Pg.MDM .badParam
        else
          let s := s.modLife c.uid fun c => { c with hostMaps := c.hostMaps.set map m }
          (s.addCtl num (.map map m)).status Pg.MDM .ok
      else if op = 2 then (s.putWords (Reg.MDM_MAP_DATA 0) (mapWords (c.hostMaps.getD map freshMap))).status Pg.MDM .ok
      else s.refuse Pg.MDM .badParam

/-- A trellis unit completes the MODEM job it runs: the results wait for the channel's next BEAT job. -/
def modemDone (s : State) (i : Nat) (res : ModemRes) : State :=
  match (s.disp.trellis[i]?).bind fun u => u.run.bind fun id => s.job id with
  | none => s
  | some j =>
    let s := s.completeJob j
    let s := { s with disp := { s.disp with trellisNow := s.disp.trellisNow + res.bits } }
    s.modLife j.uid fun c => { c with taldy := { c.taldy with res := c.taldy.res ++ [(j.version.toNat, res)] } }

end State

/-! ## Meanings -/

/-- ECAN_FREEZE (R136). -/
def execEcanFreeze (t : Nat) (p : Port) (chan : BitVec 16) (s : State) : Host.Outcome State Fault Refusal :=
  s.act t fun s => s.hostWrite p Reg.ECAN_CH_CMD fun s => s.ecanCmd chan.toNat 1 0

/-- ECAN_RUN (R136). -/
def execEcanRun (t : Nat) (p : Port) (chan : BitVec 16) (s : State) : Host.Outcome State Fault Refusal :=
  s.act t fun s => s.hostWrite p Reg.ECAN_CH_CMD fun s => s.ecanCmd chan.toNat 2 0

/-- ECAN_LOCK (R136). -/
def execEcanLock (t : Nat) (p : Port) (chan : BitVec 16) (s : State) : Host.Outcome State Fault Refusal :=
  s.act t fun s => s.hostWrite p Reg.ECAN_CH_CMD fun s => s.ecanCmd chan.toNat 3 0

/-- ECAN_UNLOCK (R136). -/
def execEcanUnlock (t : Nat) (p : Port) (chan : BitVec 16) (s : State) : Host.Outcome State Fault Refusal :=
  s.act t fun s => s.hostWrite p Reg.ECAN_CH_CMD fun s => s.ecanCmd chan.toNat 4 0

/-- ECAN_RESET (R136, R139). -/
def execEcanReset (t : Nat) (p : Port) (chan : BitVec 16) (s : State) : Host.Outcome State Fault Refusal :=
  s.act t fun s => s.hostWrite p Reg.ECAN_CH_CMD fun s => s.ecanCmd chan.toNat 5 0

/-- NLP_PROFILE (R136). -/
def execNlpProfile (t : Nat) (p : Port) (chan : BitVec 16) (s : State) : Host.Outcome State Fault Refusal :=
  s.act t fun s => s.hostWrite p Reg.ECAN_CH_CMD fun s => s.ecanCmd chan.toNat 6 0

/-- NLP_OFF (R136). -/
def execNlpOff (t : Nat) (p : Port) (chan : BitVec 16) (s : State) : Host.Outcome State Fault Refusal :=
  s.act t fun s => s.hostWrite p Reg.ECAN_CH_CMD fun s => s.ecanCmd chan.toNat 7 0

/-- NLP_CLIP (R136). -/
def execNlpClip (t : Nat) (p : Port) (chan : BitVec 16) (s : State) : Host.Outcome State Fault Refusal :=
  s.act t fun s => s.hostWrite p Reg.ECAN_CH_CMD fun s => s.ecanCmd chan.toNat 8 0

/-- NLP_COMFORT (R136). -/
def execNlpComfort (t : Nat) (p : Port) (chan : BitVec 16) (s : State) : Host.Outcome State Fault Refusal :=
  s.act t fun s => s.hostWrite p Reg.ECAN_CH_CMD fun s => s.ecanCmd chan.toNat 9 0

/-- ECAN_PROFILE (R136). -/
def execEcanProfile (t : Nat) (p : Port) (chan : BitVec 16) (profile : BitVec 2) (s : State) : Host.Outcome State Fault Refusal :=
  s.act t fun s => s.hostWrite p Reg.ECAN_CH_CMD fun s => s.ecanCmd chan.toNat 10 profile.toNat

/-- DCB_FREEZE (R225). -/
def execDcbFreeze (t : Nat) (p : Port) (leg : BitVec 17) (s : State) : Host.Outcome State Fault Refusal :=
  s.act t fun s => s.hostWrite p Reg.RATE_LEG_CMD fun s => s.rateCmd leg.toNat 1

/-- DCB_RUN (R225). -/
def execDcbRun (t : Nat) (p : Port) (leg : BitVec 17) (s : State) : Host.Outcome State Fault Refusal :=
  s.act t fun s => s.hostWrite p Reg.RATE_LEG_CMD fun s => s.rateCmd leg.toNat 2

/-- CLEAR_SAT (R225, R226). -/
def execClearSat (t : Nat) (p : Port) (leg : BitVec 17) (s : State) : Host.Outcome State Fault Refusal :=
  s.act t fun s => s.hostWrite p Reg.RATE_LEG_CMD fun s => s.rateCmd leg.toNat 3

/-- TONE_GEN_DTMF (R211): the other fields of the command word come with it. -/
def execToneGenDtmf (t : Nat) (p : Port) (v : Word) (s : State) : Host.Outcome State Fault Refusal :=
  s.act t fun s => s.hostWrite p Reg.TONE_GEN_CMD fun s => s.toneGenCmd (withBits v Fd.TONE_GEN_CMD.ACTION.hi Fd.TONE_GEN_CMD.ACTION.lo 1)

/-- TONE_GEN_DESC (R211). -/
def execToneGenDesc (t : Nat) (p : Port) (v : Word) (s : State) : Host.Outcome State Fault Refusal :=
  s.act t fun s => s.hostWrite p Reg.TONE_GEN_CMD fun s => s.toneGenCmd (withBits v Fd.TONE_GEN_CMD.ACTION.hi Fd.TONE_GEN_CMD.ACTION.lo 2)

/-- TONE_GEN_STOP (R211). -/
def execToneGenStop (t : Nat) (p : Port) (v : Word) (s : State) : Host.Outcome State Fault Refusal :=
  s.act t fun s => s.hostWrite p Reg.TONE_GEN_CMD fun s => s.toneGenCmd (withBits v Fd.TONE_GEN_CMD.ACTION.hi Fd.TONE_GEN_CMD.ACTION.lo 3)

/-- RELAY_TIMEOUT (R207) on one leg. -/
def execRelayTimeout (t : Nat) (leg : BitVec 17) (s : State) : Host.Outcome State Fault Refusal :=
  s.act t fun s => match s.legChan leg.toNat with
    | some (c, b) => s.relayTimeout c.uid b
    | none => s

/-- MDM_TX_CMD (R418). -/
def execMdmTxCmd (t : Nat) (p : Port) (v : Word) (s : State) : Host.Outcome State Fault Refusal :=
  s.act t fun s => s.hostWrite p Reg.MDM_TX_CMD fun s => s.mdmTx v

/-- MDM_MAP_WRITE (R416, R432). -/
def execMdmMapWrite (t : Nat) (p : Port) (map : BitVec 4) (session : BitVec 12) (s : State) : Host.Outcome State Fault Refusal :=
  s.act t fun s => s.hostWrite p Reg.MDM_MAP_CMD fun s => s.mdmMap 1 map.toNat session.toNat

/-- MDM_MAP_READ (R432). -/
def execMdmMapRead (t : Nat) (p : Port) (map : BitVec 4) (session : BitVec 12) (s : State) : Host.Outcome State Fault Refusal :=
  s.act t fun s => s.hostWrite p Reg.MDM_MAP_CMD fun s => s.mdmMap 2 map.toNat session.toNat

/-- MODEM_JOB_DONE (R424). -/
def execModemJobDone (t : Nat) (unit : BitVec 2) (res : ModemRes) (s : State) : Host.Outcome State Fault Refusal :=
  s.act t fun s => s.modemDone unit.toNat res

end Sys2Proof.Machine
end

