-- ==== Sys2Proof/Machine/Egress.lean ====
section
/-! DEFINITION. Transmission: opportunities, frames on the wire, host frames, and the commands of the egress tree (R304, R313,
R315, R322, R335, R357, R399, R400). -/

namespace Sys2Proof.Machine

namespace State

/-! ## Transmission opportunities (R315, R335, R366) -/

/-- The bytes of what a class would send. -/
def candBytes (s : State) (p k : Nat) : Cand → List Byte
  | .host f => f.bytes
  | .goOn t => match (s.flow t.flow).q with
    | q :: _ => s.packetFrame p k q
    | [] => []
  | .fresh _ leg => match (s.flow leg).q with
    | q :: _ => s.packetFrame p k q
    | [] => []

/-- A class may start `bytes` on the wire now: its gate is open for what must fit, and it is not paused. -/
def mayStart (s : State) (p k bytes : Nat) : Bool :=
  let need := if s.preemptable p k then min bytes (s.minFragment p) else bytes
  s.gateAllows p k (s.frameNs need) && !s.isHeld p k

/-- The highest class of a kind that may send, with what it sends. -/
def readyClass (s : State) (p : Nat) (ok : Nat → Bool) : Option (Nat × Cand) :=
  [7, 6, 5, 4, 3, 2, 1, 0].findSome? fun k =>
    if !ok k then none
    else match s.classPick p k with
      | some c => if s.mayStart p k (wireBytes (s.candBytes p k c)) then some (k, c) else none
      | none => none

/-- The network time at which a frame that starts now passes the message timestamp point, with the port's correction
(R354). -/
def txUnits (s : State) (p : Nat) : Nat :=
  ((s.net.read (s.clk.now + s.bitTicks 64) s.refs.dco : Int) + s.getI (Reg.PTIME_TX_ADJ_PS p) Fd.PTIME_TX_ADJ_PS.PS * 65536 / 1000).toNat

/-- A frame goes on the wire. -/
def putOnWire (s : State) (p k : Nat) (bytes : List Byte) (host : Option HostFrame) (tsId : Nat) : State :=
  let w : WireFrame := { bytes := bytes, cls := k, start := s.clk.now, frags := 0, sent := 0, sfd := s.txUnits p, host := host, tsId := tsId }
  s.modMac p fun m => { m with wire := some w }

/-- A leg's packet starts. -/
def startPacket (s : State) (p k : Nat) (t : TrainRun) (bytes : List Byte) : State :=
  let stamp := match (s.flow t.flow).q with
    | q :: _ => q.stamp
    | [] => s.clk.now
  let s := (s.noteSojourn p ((s.clk.now - stamp) / cycTicks)).putOnWire p k bytes none 0
  ({ s with freeCtr := s.freeCtr + headerDraws }.sendHead p k t).noteMem 0

/-- A host frame starts: a timestamp request takes the port's next identifier (R357, R400). -/
def startHost (s : State) (p k : Nat) (f : HostFrame) : State :=
  let c := s.cls p k
  let rest := c.hostq.drop 1
  let v := tagMax c.v c.hostTag
  let w := s.get Reg.RING_HOSTQ_WEIGHT Fd.RING_HOSTQ_WEIGHT.WEIGHT
  let s := s.setCls p k { c with v := v, hostq := rest, hostTag := if rest.isEmpty then c.hostTag else headTag v c.hostTag w }
  let id := (s.mac p).tsNext
  let s := if f.ts then s.modMac p fun m => { m with tsNext := (id + 1) % 65536 } else s
  s.putOnWire p k f.bytes (some f) id

/-- What a class sends starts. -/
def startCand (s : State) (p k : Nat) (c : Cand) : State :=
  match c with
  | .host f => s.startHost p k f
  | .goOn t => s.startPacket p k t (s.candBytes p k c)
  | .fresh a leg =>
    let t := s.newTrain a leg
    let bytes := s.candBytes p k c
    let s := if t.flowExcess || t.aggExcess then s.inc Reg.EGS_EXCESS_CNT Fd.EGS_EXCESS_CNT.COUNT else s
    s.startPacket p k t bytes

/-- The frame on the wire is interrupted at a fragment boundary (R335).
DEDUCED (log entry 32). -/
def park (s : State) (p : Nat) (w : WireFrame) : State :=
  s.modMac p fun m => { m with wire := none, parked := some { w with frags := w.frags + 1, sent := w.sent + s.fragSent w } }

/-- The remainder of an interrupted frame goes on.
DEDUCED (log entry 32). -/
def resume (s : State) (p : Nat) (w : WireFrame) : State :=
  s.modMac p fun m => { m with parked := none, wire := some { w with start := s.clk.now } }

/-- The port is free: the highest class that may send starts; while a remainder waits, only express classes go before it. -/
def startNext (s : State) (p : Nat) : State :=
  match (s.mac p).parked with
  | none => match s.readyClass p fun _ => true with
    | some (k, c) => s.startCand p k c
    | none => s
  | some w => match s.readyClass p fun k => !s.preemptable p k with
    | some (k, c) => s.startCand p k c
    | none => if s.mayStart p w.cls (wireBytes w.bytes - w.sent) then s.resume p w else s

/-- A transmission opportunity of a port (R315). A port without link releases nothing, and only ages (R308, R330). -/
def txOpportunity (s : State) (p : Nat) : State :=
  let s := s.agePort p
  if !s.provided p || !s.macEn p || !s.linkIsUp p then s
  else match (s.mac p).wire with
    | none => s.startNext p
    | some w =>
      let wanted := (s.readyClass p fun k => !s.preemptable p k).isSome || !s.mayStart p w.cls (wireBytes w.bytes - w.sent)
      if s.clk.now < s.wireEnd w && (s.mac p).parked.isNone && s.canPark p w && wanted then (s.park p w).startNext p else s

/-- A host frame's outcome is known (R399). -/
def hostDone (s : State) (f : HostFrame) (st : Status) (tsId : Nat) : State :=
  let r := s.ringOf f.ring
  if r.gen = f.gen then
    s.setRing f.ring { r with tx := r.tx.map fun x => if x.count = f.count then { x with done := some (st.code, if st = .ok && f.ts then tsId else 0) } else x }
  else s

/-- A frame finishes on the wire (R335, R340, R357, R358). -/
def frameTxDone (s : State) (p : Nat) : State :=
  match (s.mac p).wire with
  | none => s
  | some w =>
    if s.clk.now < s.wireEnd w then s
    else
      let s := (s.modMac p fun m => { m with wire := none }).sentFrame p w.bytes
      let s := if 0 < w.frags then (s.macCount p 27 1).macCount p 28 (w.frags + 1) else s
      match w.host with
      | none => s
      | some f =>
        let s := s.hostDone f .ok w.tsId
        if f.ts then s.tsqPush p { ident := w.tsId, stamp := stampOf w.sfd s.net.gen } else s

/-! ## Frames from host rings (R399, R400) -/

/-- A transmit descriptor that the port refuses: a LEN, port or reserved bit out of range. -/
def descBad (s : State) (d : RingDesc) : Bool :=
  let p := d.ctrl % 8
  d.len < 14 || s.get (Reg.MAC_MAXFRAME p) Fd.MAC_MAXFRAME.BYTES - 4 < d.len || !s.provided p || !d.clean

/-- The class of a transmit frame (R357, R399). -/
def descClass (s : State) (d : RingDesc) : Nat :=
  if bit d.ctrl 3 then s.get (Reg.PTIME_CTRL (d.ctrl % 8)) Fd.PTIME_CTRL.CLASS else d.ctrl / 16 % 8

/-- A transmit frame with the tags that its descriptor asks for. -/
def taggedFrame (s : State) (d : RingDesc) (bytes : List Byte) : List Byte :=
  let p := d.ctrl % 8
  let tag := if bit d.ctrl 3 then !s.flag (Reg.PTIME_CTRL p) Fd.PTIME_CTRL.UNTAG else bit d.ctrl 7
  let b := slice bytes 0 d.len
  if tag then b.take 12 ++ s.macTags p (s.descClass d) ++ b.drop 12 else b

/-- The next descriptor of a ring is fetched, with its frame from host memory (R399). -/
def txFetch (s : State) (g : Nat) (bytes : List Byte) : State :=
  let r := s.ringOf g
  if !s.ringRuns g || !s.flag (ringReg Reg.RING_CFG g) Fd.RING_CFG.DIR || 16 ≤ r.tx.length then s
  else match r.avail with
    | [] => s
    | d :: rest =>
      let count := (s.rd (ringReg Reg.RING_HEAD g)).toNat + r.tx.length
      if s.descBad d then
        s.setRing g { r with avail := rest, tx := r.tx ++ [{ count := count, desc := d, done := some (Status.badParam.code, 0) }] }
      else
        let p := d.ctrl % 8
        let k := s.descClass d
        let c := s.cls p k
        if 16 ≤ c.hostq.length then s
        else
          let f : HostFrame := { ring := g, gen := r.gen, count := count, bytes := s.taggedFrame d bytes, ts := bit d.ctrl 3 }
          let w := s.get Reg.RING_HOSTQ_WEIGHT Fd.RING_HOSTQ_WEIGHT.WEIGHT
          let s := s.setCls p k { c with hostq := c.hostq ++ [f], hostTag := if c.hostq.isEmpty then headTag c.v c.hostTag w else c.hostTag }
          (s.setRing g { r with avail := rest, tx := r.tx ++ [{ count := count, desc := d, done := none }] }).emit
            (.dmaRead (ringPort g) d.addr d.len)

/-- The completion at the head of a ring is written back once its outcome is known (R399). -/
def txComplete (s : State) (g : Nat) : State :=
  let r := s.ringOf g
  match r.tx with
  | x :: rest =>
    match x.done with
    | some (st, id) =>
      let s := s.setRing g { r with tx := rest }
      (s.emit (.dma (ringPort g) (s.descAddr g x.count + 11)
        ([1] ++ leBytes 4 s.clk.n.toNat ++ leBytes 1 st ++ [0] ++ leBytes 2 id))).ringDone g
    | none => s
  | [] => s

/-! ## EGS_AGG_CMD (R304) and SHP_CMD (R313, R322) -/

/-- The settings in EGS_AGG_DATA. -/
def aggData (s : State) : AggCfg :=
  { en := s.flag Reg.EGS_AGG_DATA Fd.EGS_AGG_DATA.EN, port := s.get Reg.EGS_AGG_DATA Fd.EGS_AGG_DATA.PORT,
    cls := s.get Reg.EGS_AGG_DATA Fd.EGS_AGG_DATA.CLASS, weight := s.get Reg.EGS_AGG_DATA Fd.EGS_AGG_DATA.WEIGHT }

/-- EGS_AGG_CMD WRITE. -/
def aggWrite (s : State) (a : Nat) : State :=
  let n := s.aggData
  let x := s.agg a
  if n.weight = 0 || !s.provided n.port then s.refuse Pg.EGS .badParam
  else if (n.port != x.cfg.port || n.cls != x.cfg.cls || (x.cfg.en && !n.en)) && 0 < s.aggFlows a then s.refuse Pg.EGS .conflict
  else (s.setAgg a { x with cfg := n, cfgAt := s.clk.now }).status Pg.EGS .ok

/-- EGS_AGG_CMD READ.
DEDUCED (log entry 31). -/
def aggRead (s : State) (a : Nat) : State :=
  let c := (s.agg a).cfg
  let s := (s.putB Reg.EGS_AGG_DATA Fd.EGS_AGG_DATA.EN c.en).put Reg.EGS_AGG_DATA Fd.EGS_AGG_DATA.CLASS c.cls
  let s := (s.put Reg.EGS_AGG_DATA Fd.EGS_AGG_DATA.PORT c.port).put Reg.EGS_AGG_DATA Fd.EGS_AGG_DATA.WEIGHT c.weight
  (s.put Reg.EGS_AGG_FLOWS Fd.EGS_AGG_FLOWS.COUNT (s.aggFlows a)).status Pg.EGS .ok

/-- The settings in the SHP registers. -/
def shpData (s : State) : ShpCfg :=
  { en := s.flag Reg.SHP_CIR Fd.SHP_CIR.EN, cir := s.get Reg.SHP_CIR Fd.SHP_CIR.CIR, pir := s.get Reg.SHP_PIR Fd.SHP_PIR.PIR,
    cbs := s.get Reg.SHP_DEPTH Fd.SHP_DEPTH.CBS, pbs := s.get Reg.SHP_DEPTH Fd.SHP_DEPTH.PBS }

/-- Settings that a WRITE refuses. -/
def shpBad (c : ShpCfg) : Bool := c.en && (c.pir = 0 || c.pbs = 0 || c.pir < c.cir || (c.cbs = 0 && 0 < c.cir))

/-- The shaper of a flow or of an aggregate. -/
def shaper (s : State) (agg : Bool) (i : Nat) : Shaper := if agg then (s.agg i).shp else (s.flow i).shp

/-- An index of SHP_CMD out of range. -/
def shpRange (agg : Bool) (i : Nat) : Bool := if agg then 2047 < i else 131071 < i

/-- SHP_CMD WRITE. -/
def shpWrite (s : State) (agg : Bool) (i : Nat) : State :=
  let c := s.shpData
  if shpRange agg i || shpBad c then s.refuse Pg.SHP .badParam
  else
    let x := { s.shaper agg i with pend := some (s.clk.now, c) }
    (if agg then s.setAgg i { s.agg i with shp := x } else s.setFlow i { s.flow i with shp := x }).status Pg.SHP .ok

/-- SHP_CMD READ.
DEDUCED (log entry 31). -/
def shpRead (s : State) (agg : Bool) (i : Nat) : State :=
  if shpRange agg i then s.refuse Pg.SHP .badParam
  else
    let x := s.shaper agg i
    let s := (s.putB Reg.SHP_CIR Fd.SHP_CIR.EN x.cfg.en).put Reg.SHP_CIR Fd.SHP_CIR.CIR x.cfg.cir
    let s := s.put Reg.SHP_PIR Fd.SHP_PIR.PIR x.cfg.pir
    let s := (s.put Reg.SHP_DEPTH Fd.SHP_DEPTH.PBS x.cfg.pbs).put Reg.SHP_DEPTH Fd.SHP_DEPTH.CBS x.cfg.cbs
    let s := (s.putI Reg.SHP_TC Fd.SHP_TC.MILLI (milliOf x.tc)).putI Reg.SHP_TP Fd.SHP_TP.MILLI (milliOf x.tp)
    (s.put Reg.SHP_STATE Fd.SHP_STATE.STATE x.state).status Pg.SHP .ok

end State

/-! ## Meanings -/

/-- TX_OPPORTUNITY (R315). -/
def execTxOpportunity (t : Nat) (port : BitVec 3) (s : State) : Host.Outcome State Fault Refusal :=
  s.act t fun s => s.txOpportunity port.toNat

/-- FRAME_TX_DONE (R357). -/
def execFrameTxDone (t : Nat) (port : BitVec 3) (s : State) : Host.Outcome State Fault Refusal :=
  s.act t fun s => s.frameTxDone port.toNat

/-- SHAPER_REFILL (R312). -/
def execShaperRefill (t : Nat) (s : State) : Host.Outcome State Fault Refusal := s.act t State.refills

/-- EGS_AGG_WRITE (R304). -/
def execEgsAggWrite (t : Nat) (p : Port) (agg : BitVec 11) (s : State) : Host.Outcome State Fault Refusal :=
  s.act t fun s => s.hostWrite p Reg.EGS_AGG_CMD fun s => s.aggWrite agg.toNat

/-- EGS_AGG_READ (R304). -/
def execEgsAggRead (t : Nat) (p : Port) (agg : BitVec 11) (s : State) : Host.Outcome State Fault Refusal :=
  s.act t fun s => s.hostWrite p Reg.EGS_AGG_CMD fun s => s.aggRead agg.toNat

/-- SHP_WRITE (R313). -/
def execShpWrite (t : Nat) (p : Port) (agg : Bool) (index : BitVec 17) (s : State) : Host.Outcome State Fault Refusal :=
  s.act t fun s => s.hostWrite p Reg.SHP_CMD fun s => s.shpWrite agg index.toNat

/-- SHP_READ (R322). -/
def execShpRead (t : Nat) (p : Port) (agg : Bool) (index : BitVec 17) (s : State) : Host.Outcome State Fault Refusal :=
  s.act t fun s => s.hostWrite p Reg.SHP_CMD fun s => s.shpRead agg index.toNat

/-- TX_DESC_FETCH (R399). -/
def execTxDescFetch (t : Nat) (g : BitVec 8) (bytes : List Byte) (s : State) : Host.Outcome State Fault Refusal :=
  s.act t fun s => s.txFetch g.toNat bytes

/-- TX_COMPLETION (R399). -/
def execTxCompletion (t : Nat) (g : BitVec 8) (s : State) : Host.Outcome State Fault Refusal := s.act t fun s => s.txComplete g.toNat

end Sys2Proof.Machine
end

