-- ==== Sys2Proof/Machine/Fifo.lean ====
section
/-! DEFINITION. The fall-through FIFO: stages, FULL, marks, checks, and the way of an item through it (R387 to R391, R384). -/

namespace Sys2Proof.Machine

/-- A word in a stage: which word of its item it is, and its tag (R387). -/
structure FifoWord where
  index : Nat
  soi : Bool
  eoi : Bool
  deriving DecidableEq, Repr

/-- A fall-through FIFO: its stages from the input to the output, whether a mark is held, and how many words were read
since the mark, whose stages are not free (R387, R390). -/
structure Fifo where
  stages : List (Option FifoWord)
  mark : Bool
  ahead : Nat
  deriving DecidableEq, Repr

/-- An empty FIFO of 32 stages. -/
def Fifo.empty : Fifo := { stages := List.replicate 32 none, mark := false, ahead := 0 }

namespace Fifo

/-- Occupied stages, held ones included (R387). -/
def level (f : Fifo) : Nat := f.stages.countP (·.isSome)

/-- FULL: every stage is occupied (R388). -/
def full (f : Fifo) : Bool := f.stages.all (·.isSome)

/-- The word at the read position, when it has reached the output's run of occupied stages. -/
def head (f : Fifo) : Option FifoWord := (f.stages.reverse.takeWhile (·.isSome)).getD f.ahead none

/-- The stages after the last `n`, next to the output, are freed. -/
def free (f : Fifo) (n : Nat) : Fifo :=
  { f with stages := f.stages.take (f.stages.length - n) ++ List.replicate (min n f.stages.length) none }

/-- Words fall one stage: those behind the free stage nearest to the output move up, and `w` enters at the input. -/
def fall (f : Fifo) (w : Option FifoWord) : Fifo := { f with stages := w :: (f.stages.reverse.erase none).reverse }

/-- The consumer reads the word at the read position: without a mark its stage is free (R390). -/
def read (f : Fifo) : Fifo := if f.mark then { f with ahead := f.ahead + 1 } else f.free 1

/-- The mark is released: every stage before the read position is free (R390). -/
def release (f : Fifo) : Fifo := if f.mark then { f.free f.ahead with mark := false, ahead := 0 } else f

/-- The read position returns to the mark (R390). -/
def rewind (f : Fifo) : Fifo := if f.mark then { f with ahead := 0 } else f

/-- The consumer may start on an item: two of its words are present, or its last one (R389). -/
def mayStart (f : Fifo) : Bool := 2 ≤ f.level || f.stages.any fun w => (w.map (·.eoi)).getD false

end Fifo

/-- The way of items through a FIFO so far: the words still to be written, whether the consumer has started on the
item, whether it has rewound, the words that were written while FULL, those that could not be corrected, and how
many were corrected. -/
structure FifoPass where
  fifo : Fifo
  todo : List FifoWord
  started : Bool
  rewound : Bool
  ignored : List Nat
  broken : List Nat
  corr : Nat
  deriving DecidableEq, Repr

namespace FifoPass

/-- The parser's mark: it marks at SOI, rewinds at most once, for a tunnel, and releases within 4 words (R390). -/
def marks (x : FifoPass) (marking tunnel : Bool) (c : FifoCycle) : FifoPass :=
  let x := if c.rewind && tunnel && x.fifo.mark && !x.rewound then { x with fifo := x.fifo.rewind, rewound := true } else x
  let x := if c.release || 4 ≤ x.fifo.ahead then { x with fifo := x.fifo.release } else x
  match x.fifo.head with
  | some w => if marking && w.soi && c.read && !x.started then { x with fifo := { x.fifo with mark := true, ahead := 0 } } else x
  | none => x

/-- The consumer reads a word, and the word is checked (R389, R391). -/
def take (x : FifoPass) (w : FifoWord) (k : WordCheck) : FifoPass :=
  let x := { x with fifo := x.fifo.read, started := !w.eoi }
  match k with
  | .clean => x
  | .corrected => { x with corr := x.corr + 1 }
  | .uncorrectable => { x with broken := x.broken ++ [w.index] }

/-- One cycle: FULL, the level and the word at the output are those at its start; a write while FULL is ignored (R387, R388). -/
def cycle (marking tunnel : Bool) (x : FifoPass) (c : FifoCycle) : FifoPass :=
  let full := x.fifo.full
  let go := c.read && (x.started || x.fifo.mayStart)
  let x := if go then x.marks marking tunnel c else x
  let got := if go then x.fifo.head else none
  let w := if c.write then x.todo.head? else none
  let x := { x with fifo := if full then x.fifo else x.fifo.fall w, todo := if c.write then x.todo.tail else x.todo,
                    ignored := if full then x.ignored ++ (w.map (·.index)).toList else x.ignored }
  match got with
  | some w => x.take w c.check
  | none => x

end FifoPass

/-- The words of an item go through an empty FIFO; those still on their way after the last cycle pass undisturbed.
DEDUCED (log entry 56). -/
def fifoPass (marking tunnel : Bool) (words : List FifoWord) (cs : List FifoCycle) : FifoPass :=
  cs.foldl (FifoPass.cycle marking tunnel)
    { fifo := .empty, todo := words, started := false, rewound := false, ignored := [], broken := [], corr := 0 }

/-- An IP-in-IP frame, for which the parser rewinds (R275). -/
def tunnelled (b : List Byte) : Bool :=
  match frameHead b with
  | none => false
  | some h =>
    match (if h.etype = 0x0800 then ipv4 (b.drop h.off) else if h.etype = 0x86DD then ipv6 (b.drop h.off) else .control) with
    | .part x => x.frag.isNone && (x.proto = 4 || x.proto = 41)
    | _ => false

/-- The words of a frame, 64 bytes each, FCS included.
DEDUCED (log entry 56). -/
def frameWords (b : List Byte) : List FifoWord :=
  let n := (b.length + 4 + 63) / 64
  (List.range n).map fun i => { index := i, soi := i = 0, eoi := i + 1 = n }

/-- A received frame's way through the ingress FIFO of its port. -/
def macPass (f : RxFrame) : FifoPass := fifoPass true (tunnelled f.bytes) (frameWords f.bytes) f.fifo

/-- The FIFO leaves a frame whole: no word was ignored, and none could not be corrected (R388, R391). -/
def frameWhole (f : RxFrame) : Bool := (macPass f).ignored.isEmpty && (macPass f).broken.isEmpty

/-- The bytes of one frame of a highway, each an item of its own, through its receive FIFO (R384).
DEDUCED (log entry 56). -/
def pcmPass (x : PcmFrameIn) (h bits : Nat) : FifoPass :=
  fifoPass false false ((List.range (bits / 8)).map fun t => { index := t, soi := true, eoi := true }) (x.rxFifo.getD (h % 4) [])

/-- The timeslots whose byte the receive FIFO lost: an uncorrectable error counts as an overrun (R384, R391).
DEDUCED (log entry 56). -/
def rxLost (x : PcmFrameIn) (h bits : Nat) : List Nat := (pcmPass x h bits).ignored ++ (pcmPass x h bits).broken

end Sys2Proof.Machine
end

