-- ==== Sys2Proof/Machine/Srtp.lean ====
section
/-! DEFINITION. SRTP: checks on receive, keys and counts on sending, limits, erasure, and the SRTP commands (R163 to R166,
R291 to R293). -/

namespace Sys2Proof.Machine

/-- Bytes of the authentication tag of a suite (R163). -/
def tagBytes (suite : Nat) (rtcp : Bool) : Nat :=
  if 4 ≤ suite then 16 else if rtcp then 10 else if suite % 2 = 0 then 10 else 4

/-- Where the MKI of a protected packet lies: before the tag, or last with AES-GCM. -/
def mkiAt (k : SrtpKey) (rtcp : Bool) (len : Nat) : Nat :=
  len - k.mkiLen - (if 4 ≤ k.suite then 0 else tagBytes k.suite rtcp)

/-- Where the word with the SRTCP index lies: before the MKI. -/
def rtcpIndexAt (k : SrtpKey) (len : Nat) : Nat := mkiAt k true len - 4

/-- The shortest packet that the suite of a key yields. -/
def minProtected (k : SrtpKey) (rtcp : Bool) : Nat := (if rtcp then 8 + 4 else 12) + k.mkiLen + tagBytes k.suite rtcp

/-- The index of an RTP packet by the estimate of RFC 3711, from the highest index so far.
DEDUCED (log entry 11). -/
def rtpIndex (highest : Option Nat) (seq : Nat) : Int :=
  match highest with
  | none => seq
  | some h =>
    let roc : Int := h / 65536
    let sl := h % 65536
    if sl < 32768 then (if sl + 32768 < seq then roc - 1 else roc) * 65536 + seq
    else (if seq + 32768 < sl then roc + 1 else roc) * 65536 + seq

/-- An index lies in the window: not 128 or more below the highest, and not seen. -/
def indexFresh (highest : Option Nat) (window : List Nat) (i : Int) : Bool :=
  match highest with
  | none => 0 ≤ i
  | some h => 0 ≤ i && (h : Int) - 128 < i && !window.contains i.toNat

/-- The window with one more index. -/
def indexTaken (highest : Option Nat) (window : List Nat) (i : Nat) : Nat × List Nat :=
  let h := max i (highest.getD 0)
  (h, (i :: window).filter fun x => h < x + 128)

/-- The keys that authentication tries, in order (R291). -/
def authKeys (d : SrtpDir) (k : SrtpKey) (rtcp : Bool) (pkt : List Byte) (n : BeatNo) : List SrtpKey :=
  if 0 < k.mkiLen then
    (k :: d.next.toList).filter fun x => x.mkiLen = k.mkiLen && x.mki = slice pkt (mkiAt k rtcp pkt.length) k.mkiLen
  else k :: (if (n - d.switched).toNat < 400 then d.old.toList else [])

/-- What the receive checks find. -/
inductive SrtpRes where
  | ok (d : SrtpDir)
  | noKey
  | replay
  | authFail
  deriving DecidableEq, Repr

/-- The checks of R291, in order.
DEDUCED (log entry 11). -/
def SrtpDir.check (d : SrtpDir) (rtcp : Bool) (pkt : List Byte) (v : SrtpIn) (n : BeatNo) : SrtpRes :=
  match d.cur with
  | none => .noKey
  | some k =>
    if pkt.length < minProtected k rtcp then .authFail
    else
      let i : Int := if rtcp then beAt pkt (rtcpIndexAt k pkt.length) 4 % 2 ^ 31 else rtpIndex d.highest (beAt pkt 2 2)
      let fresh := if rtcp then indexFresh d.rtcpHighest d.rtcpWindow i else indexFresh d.highest d.window i
      if !fresh then .replay
      else if !(authKeys d k rtcp pkt n).any fun x => v.authentic.contains x.key then .authFail
      else if rtcp then
        let w := indexTaken d.rtcpHighest d.rtcpWindow i.toNat
        .ok { d with rtcpHighest := some w.1, rtcpWindow := w.2 }
      else
        let w := indexTaken d.highest d.window i.toNat
        .ok { d with highest := some w.1, window := w.2 }

namespace State

/-- The cluster whose engine serves a channel: its home, or its new home from the loss of that cluster (R245). -/
def engineOf (s : State) (c : Chan) : Nat := if s.serves c.home then c.home else s.homeFor c.num c.home c.cfg.paired

/-- A packet goes through the engine of a channel. -/
def enginePacket (s : State) (c : Chan) : State := s.modCluster (s.engineOf c) fun x => { x with srtpNow := x.srtpNow + 1 }

/-- A received packet of a leg with SRTP on passes the checks of R291, or is dropped; the answer says whether it goes on.
DEDUCED (log entry 11). -/
def srtpReceive (s : State) (c : Chan) (ctx : Nat) (rtcp : Bool) (pkt : List Byte) (v : SrtpIn) : State × Bool :=
  let s := s.enginePacket c
  let x := s.srtpCtx ctx
  match x.rx.check rtcp pkt v s.clk.n with
  | .ok d => (s.setSrtp ctx { x with rx := d }, true)
  | .noKey => (s.inc Reg.SRTP_NOKEY_CNT Fd.SRTP_NOKEY_CNT.COUNT, false)
  | .replay => (s.inc Reg.SRTP_REPLAY_CNT Fd.SRTP_REPLAY_CNT.COUNT, false)
  | .authFail => ((s.inc Reg.SRTP_AUTH_FAIL_CNT Fd.SRTP_AUTH_FAIL_CNT.COUNT).event Pg.SRTP Ev.SRTP.AUTH_FAIL, false)

/-- A direction has reached the limits of R166. -/
def atLimit (d : SrtpDir) : Bool := 2 ^ 48 ≤ d.pkts || 2 ^ 31 ≤ d.rtcpPkts

/-- A sending direction that has reached its limit stops (R166). -/
def limitCtx (s : State) (ctx : Nat) : State :=
  let x := s.srtpCtx ctx
  if atLimit x.tx && !x.tx.stopped then
    (s.setSrtp ctx { x with tx := { x.tx with stopped := true } }).event Pg.SRTP Ev.SRTP.KEY_LIMIT
  else s

/-- A packet of a job of beat `n` is protected and counted, or dropped; the answer says whether it is sent (R164 to R166). -/
def srtpSend (s : State) (c : Chan) (ctx : Nat) (rtcp : Bool) (seq : Nat) (n : BeatNo) : State × Bool :=
  let x := s.srtpCtx ctx
  let d := x.tx
  let old := beatAfter d.switched n
  match (if old then d.old else d.cur) with
  | none => (s.inc Reg.SRTP_NOKEY_CNT Fd.SRTP_NOKEY_CNT.COUNT, false)
  | some _ =>
    if !old && (d.stopped || atLimit d) then ((s.limitCtx ctx).inc Reg.SRTP_LIMIT_DROP_CNT Fd.SRTP_LIMIT_DROP_CNT.COUNT, false)
    else
      let d := if rtcp then { d with rtcpHighest := some ((d.rtcpHighest.map (· + 1)).getD 0 % 2 ^ 31), rtcpPkts := d.rtcpPkts + b2n !old }
        else { d with highest := some (max (rtpIndex d.highest seq).toNat (d.highest.getD 0)), pkts := d.pkts + b2n !old }
      (((s.enginePacket c).setSrtp ctx { x with tx := d }).limitCtx ctx, true)

/-- KEY_LIMIT: every sending direction that has reached its limit stops. -/
def keyLimits (s : State) : State := (s.nw.srtp.map fun (p : Nat × SrtpCtx) => p.1).foldl limitCtx s

/-- An old key whose 400 beats have passed.
DEDUCED (log entry 11). -/
def expireKey (d : SrtpDir) (n : BeatNo) : SrtpDir := if 400 ≤ (n - d.switched).toNat then { d with old := none } else d

/-- Old keys are erased 400 beats after their switch (R165). -/
def oldKeys (s : State) : State :=
  (s.nw.srtp.map fun (p : Nat × SrtpCtx) => p.1).foldl (fun s c =>
    let x := s.srtpCtx c
    s.setSrtp c { rx := expireKey x.rx s.clk.n, tx := expireKey x.tx s.clk.n }) s

/-! ## SRTP_CMD (R292) -/

/-- The key in the key, salt and MKI registers. -/
def keyRegs (s : State) (suite mkiLen : Nat) : SrtpKey :=
  let ks := ((List.range 8).map fun k => wordBytes (s.rd (Reg.SRTP_KEY k))).flatten
  let ss := ((List.range 4).map fun k => wordBytes (s.rd (Reg.SRTP_SALT k))).flatten
  { suite := suite, mkiLen := mkiLen, mki := (wordBytes (s.rd Reg.SRTP_MKI)).take mkiLen,
    key := ks.take (if suite = 2 || suite = 3 || suite = 5 then 32 else 16), salt := ss.take (if 4 ≤ suite then 12 else 14) }

/-- A completed command clears the key registers. -/
def clearKeyRegs (s : State) : State :=
  let s := (List.range 8).foldl (fun s k => s.wr (Reg.SRTP_KEY k) 0) s
  let s := (List.range 4).foldl (fun s k => s.wr (Reg.SRTP_SALT k) 0) s
  s.wr Reg.SRTP_MKI 0

/-- What a command makes of a direction.
DEDUCED (log entry 11). -/
def dirAfter (d : SrtpDir) (action : Nat) (k : SrtpKey) : SrtpDir :=
  if action = 1 then { SrtpDir.fresh with cur := some k, next := d.next, old := d.old, switched := d.switched }
  else if action = 2 then { d with next := some k }
  else { d with cur := none, next := none }

/-- A write of SRTP_CMD: 1 LOAD_CURRENT, 2 LOAD_NEXT, 3 ERASE. The mode is checked before any field (R543, R553).
DESIGN CHOICE (log entry 63). -/
def srtpCmd (s : State) (action : Nat) (v : Word) : State :=
  let suite := fieldOf v Fd.SRTP_CMD.SUITE
  let mkiLen := fieldOf v Fd.SRTP_CMD.MKI_LEN
  let ctx := fieldOf v Fd.SRTP_CMD.CONTEXT
  if s.wipeBars || (s.modes.bringup && (action = 1 || action = 2)) then s.refuse Pg.SRTP .notInMode
  else if action = 0 || 3 < action || (action != 3 && (5 < suite || 4 < mkiLen)) then s.refuse Pg.SRTP .badParam
  else
    let x := s.srtpCtx ctx
    let k := s.keyRegs suite mkiLen
    let s := s.setSrtp ctx (if fieldOf v Fd.SRTP_CMD.DIR = 1 then { x with tx := dirAfter x.tx action k } else { x with rx := dirAfter x.rx action k })
    s.clearKeyRegs.status Pg.SRTP .ok

/-- Every SRTP key is erased (R165, R553). -/
def eraseKeys (s : State) : State := { s with nw := { s.nw with srtp := [] } }

end State

/-! ## Meanings -/

/-- LOAD_CURRENT (R292). -/
def execLoadCurrent (t : Nat) (p : Port) (v : Word) (s : State) : Host.Outcome State Fault Refusal :=
  s.act t fun s => s.hostWrite p Reg.SRTP_CMD fun s => s.srtpCmd 1 v

/-- LOAD_NEXT (R292). -/
def execLoadNext (t : Nat) (p : Port) (v : Word) (s : State) : Host.Outcome State Fault Refusal :=
  s.act t fun s => s.hostWrite p Reg.SRTP_CMD fun s => s.srtpCmd 2 v

/-- SRTP_ERASE (R292). -/
def execSrtpErase (t : Nat) (p : Port) (v : Word) (s : State) : Host.Outcome State Fault Refusal :=
  s.act t fun s => s.hostWrite p Reg.SRTP_CMD fun s => s.srtpCmd 3 v

/-- KEY_LIMIT (R166). -/
def execKeyLimit (t : Nat) (s : State) : Host.Outcome State Fault Refusal := s.act t State.keyLimits

/-- OLD_KEY_ERASE (R165). -/
def execOldKeyErase (t : Nat) (s : State) : Host.Outcome State Fault Refusal := s.act t State.oldKeys

end Sys2Proof.Machine
end

