-- ==== Sys2Proof/Machine/Ingress.lean ====
section
/-! DEFINITION. The ingress path: reception, storing, classes, reassembly, lookup, meters, binding and placement (R274 to
R291, R331, R356). -/

namespace Sys2Proof.Machine

/-! ## Meters (R287) -/

/-- A meter's colours, coded as COLOUR of R398. -/
def colGreen : Nat := 0

/-- Yellow. -/
def colYellow : Nat := 1

/-- Red. -/
def colRed : Nat := 2

/-- Not looked up. -/
def colNone : Nat := 3

/-- One packet at timebase count `t`: the record after it, and the packet's colour. -/
def EpRec.meter (r : EpRec) (t : Nat) : EpRec × Nat :=
  let dt := t - r.last
  let tc := min (r.cbs * meterUnit) (r.tc + r.cir * dt)
  let tp := min (r.pbs * meterUnit) (r.tp + r.pir * dt)
  if tp < meterUnit then ({ r with tc := tc, tp := tp, last := t, red := (r.red + 1) % 2 ^ 32 }, colRed)
  else if tc < meterUnit then ({ r with tc := tc, tp := tp - meterUnit, last := t, yellow := (r.yellow + 1) % 2 ^ 32 }, colYellow)
  else ({ r with tc := tc - meterUnit, tp := tp - meterUnit, last := t, green := (r.green + 1) % 2 ^ 32 }, colGreen)

/-! ## Packets of a leg (R290) -/

/-- Bytes of an RTP header with its list and extension. -/
def rtpHead (b : List Byte) : Nat :=
  let h := 12 + 4 * (beAt b 0 1 % 16)
  if bit (beAt b 0 1) 4 then h + 4 + 4 * beAt b (h + 2) 2 else h

/-- The padding that an RTP packet names. -/
def rtpPad (b : List Byte) : Nat := if bit (beAt b 0 1) 5 then beAt b (b.length - 1) 1 else 0

/-- A UDP payload is RTCP (R290).
DEDUCED (log entry 25). -/
def isRtcp (b : List Byte) : Bool := 2 ≤ b.length && 192 ≤ beAt b 1 1 && beAt b 1 1 ≤ 223

/-- The bound packet of a UDP payload stamped at `stamp`, which takes `size` bytes of packet memory.
DEDUCED (log entry 25). -/
def inPkt (codec : Nat) (b : List Byte) (stamp size : Nat) : InPkt :=
  if isRtcp b then
    { stamp := stamp, kind := .rtcp, wf := true, seq := 0, ts := 0, ssrc := 0, pt := 0, marker := false, payload := b, size := size }
  else if codec = 11 then
    { stamp := stamp, kind := .udptl, wf := true, seq := 0, ts := 0, ssrc := 0, pt := 0, marker := false, payload := b, size := size }
  else
    let h := rtpHead b
    let pad := rtpPad b
    { stamp := stamp, kind := .rtp,
      wf := beAt b 0 1 / 64 = 2 && h + pad ≤ b.length && (!bit (beAt b 0 1) 5 || 0 < pad),
      seq := beAt b 2 2, ts := Word.of (beAt b 4 4), ssrc := Word.of (beAt b 8 4),
      pt := if b.length < 2 then 128 else beAt b 1 1 % 128, marker := bit (beAt b 1 1) 7,
      payload := (b.take (b.length - pad)).drop h, size := size }

/-- What a protected packet is once decrypted: its clear header, and what the engine decrypted. -/
def unprotected (b plain : List Byte) : List Byte := if isRtcp b then b.take 8 ++ plain else b.take (rtpHead b) ++ plain

/-- A frame on its way through classification: its stamp, its receiving port and its bytes without FCS. -/
structure Arrived where
  stamp : Nat
  port : Nat
  bytes : List Byte
  deriving DecidableEq, Repr

/-- The class and handle that a ring record of a packet carries. -/
structure Looked where
  colour : Nat
  cls : Nat
  handle : Option Nat
  deriving DecidableEq, Repr

/-- A packet that no record has described. -/
def Looked.none : Looked := { colour := colNone, cls := 0, handle := .none }

namespace State

/-! ## Toward host rings (R333, R398) -/

/-- Tags are removed from frames of a port that reach a ring. -/
def stripRx (s : State) (p : Nat) : Bool := s.flag (Reg.MAC_CTRL p) Fd.MAC_CTRL.STRIP_RX

/-- The frame as a ring receives it, whether tags were removed, and the tag word. -/
def ringFrame (s : State) (x : Arrived) : List Byte × Bool × Nat :=
  let tags := frameTags x.bytes
  if s.stripRx x.port && !tags.isEmpty then
    let one (t : Nat) : Nat := t % 4096 + t / 8192 % 8 * 4096 + 32768
    (stripTags x.bytes, true, (tags.map one).getD 0 0 + 65536 * (tags.map one).getD 1 0)
  else (x.bytes, false, 0)

/-- A packet goes to a ring as a record of kind 0. -/
def packetRecord (s : State) (g : Nat) (x : Arrived) (k : Looked) (unbound control : Bool) : State :=
  let (data, stripped, word) := s.ringFrame x
  let cyc := (x.stamp - s.clk.at0) / cycTicks
  s.ringPost g
    { kind := 0, flags := 2 * k.colour + 8 * b2n stripped + 32 * b2n unbound + 64 * b2n control, data := data,
      tail := leBytes 4 s.clk.n.toNat ++ leBytes 4 (cyc % 2 ^ 17 + x.port * 2 ^ 17 + k.cls * 2 ^ 20)
        ++ leBytes 4 (match k.handle with
          | some h => h + 2 ^ 31
          | .none => 0)
        ++ leBytes 4 word }

/-- A CONTROL frame (R275). -/
def controlFrame (s : State) (x : Arrived) : State :=
  let s := s.inc Reg.PKT_CTRL_CNT Fd.PKT_CTRL_CNT.COUNT
  if s.flag Reg.PKT_CTRL_RING Fd.PKT_CTRL_RING.EN then
    s.packetRecord (s.get Reg.PKT_CTRL_RING Fd.PKT_CTRL_RING.RING) x Looked.none false true
  else s

/-- The network time at which a frame's message timestamp point passed, `back` ticks ago, with the port's correction
(R354). -/
def rxUnits (s : State) (p back : Nat) : Nat :=
  let at_ := s.clk.now - back
  let u : Int := if s.net.at0 ≤ at_ then s.net.read at_ s.refs.dco else (s.net.base : Int) - refUnits (s.net.at0 - at_) s.refs.dco
  (u + s.getI (Reg.PTIME_RX_ADJ_PS p) Fd.PTIME_RX_ADJ_PS.PS * 65536 / 1000).toNat

/-- A TIME frame (R356): kind 1 with its ingress stamp, or a CONTROL frame. -/
def timeFrame (s : State) (x : Arrived) (back : Nat) : State :=
  if s.flag (Reg.PTIME_CTRL x.port) Fd.PTIME_CTRL.EN then
    let g := s.get (Reg.PTIME_CTRL x.port) Fd.PTIME_CTRL.RING
    let stamp := stampOf (s.rxUnits x.port back) s.net.gen
    let (data, stripped, word) := s.ringFrame x
    let taken := s.ringRuns g && !s.flag (ringReg Reg.RING_CFG g) Fd.RING_CFG.DIR && !(s.ringOf g).avail.isEmpty
    let s := s.ringPost g
      { kind := 1, flags := 2 * colNone + 8 * b2n stripped, data := data,
        tail := leBytes 4 s.clk.n.toNat ++ leBytes 6 stamp.sec ++ leBytes 4 stamp.ns ++ leBytes 1 stamp.gen ++ leBytes 1 x.port
          ++ leBytes 4 word }
    if taken then s.inc (Reg.PTIME_RX_TS_CNT x.port) Fd.PTIME_RX_TS_CNT.COUNT else s
  else s.controlFrame x

/-- A packet that no leg and no ring of its own takes (R289). -/
def unboundPacket (s : State) (x : Arrived) (k : Looked) : State :=
  let s := s.inc Reg.PKT_UNBOUND_CNT Fd.PKT_UNBOUND_CNT.COUNT
  if s.flag Reg.PKT_UNBOUND Fd.PKT_UNBOUND.TO_RING then s.packetRecord (s.get Reg.PKT_UNBOUND Fd.PKT_UNBOUND.RING) x k true false else s

/-! ## Steps 3 to 8 (R277 to R291) -/

/-- Step 5: the record's meter, if it has one. -/
def meterStep (s : State) (h : Nat) (r : EpRec) (stamp : Nat) : State × Nat :=
  if !r.meterEn then (s, colGreen)
  else
    let (r, c) := r.meter ((stamp - s.clk.t0) / cycTicks)
    let s := s.setEpdRecs (s.epdRecs.insert h r)
    let s := if c = colGreen then s.incWrap Reg.MTR_GREEN_CNT Fd.MTR_GREEN_CNT.COUNT
      else if c = colYellow then s.incWrap Reg.MTR_YELLOW_CNT Fd.MTR_YELLOW_CNT.COUNT
      else s.incWrap Reg.MTR_RED_CNT Fd.MTR_RED_CNT.COUNT
    (s, c)

/-- Step 8: the yellow limit, then the leg's inbox. -/
def placePacket (s : State) (c : Chan) (b : Bool) (r : EpRec) (colour : Nat) (pkt : InPkt) : State :=
  let n := (c.leg b).inbox.length
  if colour = colYellow && !r.emergency && s.get Reg.MTR_CTRL Fd.MTR_CTRL.YELLOW_LIMIT ≤ n then
    s.inc Reg.MTR_YELLOW_DROP_CNT Fd.MTR_YELLOW_DROP_CNT.COUNT
  else if 64 ≤ n then
    let s := s.modLife c.uid fun c => c.modLeg b fun l =>
      { l with jb := { l.jb with counts := { l.jb.counts with inboxDrop := sat32 (l.jb.counts.inboxDrop + 1) } } }
    (s.inc Reg.JBUF_INBOX_DROP_CNT Fd.JBUF_INBOX_DROP_CNT.COUNT).event Pg.JBUF Ev.JBUF.INBOX_FULL
  else (s.modLife c.uid fun c => c.modLeg b fun l => { l with inbox := l.inbox ++ [pkt] }).incWrap Reg.PKT_BOUND_CNT Fd.PKT_BOUND_CNT.COUNT

/-- Steps 7 and 8 for a packet bound to a packet leg of an open channel. -/
def legPacket (s : State) (c : Chan) (b : Bool) (r : EpRec) (colour : Nat) (payload : List Byte) (x : Arrived) (v : SrtpIn) : State :=
  let size := x.bytes.length + 4
  match c.cfg.leg b with
  | .packet codec _ _ true _ _ _ _ _ _ ctx _ =>
    match s.srtpReceive c ctx (isRtcp payload) payload v with
    | (s, true) => s.placePacket c b r colour (inPkt codec (unprotected payload v.plain) x.stamp size)
    | (s, false) => s
  | .packet codec _ _ false _ _ _ _ _ _ _ _ => s.placePacket c b r colour (inPkt codec payload x.stamp size)
  | _ => s

/-- Step 6: binding (R289). -/
def bindPacket (s : State) (h : Nat) (r : EpRec) (colour : Nat) (f : Found) (x : Arrived) (v : SrtpIn) : State :=
  let k : Looked := { colour := colour, cls := r.cls, handle := some h }
  if r.bindRing then s.packetRecord r.ring x k false false
  else match s.legChan r.leg with
    | some (c, b) =>
      if (c.cfg.leg b).kind = 0 then s.legPacket c b r colour f.payload x v
      else (s.inc Reg.PKT_NOLEG_CNT Fd.PKT_NOLEG_CNT.COUNT).unboundPacket x k
    | none => (s.inc Reg.PKT_NOLEG_CNT Fd.PKT_NOLEG_CNT.COUNT).unboundPacket x k

/-- Colours act (R288), then binding. -/
def policePacket (s : State) (h : Nat) (r : EpRec) (colour : Nat) (f : Found) (x : Arrived) (v : SrtpIn) : State :=
  if colour != colRed then s.bindPacket h r colour f x v
  else if r.emergency then
    ((s.inc Reg.MTR_EMERG_OVER_CNT Fd.MTR_EMERG_OVER_CNT.COUNT).event Pg.MTR Ev.MTR.EMERG_OVER).bindPacket h r colYellow f x v
  else if r.redRing then
    (s.inc Reg.MTR_RED_RING_CNT Fd.MTR_RED_RING_CNT.COUNT).packetRecord r.ring x { colour := colRed, cls := r.cls, handle := some h } false false
  else (s.inc Reg.MTR_RED_DROP_CNT Fd.MTR_RED_DROP_CNT.COUNT).event Pg.MTR Ev.MTR.RED_DROP

/-- The reads of a lookup; the answer says whether it sees poison, which ends it without a match (R466). The on-chip directory
and the directory cache need none. -/
def dirRead (s : State) (d : DirRead) : State × Bool :=
  if s.epdOnChip || d.hit then (s, false)
  else
    let (s, bad) := s.readSectors d.reads
    (s, bad || !s.memReady)

/-- Steps 3 and 4: domain, key and lookup. -/
def lookupFrame (s : State) (f : Found) (x : Arrived) (dir : DirRead) (v : SrtpIn) : State :=
  let d := domainOf (s.get (Reg.PKT_PORT_DOM x.port) Fd.PKT_PORT_DOM.MODE) (s.get (Reg.PKT_PORT_DOM x.port) Fd.PKT_PORT_DOM.DOMAIN)
    (frameTags x.bytes)
  let s := if dir.hit then s.incWrap Reg.EPD_CACHE_HIT Fd.EPD_CACHE_HIT.COUNT else s.incWrap Reg.EPD_CACHE_MISS Fd.EPD_CACHE_MISS.COUNT
  let (s, poison) := s.dirRead dir
  match if poison then none else s.epdLookup (f.key d) with
  | none => s.unboundPacket x Looked.none
  | some h =>
    match s.epdRecs.find? h with
    | none => s.unboundPacket x Looked.none
    | some r =>
      let (s, c) := s.meterStep h r x.stamp
      s.policePacket h r c f x v

/-- Steps 2 to 8. A fragment waits for its PKT job (R276). `back` says how long ago the message timestamp point passed. -/
def classify (s : State) (x : Arrived) (back : Nat) (dir : DirRead) (v : SrtpIn) : State :=
  match classOf x.bytes with
  | .lookup f => s.lookupFrame f x dir v
  | .frag _ =>
    ({ s with nw := { s.nw with frags := s.nw.frags ++ [{ stamp := x.stamp, port := x.port, bytes := x.bytes }] } } : State).makeReady
      (s.plainJob .pkt x.port 0)
  | .time => s.timeFrame x back
  | .macctl pfc named => s.pauseTake x.port pfc named
  | .control => s.controlFrame x
  | .error => (s.inc Reg.PKT_ERR_CNT Fd.PKT_ERR_CNT.COUNT).event Pg.PKT Ev.PKT.PARSE_ERR

/-! ## Reception (R331, R388, R391) -/

/-- The size bucket of a frame of `len` bytes with its FCS. -/
def sizeBucket (len : Nat) : Nat :=
  if len ≤ 64 then 12 else if len ≤ 127 then 13 else if len ≤ 255 then 14 else if len ≤ 511 then 15 else if len ≤ 1023 then 16
  else if len ≤ 1518 then 17 else 18

/-- A received frame counts by its size and faults; the answer says whether the MAC accepts it.
DEDUCED (log entry 32). -/
def sizeStep (s : State) (p : Nat) (f : RxFrame) : State × Bool :=
  let len := f.bytes.length + 4
  let big := s.get (Reg.MAC_MAXFRAME p) Fd.MAC_MAXFRAME.BYTES < len
  let small := len < 64
  let s := s.macCount p (if small then (if f.fcsOk then 8 else 10) else if big then (if f.fcsOk then 9 else 11) else sizeBucket len) 1
  let s := if !small && !big && !f.fcsOk then s.macCount p 7 1 else s
  let s := if f.pcsOk then s else s.macCount p 22 1
  (s, !small && !big && f.fcsOk && f.pcsOk)

/-- The frame's way through the ingress FIFO (R388, R391); the answer says whether the FIFO leaves it whole.
DEDUCED (log entry 56). -/
def fifoStep (s : State) (p : Nat) (f : RxFrame) : State × Bool :=
  let a := Reg.RING_MACFIFO p
  let x := macPass f
  let ovr := !x.ignored.isEmpty
  let bad := !x.broken.isEmpty
  let new := (ovr && !s.flag a Fd.RING_MACFIFO.OVR) || (bad && !s.flag a Fd.RING_MACFIFO.UNCORR)
  let s := s.inc a Fd.RING_MACFIFO.CORR x.corr
  let s := if ovr then s.putB a Fd.RING_MACFIFO.OVR true else s
  let s := if bad then s.putB a Fd.RING_MACFIFO.UNCORR true else s
  let s := s.eventIf new Pg.RING Ev.RING.FIFO_ERR
  if frameWhole f then (s, true) else (s.inc Reg.RING_FIFO_DROP_CNT Fd.RING_FIFO_DROP_CNT.COUNT, false)

/-- Step 1: the frame is stamped and stored, or dropped for want of memory. -/
def storeFrame (s : State) (p : Nat) (b : List Byte) : State × Bool :=
  let len := b.length + 4
  let s := s.incWrap Reg.PKT_RX_CNT Fd.PKT_RX_CNT.COUNT
  if s.ingressCap < s.ingressUsed + len then
    ((s.inc Reg.PKT_MEM_DROP_CNT Fd.PKT_MEM_DROP_CNT.COUNT).event Pg.PKT Ev.PKT.MEM_DROP, false)
  else
    let cast := if (b.take 6).all (· = 0xFF) then 4 else if (beAt b 0 1) % 2 = 1 then 3 else 2
    ((((s.macCount p 0 1).macCount p 1 len).macCount p cast 1).noteMem len, true)

/-- A port receives a frame: before step 1, step 1, and then the steps of R274. A frame that the classifier does not
reach within 40 µs waits (R286). -/
def receive (s : State) (p : Nat) (f : RxFrame) (v : SrtpIn) : State :=
  if !s.provided p || !s.macEn p then s
  else
    let s := (s.macCount p 20 f.fecCorr).macCount p 21 f.fecLost
    if f.mergeErr then s.macCount p 19 1
    else
      let (s, whole) := s.fifoStep p f
      let (s, ok) := s.sizeStep p f
      if !ok || !whole then s
      else match s.storeFrame p f.bytes with
        | (s, false) => s
        | (s, true) =>
          let x : Arrived := { stamp := s.clk.now, port := p, bytes := f.bytes }
          let ctl := match classOf f.bytes with
            | .macctl _ _ => true
            | _ => false
          if f.late && !ctl then
            { s with nw := { s.nw with waiting := s.nw.waiting ++ [{ stamp := x.stamp, port := p, bytes := f.bytes }] } }
          else (s.classify x f.sofBack f.dir v).noteMem 0

/-- Frames whose 40 µs have passed are dropped (R286). -/
def overload (s : State) : State :=
  let due := s.nw.waiting.filter fun w => w.stamp + usTicks 40 ≤ s.clk.now
  let s := { s with nw := { s.nw with waiting := s.nw.waiting.filter fun w => s.clk.now < w.stamp + usTicks 40 } }
  (due.foldl (fun s _ => (s.inc Reg.PKT_OVERLOAD_DROP_CNT Fd.PKT_OVERLOAD_DROP_CNT.COUNT).event Pg.PKT Ev.PKT.OVERLOAD) s).noteMem 0

/-! ## Reassembly (R276) -/

/-- Datagrams still incomplete four beats after the beat of their first fragment are discarded. -/
def reasmTimeout (s : State) : State :=
  let dead := s.nw.reasm.filter fun d => 4 ≤ (s.clk.n - d.beat).toNat
  let s := { s with nw := { s.nw with reasm := s.nw.reasm.filter fun d => (s.clk.n - d.beat).toNat < 4 } }
  (s.inc Reg.PKT_REASM_DROP_CNT Fd.PKT_REASM_DROP_CNT.COUNT dead.length).noteMem 0

/-- The beat that an instant, not after now, falls in. -/
def beatOf (s : State) (stamp : Nat) : BeatNo :=
  if s.clk.at0 ≤ stamp then s.clk.n else s.clk.n - BitVec.ofNat 32 ((s.clk.at0 - stamp + beatTicks - 1) / beatTicks)

/-- A fragment joins its datagram.
DEDUCED (log entry 10). -/
def Datagram.add (d : Datagram) (port : Nat) (ether : List Byte) (x : IpPart) (off : Nat) (more : Bool) (size : Nat) : Datagram :=
  { d with frags := d.frags ++ [(off, x.pay)], size := d.size + size,
           total := if more || d.total.isSome then d.total else some (off + x.pay.length),
           first := if off = 0 && d.first.isNone then some (port, ether, { x with pay := [], frag := none }) else d.first }

/-- The byte at a place of a datagram, from the earliest fragment that holds it. -/
def byteAt (fs : List (Nat × List Byte)) (i : Nat) : Option Byte :=
  fs.findSome? fun f => if f.1 ≤ i then f.2[i - f.1]? else none

/-- The frame of a datagram that is complete.
DEDUCED (log entry 10). -/
def whole (d : Datagram) : Option (Nat × List Byte) :=
  match d.total, d.first with
  | some n, some (port, ether, x) =>
    let bs := (List.range n).filterMap (byteAt d.frags)
    if bs.length = n then some (port, ether ++ wholeHead x n ++ bs) else none
  | _, _ => none

/-- Replace the reassembly list. -/
def setReasm (s : State) (l : List Datagram) : State := { s with nw := { s.nw with reasm := l } }

/-- What fragments of one datagram have in common.
DEDUCED (log entry 10). -/
def fragKey (s : State) (w : StoredFrame) (x : IpPart) (id : List Byte) : List Byte :=
  let dom := domainOf (s.get (Reg.PKT_PORT_DOM w.port) Fd.PKT_PORT_DOM.MODE) (s.get (Reg.PKT_PORT_DOM w.port) Fd.PKT_PORT_DOM.DOMAIN)
    (frameTags w.bytes)
  leBytes 2 dom ++ [if x.v6 then 6 else 4] ++ (if x.v6 then [] else leBytes 1 x.proto) ++ x.src ++ x.dst ++ id

/-- A fragment that its PKT job has handled: it is discarded with its datagram past a limit; a datagram it completes enters
at step 2 with the stamp of now.
DEDUCED (log entry 10). -/
def takeFragment (s : State) (w : StoredFrame) (x : IpPart) (id : List Byte) (off : Nat) (more : Bool) (dir : DirRead) (v : SrtpIn) : State :=
  let key := s.fragKey w x id
  let old := s.nw.reasm.find? fun d => d.key = key
  let others := s.nw.reasm.filter fun d => d.key ≠ key
  let d : Datagram := old.getD { key := key, beat := s.beatOf w.stamp, frags := [], size := 0, total := none, first := none }
  let drop (s : State) : State := (s.setReasm others).inc Reg.PKT_REASM_DROP_CNT Fd.PKT_REASM_DROP_CNT.COUNT
  if (old.isNone && 512 ≤ others.length) || 16 ≤ d.frags.length || 9216 < off + x.pay.length then drop s
  else
    let d := Datagram.add d w.port (etherHead w.bytes x.v6) x off more (w.bytes.length + 4)
    match whole d with
    | none => s.setReasm (others ++ [d])
    | some (port, bytes) =>
      ((s.setReasm others).inc Reg.PKT_REASM_CNT Fd.PKT_REASM_CNT.COUNT).classify { stamp := s.clk.now, port := port, bytes := bytes } 0 dir v

/-- A PKT job of a port completes: it has handled the port's oldest fragment.
DEDUCED (log entry 10). -/
def pktJobDone (s : State) (p : Nat) (dir : DirRead) (v : SrtpIn) : State :=
  match s.coreJob .pkt p, s.nw.frags.find? fun w => w.port = p with
  | some j, some w =>
    let s := s.reasmTimeout.completeJob j
    let s := { s with nw := { s.nw with frags := s.nw.frags.erase w } }
    match classOf w.bytes with
    | .frag x =>
      match x.frag with
      | some (id, off, more) => (s.takeFragment w x id off more dir v).noteMem 0
      | none => s
    | _ => s
  | _, _ => s

end State

/-! ## Meanings -/

/-- FRAME_RECEIVE (R274). -/
def execFrameReceive (t : Nat) (port : BitVec 3) (frame : RxFrame) (v : SrtpIn) (s : State) : Host.Outcome State Fault Refusal :=
  s.act t fun s => s.receive port.toNat frame v

/-- PKT_JOB_DONE (R276). -/
def execPktJobDone (t : Nat) (port : BitVec 3) (dir : DirRead) (v : SrtpIn) (s : State) : Host.Outcome State Fault Refusal :=
  s.act t fun s => s.pktJobDone port.toNat dir v

/-- REASM_TIMEOUT (R276). -/
def execReasmTimeout (t : Nat) (s : State) : Host.Outcome State Fault Refusal := s.act t State.reasmTimeout

/-- OVERLOAD (R286). -/
def execOverload (t : Nat) (s : State) : Host.Outcome State Fault Refusal := s.act t State.overload

end Sys2Proof.Machine
end

