-- ==== Sys2Proof/Machine/Mac.lean ====
section
/-! DEFINITION. Ethernet port commands: lane mode and control, link state, preemption, pause, and link pairs (R325 to R343). -/

namespace Sys2Proof.Machine

/-- FEC codes that a lane mode allows (R326). -/
def fecAllowed (mode fec : Nat) : Bool := if mode = 0 then fec ≤ 1 else if mode = 1 then fec ≤ 2 else fec = 2

namespace State

/-! ## Lane mode and control (R325, R326, R329) -/

/-- Every counter and notice bit of every MAC page is cleared. -/
def clearMacCounts (s : State) : State :=
  allPorts.foldl (fun s p => (List.range 32).foldl (fun s i => s.wr (Reg.MAC_CNT p i) 0) (s.wr (Reg.MAC_CNT_NOTICE p) 0)) s

/-- A port that the lane mode does not provide links nothing.
DEDUCED (log entry 32). -/
def unlinkAbsent (s : State) : State := allPorts.foldl (fun s p => if s.provided p then s else s.wr (Reg.MAC_LINK p) 0) s

/-- A write of MAC_LANE_MODE on a MAC page.
DEDUCED (log entry 32). -/
def laneWrite (s : State) (page : Nat) (v : Word) : State :=
  let m := fieldOf v Fd.MAC_LANE_MODE.MODE
  if page != 0 || 3 < m then s.refuse (Pg.MAC page) .badParam
  else if (allPorts.any fun p => s.macEn p) || (allPairs.any fun k => s.pairEn k) then s.refuse (Pg.MAC page) .busy
  else
    let old := s.laneMode
    let s := s.put (Reg.MAC_LANE_MODE 0) Fd.MAC_LANE_MODE.MODE m
    if old = m then s else s.clearMacCounts.unlinkAbsent

/-- A write of MAC_CTRL. -/
def macCtrlWrite (s : State) (p : Nat) (v : Word) : State :=
  let a := Reg.MAC_CTRL p
  let fec := fieldOf v Fd.MAC_CTRL.FEC
  if !s.provided p || !fecAllowed s.laneMode fec || fieldOf v Fd.MAC_CTRL.PAUSE_MODE = 3 then s.refuse (Pg.MAC p) .badParam
  else if s.macEn p && fec != s.get a Fd.MAC_CTRL.FEC then s.refuse (Pg.MAC p) .busy
  else s.wr a (mergeFields (fieldsAt a) .rw (s.rd a) v)

/-! ## Preemption (R334) -/

/-- Preemption starts again: verifying, active at once with VERIFY_DIS = 1, or off.
DEDUCED (log entry 32). -/
def startVerify (s : State) (p : Nat) : State :=
  let a := Reg.MAC_PREEMPT_ST p
  let on := s.flag (Reg.MAC_PREEMPT p) Fd.MAC_PREEMPT.EN && s.linkIsUp p
  let dis := s.flag (Reg.MAC_PREEMPT p) Fd.MAC_PREEMPT.VERIFY_DIS
  (s.putB a Fd.MAC_PREEMPT_ST.ACTIVE (on && dis)).put a Fd.MAC_PREEMPT_ST.VERIFY (b2n (on && !dis))

/-- A write of MAC_PREEMPT: preemption that is active and stays enabled goes on. -/
def preemptWrite (s : State) (p : Nat) (v : Word) : State :=
  let a := Reg.MAC_PREEMPT p
  let s := s.wr a (mergeFields (fieldsAt a) .rw (s.rd a) v)
  if s.preempts p && s.flag a Fd.MAC_PREEMPT.EN then s else s.startVerify p

/-- The verify exchange ends. -/
def verifyDone (s : State) (p : Nat) (ok : Bool) : State :=
  let a := Reg.MAC_PREEMPT_ST p
  if s.get a Fd.MAC_PREEMPT_ST.VERIFY != 1 then s
  else if ok then (s.put a Fd.MAC_PREEMPT_ST.VERIFY 2).putB a Fd.MAC_PREEMPT_ST.ACTIVE true
  else (s.put a Fd.MAC_PREEMPT_ST.VERIFY 3).event (Pg.MAC p) Ev.MAC.VERIFY_FAIL

/-! ## Link state (R330, R341 to R343) -/

/-- A pair's active member changes, with the tags of its aggregates at the new member. -/
def pairMove (s : State) (k p : Nat) (down : Bool) : State :=
  let old := (s.pair k).active
  let s := s.activate k p down
  if old = p then s else s.retagPort p

/-- A port's LINK_UP rises. -/
def linkUp (s : State) (p : Nat) : State :=
  if !s.provided p || s.linkIsUp p then s
  else
    let a := Reg.MAC_LINK p
    let fec := s.get (Reg.MAC_CTRL p) Fd.MAC_CTRL.FEC = 2
    let s := s.wr a 0
    let s := ((s.putB a Fd.MAC_LINK.LINK_UP true).putB a Fd.MAC_LINK.SIGNAL true).putB a Fd.MAC_LINK.BLOCK_LOCK true
    let s := s.putB a Fd.MAC_LINK.FEC_LOCK fec
    let s := (s.modMac p fun m => { m with upSince := s.clk.now }).event (Pg.MAC p) Ev.MAC.LINK_CHANGE
    let s := s.startVerify p
    let s := match s.pairOf p with
      | some k => if (s.pair k).down then s.pairMove k p false else s
      | none => s
    s.relCheck

/-- A frame on the wire, or interrupted, is lost (R342). -/
def loseFrame (s : State) (p : Nat) (w : WireFrame) (sent : Nat) : State :=
  let s := (s.macCount p 29 1).emit (.cutOff p sent)
  match w.host with
  | some f => s.hostDone f .aborted 0
  | none => s

/-- Everything a port had begun is lost; the answer counts the frames. -/
def loseWire (s : State) (p : Nat) : State × Nat :=
  let m := s.mac p
  let s := s.modMac p fun m => { m with wire := none, parked := none }
  let s := match m.wire with
    | some w => s.loseFrame p w (w.sent + s.fragSent w)
    | none => s
  let s := match m.parked with
    | some w => s.loseFrame p w w.sent
    | none => s
  (s, b2n m.wire.isSome + b2n m.parked.isSome)

/-- The active member of a pair has lost its link: the other takes over, or the pair is down (R342, R343). -/
def failover (s : State) (k p lost : Nat) : State :=
  let o := s.otherMember k p
  let s := s.recordFault 10 0 k 8 false
  if s.linkIsUp o then
    let s := (s.pairMove k o false).inc Reg.LPAIR_LOST_CNT Fd.LPAIR_LOST_CNT.COUNT lost
    let s := (s.inc (Reg.LPAIR_FAILOVER_CNT k) Fd.LPAIR_FAILOVER_CNT.COUNT).wr (Reg.LPAIR_LAST k) s.clk.n
    s.event Pg.LPAIR Ev.LPAIR.FAILOVER
  else (s.setPair k { s.pair k with down := true }).event Pg.LPAIR Ev.LPAIR.PAIR_DOWN

/-- A port's link conditions: bit 0 SIGNAL, 1 BLOCK_LOCK, 2 FEC_LOCK, 3 LOCAL_FAULT, 4 REMOTE_FAULT. LINK_UP, if it is 1,
falls. -/
def linkDown (s : State) (p cond : Nat) : State :=
  if !s.provided p then s
  else
    let was := s.linkIsUp p
    let s := s.wr (Reg.MAC_LINK p) (Word.of (cond % 32 * 2))
    if !was then s
    else
      let (s, lost) := s.loseWire p
      let s := ((s.macCount p 31 1).event (Pg.MAC p) Ev.MAC.LINK_CHANGE).startVerify p
      let s := match s.pairOf p with
        | some k => if (s.pair k).active = p then s.failover k p lost else s
        | none => s
      s.relCheck

/-- A standby PRIMARY that has held its link long enough becomes active again (R343).
DEDUCED (log entry 32). -/
def revert (s : State) (k : Nat) : State :=
  let p := s.primary k
  let hold := secTicks (s.get Reg.LPAIR_REVERT_S Fd.LPAIR_REVERT_S.SECONDS)
  if s.pairEn k && s.flag (Reg.LPAIR_PAIR k) Fd.LPAIR_PAIR.REVERT && (s.pair k).active != p && s.linkIsUp p
      && (s.mac p).upSince + hold ≤ s.clk.now then
    (((s.pairMove k p false).wr (Reg.LPAIR_LAST k) s.clk.n).event Pg.LPAIR Ev.LPAIR.REVERTED).relCheck
  else s

/-- A write of LPAIR_PAIRk (R341).
DEDUCED (log entry 32). -/
def pairWrite (s : State) (k : Nat) (v : Word) : State :=
  let a := Reg.LPAIR_PAIR k
  let pr := fieldOf v Fd.LPAIR_PAIR.PRIMARY
  let se := fieldOf v Fd.LPAIR_PAIR.SECONDARY
  let taken := allPairs.any fun j => j != k && s.pairEn j
    && (s.primary j = pr || s.primary j = se || s.secondary j = pr || s.secondary j = se)
  if !s.provided pr || !s.provided se || pr = se || taken then s.refuse Pg.LPAIR .badParam
  else if s.pairEn k && (pr != s.primary k || se != s.secondary k) then s.refuse Pg.LPAIR .busy
  else
    let was := s.pairEn k
    let s := s.wr a (mergeFields (fieldsAt a) .rw (s.rd a) v)
    let on := s.pairEn k
    let s := if on && !was then
        let act := if s.linkIsUp pr then pr else se
        let down := !s.linkIsUp pr && !s.linkIsUp se
        let s := (s.setPair k { active := act, down := down }).eventIf down Pg.LPAIR Ev.LPAIR.PAIR_DOWN
        (s.moveTrains (if act = pr then se else pr) act).retagPort act
      else if was && !on then (s.retagPort pr).retagPort se
      else s
    s.relCheck

/-- A pause or priority flow control frame is received.
DEDUCED (log entry 32). -/
def pauseReceive (s : State) (p : Nat) (f : RxFrame) : State :=
  match classOf f.bytes with
  | .macctl _ _ => s.receive p f { authentic := [], plain := [] }
  | _ => s

end State

/-! ## Meanings -/

/-- MAC_LANE_MODE_WRITE (R329). -/
def execMacLaneModeWrite (t : Nat) (p : Port) (port : BitVec 3) (v : Word) (s : State) : Host.Outcome State Fault Refusal :=
  s.act t fun s => s.hostWrite p (Reg.MAC_LANE_MODE port.toNat) fun s => s.laneWrite port.toNat v

/-- MAC_CTRL_WRITE (R326). -/
def execMacCtrlWrite (t : Nat) (p : Port) (port : BitVec 3) (v : Word) (s : State) : Host.Outcome State Fault Refusal :=
  s.act t fun s => s.hostWrite p (Reg.MAC_CTRL port.toNat) fun s => s.macCtrlWrite port.toNat v

/-- LINK_UP (R330). -/
def execLinkUp (t : Nat) (port : BitVec 3) (s : State) : Host.Outcome State Fault Refusal := s.act t fun s => s.linkUp port.toNat

/-- LINK_DOWN (R330, R342). -/
def execLinkDown (t : Nat) (port : BitVec 3) (cond : BitVec 5) (s : State) : Host.Outcome State Fault Refusal :=
  s.act t fun s => s.linkDown port.toNat cond.toNat

/-- REVERTED (R343). -/
def execReverted (t : Nat) (pair : BitVec 2) (s : State) : Host.Outcome State Fault Refusal := s.act t fun s => s.revert pair.toNat

/-- LPAIR_WRITE (R341). -/
def execLpairWrite (t : Nat) (p : Port) (pair : BitVec 2) (v : Word) (s : State) : Host.Outcome State Fault Refusal :=
  s.act t fun s => s.hostWrite p (Reg.LPAIR_PAIR pair.toNat) fun s => s.pairWrite pair.toNat v

/-- PREEMPT_VERIFY_DONE (R334). -/
def execPreemptVerifyDone (t : Nat) (port : BitVec 3) (ok : Bool) (s : State) : Host.Outcome State Fault Refusal :=
  s.act t fun s => s.verifyDone port.toNat ok

/-- PAUSE_FRAME (R337). -/
def execPauseFrame (t : Nat) (port : BitVec 3) (frame : RxFrame) (s : State) : Host.Outcome State Fault Refusal :=
  s.act t fun s => s.pauseReceive port.toNat frame

/-- PAUSE_HOLD_END (R337). -/
def execPauseHoldEnd (t : Nat) (port : BitVec 3) (s : State) : Host.Outcome State Fault Refusal := s.act t fun s => s.holdEnd port.toNat

/-- PAUSE_BREAK (R338). -/
def execPauseBreak (t : Nat) (port : BitVec 3) (s : State) : Host.Outcome State Fault Refusal :=
  s.act t fun s => s.pauseBreak port.toNat

/-- HOLDOFF_END (R338). -/
def execHoldoffEnd (t : Nat) (port : BitVec 3) (s : State) : Host.Outcome State Fault Refusal :=
  s.act t fun s => s.holdoffEnd port.toNat

/-- FLOW_CONTROL_REPEAT (R339). -/
def execFlowControlRepeat (t : Nat) (port : BitVec 3) (s : State) : Host.Outcome State Fault Refusal :=
  s.act t fun s => s.fcRepeat port.toNat

end Sys2Proof.Machine
end

