-- ==== Sys2Proof/Machine/Mem.lean ====
section
/-! DEFINITION. The commands of GDDR-6: training, initialisation, fault records, scrubbing, retirement, host
scratch and address translation (R456 to R480); and the dispatcher's grants and trace commands. -/

namespace Sys2Proof.Machine

/-! ## Start (R456 to R458) -/

/-- Devices recorded as lost in flash are lost from the start and counted nowhere (R467). -/
def State.recordedLost (s : State) : State := s.mgmt.flash.lostDevices.foldl (fun s d => s.markLost (d % 4)) s

/-- Training completes: failed devices are lost; with two or more lost the state returns to OFF, else
initialisation begins (R456, R457). -/
def State.trainingDone (s : State) (failed : List Nat) : State :=
  if s.get Reg.MEM_STATE Fd.MEM_STATE.STATE = 1 then
    let s := s.put Reg.MEM_TRAIN_MS Fd.MEM_TRAIN_MS.MS (min 255 ((s.clk.now - s.mem.since) / msTicks 1))
    let s := s.put Reg.MEM_STATE Fd.MEM_STATE.DEV_OK 15
    let s := s.recordedLost
    let s := failed.foldl (fun s d => if d < 4 then s.loseDevice d 14 else s) s
    if s.devicesLost < 2 then (s.setMemState 2).relCheck
    else s.memOff.relCheck
  else s

/-- Initialisation completes: every byte reads 0, poison masks clear, entries stay, every archive segment is
in the chain, and memory is READY (R443, R456, R473). -/
def State.initDone (s : State) : State :=
  if s.get Reg.MEM_STATE Fd.MEM_STATE.STATE = 2 then
    let m := s.mem
    let s := { s with
      log := { s.log with mem := (s.log.ram.take memRecords) },
      mem := { m with scratch := [], since := s.clk.now,
                      table := m.table.map fun (e : Nat × RetEntry) => (e.1, { e.2 with poison := [] }) },
      arc := { ArcRun.empty with
        streams := s.arc.streams.map fun (x : ArcStream) => { x with seg := none, full := [], write := none, waitSince := none },
        nextKey := s.arc.nextKey } }
    s.setMemState 3
  else s

/-! ## Records in flash (R458, R473, R487, R490, R494) -/

/-- Flash with one record more. -/
def Flash.record (f : Flash) : FlashWork → Flash
  | .core k i => if f.retired.contains (k, i) then f else { f with retired := f.retired ++ [(k, i)] }
  | .unit i => if f.retiredUnits.contains i then f else { f with retiredUnits := f.retiredUnits ++ [i] }
  | .lane i => if f.retiredLanes.contains i then f else { f with retiredLanes := f.retiredLanes ++ [i] }
  | .cluster k => if f.lostClusters.contains k then f else { f with lostClusters := f.lostClusters ++ [k] }
  | .device d => if f.lostDevices.contains d then f else { f with lostDevices := f.lostDevices ++ [d] }
  | .frame a p _ => { f with retiredFrames := f.retiredFrames.filter (fun x => x.1 ≠ a) ++ [(a, p, 0)] }
  | .repair r b l => { f with repairs := f.repairs ++ [(r, b, l)] }
  | _ => f

/-- The kinds of work that FAULT_RECORD_WRITE does. -/
def FlashWork.isFault : FlashWork → Bool
  | .standing _ _ => false
  | .unstand _ => false
  | .config => false
  | _ => true

/-- Take the first item that satisfies a test out of a list. -/
def takeFirst {α : Type} (p : α → Bool) : List α → Option (α × List α)
  | [] => none
  | x :: xs => if p x then some (x, xs) else (takeFirst p xs).map fun (y, ys) => (y, x :: ys)

/-- Kwakel writes the oldest fault record to flash.
DEDUCED (log entry 53). -/
def State.recordWrite (s : State) : State :=
  if s.mgmt.kstate = .running then
    match takeFirst FlashWork.isFault s.mgmt.work with
    | some (w, rest) => { s with mgmt := { s.mgmt with work := rest, flash := s.mgmt.flash.record w } }
    | none => s
  else s

/-! ## Scrubbing (R469) -/

/-- Sectors of the stripe area and the check region of one device (R455). -/
def scrubSectors (small : Bool) : Nat := if small then 16760832 else 33521664

/-- The duration of a scrub pass in ticks: PASS_H hours, or 10 minutes in MAINTENANCE while no device is lost.
DESIGN CHOICE (log entry 40). -/
def State.passTicks (s : State) : Nat :=
  if s.modes.maint && s.devicesLost = 0 then secTicks 600 else secTicks (3600 * s.get Reg.MEM_SCRUB Fd.MEM_SCRUB.PASS_H)

/-- A pass over every sector completes, with the reads in it that met an error. -/
def State.scrubPass (s : State) (reads : List SectorRead) : State :=
  if s.memReady then
    let (s, _) := s.readSectors reads
    let s := { s with mem := { s.mem with since := s.clk.now } }
    (s.incWrap Reg.MEM_SCRUB_PASSES Fd.MEM_SCRUB_PASSES.COUNT).event Pg.MEM Ev.MEM.SCRUB_PASS
  else s

/-! ## Retirement commands (R470, R472, R480) -/

/-- A frame that RETIRE_CMD may name: in usable memory and outside the spare pool. -/
def State.retirable (s : State) (f : Nat) : Bool :=
  let m := s.memMap
  f * 4096 < m.usable && !(m.spareBase ≤ f * 4096 && f * 4096 < m.spareBase + 64 * mib)

/-- RETIRE_CMD with OP RETIRE. -/
def State.retireCmd (s : State) : State :=
  let f := s.get Reg.RETIRE_FRAME Fd.RETIRE_FRAME.FRAME
  if s.modes.bringup then s.status Pg.RETIRE .notInMode
  else if s.isBusy Pg.RETIRE then s.status Pg.RETIRE .busy
  else if !s.retirable f then s.status Pg.RETIRE .badParam
  else if s.canRetire f then (s.startRetire f [] true).setBusy Pg.RETIRE true
  else (s.startRetire f [] true).status Pg.RETIRE .full

/-- RETIRE_CMD with OP READ: one entry of the table.
DEDUCED (log entry 37).
DESIGN CHOICE (log entry 63). -/
def State.retireRead (s : State) (i : Nat) : State :=
  if s.modes.bringup then s.status Pg.RETIRE .notInMode
  else if s.isBusy Pg.RETIRE then s.status Pg.RETIRE .busy
  else
    let w (l : List Nat) (lo : Nat) : Word := Word.of ((List.range 32).foldl (fun n k => if l.contains (lo + k) then n + 2 ^ k else n) 0)
    let s := match s.mem.table.find? i with
      | some e =>
        ((((s.wr Reg.RETIRE_RES_FRAME (Word.of (2 ^ 31 + e.frame))).put Reg.RETIRE_RES_POOL Fd.RETIRE_RES_POOL.POOL e.pool).wr
          Reg.RETIRE_RES_POISON_LO (w e.poison 0))).wr Reg.RETIRE_RES_POISON_HI (w e.poison 32)
      | none =>
        ((s.wr Reg.RETIRE_RES_FRAME 0).wr Reg.RETIRE_RES_POOL 0).wr Reg.RETIRE_RES_POISON_LO 0 |>.wr Reg.RETIRE_RES_POISON_HI 0
    s.status Pg.RETIRE .ok

/-! ## Scratch transfers and translation (R460, R478) -/

/-- A scratch transfer completes. -/
def State.xferDone (s : State) (reads : List SectorRead) : State :=
  match s.mem.xfer with
  | none => s
  | some x =>
    let (s, bad) := s.readSectors reads
    if bad || !s.memReady then
      let (w, s) := s.freeWord
      (s.moveXfer x (w.toNat % (x.len + 1))).endXfer .checkFail
    else (s.moveXfer x x.len).endXfer (if s.devicesLost = 0 then .ok else .degraded)

/-- A write of STRIPE_XLAT_LO translates an address. -/
def State.stripeXlat (s : State) (v : Word) : State :=
  let s := s.wr Reg.STRIPE_XLAT_LO v
  let a := v.toNat + s.get Reg.STRIPE_XLAT_HI Fd.STRIPE_XLAT_HI.ADDR * 2 ^ 32
  if a < s.memMap.usable then
    let x := stripeOf (s.physAddr a)
    (s.wr Reg.STRIPE_XLAT_RES
      (Word.of (2 ^ 31 + b2n (s.retEntry (a / 4096)).isSome * 2 ^ 30 + x.dev * 2 ^ 26 + x.par * 2 ^ 24))).wr
      Reg.STRIPE_XLAT_DADDR (Word.of x.daddr)
  else (s.wr Reg.STRIPE_XLAT_RES 0).wr Reg.STRIPE_XLAT_DADDR 0

/-! ## Meanings -/

/-- MEM_TRAINING_DONE (R456, R457). -/
def execMemTrainingDone (t : Nat) (failed : List Nat) (s : State) : Host.Outcome State Fault Refusal :=
  s.act t fun s => s.trainingDone failed

/-- MEM_INIT_DONE (R456, R474). -/
def execMemInitDone (t : Nat) (s : State) : Host.Outcome State Fault Refusal := s.act t State.initDone

/-- FAULT_RECORD_WRITE (R458, R487, R490, R494). -/
def execFaultRecordWrite (t : Nat) (s : State) : Host.Outcome State Fault Refusal := s.act t State.recordWrite

/-- SCRUB_PASS (R469). -/
def execScrubPass (t : Nat) (reads : List SectorRead) (s : State) : Host.Outcome State Fault Refusal :=
  s.act t fun s => s.scrubPass reads

/-- RETIRE_SWITCH_DONE (R471). -/
def execRetireSwitchDone (t : Nat) (s : State) : Host.Outcome State Fault Refusal := s.act t State.retireSwitch

/-- RETIRE_FRAME_CMD (R470). -/
def execRetireFrameCmd (t : Nat) (p : Port) (s : State) : Host.Outcome State Fault Refusal :=
  s.act t fun s => s.hostWrite p Reg.RETIRE_CMD State.retireCmd

/-- RETIRE_READ (R480). -/
def execRetireRead (t : Nat) (p : Port) (entry : BitVec 12) (s : State) : Host.Outcome State Fault Refusal :=
  s.act t fun s => s.hostWrite p Reg.RETIRE_CMD fun s => s.retireRead entry.toNat

/-- MEM_XFER_TO_HOST (R460). -/
def execMemXferToHost (t : Nat) (p : Port) (len : BitVec 17) (s : State) : Host.Outcome State Fault Refusal :=
  s.act t fun s => s.hostWrite p Reg.MEM_XFER_CMD fun s => s.startXfer p true len.toNat []

/-- MEM_XFER_FROM_HOST (R460). -/
def execMemXferFromHost (t : Nat) (p : Port) (len : BitVec 17) (data : List Byte) (s : State) : Host.Outcome State Fault Refusal :=
  s.act t fun s => s.hostWrite p Reg.MEM_XFER_CMD fun s => s.startXfer p false len.toNat data

/-- XFER_DONE (R460). -/
def execXferDone (t : Nat) (reads : List SectorRead) (s : State) : Host.Outcome State Fault Refusal :=
  s.act t fun s => s.xferDone reads

/-- STRIPE_XLAT (R478). -/
def execStripeXlat (t : Nat) (p : Port) (v : Word) (s : State) : Host.Outcome State Fault Refusal :=
  s.act t fun s => s.hostWrite p Reg.STRIPE_XLAT_LO fun s => s.stripeXlat v

/-- JOB_GRANT (R257, R258, R261). -/
def execJobGrant (t : Nat) (pool : Pool) (s : State) : Host.Outcome State Fault Refusal := s.act t fun s => s.grant pool

/-- HOLD_RELEASE (R255). -/
def execHoldRelease (t : Nat) (s : State) : Host.Outcome State Fault Refusal := s.act t State.holdRelease

/-- TRACE_MODE_WRITE (R267). -/
def execTraceModeWrite (t : Nat) (p : Port) (v : Word) (s : State) : Host.Outcome State Fault Refusal :=
  s.act t fun s => s.hostWrite p Reg.TRACE_CTRL fun s => s.traceCtrl v

/-- TRACE_MARK (R266). -/
def execTraceMark (t : Nat) (p : Port) (v : Word) (s : State) : Host.Outcome State Fault Refusal :=
  s.act t fun s => s.hostWrite p Reg.TRACE_MARK fun s => s.traceMark v

/-- TRACE_RD_IDX (R269). -/
def execTraceRdIdx (t : Nat) (p : Port) (v : Word) (s : State) : Host.Outcome State Fault Refusal :=
  s.act t fun s => s.hostWrite p Reg.TRACE_RD_IDX fun s => s.traceFetch v

/-- TRACE_STORE_FULL (R267). -/
def execTraceStoreFull (t : Nat) (s : State) : Host.Outcome State Fault Refusal :=
  s.act t fun s => if s.traceMode != 0 && s.traceFull then s.traceStop else s

/-- TRACE_TRIGGER_STOP (R268). -/
def execTraceTriggerStop (t : Nat) (s : State) : Host.Outcome State Fault Refusal :=
  s.act t fun s => if s.traceMode != 0 && s.tracePosted then s.traceStop else s

end Sys2Proof.Machine
end

