-- ==== Sys2Proof/Machine/Pcm.lean ====
section
/-! DEFINITION. PCM highways: clock groups, frame sync, slips, timeslots and FIFOs (R374 to R384). -/

namespace Sys2Proof.Machine

/-- FS_STATE of a state. -/
def FsState.code : FsState → Nat
  | .off => 0 | .lost => 1 | .locked => 2

/-- The bytes that a leg's output gives to its timeslots for one sample. -/
def slotByte (x : PcmOut) (j t : Nat) : Option Byte :=
  match x.samples[min j 39]? with
  | some bs => if x.slot ≤ t then bs[t - x.slot]? else none
  | none => none

namespace State

/-! ## Groups and highways -/

/-- A group. -/
def group (s : State) (g : Nat) : PcmGroup := s.nw.groups.getD g PcmGroup.fresh

/-- Replace a group. -/
def setGroup (s : State) (g : Nat) (x : PcmGroup) : State := { s with nw := { s.nw with groups := putAt PcmGroup.fresh s.nw.groups g x } }

/-- A highway. -/
def hwy (s : State) (h : Nat) : Highway := s.nw.hwys.getD h Highway.fresh

/-- Replace a highway. -/
def setHwy (s : State) (h : Nat) (x : Highway) : State := { s with nw := { s.nw with hwys := putAt Highway.fresh s.nw.hwys h x } }

/-- A field of a group's settings, on the page of highway 4g. -/
def groupGet (s : State) (g : Nat) (f : Fd) : Nat := s.get (Reg.PCM_GROUP_CFG (4 * g)) f

/-- A group is enabled. -/
def groupEn (s : State) (g : Nat) : Bool := s.groupGet g Fd.PCM_GROUP_CFG.EN = 1

/-- A group drives its clocks. -/
def groupMaster (s : State) (g : Nat) : Bool := s.groupGet g Fd.PCM_GROUP_CFG.MASTER = 1

/-- The highways of a group. -/
def groupHwys (g : Nat) : List Nat := [4 * g, 4 * g + 1, 4 * g + 2, 4 * g + 3]

/-- A highway is enabled. -/
def hwyEn (s : State) (h : Nat) : Bool := s.flag (Reg.PCM_HWY_CFG h) Fd.PCM_HWY_CFG.EN

/-- The IDLE byte of a highway. -/
def hwyIdle (s : State) (h : Nat) : Byte := BitVec.ofNat 8 (s.get (Reg.PCM_HWY_CFG h) Fd.PCM_HWY_CFG.IDLE)

/-- What an unused slot of a highway drives (R382). -/
def unusedSlot (s : State) (h : Nat) : Option Byte :=
  if s.flag (Reg.PCM_HWY_CFG h) Fd.PCM_HWY_CFG.TRISTATE then none else some (s.hwyIdle h)

/-- Bit clocks of a frame of a group. -/
def frameBits (s : State) (g : Nat) : Nat := 256 * 2 ^ s.groupGet g Fd.PCM_GROUP_CFG.RATE

/-! ## Lock (R377) -/

/-- A group becomes LOCKED: the interval counts as wholly locked if it begins at this very instant. -/
def lockGroup (s : State) (g : Nat) : State :=
  (s.setGroup g { s.group g with st := .locked, lastEdge := s.clk.now, regular := 0, whole := s.clk.started && s.clk.now = s.clk.at0 }).event
    (Pg.PCM (4 * g)) Ev.PCM.FS_LOCKED

/-- A group becomes LOST, without a count. -/
def loseGroup (s : State) (g : Nat) : State := s.setGroup g { s.group g with st := .lost, regular := 0, whole := false }

/-- 375 µs have passed after an edge of a locked slave group with no further edge. -/
def fsLost (s : State) (g : Nat) : State :=
  let x := s.group g
  if x.st = .locked && !s.groupMaster g && x.lastEdge + usTicks 375 ≤ s.clk.now then
    ((s.loseGroup g).inc (Reg.PCM_FS_LOSS_CNT (4 * g)) Fd.PCM_FS_LOSS_CNT.COUNT).event (Pg.PCM (4 * g)) Ev.PCM.FS_LOST
  else s

/-! ## Output (R379, R380, R382) -/

/-- What timeslot `t` of a highway drives at edge `j` of the interval. -/
def slotOut (s : State) (h t j : Nat) (whole : Bool) (lost : List (Nat × Nat)) : Option Byte :=
  let used := if !whole then none
    else if lost.contains (h, t) then none
    else if 40 < j then (if (s.nw.pcmOut.any fun x => x.hwy = h && x.beat + 2 = s.clk.n && (slotByte x 0 t).isSome) then some (s.hwyIdle h) else none)
    else s.nw.pcmOut.findSome? fun x => if x.hwy = h && x.beat + 2 = s.clk.n then slotByte x j t else none
  match used with
  | some b => some b
  | none => s.unusedSlot h

/-- The frame that a highway drives at an edge. -/
def hwyOut (s : State) (h j slots : Nat) (whole : Bool) (lost : List (Nat × Nat)) : State :=
  if s.hwyEn h then s.emit (.pcm h ((List.range slots).map fun t => s.slotOut h t j whole lost)) else s

/-! ## Frames (R375, R378, R384) -/

/-- The timeslots that a highway received: bytes lost in the FIFO and slots after the last bit take IDLE. -/
def rxSlots (s : State) (h bits slots : Nat) (data : List Byte) (lost : List Nat) : List Byte :=
  (List.range slots).map fun t => if bits < 8 * t + 8 || lost.contains t then s.hwyIdle h else data.getD t (s.hwyIdle h)

/-- FIFO troubles of a highway in one frame.
DEDUCED (log entry 56). -/
def pcmFifo (s : State) (h corr : Nat) (ovr under : Bool) : State :=
  let a := Reg.PCM_FIFO h
  let new := (ovr && !s.flag a Fd.PCM_FIFO.RX_OVR) || (under && !s.flag a Fd.PCM_FIFO.TX_UNDER)
  let s := s.inc a Fd.PCM_FIFO.CORR corr
  let s := if ovr then s.putB a Fd.PCM_FIFO.RX_OVR true else s
  let s := if under then s.putB a Fd.PCM_FIFO.TX_UNDER true else s
  s.eventIf new (Pg.PCM h) Ev.PCM.FIFO_ERR

/-- One highway at an edge: it takes the frame that ended, and drives the next. -/
def hwyEdge (s : State) (h j slots : Nat) (whole : Bool) (x : PcmFrameIn) : State :=
  let lost := rxLost x h x.bits
  let s := s.pcmFifo h ((pcmPass x h x.bits).corr + x.txCorr.getD (h % 4) 0) (!lost.isEmpty) (x.txLost.any fun p => p.1 = h)
  let w := s.hwy h
  let s := s.setHwy h { w with rx := w.rx ++ [s.rxSlots h x.bits slots (x.data.getD (h % 4) []) lost] }
  s.hwyOut h j slots whole x.txLost

/-- An edge of a group that is LOCKED.
DEDUCED (log entry 33). -/
def lockedEdge (s : State) (g : Nat) (x : PcmFrameIn) : State :=
  let y := s.group g
  let bad := !s.groupMaster g && x.bits != s.frameBits g
  let s := if bad then (s.inc (Reg.PCM_FRAME_ERR_CNT (4 * g)) Fd.PCM_FRAME_ERR_CNT.COUNT).event (Pg.PCM (4 * g)) Ev.PCM.FRAME_ERR else s
  let s := s.setGroup g { y with lastEdge := s.clk.now, edges := y.edges + 1 }
  (groupHwys g).foldl (fun s h => s.hwyEdge h y.edges (s.frameBits g / 8) y.whole x) s

/-- An edge of a slave group that is LOST.
DEDUCED (log entry 33). -/
def lostEdge (s : State) (g : Nat) (x : PcmFrameIn) : State :=
  let y := s.group g
  let n := if x.bits = s.frameBits g then y.regular + 1 else 0
  let s := s.setGroup g { y with regular := n, lastEdge := s.clk.now }
  if 40 ≤ n then
    let s := s.lockGroup g
    s.lockedEdge g x
  else s

/-- The instants of a master group's edges (R376).
DEDUCED (log entry 33). -/
def masterEdge (s : State) (g : Nat) : Bool :=
  let d := s.clk.now - s.clk.at0
  let ph := s.groupGet g Fd.PCM_GROUP_CFG.FS_PHASE * cycTicks
  s.clk.started && ph ≤ d && (d - ph) % (3072 * cycTicks) = 0

/-- A frame-sync edge of a group ends a frame. -/
def pcmFrame (s : State) (g : Nat) (x : PcmFrameIn) : State :=
  if !s.groupEn g then s
  else if s.groupMaster g then (if s.masterEdge g then s.lockedEdge g { x with bits := s.frameBits g } else s)
  else
    let s := s.fsLost g
    match (s.group g).st with
    | .locked => s.lockedEdge g x
    | _ => s.lostEdge g x

/-! ## Beats (R379, R380) -/

/-- The input of the next beat from a highway.
DESIGN CHOICE (log entry 15).
DEDUCED (log entry 33). -/
def beatInput (n : BeatNo) (whole : Bool) (edges : Nat) (rx : List (List Byte)) : PcmInput :=
  if whole && 39 ≤ edges && edges ≤ 41 then
    { beat := n, zero := false, frames := (rx ++ List.replicate (40 - rx.length) (rx.getLastD [])).take 40 }
  else { beat := n, zero := true, frames := [] }

/-- At a boundary: the interval that ends gives the input of beat `n`, which begins; slips and zero inputs count.
DEDUCED (log entry 33). -/
def pcmGroupBoundary (n : BeatNo) (s : State) (g : Nat) : State :=
  let x := s.group g
  let p := 4 * g
  let s := if !x.whole || x.edges < 39 || 41 < x.edges then s.inc (Reg.PCM_ZERO_BEATS_CNT p) Fd.PCM_ZERO_BEATS_CNT.COUNT
    else if x.edges = 41 then (s.inc (Reg.PCM_SLIP_FAST_CNT p) Fd.PCM_SLIP_FAST_CNT.COUNT).event (Pg.PCM p) Ev.PCM.SLIP
    else if x.edges = 39 then (s.inc (Reg.PCM_SLIP_SLOW_CNT p) Fd.PCM_SLIP_SLOW_CNT.COUNT).event (Pg.PCM p) Ev.PCM.SLIP
    else s
  let s := (groupHwys g).foldl (fun s h =>
    let w := s.hwy h
    s.setHwy h { rx := [], ins := (w.ins.filter fun i => i.beat + 1 = n || i.beat + 2 = n) ++ [beatInput n x.whole x.edges w.rx] }) s
  s.setGroup g { x with edges := 0, whole := x.st = .locked }

/-- The PCM side of a boundary. -/
def pcmBoundary (s : State) (n : BeatNo) : State :=
  let s := [0, 1, 2, 3].foldl (pcmGroupBoundary n) s
  { s with nw := { s.nw with pcmOut := s.nw.pcmOut.filter fun x => x.beat + 2 = n || x.beat + 1 = n || x.beat = n } }

/-- The samples, as slot bytes, that a PCM leg receives for beat `n`; none stands for linear zero. -/
def legFrames (s : State) (h : Nat) (n : BeatNo) : Option (List (List Byte)) :=
  match (s.hwy h).ins.find? fun i => i.beat = n with
  | some i => if i.zero then none else some i.frames
  | none => none

/-! ## Settings (R374, R383, R385) -/

/-- A timeslot of a highway has an owner. -/
def hwyOwned (s : State) (h : Nat) : Bool := (List.range 128).any fun t => s.slotOwner (h, t) != 0

/-- A write of PCM_GROUP_CFG on the page of highway h. -/
def groupWrite (s : State) (h : Nat) (v : Word) : State :=
  let g := h / 4
  let a := Reg.PCM_GROUP_CFG h
  let f (w : Word) (x : Fd) : Nat := fieldOf w x
  let old := s.rd a
  let new := mergeFields (fieldsAt a) .rw old v
  if h % 4 != 0 || f v Fd.PCM_GROUP_CFG.RATE = 3 || 3071 < f v Fd.PCM_GROUP_CFG.FS_PHASE then s.refuse (Pg.PCM h) .badParam
  else if new != old && (groupHwys g).any fun h => s.hwyOwned h then s.refuse (Pg.PCM h) .busy
  else
    let again := f old Fd.PCM_GROUP_CFG.EN = 0 || [Fd.PCM_GROUP_CFG.MASTER, Fd.PCM_GROUP_CFG.RATE, Fd.PCM_GROUP_CFG.FS_POL,
      Fd.PCM_GROUP_CFG.CLK_EDGE].any fun x => f old x != f new x
    let s := s.wr a new
    if f new Fd.PCM_GROUP_CFG.EN = 0 then s.setGroup g { s.group g with st := .off, regular := 0, whole := false }
    else if !again then s
    else if s.groupMaster g then s.lockGroup g
    else s.loseGroup g

/-- A write of PCM_HWY_CFG. -/
def hwyWrite (s : State) (h : Nat) (v : Word) : State :=
  let a := Reg.PCM_HWY_CFG h
  if s.hwyEn h && fieldOf v Fd.PCM_HWY_CFG.EN = 0 && s.hwyOwned h then s.refuse (Pg.PCM h) .busy
  else s.wr a (mergeFields (fieldsAt a) .rw (s.rd a) v)

end State

/-! ## Meanings -/

/-- PCM_FRAME (R375). -/
def execPcmFrame (t : Nat) (g : BitVec 2) (frame : PcmFrameIn) (s : State) : Host.Outcome State Fault Refusal :=
  s.act t fun s => s.pcmFrame g.toNat frame

/-- FS_LOST (R377). -/
def execFsLost (t : Nat) (g : BitVec 2) (s : State) : Host.Outcome State Fault Refusal := s.act t fun s => s.fsLost g.toNat

/-- PCM_GROUP_CFG_WRITE (R377, R383). -/
def execPcmGroupCfgWrite (t : Nat) (p : Port) (h : BitVec 4) (v : Word) (s : State) : Host.Outcome State Fault Refusal :=
  s.act t fun s => s.hostWrite p (Reg.PCM_GROUP_CFG h.toNat) fun s => s.groupWrite h.toNat v

/-- PCM_HWY_CFG_WRITE (R383). -/
def execPcmHwyCfgWrite (t : Nat) (p : Port) (h : BitVec 4) (v : Word) (s : State) : Host.Outcome State Fault Refusal :=
  s.act t fun s => s.hostWrite p (Reg.PCM_HWY_CFG h.toNat) fun s => s.hwyWrite h.toNat v

end Sys2Proof.Machine
end

