-- ==== Sys2Proof/Machine/Txn.lean ====
section
/-! DEFINITION. The transaction commands of the host, and the standing list that Kwakel keeps in flash
(R79 to R87, R109, R121, R539). -/

namespace Sys2Proof.Machine

/-- Entries of the standing list (R539).
DEDUCED (log entry 43). -/
def standingCap : Nat := 256

namespace State

/-- ACTION of a CHAN_CMD_GO that stages: refused while a QUERY runs (R116). -/
def stageGo (s : State) (p : Port) : State := if s.isBusy Pg.CHAN then s.status Pg.CHAN .busy else s.stageCmd p

/-! ## The standing list (R121, R539) -/

/-- The saved endpoint record of a packet leg: its handle with the record's bytes, zero where none is held. -/
def savedRec (s : State) (x : LegCfg) : Option (Nat × List Byte) :=
  match x with
  | .packet _ _ _ _ h _ _ _ _ _ _ _ =>
    some (h, match s.epdRecs.find? h with
      | some r => r.bytes
      | none => List.replicate 192 0)
  | _ => none

/-- The entry that an OPEN command gives. -/
def standingEntry (s : State) (num : Nat) (cmd : List Byte) : StandingEntry :=
  let c := openCfg cmd
  { chan := num, cmd := cmd, recA := s.savedRec c.legA, recB := s.savedRec c.legB, crcOk := true }

/-- Replace the standing list in flash. -/
def setStanding (s : State) (l : List StandingEntry) : State :=
  { s with mgmt := { s.mgmt with flash := { s.mgmt.flash with standing := l } } }

/-- Work of Kwakel on the standing list. -/
def isStandingWork : FlashWork → Bool
  | .standing _ _ => true
  | .unstand _ => true
  | _ => false

/-- Write or remove one entry.
DEDUCED (log entry 43). -/
def doStanding (s : State) : FlashWork → State
  | .standing num cmd =>
    let l := s.mgmt.flash.standing.filter fun e => e.chan ≠ num
    if l.length < standingCap then s.setStanding (l ++ [s.standingEntry num cmd]) else s
  | .unstand num => s.setStanding (s.mgmt.flash.standing.filter fun e => e.chan ≠ num)
  | _ => s

/-- Remove the first work of a list that a test accepts. -/
def dropFirst (f : FlashWork → Bool) : List FlashWork → List FlashWork
  | [] => []
  | w :: ws => if f w then ws else w :: dropFirst f ws

/-- Kwakel, while it runs, does its oldest work on the standing list. -/
def standingWrite (s : State) : State :=
  if s.mgmt.kstate = .running then
    match s.mgmt.work.find? isStandingWork with
    | none => s
    | some w => ({ s with mgmt := { s.mgmt with work := dropFirst isStandingWork s.mgmt.work } }).doStanding w
  else s

end State

/-! ## Meanings -/

/-- TXN_OPEN (R79). -/
def execTxnOpen (t : Nat) (p : Port) (id : BitVec 4) (s : State) : Host.Outcome State Fault Refusal :=
  s.act t fun s => s.hostWrite p Reg.TXN_OPEN fun s => s.txnOpen p id.toNat

/-- RWT_WRITE (R80 to R83): a write of a register with RWT fields. -/
def execRwtWrite (t : Nat) (p : Port) (off : Nat) (v : Word) (s : State) : Host.Outcome State Fault Refusal :=
  s.act t fun s => if hasAcc off .rwt then s.hostWrite p off fun s => s.rwtWrite p off v else s

/-- TXN_COMMIT (R84 to R86). -/
def execTxnCommit (t : Nat) (p : Port) (id : BitVec 4) (next : Bool) (s : State) : Host.Outcome State Fault Refusal :=
  s.act t fun s => s.hostWrite p Reg.TXN_COMMIT fun s => s.txnCommit p id.toNat next

/-- TXN_ABORT (R87). -/
def execTxnAbort (t : Nat) (p : Port) (id : BitVec 4) (s : State) : Host.Outcome State Fault Refusal :=
  s.act t fun s => s.hostWrite p Reg.TXN_ABORT fun s => s.txnAbort p id.toNat

/-- CHAN_CMD_STAGE (R109, R110). -/
def execChanCmdStage (t : Nat) (p : Port) (s : State) : Host.Outcome State Fault Refusal :=
  s.act t fun s => s.hostWrite p Reg.CHAN_CMD_GO fun s => s.stageGo p

/-- STANDING_LIST_WRITE (R121, R539). -/
def execStandingListWrite (t : Nat) (s : State) : Host.Outcome State Fault Refusal := s.act t State.standingWrite

end Sys2Proof.Machine
end

