-- ==== Sys2Proof/Machine/Boot.lean ====
section
/-! DEFINITION. Power, reset and start: image slots, boot, the start of the firmware, the library load and the core
self-test, the standing configuration, the directory copy, and life-cycle changes (R501 to R505, R524 to R526, R534,
R537 to R544, R561 to R563). -/

namespace Sys2Proof.Machine

/-! ## Images (R502 to R504) -/

/-- VERSION of an image. -/
def ImageSlot.version (i : ImageSlot) : Word := Word.of (leAt i.bytes 8 4)

/-- SVN of an image. -/
def ImageSlot.svn (i : ImageSlot) : Nat := leAt i.bytes 5 1

/-- COMPAT of an image. -/
def ImageSlot.compat (i : ImageSlot) : Nat := leAt i.bytes 6 2

/-- An image is valid: MAGIC and KIND, its whole body, hash and signature, and SVN at least the fuse count. -/
def ImageSlot.valid (i : ImageSlot) (kind count : Nat) : Bool :=
  leAt i.bytes 0 4 = 0x4B574C31 && leAt i.bytes 4 1 = kind && count ≤ i.svn && 160 + leAt i.bytes 12 4 ≤ i.bytes.length && i.sigOk

/-- The slot that is selected, or the other one, whichever is valid first (R503). -/
def pickSlot (sel : Nat) (ok : Nat → Bool) : Option Nat :=
  if ok sel then some sel else if ok (1 - sel) then some (1 - sel) else none

/-- The code of MGMT_STATE.KSTATE. -/
def KState.code : KState → Nat
  | .boot => 0 | .running => 1 | .restarting => 2 | .recovery => 3

namespace State

/-- A firmware slot. -/
def fwImage (s : State) (slot : Nat) : ImageSlot := if slot = 0 then s.mgmt.fwA else s.mgmt.fwB

/-- A library slot. -/
def libImage (s : State) (slot : Nat) : ImageSlot := if slot = 0 then s.mgmt.libA else s.mgmt.libB

/-- A SCRAPPED 9340 starts no image (R524). -/
def scrapped (s : State) : Bool := s.mgmt.fuses.lifeState = 4

/-- A firmware slot can start. -/
def fwValid (s : State) (slot : Nat) : Bool := !s.scrapped && (s.fwImage slot).valid 0 s.mgmt.fuses.svnFw

/-- A library slot can be loaded. -/
def libValid (s : State) (slot : Nat) : Bool := !s.scrapped && (s.libImage slot).valid 1 s.mgmt.fuses.svnLib

/-! ## Reset (R526, R534) -/

/-- What a reset with VDD_AON held leaves: fuses, flash, its images and log RAM; everything else is as at reset.
DEDUCED (log entry 53).
DEDUCED (log entry 62). -/
def cleared (s : State) : State :=
  let m := s.mgmt
  let l := s.log
  { State.reset with
    clk := { Clk.zero with now := s.clk.now }, pwr := s.pwr, out := s.out, lastRead := s.lastRead,
    log := { LogState.fresh with next := l.next, ram := l.ram, flash := l.flash, due := l.due, spare := l.spare },
    mgmt := { Mgmt.fresh with fwA := m.fwA, fwB := m.fwB, libA := m.libA, libB := m.libB, flash := { m.flash with fwPrev := none }, fuses := m.fuses },
    freeCtr := s.freeCtr, pending := s.pending }

/-- JTAG access by life-cycle state (R524, R532). -/
def jtagAccess (life : Nat) : Nat := if life = 0 || life = 3 then 2 else if life = 1 || life = 2 then 1 else 0

/-- LIFE_STATE and LIFE_JTAG from the fuses. -/
def showLife (s : State) : State :=
  let f := s.mgmt.fuses
  let r := Reg.LIFE_STATE
  let s := ((s.put r Fd.LIFE_STATE.LAST f.lifeLast).put r Fd.LIFE_STATE.RETURNS f.returns).put r Fd.LIFE_STATE.STATE f.lifeState
  s.put Reg.LIFE_JTAG Fd.LIFE_JTAG.ACCESS (jtagAccess f.lifeState)

/-- The boot ROM picks a firmware slot and verifies it; with none valid KSTATE is RECOVERY (R501, R503). -/
def bootRom (s : State) : State :=
  match pickSlot s.mgmt.flash.fwSel s.fwValid with
  | some k => { s with mgmt := { s.mgmt with kstate := .boot, fwSlot := k } }
  | none => { s with mgmt := { s.mgmt with kstate := .recovery } }

/-- Start-up from the top, the instants counted from here on (R534, R537). -/
def startUp (s : State) (straps : Nat) : State :=
  let s := { s.cleared with clk := Clk.zero }
  ((s.put Reg.IO_STRAP Fd.IO_STRAP.STRAPS straps).showLife).bootRom

/-- PORn rises with VDD_AON present (R501, R563). -/
def porRelease (s : State) (straps : Nat) : State :=
  if s.pwr.vddAon && !s.pwr.porn then { s with pwr := { s.pwr with porn := true, trip := false } }.startUp straps else s

/-- PORn is asserted: RESET, and a thermal trip lets go (R515, R534).
DEDUCED (log entry 62). -/
def porAssert (s : State) : State :=
  if s.pwr.porn then { s with pwr := { s.pwr with porn := false, trip := false } }.cleared else s

/-- SEQ after the last record in flash (R519). -/
def coldSeq (s : State) : Word :=
  match s.log.flash with
  | r :: _ => r.seq + 1
  | [] => 0

/-- VDD_AON leaves its band: OFF, and log RAM is lost (R526, R534).
DEDUCED (log entry 52).
DEDUCED (log entry 62). -/
def aonLoss (s : State) : State :=
  if s.pwr.vddAon then
    let s := { s with pwr := { s.pwr with vddAon := false, trip := false } }.cleared
    { s with log := { s.log with ram := [], due := [], next := s.coldSeq } }
  else s

/-! ## The firmware starts (R458, R473, R501, R525) -/

/-- A new challenge for LIFE_CMD. -/
def drawChallenge (s : State) : State :=
  let (a, s) := s.freeWord
  let (b, s) := s.freeWord
  { s with mgmt := { s.mgmt with challenge := a.toNat + b.toNat * 2 ^ 32 } }

/-- The retirement table as flash has it, without poison masks. -/
def tableOf (l : List (Nat × Nat × Nat)) : Assoc RetEntry :=
  (List.range l.length).zip (l.map fun (x : Nat × Nat × Nat) => { frame := x.1, pool := x.2.1, poison := [] })

/-- WIPED latches at the first start after a life-cycle change. -/
def noteWiped (s : State) : State :=
  if s.mgmt.fuses.changed then
    { s with mgmt := { s.mgmt with fuses := { s.mgmt.fuses with changed := false } } }.event Pg.LIFE Ev.LIFE.WIPED
  else s

/-- A firmware runs for the first time since reset: KSTATE is RUNNING and GDDR-6 training begins. -/
def startFirmware (s : State) : State :=
  let s := { s with mgmt := { s.mgmt with kstate := .running, boots := true },
                    mem := { s.mem with table := tableOf s.mgmt.flash.retiredFrames, since := s.clk.now } }
  (((s.showRetire.drawChallenge).setMemState 1).noteWiped).kwakelLog .boot 0

/-- Kwakel's firmware has been verified. -/
def firmwareVerified (s : State) : State := if s.mgmt.kstate = .boot then s.startFirmware else s

/-! ## The standing configuration (R539) -/

/-- The legs of standing channels, open or listed, by leg index. -/
def standingLegs (s : State) : List (Nat × LegCfg) :=
  let legs (num : Nat) (c : ChanCfg) : List (Nat × LegCfg) := [(2 * num, c.legA), (2 * num + 1, c.legB)]
  let opened := (s.openChans.filter fun c => c.cfg.standing).flatMap fun c => legs c.num c.cfg
  let listed := s.mgmt.flash.standing.flatMap fun e => legs e.chan (openCfg e.cmd)
  opened ++ listed.filter fun x => !opened.any fun y => y.1 = x.1

/-- The highway that a leg names. -/
def legHwy : LegCfg → Option Nat
  | .pcm _ h _ => some h
  | _ => none

/-- The registers of a MAC page that are saved. -/
def macSaved (p : Nat) : List Nat :=
  [Reg.MAC_CTRL p, Reg.MAC_MAXFRAME p, Reg.MAC_LINK_CFG p, Reg.MAC_SA_LO p, Reg.MAC_SA_HI p, Reg.MAC_GW_LO p, Reg.MAC_GW_HI p]
    ++ (List.range 8).map fun k => Reg.MAC_TAG p k

/-- The settings that a shaper was last given. -/
def shpSetting (x : Shaper) : ShpCfg :=
  match x.pend with
  | some (_, c) => c
  | none => x.cfg

/-- The standing configuration as it stands.
DEDUCED (log entry 43). -/
def savedConfig (s : State) : StandingConfig :=
  let legs := s.standingLegs
  let places := legs.filterMap fun x => (legPlace x.2).map fun p => (x.1, p.agg)
  let aggs := (places.map fun x => x.2).eraseDups
  let ports := (aggs.map fun a => (s.agg a).cfg.port).eraseDups
  let hwys := (legs.filterMap fun x => legHwy x.2).eraseDups
  let pairs := allPairs.filter fun k => s.pairEn k && ports.any fun p => s.primary k = p || s.secondary k = p
  let regs := Reg.MAC_LANE_MODE 0 :: ports.flatMap macSaved ++ pairs.map Reg.LPAIR_PAIR ++ [Reg.LPAIR_REVERT_S]
    ++ ports.map Reg.PKT_PORT_DOM ++ (hwys.map fun h => Reg.PCM_GROUP_CFG (h / 4 * 4)).eraseDups ++ hwys.map Reg.PCM_HWY_CFG
  { regs := regs.map fun a => (a, s.rd a), aggs := aggs.map fun a => (a, (s.agg a).cfg),
    shpAggs := aggs.map fun a => (a, shpSetting (s.agg a).shp), shpFlows := places.map fun x => (x.1, shpSetting (s.flow x.1).shp) }

/-- Kwakel writes the standing configuration to flash. -/
def configWrite (s : State) : State :=
  if s.mgmt.kstate = .running && s.mgmt.work.contains .config then
    { s with mgmt := { s.mgmt with work := s.mgmt.work.filter (· ≠ FlashWork.config),
                                   flash := { s.mgmt.flash with config := s.savedConfig } } }
  else s

/-- Kwakel writes back one saved register, with the effect that the register has. -/
def restoreReg (s : State) (a : Nat) (v : Word) : State :=
  let at_ (n : Nat) (f : Nat → Nat) : Option Nat := (List.range n).find? fun k => a = f k
  if a = Reg.MAC_LANE_MODE 0 then s.laneWrite 0 v
  else match at_ 8 Reg.MAC_CTRL, at_ 4 Reg.LPAIR_PAIR, at_ 16 Reg.PCM_GROUP_CFG, at_ 16 Reg.PCM_HWY_CFG with
    | some p, _, _, _ => s.macCtrlWrite p v
    | _, some k, _, _ => s.pairWrite k v
    | _, _, some h, _ => s.groupWrite h v
    | _, _, _, some h => s.hwyWrite h v
    | _, _, _, _ => s.wr a v

/-- A shaper that is given settings. -/
def giveShp (s : State) (x : Shaper) (c : ShpCfg) : Shaper := { x with pend := some (s.clk.now, c) }

/-- A saved endpoint record goes into the on-chip directory; one saved as zero does not. -/
def restoreRec (s : State) (r : Option (Nat × List Byte)) : State :=
  match r with
  | none => s
  | some (h, d) =>
    let x := recOf d s.clk.cycles
    if (d.all fun b => b = 0) || (s.epdRecs.find? h).isSome || (s.epdLookup x.key).isSome then s
    else match s.epdAdd h x with
      | some (s, _) => s
      | none => s

/-- One entry of the standing list: its records, or, where its CRC-32C fails, a record in the log. -/
def restoreEntry (s : State) (e : StandingEntry) : State :=
  if e.crcOk then (s.restoreRec e.recA).restoreRec e.recB else s.kwakelLog .entryFail e.chan

/-- The standing configuration and the endpoint records are put in place.
DEDUCED (log entry 64). -/
def restoreStanding (s : State) : State :=
  if s.mgmt.restoredConfig then s
  else
    let c := s.mgmt.flash.config
    let s := c.regs.foldl (fun s x => s.restoreReg x.1 x.2) s
    let s := c.aggs.foldl (fun s x => s.setAgg x.1 { s.agg x.1 with cfg := x.2, cfgAt := s.clk.now }) s
    let s := c.shpAggs.foldl (fun s x => s.setAgg x.1 { s.agg x.1 with shp := s.giveShp (s.agg x.1).shp x.2 }) s
    let s := c.shpFlows.foldl (fun s x => s.setFlow x.1 { s.flow x.1 with shp := s.giveShp (s.flow x.1).shp x.2 }) s
    let s := s.mgmt.flash.standing.foldl restoreEntry s
    { s with mgmt := { s.mgmt with restoredConfig := true } }

/-! ## The library load and the self-test (R232, R246, R487, R494, R501) -/

/-- The roles of a cluster's cores: those recorded as retired or failing the self-test are retired, of the others the first
nine serve and the tenth is the reserve. -/
def startRoles (s : State) (k : Nat) (failed : List (Nat × Nat)) : List Core :=
  let out (i : Nat) : Bool := s.mgmt.flash.retired.contains (k, i) || failed.contains (k, i)
  let pass := (List.range 10).filter fun i => !out i
  (List.range 10).map fun i =>
    { Core.fresh with role := if out i then .retired else if (pass.take 9).contains i then .serving else .reserve }

/-- A core fails its self-test at a start for the first time.
DESIGN CHOICE (log entry 39). -/
def newlyFailed (s : State) (k : Nat) (failed : List (Nat × Nat)) : List Nat :=
  (List.range 10).filter fun i => failed.contains (k, i) && !s.mgmt.flash.retired.contains (k, i)

/-- One cluster at start: LOST when flash has it so, else SERVING with the library of a slot. -/
def startCluster (s : State) (k slot : Nat) (failed : List (Nat × Nat)) : State :=
  match s.cluster k with
  | none => s
  | some c =>
    if c.cstate != .off then s
    else if s.mgmt.flash.lostClusters.contains k then s.setCState k .lost
    else
      let new := s.newlyFailed k failed
      let s := s.modCluster k fun c => { c with cores := s.startRoles k failed, lib := (s.libImage slot).version, libSlot := slot }
      let s := s.setCState k .serving
      new.foldl (fun s i => (s.addWork (.core k i)).event Pg.REL Ev.REL.CORE_RETIRED) s

/-- Spares that a recorded repair has spent. -/
def repairedBank (x : Nat × Nat × Nat) (l : List BankUse) : List BankUse :=
  let shared := 160 ≤ x.1
  let loc : SramLoc :=
    { shared := shared, cluster := if shared then x.1 - 160 else x.1 / 10, core := if shared then 0 else x.1 % 10, bank := x.2.1, row := 0,
      word := 0, bitPos := 0 }
  let same (b : BankUse) : Bool := b.shared = loc.shared && b.cluster = loc.cluster && b.core = loc.core && b.bank = loc.bank
  let old := (l.find? same).getD { shared := loc.shared, cluster := loc.cluster, core := loc.core, bank := loc.bank, rows := 0, cols := 0 }
  let new := if 65536 ≤ x.2.2 then { old with cols := old.cols + 1 } else { old with rows := old.rows + 1 }
  new :: l.filter fun b => !same b

/-- Units of a pool with the recorded ones retired. -/
def recordedUnits (out : List Nat) (us : List PoolUnit) : List PoolUnit :=
  (List.range us.length).zipWith (fun i (u : PoolUnit) => if out.contains i then { u with alive := false } else u) us

/-- The library is loaded and the self-test has run; `failed` are the cores, as (cluster, index), that fail it. -/
def libraryLoaded (s : State) (failed : List (Nat × Nat)) : State :=
  if s.mgmt.kstate != .running then s
  else
    let s := s.restoreStanding
    match pickSlot s.mgmt.flash.libSel s.libValid with
    | none => s
    | some slot =>
      let f := s.mgmt.flash
      let s := { s with mgmt := { s.mgmt with libSlot := slot },
                        spares := { s.spares with banks := f.repairs.foldl (fun l x => repairedBank x l) s.spares.banks },
                        disp := { s.disp with trellis := recordedUnits f.retiredUnits s.disp.trellis,
                                              lanes := recordedUnits f.retiredLanes s.disp.lanes } }
      ((List.range 16).foldl (fun s k => s.startCluster k slot failed) s).relCheck

/-! ## The directory copy (R544) -/

/-- One record is copied at its handle; one that finds no place is logged. -/
def copyRec (s : State) (x : Nat × EpRec) : State :=
  let e := s.nw.epd
  match epdPlace s.epdWidth (epdHash x.2.key, x.1) e.ways with
  | some (ways, _) => { s with nw := { s.nw with epd := { e with ways := ways, recs := e.recs.insert x.1 x.2 } } }
  | none => s.kwakelLog .entryFail x.1

/-- Kwakel has copied every on-chip record into the directory in GDDR-6.
DESIGN CHOICE (log entry 57). -/
def dirCopy (s : State) : State :=
  if s.mgmt.kstate = .running && s.memReady && s.epdOnChip then
    let s := { s with nw := { s.nw with epd := { s.nw.epd with recs := [], ways := [] } } }
    let s := s.nw.epd.chip.foldl copyRec s
    { s with modes := { s.modes with dirCopied := true } }
  else s

/-! ## Life cycle (R474, R524 to R526) -/

/-- GDDR-6 is zeroised: initialisation runs again, and the directory is gone at once.
DEDUCED (log entry 53). -/
def zeroise (s : State) : State :=
  let s := { s with nw := { s.nw with epd := { s.nw.epd with recs := [], ways := [] } }, mgmt := { s.mgmt with package := none, clips := [] } }
  let s := s.put Reg.EPD_COUNT Fd.EPD_COUNT.COUNT s.epdRecs.length
  if s.memReady then { s with mem := { s.mem with since := s.clk.now } }.setMemState 2 else s

/-- A change of state that LIFE_CMD may ask for. -/
def lifeLegal (f : Fuses) (target : Nat) : Bool :=
  target = 4 || (f.lifeState = 0 && target = 1) || (f.lifeState = 1 && target = 2) || (f.lifeState = 2 && target = 3)
    || (f.lifeState = 3 && target = 2 && f.returns < 3)

/-- A refused LIFE_CMD. -/
def lifeRefuse (s : State) (st : Status) : State := (s.status Pg.LIFE st).event Pg.LIFE Ev.LIFE.REFUSED

/-- A write of LIFE_CMD; `verified` says whether MBX_DATA holds a signature that verifies. -/
def lifeCmd (s : State) (v : Word) (verified : Bool) : State :=
  let f := s.mgmt.fuses
  let target := fieldOf v Fd.LIFE_CMD.TARGET
  if fieldOf v Fd.LIFE_CMD.CONFIRM != 0x5A17 || !lifeLegal f target then s.lifeRefuse .badParam
  else if s.modes.mode != 6 || !s.openChans.isEmpty then s.lifeRefuse .notInMode
  else
    let signed := f.lifeState = 2 && target = 3
    let s := if signed then s.drawChallenge else s
    if signed && !verified then s.lifeRefuse .checkFail
    else { s with mgmt := { s.mgmt with lifeReq := some target } }.status Pg.LIFE .ok

/-- Flash after a change of state: the standing list is erased, the fault records on entry to RETURN. -/
def lifeFlash (f : Flash) (target : Nat) : Flash :=
  let f := { f with standing := [] }
  if target = 3 then
    { f with retired := [], retiredUnits := [], retiredLanes := [], lostClusters := [], lostDevices := [], retiredFrames := [], repairs := [] }
  else f

/-- An accepted change acts at a boundary: fuses and wipes; the reset follows. -/
def lifeChange (s : State) : State :=
  match s.mgmt.lifeReq with
  | none => s
  | some x =>
    let m := s.mgmt
    let f := m.fuses
    let gone := x = 4
    let fuses := { f with lifeState := x, lifeLast := f.lifeState, returns := f.returns + b2n (f.lifeState = 3 && x = 2), changed := true }
    let keep (i : ImageSlot) : ImageSlot := if gone then ImageSlot.empty else i
    let s := { s with mgmt := { m with fuses := fuses, flash := lifeFlash m.flash x, lifeReq := none, fwA := keep m.fwA, fwB := keep m.fwB,
                                       libA := keep m.libA, libB := keep m.libB, work := if x = 3 then [] else m.work },
                      mem := if x = 3 then { s.mem with table := [], bad := [] } else s.mem }
    ((s.zeroise.eraseKeys).showRetire).kwakelLog .life x

/-- The 9340 resets itself after a change and starts again, with the straps it has.
DEDUCED (log entry 53).
DEDUCED (log entry 62). -/
def lifeReset (s : State) : State :=
  if s.up && s.mgmt.kstate = .running && s.mgmt.fuses.changed then s.startUp (s.get Reg.IO_STRAP Fd.IO_STRAP.STRAPS) else s

end State

/-! ## Meanings -/

/-- POR_RELEASE (R501, R534, R563): instants count from here, so its own is not used. -/
def execPorRelease (_t : Nat) (straps : BitVec 5) (s : State) : Host.Outcome State Fault Refusal := .next (s.porRelease straps.toNat)

/-- POR_ASSERT (R534, R562). -/
def execPorAssert (t : Nat) (s : State) : Host.Outcome State Fault Refusal := .next (s.atTick t).porAssert

/-- VDD_AON_LOSS (R534). -/
def execVddAonLoss (t : Nat) (s : State) : Host.Outcome State Fault Refusal := .next (s.atTick t).aonLoss

/-- VDD_AON_RETURN (R561, R562): with PORn high the manual promises nothing.
DESIGN CHOICE (log entry 13). -/
def execVddAonReturn (t : Nat) (s : State) : Host.Outcome State Fault Refusal :=
  if s.pwr.vddAon then .next (s.atTick t)
  else if s.pwr.porn then .fault .outsideRatings
  else .next { s.atTick t with pwr := { s.pwr with vddAon := true } }

/-- FIRMWARE_VERIFIED (R501, R537). -/
def execFirmwareVerified (t : Nat) (s : State) : Host.Outcome State Fault Refusal := s.act t State.firmwareVerified

/-- LIBRARY_LOAD_DONE (R232, R501, R539). -/
def execLibraryLoadDone (t : Nat) (failed : List (Nat × Nat)) (s : State) : Host.Outcome State Fault Refusal :=
  s.act t fun s => s.libraryLoaded failed

/-- DIRECTORY_COPY_DONE (R544). -/
def execDirectoryCopyDone (t : Nat) (s : State) : Host.Outcome State Fault Refusal := s.act t State.dirCopy

/-- STANDING_CONFIG_WRITE (R539). -/
def execStandingConfigWrite (t : Nat) (s : State) : Host.Outcome State Fault Refusal := s.act t State.configWrite

/-- LIFE_CMD (R525). -/
def execLifeCmd (t : Nat) (p : Port) (v : Word) (verified : Bool) (s : State) : Host.Outcome State Fault Refusal :=
  s.act t fun s => s.hostWrite p Reg.LIFE_CMD fun s => s.lifeCmd v verified

/-- LIFE_CHANGE_RESET (R525). -/
def execLifeChangeReset (t : Nat) (s : State) : Host.Outcome State Fault Refusal := .next (s.atTick t).lifeReset

end Sys2Proof.Machine
end

