-- ==== Sys2Proof/Machine/Media.lean ====
section
/-! DEFINITION. What a BEAT job does to one leg of its channel: packets taken, events relayed, input, detection, tones,
output and packets sent (R145 to R226, R380, R429). Each part takes the state and the channel as the job has them so far. -/

namespace Sys2Proof.Machine

/-- What a job works under: its beat, the configuration and the register values of that beat, whether the beat lies in
BRINGUP, and the ticks of its boundary and of its cut. -/
structure Work where
  n : BeatNo
  cfg : ChanCfg
  m : BeatRegs
  bringup : Bool
  at0 : Nat
  cut : Nat
  deriving DecidableEq, Repr

/-- A list brought to a length. -/
def fit (n : Nat) (d : α) (l : List α) : List α := l.take n ++ List.replicate (n - l.length) d

/-- Samples brought to a length and to 16 bits. -/
def fitAudio (n : Nat) (l : List Int) : List Int := (fit n 0 l).map fun v => (clip16 v).1

/-- RTCP_EN, RTCP_MUX and XR_EN (R146). -/
def rtcpOn (x : LegCfg) : Bool := bit x.opt 24
/-- RTCP on the RTP port. -/
def rtcpMux (x : LegCfg) : Bool := bit x.opt 25
/-- The report block of R162. -/
def rtcpXr (x : LegCfg) : Bool := bit x.opt 26

/-- SSRC of a packet leg's descriptor. -/
def LegCfg.ssrc : LegCfg → Word
  | .packet _ _ _ _ _ ssrc _ _ _ _ _ _ => Word.of ssrc
  | _ => 0

/-- Packet time, payload type and endpoint record of a packet leg. -/
def LegCfg.ptime : LegCfg → Nat
  | .packet _ ptime _ _ _ _ _ _ _ _ _ _ => ptime
  | _ => 20
/-- Payload type of a packet leg. -/
def LegCfg.pt : LegCfg → Nat
  | .packet _ _ pt _ _ _ _ _ _ _ _ _ => pt
  | _ => 0
/-- EPD_INDEX of a packet leg. -/
def LegCfg.epd : LegCfg → Nat
  | .packet _ _ _ _ epd _ _ _ _ _ _ _ => epd
  | _ => 0

/-- The SRTP context of a leg with SRTP on. -/
def LegCfg.srtpCtx? : LegCfg → Option Nat
  | .packet _ _ _ srtp _ _ _ _ _ _ ctx _ => if srtp then some ctx else none
  | _ => none

/-- The RFC 4733 payload type for a timestamp clock (R205). -/
def Work.eventPt (w : Work) (codec : Nat) : Nat :=
  let khz := codecKhz codec
  BeatRegs.field w.m Reg.TONE_RELAY (if khz = 8 then Fd.TONE_RELAY.PT8 else if khz = 16 then Fd.TONE_RELAY.PT16 else Fd.TONE_RELAY.PT48)

/-- A tone descriptor of the beat. -/
def Work.descWords (w : Work) (d : Nat) : List Word :=
  [Reg.TONE_DSC_FREQ d, Reg.TONE_DSC_LEVEL d, Reg.TONE_DSC_CAD1 d, Reg.TONE_DSC_CAD2 d, Reg.TONE_DSC_CTRL d].map fun a =>
    Assoc.get resetWord w.m a

/-- A descriptor from its five words. -/
def descOf (ws : List Word) : Desc := Desc.ofWords (ws.getD 0 0) (ws.getD 1 0) (ws.getD 2 0) (ws.getD 3 0) (ws.getD 4 0)

/-- The 64 descriptors of the beat. -/
def Work.descs (w : Work) : List Desc := (List.range 64).map fun d => descOf (w.descWords d)

/-- GEN_ON_MS and GEN_OFF_MS of the beat. -/
def Work.genOn (w : Work) : Nat := BeatRegs.field w.m Reg.TONE_DTMF_GEN Fd.TONE_DTMF_GEN.GEN_ON_MS
/-- GEN_OFF_MS of the beat. -/
def Work.genOff (w : Work) : Nat := BeatRegs.field w.m Reg.TONE_DTMF_GEN Fd.TONE_DTMF_GEN.GEN_OFF_MS

/-- The companded bypass is forced (R158). -/
def Work.vbdForced (w : Work) : Bool := w.cfg.bothG711 && w.cfg.vbdForce

/-- The sending side at a beat whose events take the place of audio: the frame counts, and no packet goes. -/
def CodecRun.held (x : CodecRun) (codec ptime opt phase : Nat) (f : BeatNo) (tx : TxInput) (vbd : Bool) : CodecRun :=
  if !isPhase phase f then x
  else
    let y := x.frame codec ptime opt f tx vbd
    if ((f - y.grid).toNat / 4 + 1) % (ptime / 20) != 0 then y else { y with frames := 0, sidDue := false }

namespace State

/-- The network time at a tick near now, in 2^-16 ns.
PRESUMED (log entry 28). -/
def netAt (s : State) (at_ : Nat) : Nat :=
  if s.net.at0 ≤ at_ then s.net.read at_ s.refs.dco else ((s.net.base : Int) - refUnits (s.net.at0 - at_) s.refs.dco).toNat

/-! ## RTCP received (R161) -/

/-- A compound packet taken by a job; a leg with RTCP_EN = 0 ignores it.
DEDUCED (log entry 25). -/
def takeRtcp (s : State) (c : Chan) (w : Work) (b : Bool) (x : CodecRun) (pkt : InPkt) : State × CodecRun :=
  if !rtcpOn (w.cfg.leg b) then (s, x)
  else
    let mid := ntpMid (stampOf (s.netAt pkt.stamp) s.net.gen)
    let r := scanRtcp (w.cfg.leg b).ssrc.toNat mid x.learned 64 pkt.payload { rtt := none, lsr := none, bye := false }
    let x := { x with rtt := r.rtt.getD x.rtt, lsr := r.lsr.getD x.lsr, lsrAt := if r.lsr.isSome then pkt.stamp else x.lsrAt }
    let s := s.inc Reg.CODEC_RTCP_RX_CNT Fd.CODEC_RTCP_RX_CNT.COUNT
    let s := if r.bye then
        ((s.chanEvent w.cfg.ring c.num 2 (b2n b) (x.learned.getD 0) w.n).inc Reg.CODEC_BYE_CNT Fd.CODEC_BYE_CNT.COUNT).event
          Pg.CODEC Ev.CODEC.BYE
      else s
    (s, x)

/-! ## Packets taken (R152, R171, R175) -/

/-- A parse that says nothing.
DEDUCED (log entry 25). -/
def noParse : PktParse := { ok := false, units := 0, sid := false, cmr := none }

/-- Whether what a packet brought about says that it never reached the buffer.
DEDUCED (log entry 25). -/
def notOffered (ns : List Note) : Bool :=
  ns.any fun x => x.addr = Reg.CODEC_BAD_PT_CNT || x.addr = Reg.CODEC_MALFORMED_CNT || x.addr = Reg.CODEC_FOREIGN_CNT

/-- Take the packets of a leg in stamp order, each RTP packet with its parse.
DEDUCED (log entry 25). -/
def takeAll (c : Chan) (w : Work) (b : Bool) (x : JCtx) (evPt : Nat) : List InPkt → List PktParse → State → LegRun → State × LegRun
  | [], _, s, l => (s, l)
  | p :: ps, vs, s, l =>
    match p.kind with
    | .rtcp =>
      let (s, r) := s.takeRtcp c w b l.codec p
      takeAll c w b x evPt ps vs s { l with codec := r }
    | .udptl => takeAll c w b x evPt ps vs s l
    | .rtp =>
      let leg := w.cfg.leg b
      let (r, j, ns) := takeRtp x leg.pt leg.opt evPt l.codec l.jb p (vs.headD noParse)
      let s := ns.foldl note s
      takeAll c w b x evPt ps vs.tail s
        { l with codec := r, jb := j, pktIn := if notOffered ns then l.pktIn else l.pktIn + 1 }

/-! ## Relay received (R205, R207) -/

/-- The first event of a receiver whose 60 ms have passed ends. -/
def expireRelay (s : State) (r : RelayRx) : State × RelayRx :=
  if r.timedOut then
    ((s.inc Reg.TONE_RELAY_TIMEOUT_CNT Fd.TONE_RELAY_TIMEOUT_CNT.COUNT).event Pg.TONE Ev.TONE.RELAY_TIMEOUT, r.finish 0)
  else (s, r)

/-- The event entries that the decision of this job plays, each with the units into the block at which it starts.
DEDUCED (log entry 46). -/
def decidedEvents (x : JCtx) (j : Jbuf) : List (JEntry × Nat) :=
  let behind := beatDiff x.beat j.next
  if !j.hasP || behind < 0 then []
  else
    let part := behind.toNat % blockBeats x.codec
    let start := j.p + BitVec.ofNat 32 (x.perBeat * behind.toNat)
    let len : Int := (x.perBeat * (blockBeats x.codec - part) : Nat)
    (j.entries.filter fun e => e.kind = .event && tsDiff e.ts start < len && 0 < tsDiff e.ts start + e.units).map fun e =>
      (e, (tsDiff e.ts start).toNat)

/-- One decided event packet: events above 15 are discarded with a count, once for each event. -/
def relayPacket (sr : State × RelayRx) (e : JEntry × Nat) : State × RelayRx :=
  let (s, r) := sr
  if 15 < beAt e.1.payload 0 1 then
    if r.past.contains e.1.ts then (s, r)
    else ((s.inc Reg.TONE_RELAY_UNSUP_CNT Fd.TONE_RELAY_UNSUP_CNT.COUNT).event Pg.TONE Ev.TONE.RELAY_UNSUPPORTED,
          { r with past := (e.1.ts :: r.past).take 16 })
  else (s, r.take e.1 e.2)

/-- The relay receiver's part of a job. -/
def relayJob (s : State) (r : RelayRx) (es : List (JEntry × Nat)) (u khz : Nat) : State × RelayRx :=
  let (s, r) := es.foldl relayPacket (s.expireRelay r)
  let (r, started) := r.beat u khz
  (if started then s.inc Reg.TONE_RELAY_RX_CNT Fd.TONE_RELAY_RX_CNT.COUNT else s, r)

/-! ## A packet leg's receiving side -/

/-- The receiving side of a packet leg: new limits, packets, decisions, relayed events (R171 to R190, R207). -/
def receiveLeg (s : State) (c : Chan) (w : Work) (b : Bool) (r : LegResult) : State × LegRun :=
  let l := c.leg b
  let leg := w.cfg.leg b
  let (mine, later) := l.inbox.partition fun p => p.stamp < w.cut
  if leg.kind != 0 then (s, l)
  else
    let l := { l with inbox := later }
    if leg.isFax then (s, { l with pktIn := l.pktIn + BitVec.ofNat 32 mine.length })
    else
      let codec := leg.codec?.getD 0
      let relay := w.cfg.relay b
      let x := s.jctx w.m w.bringup c w.cfg b w.n
      let l := { l with jb := { x.newLimit l.jb leg.jbMax with idle := l.jb.idle + (w.n - c.commit.getD c.openBeat).toNat } }
      let (s, l) := takeAll c w b x (if relay then w.eventPt codec else 999) mine r.parses s l
      let es := decidedEvents x l.jb
      let (j, ns) := x.playout l.jb r.tsa
      let s := ns.foldl note s
      let (s, rx) := if relay then s.relayJob l.relayRx es x.perBeat (codecKhz codec) else (s, RelayRx.fresh)
      (s, { l with jb := j, relayRx := rx })

/-! ## Input (R62, R214, R379) -/

/-- The samples of a PCM leg from the frames of its highway: linear zero where there are none. -/
def pcmSamples (format t : Nat) : Option (List (List Byte)) → List Int
  | none => List.replicate 40 0
  | some fs => fs.map fun f =>
    if format = 0 then aExpand (f.getD t 0) else if format = 1 then muExpand (f.getD t 0)
    else asSigned 16 ((f.getD t 0).toNat * 256 + (f.getD (t + 1) 0).toNat)

/-- A leg's input of the beat at its own rate. -/
def legInput (s : State) (w : Work) (b : Bool) (r : LegResult) : List Int :=
  match w.cfg.leg b with
  | .pcm format h t => pcmSamples format t (s.legFrames h w.n)
  | .packet _ _ _ _ _ _ _ _ _ _ _ _ => fitAudio (5 * w.cfg.khz b) r.audio
  | .source _ _ => []

/-- A flag of R226 that sets counts and latches. -/
def satNote (s : State) (old new : Bool) : State :=
  if new && !old then (s.inc Reg.RATE_SAT_CNT Fd.RATE_SAT_CNT.COUNT).event Pg.RATE Ev.RATE.SAT else s

/-- The input direction of a leg: pending actions, DC blocker, conversion (R214, R223 to R226). -/
def inputLeg (s : State) (w : Work) (b : Bool) (r : LegResult) (ctl : RateCtl) (l : LegRun) : State × LegRun :=
  if !(w.cfg.leg b).hasRate then (s, l)
  else
    let x := l.rate.control ctl
    let (y, _) := x.input (BeatRegs.flag w.m Reg.RATE_CTRL Fd.RATE_CTRL.DCB_EN) (s.legInput w b r)
    (s.satNote x.satIn y.satIn, { l with rate := y })

/-! ## Detection (R195 to R204) -/

/-- The detection settings of the beat for a leg. -/
def detCtx (w : Work) (b vbd : Bool) : DetCtx :=
  let f (r : Nat) (x : Fd) : Nat := BeatRegs.field w.m r x
  { classes := f Reg.TONE_CLASS_EN Fd.TONE_CLASS_EN.EN,
    dtmf := { offMs := f Reg.TONE_DTMF_DET Fd.TONE_DTMF_DET.OFF_MS, onMs := f Reg.TONE_DTMF_DET Fd.TONE_DTMF_DET.ON_MS,
              rev := f Reg.TONE_DTMF_DET Fd.TONE_DTMF_DET.REV_TWIST, fwd := f Reg.TONE_DTMF_DET Fd.TONE_DTMF_DET.FWD_TWIST,
              minLevel := f Reg.TONE_DTMF_DET Fd.TONE_DTMF_DET.MIN_LEVEL, fdev := f Reg.TONE_DTMF_DET2 Fd.TONE_DTMF_DET2.FDEV,
              bridge := f Reg.TONE_DTMF_DET2 Fd.TONE_DTMF_DET2.BRIDGE_MS },
    descs := w.descs, session := w.cfg.sessOn .taldy b, vbd := vbd }

/-- The count of a detection class. -/
def toneCount (cls : Nat) : Nat × Fd :=
  match cls with
  | 0 => (Reg.TONE_DTMF_CNT, Fd.TONE_DTMF_CNT.COUNT)
  | 1 => (Reg.TONE_DESC_CNT, Fd.TONE_DESC_CNT.COUNT)
  | 2 => (Reg.TONE_FAX_CNT, Fd.TONE_FAX_CNT.COUNT)
  | _ => (Reg.TONE_TALDY_CNT, Fd.TONE_TALDY_CNT.COUNT)

/-- A tone report reaches the host and the counts (R197, R204). -/
def postTone (s : State) (num ring : Nat) (b : Bool) (t : ToneReport) : State :=
  let s := s.toneRecord ring num (b2n b) t.cls t.code t.isEnd t.pos t.level
  if t.isEnd then s else (s.inc (toneCount t.cls).1 (toneCount t.cls).2).eventIf (t.cls = 3) Pg.TONE Ev.TONE.TALDY_NO_SESSION

/-- Any millisecond of a beat's 40 samples at 8 kHz that a receiver suspends. -/
def hushes (busy : List Bool) : List Bool := (List.range 5).map fun i => ((busy.drop (8 * i)).take 8).any id

/-- A leg's detection: reports and the muted steps. -/
def detectLeg (s : State) (c : Chan) (w : Work) (b vbd : Bool) (busy : List Bool) (r : LegResult) :
    State × DetRun × List ToneReport × List Bool :=
  if !w.cfg.det b then (s, DetRun.fresh, [], [])
  else
    let skipped := (w.n - c.commit.getD c.openBeat).toNat - 1
    let (d, reps, mute) := (c.leg b).det.job (detCtx w b vbd) w.n skipped (hushes busy) r.steps
    (reps.foldl (fun s t => s.postTone c.num w.cfg.ring b t) s, d, reps, mute)

/-! ## Digits toward a relay leg (R206, R211) -/

/-- A report of the other leg's DTMF class begins or ends a digit. -/
def relayReport (codec : Nat) (x : CodecRun) (l : List RelayTx) (t : ToneReport) : List RelayTx :=
  if t.cls != 0 then l
  else if t.isEnd then l.map fun d => if d.stop.isNone then { d with stop := some t.pos } else d
  else l ++ [{ code := t.code, volume := min 63 t.level, ts := x.posTs codec t.pos, pos := t.pos, stop := none, sent := 0, copies := 0,
               lastDur := 0 }]

/-- Digits in progress whose detector no longer follows one end where the beat begins. -/
def relayLost (n : BeatNo) (going : Bool) (l : List RelayTx) : List RelayTx :=
  if going then l else l.map fun d => if d.stop.isNone then { d with stop := some (5 * n.toNat) } else d

/-- A host tone that is replaced takes its digits with it: those not begun are gone, one in progress ends. -/
def relayCut (n : BeatNo) (l : List RelayTx) : List RelayTx :=
  (l.filter fun d => d.stop.isNone || d.pos < 5 * n.toNat).map fun d =>
    { d with stop := d.stop.map fun p => min p (5 * n.toNat) }

/-- An accepted digit is being detected. -/
def digitOn (d : DetRun) : Bool :=
  match d.dtmf.cand with
  | some x => x.accepted
  | none => false

/-- The end of a host tone request: OK or ABORTED (R211, R398).
DEDUCED (log entry 26). -/
def genEnd (s : State) (c : Chan) (w : Work) (b : Bool) (st : Status) : State :=
  (s.chanEvent w.cfg.ring c.num 3 (b2n b) (Word.of st.code) w.n).inc Reg.TONE_GEN_CNT Fd.TONE_GEN_CNT.COUNT

/-- Host generation toward a leg in this beat, with the digits it sends as events (R208, R211).
DEDUCED (log entry 26). -/
def genLeg (s : State) (c : Chan) (w : Work) (b : Bool) (q : Option GenReq) (l : LegRun) : State × LegRun :=
  let leg := w.cfg.leg b
  let (g, replaced) := l.gen.start q
  let s := if replaced then s.genEnd c w b .aborted else s
  let tx := if replaced then relayCut w.n l.relayTx else l.relayTx
  let tx := match q, w.cfg.relay b with
    | some (.dtmf ds), true =>
      tx ++ genEvents (leg.codec?.getD 0) (BeatRegs.field w.m Reg.TONE_DTMF_GEN Fd.TONE_DTMF_GEN.HIGH_LEVEL) w.genOn w.genOff l.codec ds
        (5 * w.n.toNat)
    | _, _ => tx
  let (g, spent) := g.beat w.descs w.genOn w.genOff
  (if spent then s.genEnd c w b .ok else s, { l with gen := g, relayTx := tx })

/-- A source leg plays for one beat (R209, R210).
DEDUCED (log entry 26). -/
def sourceLeg (w : Work) (b : Bool) (l : LegRun) : LegRun :=
  match w.cfg.leg b with
  | .source false d => { l with src := l.src.descBeat (w.descWords d) (descOf (w.descWords d)) }
  | .source true _ => { l with src := l.src.clipBeat (w.cfg.khz b) }
  | _ => l

/-! ## Output (R62, R158, R206, R214, R380, R420) -/

/-- The channel's audio toward a leg: linear zero where a digit (by millisecond) or the receiver of a session (by sample at
8 kHz) mutes it. -/
def outAudio (khz : Nat) (out : List Int) (mute busy : List Bool) : List Int :=
  (fitAudio (5 * khz) out).zipIdx.map fun x =>
    if mute.getD (x.2 / khz) false || busy.getD (x.2 * 8 / khz) false then 0 else x.1

/-- The bytes of a linear sample in a PCM leg's timeslots. -/
def pcmBytes (format : Nat) (v : Int) : List Byte :=
  if format = 0 then [aCompress v] else if format = 1 then [muCompress v] else beBytes 2 (toField 16 v)

/-- The companded samples that come in on a leg (R158).
DEDUCED (log entry 29). -/
def rawBytes (s : State) (w : Work) (b : Bool) (r : LegResult) : List Byte :=
  let zero : Byte := if (w.cfg.leg b).aLaw then aCompress 0 else muCompress 0
  match w.cfg.leg b with
  | .pcm _ h t => match s.legFrames h w.n with
    | some fs => fs.map fun f => f.getD t zero
    | none => List.replicate 40 zero
  | _ => fit 40 zero r.raw

/-- A companded sample passes from one law to another.
DEDUCED (log entry 29). -/
def passLaw (from_ to_ : Bool) (x : Byte) : Byte :=
  if from_ = to_ then x else if from_ then muCompress (aExpand x) else aCompress (muExpand x)

/-- The output direction of a leg: conversion, and the samples of a PCM leg for the playout of R64. -/
def outputLeg (s : State) (c : Chan) (w : Work) (b vbd : Bool) (audio : List Int) (other : LegResult) (l : LegRun) : State × LegRun :=
  let leg := w.cfg.leg b
  if !leg.hasRate then (s, l)
  else
    let (y, xs) := l.rate.output audio
    let s := s.satNote l.rate.satOut y.satOut
    let s := match leg with
      | .pcm format h t =>
        let bs := if vbd then ((s.rawBytes w (!b) other).map fun x => [passLaw (w.cfg.leg !b).aLaw leg.aLaw x]) else xs.map (pcmBytes format)
        { s with nw := { s.nw with pcmOut :=
          { beat := w.n, leg := 2 * c.num + b2n b, hwy := h, slot := t, samples := bs } :: s.nw.pcmOut } }
      | _ => s
    (s, { l with rate := y })

/-! ## Packets sent (R149 to R151, R155, R160 to R162, R206) -/

/-- Digits whose first packet has been sent.
DEDUCED (log entry 26). -/
def digitsStarted (before after : List RelayTx) : Nat :=
  let fresh := before.filter fun d => d.sent = 0 && d.copies = 0
  let still := after.filter fun d => d.sent = 0 && d.copies = 0
  fresh.length - still.length

/-- The RTP packets of a leg at this beat: events, then audio. -/
def rtpLeg (s : State) (c : Chan) (w : Work) (b vbd : Bool) (r : LegResult) (l : LegRun) : State × LegRun × List (List Byte) :=
  let leg := w.cfg.leg b
  let codec := leg.codec?.getD 0
  let evs := if w.cfg.relay b then l.relayTx else []
  let (evs', x, ps, live) := if isPhase c.phase w.n then relaySend evs l.codec codec (w.eventPt codec) leg.ssrc w.n else (evs, l.codec, [], false)
  let s := s.inc Reg.TONE_RELAY_TX_CNT Fd.TONE_RELAY_TX_CNT.COUNT (digitsStarted evs evs')
  if live then (s, { l with relayTx := evs', codec := x.held codec leg.ptime leg.opt c.phase w.n r.tx vbd }, ps)
  else
    let (y, p) := x.send codec leg.ptime leg.pt leg.opt c.phase leg.ssrc w.n r.tx vbd
    (s, { l with relayTx := evs', codec := y }, ps ++ p.toList)

/-- Algorithmic look-ahead of a frame codec, in ms.
PRESUMED (log entry 28). -/
def lookAhead (codec : Nat) : Nat :=
  if codec = 7 || codec = 8 then 12 else if isFrameCodec codec then 5 else 0

/-- Milliseconds of audio that a buffer holds ahead of its playout point.
PRESUMED (log entry 28). -/
def depthMs (j : Jbuf) (khz : Nat) : Nat :=
  (j.entries.map fun e => (tsDiff e.ts j.p + e.units).toNat / khz).foldl max 0

/-- The report block of R162 for a leg.
PRESUMED (log entry 28). -/
def xrOf (c : Chan) (w : Work) (b : Bool) (x : JCtx) (l : LegRun) (r : LegResult) : List Byte :=
  let leg := w.cfg.leg b
  let codec := leg.codec?.getD 0
  let rerl := if w.cfg.ec.side? = some b then (clampInt 0 127 (c.ec.erl / 1000000)).toNat else 127
  let frame := if isFrameCodec codec then 20 else 0
  xrBlock l.codec l.jb r.xr (depthMs l.jb (codecKhz codec) + frame + lookAhead codec + 10) rerl (x.target l.jb / msTicks 1) (5 * leg.jbMax)
    leg.ssrc

/-- The serial number as DEV_SERIAL holds it. -/
def serialNo (_s : State) : Nat := Config.serial % 2 ^ 64

/-- CODEC_CNAME's bytes in the beat. -/
def cnameBytes (w : Work) : List Byte := ((List.range 8).map fun k => wordBytes (Assoc.get resetWord w.m (Reg.CODEC_CNAME k))).flatten

/-- A fresh report interval in beats.
DESIGN CHOICE (log entry 12).
DEDUCED (log entry 47). -/
def drawInterval (s : State) (w : Work) : Nat × State :=
  let (d, s) := s.freeWord
  (rtcpInterval (BeatRegs.field w.m Reg.CODEC_RTCP Fd.CODEC_RTCP.INTERVAL) d, s)

/-- The RTCP of a leg at this beat: a report that is due, or the final one with its BYE. `busy` says that the leg has sent or
received a packet in this job.
DEDUCED (log entry 47). -/
def rtcpLeg (s : State) (c : Chan) (w : Work) (b last busy : Bool) (r : LegResult) (l : LegRun) : State × LegRun × List (List Byte) :=
  let leg := w.cfg.leg b
  if !rtcpOn leg then (s, l, [])
  else
    let (s, l) := match l.codec.rtcpDue with
      | none => if busy then
          let (k, s) := s.drawInterval w
          (s, { l with codec := { l.codec with rtcpDue := some (w.n + BitVec.ofNat 32 k) } })
        else (s, l)
      | some _ => (s, l)
    let due := match l.codec.rtcpDue with
      | some d => beatAtOrAfter w.n d
      | none => false
    if !(due || last) then (s, l, [])
    else
      let codec := leg.codec?.getD 0
      let x := s.jctx w.m w.bringup c w.cfg b w.n
      let now := l.codec.posTs codec (5 * (w.n.toNat + 1)) + BitVec.ofNat 32 ((s.clk.now - w.at0) * codecKhz codec / 230400000)
      let xr := if rtcpXr leg then some (xrOf c w b x l r) else none
      let (y, j, bs) := report l.codec l.jb leg.ssrc (cname (cnameBytes w) s.serialNo) xr last s.netStamp now s.clk.now
      let (k, s) := s.drawInterval w
      (s.inc Reg.CODEC_RTCP_TX_CNT Fd.CODEC_RTCP_TX_CNT.COUNT,
       { l with codec := { y with rtcpDue := some (w.n + BitVec.ofNat 32 k) }, jb := j }, [bs])

/-- Packets pass the SRTP engine of a leg in order: each as (RTCP, bytes); `enc` are the packets as the engine protects them.
Those the engine drops do not go on (R164 to R166).
DEDUCED (log entry 47). -/
def protect (c : Chan) (w : Work) (ctx : Option Nat) :
    List (Bool × List Byte) → List (List Byte) → State → List (Bool × List Byte) → State × List (Bool × List Byte) × List (List Byte)
  | [], enc, s, out => (s, out.reverse, enc)
  | (rtcp, bs) :: ps, enc, s, out =>
    match ctx with
    | none => protect c w ctx ps enc s ((rtcp, bs) :: out)
    | some k =>
      match s.srtpSend c k rtcp (beAt bs 2 2) w.n with
      | (s, true) => protect c w ctx ps enc.tail s ((rtcp, enc.headD bs) :: out)
      | (s, false) => protect c w ctx ps enc s out

/-- Everything a leg sends in this job enters its flow queue as one train (R65, R306). -/
def sendLeg (s : State) (c : Chan) (w : Work) (b vbd last took : Bool) (r : LegResult) (udptl : Option (List Byte)) (enc : List (List Byte))
    (l : LegRun) : State × LegRun × List (List Byte) :=
  let leg := w.cfg.leg b
  if leg.kind != 0 then (s, l, enc)
  else
    let (s, l, rtp) := if leg.isFax then (s, l, udptl.toList) else s.rtpLeg c w b vbd r l
    let (s, l, rtcp) := if leg.isFax then (s, l, []) else s.rtcpLeg c w b last (took || !rtp.isEmpty) r l
    let ps := rtp.map (fun p => (false, p)) ++ rtcp.map (fun p => (true, p))
    let (s, out, enc) := protect c w (if leg.isFax then none else leg.srtpCtx?) ps enc s []
    let train := out.map fun p => (p.1 && !rtcpMux leg, p.2)
    (s.enqueueTrain (2 * c.num + b2n b) leg.epd train, { l with pktOut := l.pktOut + BitVec.ofNat 32 out.length }, enc)

end State

end Sys2Proof.Machine
end

