-- ==== Sys2Proof/Machine/Commit.lean ====
section
/-! DEFINITION. The commit unit: the checks of R75, what an accepted BEAT job makes visible, and paired mismatches
(R73 to R77, R92, R94, R241 to R243, R488). -/

namespace Sys2Proof.Machine

/-- The actions that one job performs: what its channel's controls come to. `dead` is the beat of a MODIFY that ended the
session's activity. -/
structure CtlSum where
  ec : EcCtl
  rateA : RateCtl
  rateB : RateCtl
  genA : Option GenReq
  genB : Option GenReq
  send : Option TxReq
  dead : Option BeatNo
  deriving DecidableEq, Repr

/-- No action. -/
def CtlSum.none : CtlSum :=
  { ec := EcCtl.none, rateA := RateCtl.none, rateB := RateCtl.none, genA := .none, genB := .none, send := .none, dead := .none }

namespace State

/-- Put back a channel's state as a job leaves it. -/
def setLife (s : State) (c : Chan) : State := s.modLife c.uid fun _ => c

/-! ## Controls (R92, R94, R114, R137, R225, R407) -/

/-- A transmit request that will not be sent. -/
def dropSend (s : State) (c : Chan) (w : Work) (q : Option TxReq) : State :=
  match q with
  | some q => s.postTxDone { c with cfg := w.cfg } w.n q false
  | none => s

/-- A MODIFY ends what the session was doing (R407).
DEDUCED (log entry 21). -/
def endSession (s : State) (c : Chan) (w : Work) (fresh : Bool) : State × Chan :=
  let t := c.taldy
  let s := s.dropSend c w (t.tx.map fun x => x.req)
  let t := if fresh then { TaldyRun.fresh with nextTok := t.nextTok } else { t with frame := none, tx := none, tail := 0, res := [] }
  (s, { c with taldy := t, fax := if fresh then FaxRun.fresh else c.fax })

/-- One action. -/
def applyCtl (w : Work) (x : State × Chan × CtlSum) (k : BeatNo × ChanCtl) : State × Chan × CtlSum :=
  let (s, c, u) := x
  match k.2 with
  | .ec e => (s, c, { u with ec := u.ec.merge e })
  | .ecRestart => (s, { c with ec := EcRun.fresh }, { u with ec := EcCtl.none })
  | .rate b r => (s, c, if b then { u with rateB := u.rateB.merge r } else { u with rateA := u.rateA.merge r })
  | .gen b q => (s, c, if b then { u with genB := some q } else { u with genA := some q })
  | .restart b src =>
    (s, c.modLeg b fun l => l.restart (w.cfg.leg b) (w.cfg.khz b) w.cfg.intKhz src (s.tickOf k.1),
     if b then { u with rateB := RateCtl.none } else { u with rateA := RateCtl.none })
  | .opt b => (s, c.modLeg b fun l => { l with codec := { l.codec with cmr := none } }, u)
  | .retarget =>
    let f (b : Bool) (l : LegRun) : LegRun := { l with rate := l.rate.retarget (w.cfg.khz b) w.cfg.intKhz }
    (s, (c.modLeg false (f false)).modLeg true (f true), u)
  | .map i m => (s, { c with taldy := { c.taldy with maps := c.taldy.maps.set i m } }, u)
  | .send q =>
    let late : Bool := match u.dead with
      | some d => beatAtOrAfter d k.1
      | none => false
    if late then (s.dropSend c w (some q), c, u) else (s, c, { u with send := some q })
  | .sessEnd fresh =>
    let s := s.dropSend c w u.send
    let (s, c) := s.endSession c w fresh
    (s, c, { u with send := none, dead := some k.1 })

/-! ## Sessions (R419 to R431) -/

/-- Soft bits of a frame leave as one MODEM job, marked with the frame (R424). -/
def modemJob (s : State) (c : Chan) (tok : Nat) : State :=
  s.makeReady { s.plainJob .modem c.num c.uid with version := BitVec.ofNat 32 tok }

/-- The attenuation that MDM_MASK gives the 24 subcarriers (R417, R432). -/
def maskOfBeat (m : Assoc Word) : List Nat :=
  (List.range 6).flatMap fun j =>
    [Fd.MDM_MASK.GAIN0, Fd.MDM_MASK.GAIN1, Fd.MDM_MASK.GAIN2, Fd.MDM_MASK.GAIN3].map fun f => BeatRegs.field m (Reg.MDM_MASK j) f

/-- The Taldy link session's part of a job; the answer's flags say where the receiver suspends detection. -/
def taldyJob (s : State) (c : Chan) (w : Work) (x : TaldyIn) (q : Option TxReq) : State × Chan × List Bool :=
  if w.cfg.sess != .taldy then (s, c, [])
  else
    let cw := { c with cfg := w.cfg }
    let notch := BeatRegs.flag w.m Reg.MDM_CFG Fd.MDM_CFG.NOTCH_EN
    let (t, o) := c.taldy.receive w.n (BeatRegs.field w.m Reg.MDM_CFG Fd.MDM_CFG.CAPTURE_DB) notch x
    let s := o.ends.foldl (fun s e => s.postFrame cw w.n e) s
    let s := s.inc Reg.MDM_HDR_FAIL_CNT Fd.MDM_HDR_FAIL_CNT.COUNT o.hdrFails
    let s := s.inc Reg.MDM_RESTART_CNT Fd.MDM_RESTART_CNT.COUNT o.restarts
    let s := match o.soft with
      | some tok => s.modemJob c tok
      | none => s
    let (t, done) := t.transmit notch (maskOfBeat w.m) q
    let s := match done with
      | some (q, ok) => s.postTxDone cw w.n q ok
      | none => s
    (s, { c with taldy := t }, o.busy)

/-- The UDPTL packets that a job takes (R430). -/
def udptlTaken (w : Work) (l : LegRun) : List InPkt := l.inbox.filter fun p => p.stamp < w.cut && p.kind = .udptl

/-- The fax session's part of a job: the packet it sends, if any. -/
def faxJob (s : State) (c : Chan) (w : Work) (taken : List InPkt) (x : FaxIn) : State × Chan × Option (List Byte) :=
  if w.cfg.sess != .fax then (s, c, none)
  else
    let side := b2n w.cfg.sessSideB
    let f := taken.foldl (fun f p => f.take p.payload) c.fax
    let (f, miss) := f.use x.used
    let s := (s.inc Reg.MDM_FAX_IFP_LOST_CNT Fd.MDM_FAX_IFP_LOST_CNT.COUNT miss).eventIf (0 < miss) Pg.MDM Ev.MDM.FAX_LOSS
    let s := if x.underrun then s.inc Reg.MDM_FAX_UNDERRUN_CNT Fd.MDM_FAX_UNDERRUN_CNT.COUNT else s
    let s := x.mods.foldl (fun s m => s.chanEvent w.cfg.ring c.num 0x11 side (Word.of (m.1 % 16 + 256 * b2n m.2)) w.n) s
    let f := { f with mod := (x.mods.getLast?.map fun m => m.1).getD f.mod }
    let (s, f) := x.states.foldl (fun (p : State × FaxRun) st =>
      if st = p.2.state then p else (p.1.chanEvent w.cfg.ring c.num 0x12 side (Word.of (st % 16)) w.n, { p.2 with state := st })) (s, f)
    let s := if BeatRegs.flag w.m Reg.MDM_FAX_CFG Fd.MDM_FAX_CFG.FAX_MON then
        x.frames.foldl (fun s h => s.postFax { c with cfg := w.cfg } w.n h.1 h.2.1 h.2.2) s
      else s
    match x.ifp with
    | some p =>
      let (f, bs) := f.send (BeatRegs.field w.m Reg.MDM_FAX_CFG Fd.MDM_FAX_CFG.REDUND)
        (BeatRegs.field w.m Reg.MDM_FAX_CFG Fd.MDM_FAX_CFG.MAX_DGRAM) p
      (s, { c with fax := f }, some bs)
    | none => (s, { c with fax := f }, none)

/-! ## Canceller and bypass (R124 to R142, R158) -/

/-- An onset of the fax class with a code among some. -/
def faxOnset (codes : List Nat) (l : List ToneReport) : Bool := l.any fun t => t.cls = 2 && !t.isEnd && codes.contains t.code

/-- The canceller's part of a job. -/
def ecJob (s : State) (c : Chan) (w : Work) (x : EcCtl) (r : EcBeat) (reps : List ToneReport) : State × Chan :=
  match w.cfg.ec.side? with
  | none => (s, c)
  | some b =>
    let k := ectx w.m w.bringup w.cfg (x.profile.getD c.ec.profile)
    let (e, o) := c.ec.job k x r (faxOnset [1] reps) (faxOnset [2, 3, 4] reps) s.freeCtr
    let s := { s with freeCtr := s.freeCtr + o.draws }
    let s := (s.inc Reg.ECAN_DIVERGE_CNT Fd.ECAN_DIVERGE_CNT.COUNT o.diverges).eventIf (0 < o.diverges) Pg.ECAN Ev.ECAN.DIVERGE
    let s := (s.inc Reg.ECAN_DISABLE_CNT Fd.ECAN_DISABLE_CNT.COUNT o.disables).eventIf (0 < o.disables) Pg.ECAN Ev.ECAN.DISABLER
    let s := (s.inc Reg.ECAN_MOVE_CNT Fd.ECAN_MOVE_CNT.COUNT (b2n o.moved)).eventIf o.moved Pg.ECAN Ev.ECAN.WIN_MOVE
    (o.convs.foldl (fun s v => s.chanEvent w.cfg.ring c.num 1 (b2n b) (Word.of v) w.n) s, { c with ec := e })

/-- Milliseconds in a row for which both inputs have stayed below −36 dBm0. -/
def quietRun (a b : List ToneStep) (n : Nat) : Nat :=
  (List.range 5).foldl (fun n i => if (a.getD i absentStep).below36 && (b.getD i absentStep).below36 then n + 1 else 0) n

/-- The companded bypass after a job's detection: entry and end (R158). -/
def vbdJob (s : State) (c : Chan) (w : Work) (reps : List ToneReport) (a b : List ToneStep) : State × Chan :=
  if !w.cfg.bothG711 then (s, { c with vbd := false, vbdQuiet := 0 })
  else if c.vbd then
    let n := quietRun a b c.vbdQuiet
    if 250 ≤ n && !w.vbdForced then (s, { c with vbd := false, vbdQuiet := 0 }) else (s, { c with vbdQuiet := min n 250 })
  else if w.vbdForced || faxOnset [1, 2, 3, 4, 5] reps then
    ((s.inc Reg.CODEC_VBD_CNT Fd.CODEC_VBD_CNT.COUNT).event Pg.CODEC Ev.CODEC.VBD, { c with vbd := true, vbdQuiet := quietRun a b 0 })
  else (s, c)

/-! ## An accepted job (R73, R92) -/

/-- What a beat's job works under. -/
def workFor (s : State) (j : Job) : Work :=
  let m := s.beatRegs j.beat
  let at0 := s.tickOf j.beat
  { n := j.beat, cfg := j.cfg, m := m, bringup := s.beatBringup j.beat, at0 := at0,
    cut := at0 - BeatRegs.field m Reg.BEAT_CUT Fd.BEAT_CUT.CUT_CYC * cycTicks }

/-- A PENDING transaction closes the channel at the next boundary of the job's beat. -/
def closesNext (s : State) (num : Nat) (n : BeatNo) : Bool :=
  s.txns.any fun x => x.state = .pending && x.target = n + 1 && x.entries.any fun e => match e with
    | .cmd .close b => cmdChan b = num
    | _ => false

/-- The job is its channel's last (R115, R160).
DESIGN CHOICE (log entry 23). -/
def isLastJob (s : State) (c : Chan) (n : BeatNo) : Bool :=
  match c.lastJob with
  | some b => b = n
  | none => s.closesNext c.num n

/-- Digits detected on a leg go to the other one. -/
def relayDigits (w : Work) (b : Bool) (reps : List ToneReport) (d : DetRun) (l : LegRun) : LegRun :=
  if w.cfg.relay b then
    let codec := (w.cfg.leg b).codec?.getD 0
    { l with relayTx := relayLost w.n (digitOn d) (reps.foldl (relayReport codec l.codec) l.relayTx) }
  else { l with relayTx := [] }

/-- The mutes of the audio toward a leg (R206). -/
def digitMute (w : Work) (b : Bool) (mute : List Bool) : List Bool :=
  if w.cfg.relay b && BeatRegs.flag w.m Reg.TONE_RELAY Fd.TONE_RELAY.MUTE_EN then mute else []

/-- The mutes of a receiver on the other leg (R420). -/
def sessMute (w : Work) (b : Bool) (busy : List Bool) : List Bool :=
  if w.cfg.sessOn .taldy (!b) && BeatRegs.flag w.m Reg.MDM_CFG Fd.MDM_CFG.RX_MUTE then busy else []

/-- First half of a job: controls, packets, input, sessions and detection. The answer adds the actions left, whether the legs
took packets, the fax packet, the reports of both legs, and the audio toward leg A and leg B. -/
structure Heard where
  ctl : CtlSum
  tookA : Bool
  tookB : Bool
  udptl : Option (List Byte)
  reps : List ToneReport
  outA : List Int
  outB : List Int
  deriving DecidableEq, Repr

/-- Controls, packets, input, sessions and detection. -/
def hearJob (s : State) (c : Chan) (w : Work) (r : JobResult) : State × Chan × Heard :=
  let (now, later) := c.ctls.partition fun k => beatAtOrAfter w.n k.1
  let (s, c, u) := now.foldl (applyCtl w) (s, { c with ctls := later }, CtlSum.none)
  let udptl := udptlTaken w (c.leg w.cfg.sessSideB)
  let (s, la) := s.receiveLeg c w false r.legA
  let (s, lb) := s.receiveLeg c w true r.legB
  let tookA := la.inbox.length != c.legA.inbox.length
  let tookB := lb.inbox.length != c.legB.inbox.length
  let (s, la) := s.inputLeg w false r.legA u.rateA la
  let (s, lb) := s.inputLeg w true r.legB u.rateB lb
  let c := { c with legA := la, legB := lb }
  let (s, c, busy) := s.taldyJob c w r.taldy u.send
  let (s, c, fax) := s.faxJob c w udptl r.fax
  let vbd := c.vbd || w.vbdForced
  let busyA := if w.cfg.sessOn .taldy false then busy else []
  let busyB := if w.cfg.sessOn .taldy true then busy else []
  let (s, da, ra, ma) := s.detectLeg c w false vbd busyA r.legA
  let (s, db, rb, mb) := s.detectLeg c w true vbd busyB r.legB
  let la := relayDigits w false rb db { c.legA with det := da }
  let lb := relayDigits w true ra da { c.legB with det := db }
  (s, { c with legA := la, legB := lb },
   { ctl := u, tookA := tookA, tookB := tookB, udptl := fax, reps := ra ++ rb,
     outA := outAudio w.cfg.intKhz r.legA.out (digitMute w false mb) (sessMute w false busy),
     outB := outAudio w.cfg.intKhz r.legB.out (digitMute w true ma) (sessMute w true busy) })

/-- Canceller, bypass, tones, recording, output and packets. -/
def speakJob (s : State) (c : Chan) (w : Work) (r : JobResult) (h : Heard) : State × Chan :=
  let (s, c) := s.ecJob c w h.ctl.ec r.ec h.reps
  let (s, c) := s.vbdJob c w h.reps r.legA.steps r.legB.steps
  let (s, la) := s.genLeg c w false h.ctl.genA c.legA
  let (s, lb) := s.genLeg c w true h.ctl.genB c.legB
  let (s, la) := s.outputLeg c w false c.vbd h.outA r.legB (sourceLeg w false la)
  let (s, lb) := s.outputLeg c w true c.vbd h.outB r.legA (sourceLeg w true lb)
  let s := match (if w.cfg.record then s.streamOf c w.n else none) with
    | some k => (s.recordSamples k w.cfg.intKhz w.n (h.outB.zip h.outA) false w.cfg.emergency).streamAt k w.n
    | none => s
  let last := s.isLastJob c w.n
  let fax (b : Bool) : Option (List Byte) := if w.cfg.sessSideB = b then h.udptl else none
  let (s, la, enc) := s.sendLeg c w false c.vbd last h.tookA r.legA (fax false) r.srtp la
  let (s, lb, _) := s.sendLeg c w true c.vbd last h.tookB r.legB (fax true) enc lb
  (s, { c with legA := la, legB := lb })

/-- An accepted job's effect on its channel and on everything its channel gives.
DESIGN CHOICE (log entry 27). -/
def acceptWork (s : State) (j : Job) (c : Chan) (r : JobResult) : State :=
  let w := s.workFor j
  let (s, c, h) := s.hearJob c w r
  let (s, c) := s.speakJob c w r h
  let c := { c with version := c.version + 1, lastBeat := w.n, commit := some w.n, leftover := false, compact := c.compact && w.bringup }
  ((s.setLife c).lastJobDone c.uid w.n).noteMem 0

/-! ## The commit unit (R75 to R77, R241 to R243, R488) -/

/-- The cluster in which a job ran. -/
def jobCluster (j : Job) : Nat :=
  match j.server with
  | some (.core k _) => k
  | _ => j.home

/-- Write-back entries of a cluster (R242). -/
def wbEntries : Nat := 32

/-- No write-back entry is free: the job waits. -/
def wbFull (s : State) (k : Nat) : Bool :=
  match s.cluster k with
  | some c => wbEntries ≤ c.wb.length
  | none => false

/-- A job waits for a write-back entry; it counts once.
DEDUCED (log entry 46). -/
def stallJob (s : State) (j : Job) (k : Nat) : State :=
  if j.stalled then s
  else ((s.inc (Reg.CLU_WB_STALL_CNT k) Fd.CLU_WB_STALL_CNT.COUNT).event (Pg.CLU k) Ev.CLU.WB_STALL).modJob j.id fun j => { j with stalled := true }

/-- The mismatch of a channel's beat that is under attribution. -/
def mismatchOf (s : State) (j : Job) : Option Mismatch := s.spares.mismatches.find? fun m => m.uid = j.uid && m.beat = j.beat

/-- The mismatches without one channel's. -/
def clearMismatch (s : State) (j : Job) : State :=
  { s with spares := { s.spares with mismatches := s.spares.mismatches.filter fun m => m.uid ≠ j.uid } }

/-- The core a job ran on. -/
def ranOn (j : Job) : Nat × Nat := (coreOf j).headD (j.home, 0)

/-- A paired comparison fails: both digests are kept and both jobs run again on other cores (R488).
DEDUCED (log entry 46). -/
def mismatch (s : State) (j x : Job) : State :=
  let m : Mismatch := { uid := j.uid, beat := j.beat, dHome := j.digest.getD 0, dPartner := x.digest.getD 0, coreHome := ranOn j, corePartner := ranOn x }
  let s := s.clearMismatch j
  let s := { s with spares := { s.spares with mismatches := s.spares.mismatches ++ [m] } }
  let s := (s.inc Reg.CHAN_MISMATCH_CNT Fd.CHAN_MISMATCH_CNT.COUNT).event Pg.CHAN Ev.CHAN.MISMATCH
  let s := s.modLife j.uid fun c => { c with mismatches := sat32 (c.mismatches + 1) }
  let cores := coreOf j ++ coreOf x
  let s := (s.abortOnly j 1 true).redispatch j cores
  (s.abortOnly x 1 true).redispatch x cores

/-- The pair agrees after a mismatch of the same beat: the core that erred is charged (R488). -/
def chargeMismatch (s : State) (m : Mismatch) (d : Nat) : State :=
  if d = m.dHome then s.chargeCore m.corePartner.1 m.corePartner.2 4
  else if d = m.dPartner then s.chargeCore m.coreHome.1 m.coreHome.2 4
  else (s.inc Reg.REL_UNRESOLVED_CNT Fd.REL_UNRESOLVED_CNT.COUNT).event Pg.REL Ev.REL.MISMATCH_UNRESOLVED

/-- The commit unit accepts a job: its results become visible, its state takes a write-back entry. -/
def acceptJob (s : State) (j : Job) (c : Chan) (r : JobResult) : State :=
  let k := jobCluster j
  let m := s.mismatchOf j
  let x := s.otherSide j
  let s := s.completeJob j
  let s := match x with
    | some x => s.completeJob x
    | none => s
  let s := s.modCluster k fun y => { y with jobsNow := y.jobsNow + 1, wb := y.wb ++ [{ uid := j.uid, chan := j.chan }] }
  let s := if r.sat then s.inc (Reg.CLU_SAT_JOBS_CNT k) Fd.CLU_SAT_JOBS_CNT.COUNT else s
  let s := (s.noteCommit j.beat).clearMismatch j
  let s := s.acceptWork j c r
  let s := r.corrected.foldl sramCorrected s
  match m with
  | some m => if m.beat = j.beat then s.chargeMismatch m (j.digest.getD 0) else s
  | none => s

/-- Conditions 1 to 3 of R75. -/
def inTurn (s : State) (j : Job) (c : Chan) : Bool :=
  s.clk.beforeDeadline j.beat && j.beat = c.lastBeat + 1 && j.version = c.version

/-- The home job of a channel that the commit unit holds, with the digest it waits for (R243). -/
def committingJob (s : State) (chan : Nat) : Option Job :=
  s.disp.jobs.find? fun j => j.kind = .beat && !j.partner && j.chan = chan && j.state = .committing && (!j.paired || j.peer.isSome)

/-- JOB_COMMIT: the commit unit judges a channel's job (R75).
DEDUCED (log entry 46). -/
def commitJob (s : State) (chan : Nat) (r : JobResult) : State :=
  match s.committingJob chan with
  | none => s
  | some j =>
    let k := jobCluster j
    if s.wbFull k then s.stallJob j k
    else match s.life j.uid with
      | none => s.abortJob j 1 false
      | some c =>
        let x := s.otherSide j
        let flagged : Bool := j.flagged || match x with
          | some x => x.flagged
          | none => false
        if !s.inTurn j c then s.abortJob j 1 false
        else if flagged then s.poisonJob j
        else match x with
          | some x => if j.paired && j.peer != j.digest then s.mismatch j x else s.acceptJob j c r
          | none => s.acceptJob j c r

end State

/-- JOB_COMMIT (R75). -/
def execJobCommit (t chan : Nat) (result : JobResult) (s : State) : Host.Outcome State Fault Refusal :=
  s.act t fun s => s.commitJob chan result

end Sys2Proof.Machine
end

