-- ==== Sys2Proof/Machine/ModeOps.lean ====
section
/-! DEFINITION. What the modes share with other blocks: the triggers of CONSTRAIN and the quiet time after them, and the
conditions of MODE_HOLD (R538, R544, R547). -/

namespace Sys2Proof.Machine

namespace State

/-! ## Triggers of CONSTRAIN (R547) -/

/-- Any thermal site has CRIT set. -/
def thermalTrigger (s : State) : Bool := (List.range 12).any fun i => s.flag (Reg.SENSOR_TEMP i) Fd.SENSOR_TEMP.CRIT

/-- A trigger holds. -/
def anyTrigger (s : State) : Bool := s.thermalTrigger || s.modes.power || s.modes.forced

/-- MODE_STATE.CCAUSE. -/
def ccause (s : State) : Nat := b2n s.thermalTrigger + 2 * b2n s.modes.power + 4 * b2n s.modes.forced

/-- While a trigger holds, the quiet time has not begun: it counts from the last instant at which this is noted. -/
def noteQuiet (s : State) : State :=
  if s.anyTrigger then { s with modes := { s.modes with quietSince := s.clk.now, quietDone := false } } else s

/-- No trigger has held for EXIT_S seconds without a break. -/
def quietOver (s : State) : Bool :=
  !s.anyTrigger
    && (s.modes.quietDone
      || s.modes.quietSince + secTicks (s.get Reg.MODE_CONSTRAIN Fd.MODE_CONSTRAIN.EXIT_S) ≤ s.clk.now)

/-! ## What start-up waits for (R538, R544, R555) -/

/-- Every cluster that is not LOST serves. -/
def clustersServe (s : State) : Bool := s.clusters.all fun c => c.cstate = .serving || c.cstate = .lost

/-- The directory copy of R544 is complete.
DEDUCED (log entry 64). -/
def copyDone (s : State) : Bool := s.modes.dirCopied || s.nw.epd.chip.isEmpty

/-- MODE_HOLD. -/
def modeHold (s : State) : Nat :=
  b2n (!s.memReady) + 2 * b2n s.modes.memFailed + 4 * b2n (!s.clustersServe)
    + 8 * b2n (!s.modes.ended && !s.copyDone) + 16 * b2n (!s.mgmt.restoredConfig)

/-- BRINGUP can begin: Kwakel runs, every cluster that flash does not record as LOST serves, and the standing configuration
is in place. -/
def bringupReady (s : State) : Bool :=
  s.mgmt.kstate = .running && s.mgmt.restoredConfig
    && (List.range 16).all fun k => s.mgmt.flash.lostClusters.contains k || match s.clusters[k]? with
      | some c => c.cstate = .serving
      | none => false

end State

end Sys2Proof.Machine
end

