-- ==== Sys2Proof/Machine/Rotation.lean ====
section
/-! DEFINITION. Live library rotation: its capacity test, its steps at boundaries and its end (R510 to R513, R546). -/

namespace Sys2Proof.Machine

namespace State

/-! ## Capacity (R234, R510, R535) -/

/-- Serving cores of a cluster that serves. -/
def servingCores (s : State) (k : Nat) : Nat :=
  match s.cluster k with
  | some c => if c.cstate = .serving then (c.cores.filter fun x => x.role = .serving).length else 0
  | none => 0

/-- All serving cores. -/
def allServing (s : State) : Nat := ((List.range 16).map s.servingCores).foldl (· + ·) 0

/-- CLU_CYC_BEAT of a cluster. -/
def cycBeat (s : State) (k : Nat) : Nat := s.get (Reg.CLU_CYC_BEAT k) Fd.CLU_CYC_BEAT.CYCLES

/-- Serving capacity: CLU_CYC_BEAT over all serving cores. -/
def servingCapacity (s : State) : Nat := ((List.range 16).map fun k => s.servingCores k * s.cycBeat k).foldl (· + ·) 0

/-- 0.8 × (serving capacity − 9 × CLU_CYC_BEAT), rounded down. -/
def maintCeiling (s : State) : Nat := 8 * (s.servingCapacity - 9 * s.cycBeat 0) / 10

/-- The capacity test of R510: CHAN_PEAK_LOAD does not exceed that ceiling. -/
def rotCapacity (s : State) : Bool := 10 * s.peakLoad ≤ 8 * (s.servingCapacity - 9 * s.cycBeat 0)

/-! ## Start -/

/-- Clusters that are not LOST, in ascending order. -/
def notLost (s : State) : List Nat :=
  (List.range 16).filter fun k => match s.cluster k with
    | some c => c.cstate != .lost
    | none => false

/-- A library runs in some cluster. -/
def libraryRuns (s : State) : Bool :=
  s.clusters.any fun c => c.cstate = .serving || c.cstate = .evacuated

/-- A rotation is accepted; its first step begins at the next boundary. -/
def startRotation (s : State) (rest : List Nat) (slot : Nat) (byActivate : Bool) : State :=
  let r : Rotation := { rest := rest, cur := none, loaded := false, slot := slot, stop := false, byActivate := byActivate, wait := false }
  { s with mgmt := { s.mgmt with rot := some r } }.put Reg.MGMT_ROT Fd.MGMT_ROT.DONE 0

/-- Replace the rotation in progress. -/
def setRot (s : State) (r : Option Rotation) : State := { s with mgmt := { s.mgmt with rot := r } }

/-! ## Steps at boundaries (R511, R513) -/

/-- READY MAINT jobs of a task that ends are cancelled (R263). -/
def cancelMaint (s : State) (task : Nat) : State :=
  (s.disp.jobs.filter fun j => j.kind = .maint && j.chan = task && j.state = .ready).foldl (fun s j => s.cancelJob j 1) s

/-- The current step ends: its cluster serves the image it has loaded, or it has been lost meanwhile. -/
def endStep (s : State) (r : Rotation) : State × Rotation :=
  match r.cur with
  | none => (s, r)
  | some k =>
    let spent := { r with cur := none, loaded := false }
    let lost : Bool := match s.cluster k with
      | some c => c.cstate != .evacuated
      | none => true
    if lost then (s.cancelMaint k, spent)
    else if r.loaded then
      (((s.cancelMaint k).setCState k .serving).incWrap Reg.MGMT_ROT Fd.MGMT_ROT.DONE, spent)
    else (s, r)

/-- The rotation ends: ROT_DONE latches, and an activation reports how (R511, R513).
DESIGN CHOICE (log entry 58). -/
def endRotation (s : State) (r : Rotation) (st : Status) : State :=
  let s := { s.setRot none with modes := { s.modes with rotEnded := true } }
  let s := if r.byActivate then s.status Pg.MGMT st else s
  (s.event Pg.MGMT Ev.MGMT.ROT_DONE).kwakelLog .rotation st.code

/-- The status with which a rotation ends after its last step.
DESIGN CHOICE (log entry 58). -/
def rotStatus (s : State) : Status := if s.clusters.any fun c => c.cstate = .lost then .degraded else .ok

/-- The next step begins, or waits for capacity or for the end of CONSTRAIN.
PRESUMED (log entry 20). -/
def nextStep (s : State) (r : Rotation) : State :=
  match r.rest.filter fun k => s.notLost.contains k with
  | [] => s.endRotation r s.rotStatus
  | k :: rest =>
    if !s.rotCapacity || s.modes.constrain then s.setRot (some { r with rest := k :: rest, wait := true })
    else
      let s := (s.setRot (some { r with rest := rest, cur := some k, wait := false })).evacuate k
      (s.put Reg.MGMT_ROT Fd.MGMT_ROT.CUR k).makeReady (s.plainJob .maint k 0)

/-- The rotation at a boundary, while Kwakel runs. -/
def rotBoundary (s : State) : State :=
  if s.mgmt.kstate != .running then s
  else match s.mgmt.rot with
    | none => s
    | some r =>
      let (s, r) := s.endStep r
      if r.cur.isSome then s
      else if r.stop then s.endRotation r .aborted
      else s.nextStep r

/-- The evacuated cluster has loaded the image and passed its self-test; it holds no job in service. -/
def stepLoaded (s : State) : State :=
  match s.mgmt.rot with
  | none => s
  | some r =>
    match r.cur with
    | none => s
    | some k =>
      let evac : Bool := match s.cluster k with
        | some c => c.cstate = .evacuated
        | none => false
      if s.mgmt.kstate = .running && evac && (s.clusterJobs k).isEmpty then
        let s := s.modCluster k fun c => { c with lib := (s.libImage r.slot).version, libSlot := r.slot }
        (s.setRot (some { r with loaded := true })).kwakelLog .rotation (256 + k)
      else s

end State

/-- ROTATION_STEP_LOAD_DONE (R511). -/
def execRotationStepLoadDone (t : Nat) (s : State) : Host.Outcome State Fault Refusal := s.act t State.stepLoaded

end Sys2Proof.Machine
end

