-- ==== Sys2Proof/Machine/Modes.lean ====
section
/-! DEFINITION. Modes: MODE_CMD, the evaluation of the conditions at a boundary, standing channels, shedding and SEAL (R534
to R556). -/

namespace Sys2Proof.Machine

/-- Ceiling of R535 when no condition holds. -/
def fullCeiling : Nat := 1036800000

namespace State

/-! ## MODE_CMD (R543, R546, R547, R551, R554, R555) -/

/-- Replace the modes. -/
def setModes (s : State) (m : Modes) : State := { s with modes := m }

/-- A MODE_CMD ends with OK. -/
def modeOk (s : State) : State := s.status Pg.MODE .ok

/-- A MODE_CMD is refused. -/
def modeNo (s : State) (st : Status) : State := s.status Pg.MODE st

/-- ENTER_MAINT.
DESIGN CHOICE (log entry 9). -/
def enterMaint (s : State) : State :=
  if s.modes.bringup || s.modes.sealOn then s.modeNo .notInMode
  else (s.setModes { s.modes with enterReq := true, leaveReq := false }).modeOk

/-- LEAVE_MAINT.
DESIGN CHOICE (log entry 9). -/
def leaveMaint (s : State) : State :=
  if s.mgmt.rot.isSome then s.modeNo .busy
  else (s.setModes { s.modes with enterReq := false, leaveReq := true }).modeOk

/-- ROTATE: every cluster reloads the image that runs. -/
def rotateCmd (s : State) : State :=
  if s.modes.mode != 4 then s.modeNo .notInMode
  else if s.mgmt.rot.isSome then s.modeNo .busy
  else (s.startRotation s.notLost s.mgmt.libSlot false).modeOk

/-- CONSTRAIN_ON.
DESIGN CHOICE (log entry 9). -/
def constrainOn (s : State) : State :=
  if s.modes.sealOn then s.modeNo .notInMode else (s.setModes { s.modes with forced := true }).modeOk

/-- CONSTRAIN_OFF.
DESIGN CHOICE (log entry 9). -/
def constrainOff (s : State) : State :=
  let s := s.noteQuiet
  (s.setModes { s.modes with forced := false }).modeOk

/-- SEAL: while SEAL holds, only FORCE in DRAINING is accepted.
DESIGN CHOICE (log entry 9). -/
def sealCmd (s : State) (force : Bool) : State :=
  let m := s.modes
  if m.bringup then s.modeNo .notInMode
  else if m.sealOn then
    if force && m.phase = .draining then (s.setModes { m with forceReq := true }).modeOk else s.modeNo .notInMode
  else (s.setModes { m with sealReq := true, forceReq := m.forceReq || force }).modeOk

/-- UNSEAL.
DESIGN CHOICE (log entry 9). -/
def unsealCmd (s : State) : State :=
  if s.modes.phase = .draining || s.modes.phase = .drained then
    (s.setModes { s.modes with unsealReq := true, wipeReq := false }).modeOk
  else s.modeNo .notInMode

/-- WIPE. -/
def wipeCmd (s : State) : State :=
  if s.modes.phase = .drained then (s.setModes { s.modes with wipeReq := true, unsealReq := false }).modeOk
  else s.modeNo .notInMode

/-- SNAPSHOT: Kwakel has the standing configuration to write. -/
def snapshotCmd (s : State) : State := (s.addWork .config).modeOk

/-- A write of MODE_CMD. -/
def modeCmd (s : State) (v : Word) : State :=
  match fieldOf v Fd.MODE_CMD.OP with
  | 1 => s.enterMaint
  | 2 => s.leaveMaint
  | 3 => s.rotateCmd
  | 4 => s.constrainOn
  | 5 => s.constrainOff
  | 6 => s.sealCmd (fieldOf v Fd.MODE_CMD.FORCE = 1)
  | 7 => s.unsealCmd
  | 8 => s.wipeCmd
  | 9 => s.snapshotCmd
  | _ => s.modeNo .badParam

/-! ## Triggers and deadlines -/

/-- Kwakel has read more than LIMIT_A for 200 ms, or reads no more than it (R547). -/
def powerTrigger (s : State) (on : Bool) : State :=
  if s.mgmt.kstate = .running then
    let s := s.noteQuiet
    (s.setModes { s.modes with power := on }).noteQuiet
  else s

/-- EXIT_S has passed without a trigger (R547). -/
def constrainExit (s : State) : State :=
  if s.modes.constrain && s.quietOver then s.setModes { s.modes with quietDone := true } else s

/-- HOLD_S has passed since DRAINED was entered (R551). -/
def holdOver (s : State) : Bool :=
  s.modes.phase = .drained
    && (s.modes.holdDue || s.modes.drainedAt + secTicks (s.get Reg.MODE_SEAL_CFG Fd.MODE_SEAL_CFG.HOLD_S) ≤ s.clk.now)

/-- SEAL moves on to WIPING at the next boundary. -/
def holdExpiry (s : State) : State := if s.holdOver then s.setModes { s.modes with holdDue := true } else s

/-- The wipe of R553 completes once GDDR-6 has been zeroised. -/
def sealWiped (s : State) : State :=
  if s.modes.phase = .wiping && s.get Reg.MEM_STATE Fd.MEM_STATE.STATE != 2 then
    (s.setModes { s.modes with phase := .sealed }).event Pg.MODE Ev.MODE.SEAL_WIPED
  else s

/-! ## Conditions at a boundary (R535, R536, R546, R547, R551) -/

/-- BRINGUP begins. -/
def bringupBegins (s : State) : State :=
  if !s.modes.everBringup && s.bringupReady then
    (s.setModes { s.modes with bringup := true, everBringup := true }).put Reg.MODE_TIMES Fd.MODE_TIMES.BRING_MS (s.clk.at0 / msTicks 1)
  else s

/-- Records of the GDDR-6 directory with the meter states and counts that the on-chip directory has.
DEDUCED (log entry 44). -/
def syncMeters (chip recs : Assoc EpRec) : Assoc EpRec :=
  recs.map fun x => (x.1, match chip.find? x.1 with
    | some c => { x.2 with tc := c.tc, tp := c.tp, last := c.last, green := c.green, yellow := c.yellow, red := c.red }
    | none => x.2)

/-- BRINGUP ends: the directory in GDDR-6 serves from here on (R544). -/
def bringupEnds (s : State) : State :=
  if s.modes.bringup && s.modeHold = 0 then
    let e := s.nw.epd
    let s := s.setModes { s.modes with bringup := false, ended := true }
    let s := { s with nw := { s.nw with epd := { e with recs := syncMeters e.chip e.recs, chip := [] } } }
    let s := (s.put Reg.EPD_COUNT Fd.EPD_COUNT.COUNT s.nw.epd.recs.length).put Reg.MODE_EPD_ONCHIP Fd.MODE_EPD_ONCHIP.COUNT 0
    (s.put Reg.MODE_TIMES Fd.MODE_TIMES.SVC_MS (s.clk.at0 / msTicks 1)).event Pg.MODE Ev.MODE.BRINGUP_END
  else s

/-- SEAL sets, with its deadline, or clears. -/
def evalSeal (s : State) : State :=
  let m := s.modes
  if m.unsealReq then
    s.setModes { m with sealOn := false, phase := .none, sealReq := false, forceReq := false, unsealReq := false, wipeReq := false,
                        holdDue := false }
  else if m.sealReq then
    (s.setModes { m with sealOn := true, phase := .draining, sealReq := false }).wr Reg.MODE_SEAL_DEADLINE
      (s.clk.n + BitVec.ofNat 32 (200 * s.get Reg.MODE_SEAL_CFG Fd.MODE_SEAL_CFG.DRAIN_S))
  else s

/-- ISOLATE holds outside BRINGUP while no host port owns.
DEDUCED (log entry 44). -/
def evalIsolate (s : State) : State :=
  let host : Bool := match s.own.owner with
    | .host _ => true
    | _ => false
  s.setModes { s.modes with isolate := s.modes.ended && !host }

/-- MAINT: requests of the host, the start of a rotation without MAINT, and the end of one that set it. -/
def evalMaint (s : State) : State :=
  let m := s.modes
  let m :=
    if m.enterReq then { m with maint := true, rotMaint := false }
    else if m.leaveReq then { m with maint := false, rotMaint := false }
    else if m.rotReq && !m.maint then { m with maint := true, rotMaint := true }
    else if m.rotEnded && m.rotMaint then { m with maint := false, rotMaint := false }
    else m
  s.setModes { m with enterReq := false, leaveReq := false, rotReq := false, rotEnded := false }

/-- CONSTRAIN sets at the first boundary at which a trigger holds, and ends after the quiet time. -/
def evalConstrain (s : State) : State :=
  let s := s.noteQuiet
  if s.anyTrigger then
    if s.modes.constrain then s else (s.setModes { s.modes with constrain := true }).event Pg.MODE Ev.MODE.CONSTRAINED
  else if s.modes.constrain && s.quietOver then s.setModes { s.modes with constrain := false, quietDone := false }
  else s

/-- The mode in force. -/
def modeNow (m : Modes) : Nat :=
  if m.bringup then 1 else if !m.everBringup then 0 else if m.sealOn then 6 else if m.isolate then 5 else if m.maint then 4
  else if m.constrain then 3 else 2

/-- The admission ceiling of R535. -/
def ceilingNow (s : State) : Nat :=
  let m := s.modes
  if !m.everBringup then 0
  else if m.bringup then 7200000 * s.allServing
  else
    let c := fullCeiling
    let c := if m.sealOn then 0 else c
    let c := if m.maint then min c s.maintCeiling else c
    if m.constrain then min c (fullCeiling * s.get Reg.MODE_CONSTRAIN Fd.MODE_CONSTRAIN.CEIL_PCT / 100) else c

/-- The 8 MiB of compact slots return to ingress once no channel holds one (R541, R544). -/
def evalCompact (s : State) : State :=
  if s.modes.ended && s.compactSlots = 0 then s.setModes { s.modes with compactFreed := true } else s

/-- The mode and the ceiling in force from this boundary on. -/
def setMode (s : State) : State :=
  let new := modeNow s.modes
  let s := if new = s.modes.mode then s
    else ((s.setModes { s.modes with mode := new }).wr Reg.MODE_SINCE s.clk.n).event Pg.MODE Ev.MODE.MODE_CHANGE
  let s := s.put Reg.MODE_STATE Fd.MODE_STATE.MODE new
  s.put Reg.CHAN_CEILING Fd.CHAN_CEILING.CYCLES s.ceilingNow

/-- The evaluation of the conditions at a boundary, after step 1 of R60 and before step 2; a life-cycle change acts with
it (R525).
DESIGN CHOICE (log entry 9). -/
def modeBoundary (s : State) : State :=
  let s := (s.bringupEnds).bringupBegins
  let s := (s.evalSeal).evalIsolate
  let s := (s.evalMaint).evalConstrain
  (s.evalCompact.setMode).lifeChange

/-! ## Standing channels (R540) -/

/-- A standing OPEN or a re-pairing MODIFY fails. -/
def standingFails (s : State) (num : Nat) (f : Fail) : State :=
  let s := (s.noteFail f).inc Reg.MODE_STANDING Fd.MODE_STANDING.FAILED
  (s.event Pg.MODE Ev.MODE.STANDING_FAIL).kwakelLog .standingFail (num + 65536 * f.status.code)

/-- The OPEN of one standing entry, with PAIRED clear.
DEDUCED (log entry 43). -/
def reopen (s : State) (e : StandingEntry) : State :=
  if !e.crcOk then s
  else
    let c := openCfg e.cmd
    match s.applyOpen e.chan { c with paired := false } 0 with
    | .ok s =>
      let s := s.inc Reg.MODE_STANDING Fd.MODE_STANDING.REOPENED
      if c.paired then { s with mgmt := { s.mgmt with repair := s.mgmt.repair ++ [e.chan] } } else s
    | .error f => s.standingFails e.chan f

/-- The MODIFY that pairs a standing channel again.
DEDUCED (log entry 43). -/
def rePair (s : State) (num : Nat) : State :=
  match s.chan num with
  | none => s
  | some c =>
    if !c.cfg.standing || c.cfg.paired then s
    else
      let new := { c.cfg with paired := true }
      match s.modifyCheck num c new 1 with
      | some f => s.standingFails num f
      | none => s.modifyChan c new false c.lastTag

/-- Kwakel's commands at a boundary: at the one at which BRINGUP begins the standing OPENs, at the one at which it ends the
re-pairing MODIFYs. `before` are the modes of the beat before. -/
def standingBoundary (s : State) (before : Modes) : State :=
  if s.modes.bringup && !before.bringup then s.mgmt.flash.standing.foldl reopen s
  else if before.bringup && !s.modes.bringup then
    let l := s.mgmt.repair
    l.foldl rePair { s with mgmt := { s.mgmt with repair := [] } }
  else s

/-! ## Shedding (R548) -/

/-- The channels that may be shed, by number.
DEDUCED (log entry 45). -/
def victims (s : State) : List Chan := s.openChans.filter fun c => !c.cfg.emergency && !c.cfg.standing

/-- A shed action is recorded. -/
def noteShed (s : State) (num cnt : Nat) (f : Fd) : State :=
  ((s.inc cnt f).put Reg.MODE_SHED_LAST Fd.MODE_SHED_LAST.CHANNEL num).event Pg.MODE Ev.MODE.SHED

/-- Stage 1: recording of a channel.
DEDUCED (log entry 45). -/
def shedRec (s : State) (c : Chan) : State :=
  if c.cfg.record then
    (s.modifyChan c { c.cfg with record := false } false c.lastTag).noteShed c.num Reg.MODE_SHED_REC_CNT Fd.MODE_SHED_REC_CNT.COUNT
  else s

/-- Stage 2: the Taldy link session of a channel.
DEDUCED (log entry 45). -/
def shedSess (s : State) (c : Chan) : State :=
  if c.cfg.sess = .taldy then
    (s.modifyChan c { c.cfg with sess := .none, sessSideB := false } false c.lastTag).noteShed c.num Reg.MODE_SHED_SESS_CNT
      Fd.MODE_SHED_SESS_CNT.COUNT
  else s

/-- Stage 3: a whole channel, while the peak load is above the ceiling.
DEDUCED (log entry 45). -/
def shedClose (s : State) (c : Chan) : State :=
  if s.get Reg.CHAN_CEILING Fd.CHAN_CEILING.CYCLES < s.peakLoad then
    (s.closeChan c true).noteShed c.num Reg.MODE_SHED_CLOSE_CNT Fd.MODE_SHED_CLOSE_CNT.COUNT
  else s

/-- Channel `a` is closed before channel `b` in stage 3. -/
def shedBefore (a b : Chan) : Bool :=
  let x := 4 * a.costEvery + a.costFrame
  let y := 4 * b.costEvery + b.costFrame
  y < x || (x = y && b.num < a.num)

/-- Put a channel in its place of the order of stage 3. -/
def shedInsert (c : Chan) : List Chan → List Chan
  | [] => [c]
  | x :: xs => if shedBefore c x then c :: x :: xs else x :: shedInsert c xs

/-- Shedding at step 2 of a boundary.
DEDUCED (log entry 45). -/
def shed (s : State) : State :=
  if s.modes.constrain && s.modes.ended then
    let s := s.victims.foldl shedRec s
    let s := s.victims.foldl shedSess s
    if s.flag Reg.MODE_SHED_CTRL Fd.MODE_SHED_CTRL.CLOSE_EN then (s.victims.foldr shedInsert []).foldl shedClose s else s
  else s

/-! ## SEAL (R551 to R553) -/

/-- Channels close at this target without a change of the standing list.
DEDUCED (log entry 44). -/
def sealClose (s : State) (cs : List Chan) : State := cs.foldl (fun s c => s.closeChan c false) s

/-- The drain deadline has come: every open channel that is not an emergency channel closes (R552).
DEDUCED (log entry 44). -/
def deadlineClose (s : State) : State :=
  if s.modes.phase = .draining && !s.modes.bringup && beatAtOrAfter s.clk.n (s.rd Reg.MODE_SEAL_DEADLINE) then
    s.sealClose (s.openChans.filter fun c => !c.cfg.emergency)
  else s

/-- FORCE closes every open emergency channel (R552). -/
def forceClose (s : State) : State :=
  if s.modes.forceReq && s.modes.phase = .draining then
    (s.setModes { s.modes with forceReq := false }).sealClose (s.openChans.filter fun c => c.cfg.emergency)
  else s

/-- The drain is complete: no open channel and no recording stream. -/
def drained (s : State) : State :=
  if s.modes.phase = .draining && s.openChans.isEmpty && s.streamCount = 0 then
    (s.setModes { s.modes with phase := .drained, drainedAt := s.clk.now, holdDue := false }).event Pg.MODE Ev.MODE.SEAL_DRAINED
  else s

/-- The wipe of R553 begins: GDDR-6, keys, shared packet memory, and the clusters' buffers.
DEDUCED (log entry 44). -/
def startWipe (s : State) : State :=
  let s := (s.setModes { s.modes with phase := .wiping, wipeReq := false, holdDue := false }).zeroise.eraseKeys
  let clean (c : Chan) : Chan := (c.modLeg false fun x => { x with inbox := [] }).modLeg true fun x => { x with inbox := [] }
  let s := { s with
    closing := s.closing.map clean, clusters := s.clusters.map fun (c : Cluster) => { c with wb := [] },
    nw := { s.nw with waiting := [], frags := [], reasm := [],
                      flows := (s.nw.flows.map fun (x : Nat × FlowRun) => (x.1, { x.2 with q := [] })).filter fun x => x.2 ≠ FlowRun.fresh } }
  s.noteMem 0

/-- SEAL at step 2 of a boundary, after the host transactions.
DEDUCED (log entry 44). -/
def sealBoundary (s : State) : State :=
  if s.modes.sealOn && !s.modes.bringup then
    let s := (s.deadlineClose.forceClose).drained
    if s.modes.phase = .drained && (s.modes.wipeReq || s.holdOver) then s.startWipe
    else s.setModes { s.modes with wipeReq := false }
  else s

end State

/-! ## Meanings -/

/-- A MODE_CMD of a host port. -/
def State.modeWrite (s : State) (p : Port) (f : State → State) : State := s.hostWrite p Reg.MODE_CMD f

/-- ENTER_MAINT (R546). -/
def execEnterMaint (t : Nat) (p : Port) (s : State) : Host.Outcome State Fault Refusal := s.act t fun s => s.modeWrite p State.enterMaint

/-- LEAVE_MAINT (R546). -/
def execLeaveMaint (t : Nat) (p : Port) (s : State) : Host.Outcome State Fault Refusal := s.act t fun s => s.modeWrite p State.leaveMaint

/-- ROTATE (R546). -/
def execRotate (t : Nat) (p : Port) (s : State) : Host.Outcome State Fault Refusal := s.act t fun s => s.modeWrite p State.rotateCmd

/-- CONSTRAIN_ON (R547). -/
def execConstrainOn (t : Nat) (p : Port) (s : State) : Host.Outcome State Fault Refusal := s.act t fun s => s.modeWrite p State.constrainOn

/-- CONSTRAIN_OFF (R547). -/
def execConstrainOff (t : Nat) (p : Port) (s : State) : Host.Outcome State Fault Refusal := s.act t fun s => s.modeWrite p State.constrainOff

/-- POWER_TRIGGER (R547). -/
def execPowerTrigger (t : Nat) (s : State) : Host.Outcome State Fault Refusal := s.act t fun s => s.powerTrigger true

/-- POWER_TRIGGER_END (R547). -/
def execPowerTriggerEnd (t : Nat) (s : State) : Host.Outcome State Fault Refusal := s.act t fun s => s.powerTrigger false

/-- CONSTRAIN_EXIT (R547). -/
def execConstrainExit (t : Nat) (s : State) : Host.Outcome State Fault Refusal := s.act t State.constrainExit

/-- SEAL (R551, R552). -/
def execSeal (t : Nat) (p : Port) (force : Bool) (s : State) : Host.Outcome State Fault Refusal :=
  s.act t fun s => s.modeWrite p fun s => s.sealCmd force

/-- UNSEAL (R554). -/
def execUnseal (t : Nat) (p : Port) (s : State) : Host.Outcome State Fault Refusal := s.act t fun s => s.modeWrite p State.unsealCmd

/-- WIPE (R551). -/
def execWipe (t : Nat) (p : Port) (s : State) : Host.Outcome State Fault Refusal := s.act t fun s => s.modeWrite p State.wipeCmd

/-- SNAPSHOT (R539). -/
def execSnapshot (t : Nat) (p : Port) (s : State) : Host.Outcome State Fault Refusal := s.act t fun s => s.modeWrite p State.snapshotCmd

/-- SEAL_DEADLINE (R552): the closes of the deadline boundary. -/
def execSealDeadline (t : Nat) (s : State) : Host.Outcome State Fault Refusal := s.act t State.deadlineClose

/-- SEAL_HOLD_EXPIRY (R551). -/
def execSealHoldExpiry (t : Nat) (s : State) : Host.Outcome State Fault Refusal := s.act t State.holdExpiry

/-- SEAL_WIPED (R553). -/
def execSealWiped (t : Nat) (s : State) : Host.Outcome State Fault Refusal := s.act t State.sealWiped

end Sys2Proof.Machine
end

