-- ==== Sys2Proof/Machine/Ownership.lean ====
section
/-! DEFINITION. Ownership: claims, heartbeats, handover, release, function level reset, and the processing
of R37 at a boundary. -/

namespace Sys2Proof.Machine

/-- The other port. -/
def otherPort : Port → Port
  | .a => .b
  | .b => .a

namespace State

/-- OWN_RESULT of a port. -/
def resultReg : Port → Nat
  | .a => Reg.OWN_RESULT_A
  | .b => Reg.OWN_RESULT_B

/-- OWN_HB_AGE of a port. -/
def ageReg : Port → Nat
  | .a => Reg.OWN_HB_AGE_A
  | .b => Reg.OWN_HB_AGE_B

/-- Report a status in OWN_RESULT of a port with the EPOCH of now (R45). -/
def ownResult (s : State) (p : Port) (st : Status) : State :=
  s.wr (resultReg p) (withBits (withBits 0 15 8 s.own.epoch.toNat) 7 0 st.code)

/-- A request decided at its write: OWN_RESULT and LAST_STATUS. -/
def ownDecide (s : State) (p : Port) (st : Status) : State := (s.ownResult p st).status Pg.OWN st

/-- One MSI-X message of vector 0 on every port whose vector 0 is unmasked (R38). -/
def ownMessage (s : State) : State := (s.sendMsix .a 0).sendMsix .b 0

/-- OWNER_LOSS in ticks (R35). -/
def ownerLoss (s : State) : Nat := msTicks (s.get Reg.OWN_LOSS_MS Fd.OWN_LOSS_MS.LOSS)

/-- The CLAIM bit of a write of OWN_CLAIM (R34, R45). -/
def claimBit (s : State) (p : Port) : State :=
  let o := s.portOwn p
  if o.claim then s.ownDecide p .ok else (s.setPortOwn p { o with claimReq := true }).status Pg.OWN .ok

/-- The WITHDRAW bit: from the owner BAD_PARAM, from a port with no claim OK with no change (R44). -/
def withdrawBit (s : State) (p : Port) : State :=
  let o := s.portOwn p
  if !o.claim then s.ownDecide p .ok
  else if s.ownedBy p then s.ownDecide p .badParam
  else (s.setPortOwn p { o with withdrawReq := true }).status Pg.OWN .ok

/-- The RELEASE bit from the owner: NOT_OWNER once a function level reset has ended its claim (R46). A
release replaces a handover written earlier in the beat. -/
def releaseBit (s : State) (p : Port) : State :=
  let o := s.portOwn p
  if !o.claim then s.ownDecide p .notOwner
  else (s.setPortOwn p { o with releaseReq := true, handoverReq := none }).status Pg.OWN .ok

/-- A write of OWN_CLAIM (R579). -/
def claimWrite (s : State) (p : Port) (claim release withdraw : Bool) : State :=
  if s.ownedBy p then
    if b2n claim + b2n release + b2n withdraw > 1 then s.ownDecide p .badParam
    else if claim then s.claimBit p
    else if withdraw then s.withdrawBit p
    else if release then s.releaseBit p
    else s
  else
    let s := if release then s.dropWrite p false Reg.OWN_CLAIM else s
    if claim && withdraw then s.ownDecide p .badParam
    else if claim then s.claimBit p
    else if withdraw then s.withdrawBit p
    else s

/-- A heartbeat: its arrival restarts the deadline of a port with a claim, unless it arrives at or after
the deadline; the age restarts in every case (R35, R9). -/
def heartbeat (s : State) (p : Port) : State :=
  let o := s.portOwn p
  let s := s.wr (ageReg p) 0
  let live := o.claim && !o.expired && s.clk.now < o.deadline
  s.setPortOwn p { o with beaten := true, deadline := if live then s.clk.now + s.ownerLoss else o.deadline }

/-- A deadline passes without a heartbeat: the port can no longer meet it (R35). -/
def deadlinePassed (s : State) (p : Port) : State :=
  let o := s.portOwn p
  if o.claim && o.deadline ≤ s.clk.now then s.setPortOwn p { o with expired := true } else s

/-- The port a handover target names. -/
def handoverTarget (v : Nat) : Option Port := if v = 1 then some .a else if v = 2 then some .b else none

/-- A write of OWN_HANDOVER by the owner (R40, R46). It replaces a release written earlier in the beat. -/
def handoverWrite (s : State) (p : Port) (v : Nat) : State :=
  let o := s.portOwn p
  if !o.claim then s.ownDecide p .notOwner
  else match handoverTarget v with
    | none => s.ownDecide p .badParam
    | some q =>
      if q = p || !(s.portOwn q).claim then s.ownDecide p .badParam
      else if s.hasOpenTxn p then s.ownDecide p .busy
      else (s.setPortOwn p { o with handoverReq := some q, releaseReq := false }).status Pg.OWN .ok

/-- A function level reset of a port: its claim ends, its requests of this beat are discarded with
ABORTED, and an owner's loss waits for the next boundary (R46). -/
def functionReset (s : State) (p : Port) : State :=
  let o := s.portOwn p
  let any := o.claimReq || o.withdrawReq || o.releaseReq || o.handoverReq.isSome
  let s := s.setPortOwn p { o with claim := false, claimReq := false, withdrawReq := false, releaseReq := false,
                                   handoverReq := none, flr := s.ownedBy p }
  let s := if any then s.ownResult p .aborted else s
  (if o.claim then s.ownMessage else s).relCheck

/-! ## Processing at a boundary (R37) -/

/-- A host port stops being owner: its rings stop and, by release or loss, its open transactions abort
(R39, R395); an image session it opened ends at this boundary, after a
command in progress (R506). -/
def loseOwner (s : State) (p : Port) (abort : Bool) : State :=
  let s := if abort then s.abortOpenTxns p else s
  let s := s.stopPortRings p
  match s.mgmt.session with
  | some x =>
    if x.port = p then
      if s.mgmt.mbx.isSome then { s with mgmt := { s.mgmt with session := some { x with doomed := true } } }
      else { s with mgmt := { s.mgmt with session := none } }.status Pg.MGMT .aborted
    else s
  | none => s

/-- OWN_STATE.OWNER changes: EPOCH counts it and OWNER_CHANGED latches (R38). -/
def changeOwner (s : State) (o : Owner) (cause : Nat) (abort : Bool) : State :=
  let old := s.own.owner
  let s := { s with own := { s.own with owner := o, epoch := s.own.epoch + 1, lastCause := cause } }
  let s := match old with
    | .host p => s.loseOwner p abort
    | _ => s
  s.event Pg.OWN Ev.OWN.OWNER_CHANGED

/-- Step 1 for one port: an observer's claim lapses when its deadline lies before B(n). -/
def lapse (s : State) (p : Port) : State :=
  let o := s.portOwn p
  if o.claim && !s.ownedBy p && o.deadline < s.clk.at0 then
    (s.setPortOwn p { o with claim := false }).event Pg.OWN Ev.OWN.CLAIM_LAPSED
  else s

/-- Step 2, withdrawals. -/
def applyWithdraw (s : State) (p : Port) : State :=
  let o := s.portOwn p
  if o.withdrawReq then (s.setPortOwn p { o with claim := false, withdrawReq := false }).ownResult p .ok else s

/-- The owner that follows a port that gives ownership up: the other port with a live claim, else Kwakel
as proxy (R37, R41). -/
def successor (s : State) (p : Port) : Owner := if (s.portOwn (otherPort p)).claim then .host (otherPort p) else .proxy

/-- Step 2, the owner's release or handover. -/
def applyOwnerRequest (s : State) (p : Port) : State :=
  let o := s.portOwn p
  if o.releaseReq then
    let s := s.setPortOwn p { o with claim := false, releaseReq := false }
    (s.changeOwner (s.successor p) 3 true).ownResult p .ok
  else match o.handoverReq with
    | none => s
    | some q =>
      let s := s.setPortOwn p { o with handoverReq := none }
      if (s.portOwn q).claim then (s.changeOwner (.host q) 2 false).ownResult p .ok
      else s.ownResult p .badParam

/-- Step 3: loss of the owner by its deadline or a function level reset. -/
def applyLoss (s : State) (p : Port) : State :=
  let o := s.portOwn p
  if o.flr || o.deadline < s.clk.at0 then
    let s := s.setPortOwn p { o with claim := false }
    let next := s.successor p
    let cause := if o.flr then 6 else if next = .proxy then 5 else 4
    let s := (s.changeOwner next cause true).event Pg.OWN Ev.OWN.OWNER_LOST
    s.recordFault 11 0 (b2n (p = .b)) (if o.flr then 0 else 9) false
  else s

/-- Step 4 for one port: a claim written during the beat is granted. -/
def grantClaim (s : State) (p : Port) : State :=
  let o := s.portOwn p
  if o.claimReq then
    let s := s.setPortOwn p { o with claim := true, claimReq := false, expired := false,
                                     deadline := s.clk.at0 + s.ownerLoss }
    let s := match s.own.owner with
      | .host _ => s
      | _ => s.changeOwner (.host p) 1 false
    s.ownResult p .ok
  else s

/-- Do something for the owner when a host port owns. -/
def forOwner (s : State) (f : State → Port → State) : State :=
  match s.own.owner with
  | .host p => f s p
  | _ => s

/-- The ages count one more boundary (R44). -/
def ageHeartbeat (s : State) (p : Port) : State :=
  if (s.portOwn p).beaten then s.inc (ageReg p) Fd.OWN_HB_AGE_A.AGE else s

/-- The end of a beat's requests: function level resets have been processed. -/
def clearFlr (s : State) (p : Port) : State := s.setPortOwn p { s.portOwn p with flr := false }

/-- Ownership processing at a boundary, while Kwakel runs (R37, R509). -/
def ownBoundary (s : State) : State :=
  let s := (s.ageHeartbeat .a).ageHeartbeat .b
  if s.mgmt.kstate = .running then
    let before := s.own
    let s := (s.lapse .a).lapse .b
    let s := (s.applyWithdraw .a).applyWithdraw .b
    let s := s.forOwner applyOwnerRequest
    let s := s.forOwner applyLoss
    let s := (s.grantClaim .a).grantClaim .b
    let s := (s.clearFlr .a).clearFlr .b
    if s.own.owner = before.owner && s.own.epoch = before.epoch && s.own.pa.claim = before.pa.claim
        && s.own.pb.claim = before.pb.claim then s
    else s.ownMessage
  else s

end State

/-! ## Meanings -/

/-- CLAIM (R34, R37). -/
def execClaim (t : Nat) (p : Port) (s : State) : Host.Outcome State Fault Refusal :=
  s.act t fun s => s.hostWrite p Reg.OWN_CLAIM fun s => s.claimWrite p true false false

/-- WITHDRAW (R44, R45). -/
def execWithdraw (t : Nat) (p : Port) (s : State) : Host.Outcome State Fault Refusal :=
  s.act t fun s => s.hostWrite p Reg.OWN_CLAIM fun s => s.claimWrite p false false true

/-- RELEASE (R41, R579). -/
def execRelease (t : Nat) (p : Port) (s : State) : Host.Outcome State Fault Refusal :=
  s.act t fun s => s.hostWrite p Reg.OWN_CLAIM fun s => s.claimWrite p false true false

/-- OWN_HEARTBEAT (R35). -/
def execOwnHeartbeat (t : Nat) (p : Port) (s : State) : Host.Outcome State Fault Refusal :=
  s.act t fun s => s.hostWrite p Reg.OWN_HEARTBEAT fun s => s.heartbeat p

/-- OWN_HANDOVER (R40). -/
def execOwnHandover (t : Nat) (p : Port) (target : BitVec 2) (s : State) : Host.Outcome State Fault Refusal :=
  s.act t fun s => s.hostWrite p Reg.OWN_HANDOVER fun s => s.handoverWrite p target.toNat

/-- HEARTBEAT_DEADLINE_EXPIRY (R35).
DESIGN CHOICE (log entry 3). -/
def execHeartbeatDeadlineExpiry (t : Nat) (p : Port) (s : State) : Host.Outcome State Fault Refusal :=
  s.act t fun s => s.deadlinePassed p

/-- FUNCTION_LEVEL_RESET (R46). -/
def execFunctionLevelReset (t : Nat) (p : Port) (s : State) : Host.Outcome State Fault Refusal :=
  s.act t fun s => s.functionReset p

end Sys2Proof.Machine
end

