-- ==== Sys2Proof/Machine/Boundary.lean ====
section
/-! DEFINITION. The beat boundary: the end of the beat before, ownership, modes, re-homing, references, transactions, and the
jobs of the new beat (R60). -/

namespace Sys2Proof.Machine

/-- The VDD_CORE target after one beat: 650 to 850 mV in steps of 5 mV, at most 10 mV from the one before (R516). -/
def vcoreNext (cur want : Nat) : Nat :=
  let w := max 650 (min 850 (want / 5 * 5))
  if cur < w then min w (cur + 10) else max w (cur - 10)

/-- Cycles per serving core per beat at a down-spread of `ssc` tenths of a percent (R234, R574). -/
def cycPerBeat (ssc : Nat) : Nat := 9000000 - 4500 * ssc

/-- Register values of the latest beats, newest first, with those of beat `n` put in front.
DESIGN CHOICE (log entry 23). -/
def keepCfgs (n : BeatNo) (m : Assoc Word) (l : List (BeatNo × Assoc Word)) : List (BeatNo × Assoc Word) := ((n, m) :: l).take 4

namespace State

/-! ## The beat that ends -/

/-- What is due before the boundary and was not commanded: the deadline of the beat before and the refills (R62, R312).
DESIGN CHOICE (log entry 3). -/
def catchUp (s : State) : State :=
  let s := s.atTick (s.clk.at0 + beatTicks - 1)
  (s.deadline.refills).lateSeal

/-- The cycles of the jobs in service enter the counts of the beat that ends, at its rate. -/
def chargeAll (s : State) : State := s.disp.jobs.foldl chargeCycles s

/-- The figures of one cluster for the beat that ends (R249). -/
def clusterFigures (s : State) (k : Nat) : State :=
  match s.cluster k with
  | none => s
  | some c =>
    let s := s.put (Reg.CLU_CYC_LAST k) Fd.CLU_CYC_LAST.CYCLES (sat32 c.cycNow)
    let s := s.raise (Reg.CLU_CYC_HWM k) Fd.CLU_CYC_HWM.CYCLES (sat32 c.cycNow)
    let s := s.put (Reg.CLU_JOBS_LAST k) Fd.CLU_JOBS_LAST.COUNT c.jobsNow
    let s := s.put (Reg.CLU_SRTP_PKTS k) Fd.CLU_SRTP_PKTS.COUNT (sat32 c.srtpNow)
    s.modCluster k fun c => { c with charged := [], cycNow := 0, jobsNow := 0, srtpNow := 0 }

/-- Bytes moved on the GDDR-6 channels in the beat that ends: a free value (log entry 12). -/
def memFigures (s : State) : State :=
  let (w, s) := s.freeWord
  let s := (s.wr Reg.MEM_BW_LAST w).raise Reg.MEM_BW_HWM Fd.MEM_BW_HWM.BYTES w.toNat
  { s with mem := { s.mem with corrNow := [0, 0, 0, 0] } }

/-- The figures of the latest whole beat (R249, R433, R452, R479). -/
def figures (s : State) : State :=
  let s := s.chargeAll
  let s := (List.range 16).foldl clusterFigures s
  let s := s.put Reg.MDM_TRELLIS_LAST Fd.MDM_TRELLIS_LAST.BITS (sat32 s.disp.trellisNow)
  let s := s.put Reg.ARC_IN_BYTES Fd.ARC_IN_BYTES.BYTES (sat32 s.arc.inNow)
  { s with disp := { s.disp with trellisNow := 0 }, arc := { s.arc with inNow := 0 } }.memFigures

/-! ## Step 1 and what follows it -/

/-- The words of records in flight on the host links at the boundary (R392). -/
def withPartials (s : State) (l : List (Nat × Nat)) : State := { s with nw := { s.nw with partials := l } }

/-- Transfers and decodes of a port that no longer owns stop (R449, R460). -/
def lostPort (s : State) (before : Owner) (p : Port) : State :=
  if before = .host p && !s.ownedBy p then (s.abortXfer p).abortArc p else s

/-- Step 1 of R60.
DESIGN CHOICE (log entry 15). -/
def ownStep (s : State) (inp : BoundaryInput) : State :=
  let before := s.own.owner
  let s := ((s.withPartials inp.orphans).ownBoundary).withPartials []
  (s.lostPort before .a).lostPort before .b

/-- The core PLL takes its spread (R574). -/
def spreadStep (s : State) : State :=
  let c := cycPerBeat (s.get Reg.IO_CTRL Fd.IO_CTRL.SSC)
  (List.range 16).foldl (fun s k => s.put (Reg.CLU_CYC_BEAT k) Fd.CLU_CYC_BEAT.CYCLES c) s

/-- The VDD_CORE target follows what Kwakel asks for, while it runs (R509, R516).
DESIGN CHOICE (log entry 15). -/
def vcoreStep (s : State) (want : Nat) : State :=
  if s.mgmt.kstate = .running then
    s.put Reg.SENSOR_VCORE_TGT Fd.SENSOR_VCORE_TGT.MV (vcoreNext (s.get Reg.SENSOR_VCORE_TGT Fd.SENSOR_VCORE_TGT.MV) want)
  else s

/-- After step 2 and before step 3: restores, losses, the rotation, retirements, and the homes that follow from them (R265,
R486, R493, R498, R511).
DESIGN CHOICE (log entry 15). -/
def homeStep (s : State) : State :=
  let before := s.homeLoads
  ((((s.faultBoundary).rotBoundary).retireCores).rehomeAll.homeHigh before).relCheck

/-! ## Steps 2 to 4 -/

/-- Step 2 of R60: Kwakel's commands, the host transactions, shedding and SEAL.
DESIGN CHOICE (log entry 15). -/
def applyStep (s : State) (before : Modes) : State :=
  (((s.standingBoundary before).applyTxns).shed.sealBoundary).noteMem 0

/-- The register values of beat n, with the cut guard of its own cut (R58, R92). -/
def keepRegs (s : State) (cut : Word) : State :=
  { s with cfgs := keepCfgs s.clk.n (s.wr Reg.BEAT_CUT cut).regs s.cfgs }

/-- Step 3 of R60: the jobs of the beat are made ready, at once or at its seal (R57).
DESIGN CHOICE (log entry 15). -/
def readyStep (s : State) (late : Bool) : State :=
  let had := s.openChans.any fun c => c.openBeat != s.clk.n
  let w : BeatWork := { beat := s.clk.n, had := had, last := none }
  let s := { s with disp := { s.disp with work := s.disp.work ++ [w] } }
  let s := s.setRefs { s.refs with sealWait := false, late := late }
  if late then s else s.readyBeat

/-- A serving core that holds an ask and runs no job (R272). -/
def idleCore (c : Core) : Bool := c.role = .serving && asks c && c.run.isNone

/-- DSP_IDLE_CORES at this boundary. -/
def showIdle (s : State) : State :=
  let idle (k : Nat) : Nat := match s.cluster k with
    | some c => if c.cstate = .serving then (c.cores.filter idleCore).length else 0
    | none => 0
  s.put Reg.DSP_IDLE_CORES Fd.DSP_IDLE_CORES.COUNT (((List.range 16).map idle).foldl (· + ·) 0)

/-- Step 4 of R60: playout of beat n−2 begins with the interval; rings, reassembly and beat markers take their
turn (R276, R359, R379, R401). -/
def beatEdges (s : State) : State :=
  let s := (List.range 256).foldl ringBoundary s
  let s := s.reasmTimeout.showIdle
  [0, 1, 2, 3].foldl beatMarker s

/-- Everything that a boundary does, `s` being the state before it.
DESIGN CHOICE (log entry 15). -/
def boundary (s : State) (t : Nat) (inp : BoundaryInput) : State :=
  let old := s.modes
  let ran := s.clk.started
  let s := if ran then s.catchUp else s
  let late := s.refs.sealWait || (ran && s.framesBefore s.nextCut)
  let wrapped := ran && s.clk.n = 0xFFFFFFFF
  let s := { s with clk := s.clk.boundary t, nw := { s.nw with refills := 0 } }
  let s := s.eventIf wrapped Pg.BEAT Ev.BEAT.WRAP
  let s := (s.ownStep inp).figures
  let s := (s.spreadStep).vcoreStep inp.vcoreMv
  let s := (s.modeBoundary.refBoundary inp).pcmBoundary s.clk.n
  let cut := s.rd Reg.BEAT_CUT
  let s := (s.applyStep old).homeStep
  ((s.keepRegs cut).readyStep late).beatEdges

end State

/-- BEAT_BOUNDARY (R51, R60): the first one comes once the timebase has started. -/
def execBeatBoundary (t : Nat) (inp : BoundaryInput) (s : State) : Host.Outcome State Fault Refusal :=
  if s.up && (s.clk.started || s.mgmt.boots) then
    .next { s.boundary t inp with clk := s.clk.boundary t, pending := s.pending }
  else .next (s.atTick t)

end Sys2Proof.Machine
end

