-- ==== Sys2Proof/Machine/Faults.lean ====
section
/-! DEFINITION. Faults, repairs, losses and injected faults as commands (R485 to R498). -/

namespace Sys2Proof.Machine

namespace State

/-- A core's self-check completes: it may take grants again (R485). -/
def selfChecked (s : State) (k i : Nat) : State := s.modCore k i fun c => { c with checking := none }

/-- A lost cluster's write-back buffer has drained to the channel store (R493). -/
def wbDrained (s : State) (k : Nat) : State :=
  match s.cluster k with
  | some c => if c.cstate = .lost then s.modCluster k fun c => { c with wb := [] } else s
  | none => s

/-- The core clock moves to the standby PLL (R496). -/
def pllSwitch (s : State) : State :=
  if s.spares.onStandby then s
  else ({ s with spares := { s.spares with onStandby := true } }.event Pg.REL Ev.REL.PLL_SWITCH).recordFault 12 0 0 10 false

/-- A monitored PLL loses lock (R518): 0 main core, 1 standby core, 2 GDDR-6, 3 SerDes, 4 PCIe, 5 sample DCO.
DEDUCED (log entry 19). -/
def pllUnlock (s : State) (pll : Nat) : State :=
  if 6 ≤ pll then s
  else
    let r := Reg.SENSOR_PLL
    let s := s.put r Fd.SENSOR_PLL.FAULT (s.get r Fd.SENSOR_PLL.FAULT ||| 2 ^ pll)
    let s := s.put r Fd.SENSOR_PLL.LOCK (s.get r Fd.SENSOR_PLL.LOCK &&& (63 - 2 ^ pll))
    let s := if pll = 1 then { s with spares := { s.spares with standbyLocked := false } } else s
    (s.event Pg.SENSOR Ev.SENSOR.PLL_UNLOCK).relCheck

/-- Whether two places lie in one bank. -/
def sameBank (b : BankUse) (l : SramLoc) : Bool :=
  b.shared = l.shared && b.cluster = l.cluster && b.core = l.core && b.bank = l.bank

/-- The spares spent in a bank. -/
def bankUse (s : State) (l : SramLoc) : BankUse :=
  (s.spares.banks.find? fun b => sameBank b l).getD
    { shared := l.shared, cluster := l.cluster, core := l.core, bank := l.bank, rows := 0, cols := 0 }

/-- The core or the row is free for a repair (R489): a core holds no job in service. -/
def repairFree (s : State) (l : SramLoc) : Bool :=
  l.shared || !s.disp.jobs.any fun j => j.state.inService && j.server = some (.core l.cluster l.core)

/-- The number under which a repaired memory is recorded: core 10k + i, or 160 + k for shared SRAM. -/
def repairRegion (l : SramLoc) : Nat := if l.shared then 160 + l.cluster else 10 * l.cluster + l.core

/-- Corrections that a repair has answered. -/
def clearCorrections (s : State) (x : RepairDue) : State :=
  { s with spares := { s.spares with
      due := s.spares.due.filter fun y => !sameLine x y,
      corrections := s.spares.corrections.filter fun c => !sameLine { x with loc := c.1 } x } }

/-- A repair that is due takes place, or finds no spare (R489, R490).
DESIGN CHOICE (log entry 39). -/
def sramRepair (s : State) (x : RepairDue) : State :=
  if (s.spares.due.any fun y => sameLine x y) && s.repairFree x.loc then
    let s := s.clearCorrections x
    let b := s.bankUse x.loc
    if (if x.column then b.cols else b.rows) < bankSpares then
      let b := if x.column then { b with cols := b.cols + 1 } else { b with rows := b.rows + 1 }
      let s := { s with spares := { s.spares with banks := b :: s.spares.banks.filter fun y => !sameBank y x.loc } }
      let line := if x.column then 65536 + x.loc.bitPos else x.loc.row
      ((s.addWork (.repair (repairRegion x.loc) x.loc.bank line)).event Pg.REL Ev.REL.SRAM_REPAIR).relCheck
    else
      let s := if x.loc.shared then s.modCluster x.loc.cluster fun c => { c with sramLost := true }
        else s.modCore x.loc.cluster x.loc.core fun c => { c with retire := true }
      s.event Pg.REL Ev.REL.REPAIR_EXHAUSTED
  else s

/-- A core serves: its role is serving and its cluster is SERVING. -/
def coreServes (s : State) (k i : Nat) : Bool :=
  s.serves k && match s.core k i with
    | some c => c.role = .serving
    | none => false

/-- A write of REL_INJECT (R498).
DESIGN CHOICE (log entry 39). -/
def inject (s : State) (v : Word) : State :=
  let code := bitsOf v 31 28
  let k := bitsOf v 23 20
  let i := bitsOf v 19 16
  let lost := match s.cluster k with
    | some c => c.cstate = .lost && c.lostInjected
    | none => false
  if code = 0 || 5 < code || (code ≤ 3 && 9 < i) then s.status Pg.REL .badParam
  else if (code = 1 && !s.coreServes k i) || (code = 5 && !lost) then s.status Pg.REL .conflict
  else if code = 4 && !s.modes.maint then s.status Pg.REL .notInMode
  else
    let s := s.status Pg.REL .ok
    if code = 1 then s.modCore k i fun c => { c with inject := true }
    else if code = 2 then s.inc (Reg.CLU_ECC_CORR_CNT k) Fd.CLU_ECC_CORR_CNT.COUNT
    else if code = 3 then (s.haltCore k i).recordFault 1 k i 2 true
    else if code = 4 then s.loseCluster k 5 true
    else s.modCluster k fun c => { c with restoring := true }

/-- A REL_INJECT write whose CODE is that of the command. -/
def injectCmd (s : State) (p : Port) (code : Nat) (v : Word) : State :=
  s.hostWrite p Reg.REL_INJECT fun s => s.inject (withBits v 31 28 code)

end State

/-- CORE_FAULT (R485). -/
def execCoreFault (t k i detect : Nat) (loc : Option SramLoc) (s : State) : Host.Outcome State Fault Refusal :=
  s.act t fun s => s.coreFault k i detect loc

/-- CORE_SELF_CHECK_DONE (R485). -/
def execCoreSelfCheckDone (t k i : Nat) (s : State) : Host.Outcome State Fault Refusal :=
  s.act t fun s => s.selfChecked k i

/-- CLUSTER_LOST (R492, R493). -/
def execClusterLost (t k detect : Nat) (s : State) : Host.Outcome State Fault Refusal :=
  s.act t fun s => s.loseCluster k detect false

/-- WB_DRAIN_DONE (R493). -/
def execWbDrainDone (t k : Nat) (s : State) : Host.Outcome State Fault Refusal := s.act t fun s => s.wbDrained k

/-- UNIT_FAULT (R495). -/
def execUnitFault (t : Nat) (archive : Bool) (i detect : Nat) (s : State) : Host.Outcome State Fault Refusal :=
  s.act t fun s => s.unitFault archive i detect

/-- PLL_SWITCH (R496). -/
def execPllSwitch (t : Nat) (s : State) : Host.Outcome State Fault Refusal := s.act t State.pllSwitch

/-- PLL_UNLOCK (R518). -/
def execPllUnlock (t pll : Nat) (s : State) : Host.Outcome State Fault Refusal := s.act t fun s => s.pllUnlock pll

/-- SRAM_REPAIR (R489, R490). -/
def execSramRepair (t : Nat) (loc : SramLoc) (column : Bool) (s : State) : Host.Outcome State Fault Refusal :=
  s.act t fun s => s.sramRepair { loc := loc, column := column }

/-- INJECT_CORE_FAULT (R498). -/
def execInjectCoreFault (t : Nat) (p : Port) (v : Word) (s : State) : Host.Outcome State Fault Refusal :=
  s.act t fun s => s.injectCmd p 1 v

/-- INJECT_CORR_ERROR (R498). -/
def execInjectCorrError (t : Nat) (p : Port) (v : Word) (s : State) : Host.Outcome State Fault Refusal :=
  s.act t fun s => s.injectCmd p 2 v

/-- INJECT_UNCORR_ERROR (R498). -/
def execInjectUncorrError (t : Nat) (p : Port) (v : Word) (s : State) : Host.Outcome State Fault Refusal :=
  s.act t fun s => s.injectCmd p 3 v

/-- INJECT_CLUSTER_LOSS (R498). -/
def execInjectClusterLoss (t : Nat) (p : Port) (v : Word) (s : State) : Host.Outcome State Fault Refusal :=
  s.act t fun s => s.injectCmd p 4 v

/-- RESTORE (R498). -/
def execRestore (t : Nat) (p : Port) (v : Word) (s : State) : Host.Outcome State Fault Refusal :=
  s.act t fun s => s.injectCmd p 5 v

end Sys2Proof.Machine
end

