-- ==== Sys2Proof/Machine/Mbx.lean ====
section
/-! DEFINITION. The mailbox and restarts of Kwakel (R503, R504, R506 to R510, R513). -/

namespace Sys2Proof.Machine

/-- Mailbox commands by OP (R507). -/
inductive MbxOp where
  | info | imgBegin | imgData | imgEnd | activate | commitSvn | abort | board
  deriving DecidableEq, Repr

/-- The OP code of a command. -/
def MbxOp.code : MbxOp → Nat
  | .info => 1 | .imgBegin => 2 | .imgData => 3 | .imgEnd => 4 | .activate => 5 | .commitSvn => 6 | .abort => 7 | .board => 8

/-- The largest image of a kind (R459, R505). -/
def slotBytes (kind : Nat) : Nat := if kind = 0 then Config.fwSlotBytes else if kind = 1 then Config.libSlotBytes else 268435456

/-- Bytes of the board data region. -/
def boardBytes : Nat := 65536

namespace State

/-! ## Start and completion of a command (R506) -/

/-- A write of MBX_CMD is refused with BUSY while a command runs and while Kwakel restarts (R506, R509).
DEDUCED (log entry 50). -/
def mbxTake (s : State) (f : State → State) : State :=
  if s.isBusy Pg.MGMT || s.mgmt.kstate = .restarting then s.status Pg.MGMT .busy else f (s.setBusy Pg.MGMT true)

/-- The outcome of a command, which MBX_CMD_DONE reports. -/
def mbxEnd (s : State) (p : Port) (op : MbxOp) (st : Status) (r0 r1 : Word) : State :=
  { s with mgmt := { s.mgmt with mbx := some { op := op.code, port := p, status := st.code, res0 := r0, res1 := r1, restart := false } } }

/-- An outcome without results. -/
def mbxSay (s : State) (p : Port) (op : MbxOp) (st : Status) : State := s.mbxEnd p op st 0 0

/-- In RECOVERY only the mailbox commands of KIND 0 are served (R503). -/
def recovering (s : State) : Bool := s.mgmt.kstate = .recovery

/-- KIND and SLOT of MBX_ARG0. -/
def mbxKind (s : State) : Nat := bitsOf (s.rd (Reg.MBX_ARG 0)) 1 0

/-- SLOT of MBX_ARG0. -/
def mbxSlot (s : State) : Nat := bitsOf (s.rd (Reg.MBX_ARG 0)) 4 4

/-- The first bytes of MBX_DATA. -/
def mbxBytes (s : State) (n : Nat) : List Byte := (((List.range ((n + 3) / 4)).map fun k => wordBytes (s.rd (Reg.MBX_DATA k))).flatten).take n

/-- A slot's image of a kind, and whether it is valid. -/
def mbxImage (s : State) (kind slot : Nat) : ImageSlot × Bool :=
  if kind = 0 then (s.fwImage slot, s.fwValid slot) else (s.libImage slot, s.libValid slot)

/-! ## Images -/

/-- INFO. -/
def mbxInfo (s : State) (p : Port) : State :=
  let k := s.mbxKind
  let (i, ok) := s.mbxImage k s.mbxSlot
  if s.recovering && k != 0 then s.mbxSay p .info .notInMode
  else if 2 ≤ k then s.mbxSay p .info .badParam
  else s.mbxEnd p .info .ok i.version (Word.of (i.svn % 64 + 256 * b2n ok))

/-- The active slot of a kind.
DEDUCED (log entry 50). -/
def activeSlot (s : State) (kind : Nat) : Nat :=
  if kind = 1 then s.mgmt.libSlot else if s.recovering then s.mgmt.flash.fwSel else s.mgmt.fwSlot

/-- Put an image in the slot of a kind that is not active; the data package has one place. -/
def storeImage (s : State) (kind : Nat) (i : ImageSlot) : State :=
  let m := s.mgmt
  let a := s.activeSlot kind = 1
  { s with mgmt := if kind = 0 then (if a then { m with fwA := i } else { m with fwB := i })
      else if kind = 1 then (if a then { m with libA := i } else { m with libB := i })
      else { m with package := if i = ImageSlot.empty then none else some i } }

/-- IMG_BEGIN: the slot that is not active is erased. -/
def mbxBegin (s : State) (p : Port) : State :=
  let k := s.mbxKind
  let total := (s.rd (Reg.MBX_ARG 1)).toNat
  if s.recovering && k != 0 then s.mbxSay p .imgBegin .notInMode
  else if s.mgmt.session.isSome then s.mbxSay p .imgBegin .busy
  else if k = 3 || slotBytes k < total then s.mbxSay p .imgBegin .badParam
  else
    let s := s.storeImage k ImageSlot.empty
    { s with mgmt := { s.mgmt with session := some { port := p, kind := k, total := total, bytes := [], doomed := false } } }.mbxSay p .imgBegin .ok

/-- The open session, if a port holds it.
DEDUCED (log entry 50). -/
def sessionOf (s : State) (p : Port) : Option Session :=
  match s.mgmt.session with
  | some x => if x.port = p then some x else none
  | none => none

/-- IMG_DATA. -/
def mbxData (s : State) (p : Port) (len : Nat) : State :=
  match s.sessionOf p with
  | none => s.mbxSay p .imgData .badParam
  | some x =>
    if (s.rd (Reg.MBX_ARG 0)).toNat != x.bytes.length || len = 0 || 2048 < len || x.total < x.bytes.length + len then
      s.mbxSay p .imgData .badParam
    else
      { s with mgmt := { s.mgmt with session := some { x with bytes := x.bytes ++ s.mbxBytes len } } }.mbxSay p .imgData .ok

/-- The fuse count that an image of a kind must reach. -/
def svnCount (s : State) (kind : Nat) : Nat := if kind = 0 then s.mgmt.fuses.svnFw else if kind = 1 then s.mgmt.fuses.svnLib else 0

/-- IMG_END; `verified` says whether hash and signature verify. -/
def mbxImgEnd (s : State) (p : Port) (verified : Bool) : State :=
  match s.sessionOf p with
  | none => s.mbxSay p .imgEnd .badParam
  | some x =>
    if x.bytes.length < x.total then s.mbxSay p .imgEnd .badParam
    else
      let i : ImageSlot := { bytes := x.bytes, sigOk := verified }
      let s := { s.storeImage x.kind i with mgmt := { (s.storeImage x.kind i).mgmt with session := none } }
      s.mbxSay p .imgEnd (if i.valid x.kind (s.svnCount x.kind) then .ok else .checkFail)

/-! ## Activation (R503, R507, R510) -/

/-- ACTIVATE of KIND 0: the boot header selects the slot; Kwakel restarts when the command completes. -/
def mbxActFw (s : State) (p : Port) : State :=
  let slot := s.mbxSlot
  if !s.fwValid slot then s.mbxSay p .activate .checkFail
  else
    let f := s.mgmt.flash
    let c : MbxCmd := { op := MbxOp.activate.code, port := p, status := 0, res0 := 0, res1 := 0, restart := true }
    { s with mgmt := { s.mgmt with flash := { f with fwSel := slot, fwPrev := some f.fwSel }, firstStart := none, mbx := some c } }

/-- The mode allows an activation of a library. -/
def modeTakesLib (s : State) : Bool := s.modes.mode = 2 || s.modes.mode = 4

/-- ACTIVATE of KIND 1.
DEDUCED (log entry 50). -/
def mbxActLib (s : State) (p : Port) : State :=
  let slot := s.mbxSlot
  let img := s.libImage slot
  let say (s : State) (st : Status) : State := s.mbxSay p .activate st
  if s.recovering then say s .notInMode
  else if !s.libValid slot then say s .checkFail
  else
    let chosen := { s with mgmt := { s.mgmt with flash := { s.mgmt.flash with libSel := slot } } }
    if !s.libraryRuns then say (chosen.kwakelLog .activation 1) .ok
    else if img.compat != (s.libImage s.mgmt.libSlot).compat then say s .badParam
    else if !s.modeTakesLib then say s .notInMode
    else if !s.rotCapacity then say s .noCapacity
    else if s.mgmt.rot.isSome then say s .busy
    else
      let rest := s.notLost.filter fun k => s.libOf k != img.version
      let s := { chosen with mgmt := { chosen.mgmt with libSlot := slot }, modes := { chosen.modes with rotReq := true } }
      say ((s.startRotation rest slot true).kwakelLog .activation 1) .ok

/-- ACTIVATE of KIND 2: `clips` is what the package holds, `fits` whether there is room beside the old clips. -/
def mbxActData (s : State) (p : Port) (clips : List (Nat × Clip)) (fits : Bool) : State :=
  let ok : Bool := match s.mgmt.package with
    | some i => i.valid 2 0
    | none => false
  if s.modes.bringup || s.recovering then s.mbxSay p .activate .notInMode
  else if !ok then s.mbxSay p .activate .checkFail
  else if !fits then s.mbxSay p .activate .full
  else ({ s with mgmt := { s.mgmt with clips := clips } }.kwakelLog .activation 2).mbxSay p .activate .ok

/-! ## Other commands (R504, R507) -/

/-- COMMIT_SVN: the count rises to the SVN of the running image. -/
def mbxCommit (s : State) (p : Port) : State :=
  let k := s.mbxKind
  let f := s.mgmt.fuses
  if s.recovering then s.mbxSay p .commitSvn .notInMode
  else if 2 ≤ k then s.mbxSay p .commitSvn .badParam
  else
    let run := if k = 0 then (s.fwImage s.mgmt.fwSlot).svn else if s.libraryRuns then (s.libImage s.mgmt.libSlot).svn else 0
    let n := min 32 (max (s.svnCount k) run)
    { s with mgmt := { s.mgmt with fuses := if k = 0 then { f with svnFw := n } else { f with svnLib := n } } }.mbxEnd p .commitSvn .ok (Word.of n) 0

/-- ABORT: the session closes, and a rotation stops. -/
def mbxAbort (s : State) (p : Port) : State :=
  let s := match s.sessionOf p with
    | some _ => { s with mgmt := { s.mgmt with session := none } }
    | none => s
  let s := { s with mgmt := { s.mgmt with rot := s.mgmt.rot.map fun (r : Rotation) => { r with stop := true } } }
  s.mbxSay p .abort .ok

/-- Bytes written to board data. -/
def putBoard (l : Assoc Byte) (off : Nat) : List Byte → Assoc Byte
  | [] => l
  | b :: bs => putBoard (l.insert off b) (off + 1) bs

/-- BOARD. -/
def mbxBoard (s : State) (p : Port) (len : Nat) : State :=
  let off := (s.rd (Reg.MBX_ARG 0)).toNat
  if s.recovering || 2 ≤ s.mgmt.fuses.lifeState then s.mbxSay p .board .notInMode
  else if 2048 < len || boardBytes < off + len then s.mbxSay p .board .badParam
  else
    let f := s.mgmt.flash
    { s with mgmt := { s.mgmt with flash := { f with board := putBoard f.board off (s.mbxBytes len) } } }.mbxSay p .board .ok

/-! ## Restarts (R503, R508, R509) -/

/-- The command and the session in progress are lost with Kwakel's state. -/
def dropMailbox (s : State) : State :=
  let lost := s.mgmt.mbx.isSome
  let s := { s with mgmt := { s.mgmt with mbx := none, session := none } }
  if lost then (s.setBusy Pg.MGMT false).status Pg.MGMT .aborted else s

/-- Kwakel restarts. -/
def restart (s : State) (k : KState) : State :=
  let s := { s.dropMailbox with mgmt := { s.dropMailbox.mgmt with kstate := k } }
  (s.inc Reg.MGMT_STATE Fd.MGMT_STATE.RESTARTS).event Pg.MGMT Ev.MGMT.KWAKEL_RESTART

/-- A mailbox command completes (R506).
DEDUCED (log entry 50). -/
def mbxDone (s : State) : State :=
  match s.mgmt.mbx with
  | none => s
  | some c =>
    let doomed : Bool := match s.mgmt.session with
      | some x => x.doomed
      | none => false
    let s := { s with mgmt := { s.mgmt with mbx := none, session := if doomed then none else s.mgmt.session } }
    let s := (s.wr (Reg.MBX_RES 0) c.res0).wr (Reg.MBX_RES 1) c.res1
    let s := (s.setBusy Pg.MGMT false).put (Reg.PAGE_STATUS Pg.MGMT) Fd.PAGE_STATUS.LAST_STATUS (if doomed then Status.aborted.code else c.status)
    let s := s.event Pg.MGMT Ev.MGMT.CMD_DONE
    let s := s.eventIf (c.op = MbxOp.imgEnd.code && c.status = Status.checkFail.code) Pg.MGMT Ev.MGMT.IMG_CHECK_FAIL
    if c.restart && !s.mgmt.held then s.restart .restarting else s

/-- The watchdog expires: the third time in an hour Kwakel is held in RECOVERY; a firmware that an activation selected
and that fails within 60 s of its first start gives way to the one before it. -/
def watchdog (s : State) : State :=
  if s.mgmt.kstate != .running then s
  else
    let now := s.clk.now
    let near := s.mgmt.watchdogs.filter (fun x => now < x + secTicks 3600) ++ [now]
    let early : Bool := match s.mgmt.firstStart with
      | some f => now < f + secTicks 60
      | none => false
    let f := s.mgmt.flash
    let f := match f.fwPrev with
      | some k => if early then { f with fwSel := k, fwPrev := none } else f
      | none => f
    let held := 3 ≤ near.length
    { s with mgmt := { s.mgmt with watchdogs := near, flash := f, held := held } }.restart (if held then .recovery else .restarting)

/-- One occurrence of the hardware queue enters the log with its own stamps (R509, R519). -/
def logQueued (s : State) (r : LogRec) : State :=
  if hasRec r.page r.bit r.beat s.log.ram then
    { s with log := { s.log with ram := bumpRec r.page r.bit r.beat s.log.ram, mem := bumpRec r.page r.bit r.beat s.log.mem,
                                 due := bumpRec r.page r.bit r.beat s.log.due } }
  else match s.storeRec { r with seq := s.log.next } with
    | (s, false) => s
    | (s, true) => (s.inc Reg.LOG_LOST_CNT Fd.LOG_LOST_CNT.COUNT).event Pg.LOG Ev.LOG.LOST

/-- Kwakel logs what the hardware queue holds. -/
def drainQueue (s : State) : State :=
  let q := s.log.queue
  q.foldl logQueued { s with log := { s.log with queue := [] } }

/-- A restart completes. -/
def restarted (s : State) : State :=
  if s.mgmt.kstate != .restarting then s
  else match pickSlot s.mgmt.flash.fwSel s.fwValid with
    | none => { s with mgmt := { s.mgmt with kstate := .recovery } }
    | some k =>
      let m := s.mgmt
      let first := if m.firstStart.isNone && m.flash.fwPrev.isSome then some s.clk.now else m.firstStart
      let s := { s with mgmt := { m with kstate := .running, fwSlot := k, firstStart := first } }
      let s := (s.drainQueue).kwakelLog .restart 0
      if s.mgmt.boots then s else s.startFirmware

end State

/-! ## Meanings -/

/-- A mailbox command of a host port.
DEDUCED (log entry 50). -/
def State.mbxWrite (s : State) (p : Port) (f : State → State) : State := s.hostWrite p Reg.MBX_CMD fun s => s.mbxTake f

/-- INFO (R507). -/
def execInfo (t : Nat) (p : Port) (s : State) : Host.Outcome State Fault Refusal := s.act t fun s => s.mbxWrite p fun s => s.mbxInfo p

/-- IMG_BEGIN (R507). -/
def execImgBegin (t : Nat) (p : Port) (s : State) : Host.Outcome State Fault Refusal := s.act t fun s => s.mbxWrite p fun s => s.mbxBegin p

/-- IMG_DATA (R507). -/
def execImgData (t : Nat) (p : Port) (len : BitVec 12) (s : State) : Host.Outcome State Fault Refusal :=
  s.act t fun s => s.mbxWrite p fun s => s.mbxData p len.toNat

/-- IMG_END (R502, R507). -/
def execImgEnd (t : Nat) (p : Port) (verified : Bool) (s : State) : Host.Outcome State Fault Refusal :=
  s.act t fun s => s.mbxWrite p fun s => s.mbxImgEnd p verified

/-- ACTIVATE_FIRMWARE (R503, R507).
DEDUCED (log entry 50). -/
def execActivateFirmware (t : Nat) (p : Port) (s : State) : Host.Outcome State Fault Refusal := s.act t fun s => s.mbxWrite p fun s => s.mbxActFw p

/-- ACTIVATE_LIBRARY (R510). -/
def execActivateLibrary (t : Nat) (p : Port) (s : State) : Host.Outcome State Fault Refusal := s.act t fun s => s.mbxWrite p fun s => s.mbxActLib p

/-- ACTIVATE_DATA_PACKAGE (R210, R507). -/
def execActivateDataPackage (t : Nat) (p : Port) (clips : List (Nat × Clip)) (fits : Bool) (s : State) : Host.Outcome State Fault Refusal :=
  s.act t fun s => s.mbxWrite p fun s => s.mbxActData p clips fits

/-- COMMIT_SVN (R504). -/
def execCommitSvn (t : Nat) (p : Port) (s : State) : Host.Outcome State Fault Refusal := s.act t fun s => s.mbxWrite p fun s => s.mbxCommit p

/-- MBX_ABORT (R507). -/
def execMbxAbort (t : Nat) (p : Port) (s : State) : Host.Outcome State Fault Refusal := s.act t fun s => s.mbxWrite p fun s => s.mbxAbort p

/-- BOARD (R507). -/
def execBoard (t : Nat) (p : Port) (len : BitVec 12) (s : State) : Host.Outcome State Fault Refusal :=
  s.act t fun s => s.mbxWrite p fun s => s.mbxBoard p len.toNat

/-- MBX_CMD_DONE (R506). -/
def execMbxCmdDone (t : Nat) (s : State) : Host.Outcome State Fault Refusal := s.act t State.mbxDone

/-- KWAKEL_WATCHDOG (R503, R508). -/
def execKwakelWatchdog (t : Nat) (s : State) : Host.Outcome State Fault Refusal := s.act t State.watchdog

/-- KWAKEL_RESTART (R509). -/
def execKwakelRestart (t : Nat) (s : State) : Host.Outcome State Fault Refusal := s.act t State.restarted

end Sys2Proof.Machine
end

