-- ==== Sys2Proof/Machine/Rings.lean ====
section
/-! DEFINITION. The ring commands of the host (R395, R396). -/

namespace Sys2Proof.Machine

namespace State

/-- Run a ring command while a record with `n` words still to come is being written to the ring (R392). -/
def withPartial (s : State) (g n : Nat) (f : State → State) : State :=
  let s := f { s with nw := { s.nw with partials := [(g, n)] } }
  { s with nw := { s.nw with partials := [] } }

/-- A BAR2 write of a doorbell page: only the owner's counts; SEALED serves none (R396, R581). -/
def doorbellWrite (s : State) (p : Port) (r : Nat) (tail : Word) (descs : List RingDesc) : State :=
  let g := if p = .a then r else 128 + r
  if !s.linked p then s
  else match s.mgmt.kstate with
  | .boot => s
  | .recovery => s
  | _ =>
    if !s.ownedBy p then s.dropWrite p true (r * 0x1000)
    else if s.modes.phase = .sealed then s
    else s.doorbell g tail descs

end State

/-- RING_ENABLE (R395). -/
def execRingEnable (t : Nat) (p : Port) (g : BitVec 8) (s : State) : Host.Outcome State Fault Refusal :=
  s.act t fun s => s.hostWrite p (ringReg Reg.RING_CTRL g.toNat) fun s => s.ringEnable g.toNat

/-- RING_DISABLE (R395, R392). -/
def execRingDisable (t : Nat) (p : Port) (g : BitVec 8) (orphans : Nat) (s : State) : Host.Outcome State Fault Refusal :=
  s.act t fun s => s.hostWrite p (ringReg Reg.RING_CTRL g.toNat) fun s => s.withPartial g.toNat orphans fun s => s.ringDisable g.toNat

/-- RING_FLUSH (R395, R392). -/
def execRingFlush (t : Nat) (p : Port) (g : BitVec 8) (orphans : Nat) (s : State) : Host.Outcome State Fault Refusal :=
  s.act t fun s => s.hostWrite p (ringReg Reg.RING_CTRL g.toNat) fun s => s.withPartial g.toNat orphans fun s => s.ringFlush g.toNat

/-- DOORBELL (R396). -/
def execDoorbell (t : Nat) (p : Port) (r : BitVec 7) (tail : Word) (descs : List RingDesc) (s : State) : Host.Outcome State Fault Refusal :=
  s.act t fun s => s.doorbellWrite p r.toNat tail descs

end Sys2Proof.Machine
end

