-- ==== Sys2Proof/Machine/Sense.lean ====
section
/-! DEFINITION. Sensors, the log's stores and its registers, and the management port (R514 to R517, R519 to R523). -/

namespace Sys2Proof.Machine

/-- The mean of samples, rounded down.
DEDUCED (log entry 52). -/
def meanOf (l : List Int) : Int := l.foldl (· + ·) 0 / (max 1 l.length : Nat)

/-- A flag that a reading sets from a threshold on and clears below another. -/
def flagAfter (was set clear : Bool) : Bool := set || (was && !clear)

namespace State

/-! ## Readings (R514, R515) -/

/-- Both sensors of a pair have failed: its reading holds.
DEDUCED (log entry 52). -/
def pairDead (l : List (Bool × Bool)) (i : Nat) : Bool :=
  match l[i]? with
  | some x => x.1 && x.2
  | none => true

/-- The flags of a sensor register after a reading; the events latch when a flag sets.
DEDUCED (log entry 52). -/
def sensorFlags (s : State) (a : Nat) (warn crit : Bool) (evWarn evCrit : Nat) : State :=
  let w := s.flag a Fd.SENSOR_TEMP.WARN
  let c := s.flag a Fd.SENSOR_TEMP.CRIT
  let s := (s.putB a Fd.SENSOR_TEMP.WARN warn).putB a Fd.SENSOR_TEMP.CRIT crit
  (s.eventIf (warn && !w) Pg.SENSOR evWarn).eventIf (crit && !c) Pg.SENSOR evCrit

/-- One sample of a thermal site in 1/16 °C. -/
def tempSample (s : State) (i : Nat) (x : Int) : State :=
  if pairDead s.sens.tempFail i then s
  else
    let l := (x :: s.sens.temps.getD i []).take 16
    let r := meanOf l
    let a := Reg.SENSOR_TEMP i
    let deg (n : Nat) : Int := n * 16
    let tw := deg (s.get Reg.SENSOR_T_WARN Fd.SENSOR_T_WARN.C)
    let tc := deg (s.get Reg.SENSOR_T_CRIT Fd.SENSOR_T_CRIT.C)
    let th := deg (s.get Reg.SENSOR_T_HYST Fd.SENSOR_T_HYST.C)
    let s := { s with sens := { s.sens with temps := s.sens.temps.set i l } }.putI a Fd.SENSOR_TEMP.TEMP r
    s.sensorFlags a (flagAfter (s.flag a Fd.SENSOR_TEMP.WARN) (tw ≤ r) (r < tw - th))
      (flagAfter (s.flag a Fd.SENSOR_TEMP.CRIT) (tc ≤ r) (r < tc - th)) Ev.SENSOR.T_WARN Ev.SENSOR.T_CRIT

/-- Nominal of a voltage monitor in mV (R514). -/
def nominal (s : State) (i : Nat) : Nat :=
  if i < 2 then s.get Reg.SENSOR_VCORE_TGT Fd.SENSOR_VCORE_TGT.MV else [0, 0, 800, 1350, 750, 1200, 1800, 800].getD i 800

/-- One sample of a voltage monitor in mV. -/
def voltSample (s : State) (i : Nat) (x : Nat) : State :=
  if pairDead s.sens.voltFail i then s
  else
    let l := (x :: s.sens.volts.getD i []).take 16
    let r := l.foldl (· + ·) 0 / max 1 l.length
    let a := Reg.SENSOR_VOLT i
    let n := s.nominal i
    let dev := ((r : Int) - n).natAbs
    let wp := s.get Reg.SENSOR_V_LIMITS Fd.SENSOR_V_LIMITS.WARN_PCT
    let cp := s.get Reg.SENSOR_V_LIMITS Fd.SENSOR_V_LIMITS.CRIT_PCT
    let s := { s with sens := { s.sens with volts := s.sens.volts.set i l } }.put a Fd.SENSOR_VOLT.MV r
    s.sensorFlags a (flagAfter (s.flag a Fd.SENSOR_TEMP.WARN) (wp * n ≤ dev * 100) (dev * 200 ≤ wp * n))
      (flagAfter (s.flag a Fd.SENSOR_TEMP.CRIT) (cp * n ≤ dev * 100) (dev * 200 ≤ cp * n)) Ev.SENSOR.V_WARN Ev.SENSOR.V_CRIT

/-- The reading of a thermal site. -/
def tempAt (s : State) (i : Nat) : Int := s.getI (Reg.SENSOR_TEMP i) Fd.SENSOR_TEMP.TEMP

/-- SENSOR_HOTTEST: the lowest site of the highest reading. -/
def showHottest (s : State) : State :=
  let top := (List.range 12).foldl (fun m i => if s.tempAt m < s.tempAt i then i else m) 0
  (s.put Reg.SENSOR_HOTTEST Fd.SENSOR_HOTTEST.SITE top).putI Reg.SENSOR_HOTTEST Fd.SENSOR_HOTTEST.TEMP (s.tempAt top)

/-- PLLs that have found lock again (R518).
DEDUCED (log entry 19). -/
def relock (s : State) (locks : Nat) : State :=
  let l := s.get Reg.SENSOR_PLL Fd.SENSOR_PLL.LOCK ||| locks
  let s := s.put Reg.SENSOR_PLL Fd.SENSOR_PLL.LOCK l
  { s with spares := { s.spares with standbyLocked := l.testBit 1 } }.relCheck

/-- Any sample at or above T_TRIP (R515). -/
def trips (s : State) (temps : List Int) : Bool :=
  temps.any fun x => (s.get Reg.SENSOR_T_TRIP Fd.SENSOR_T_TRIP.C : Int) * 16 ≤ x

/-- The thermal trip: THERM_TRIP_N goes low, a record enters log RAM, and the 9340 is held in reset (R515).
DEDUCED (log entry 52). -/
def thermTrip (s : State) : State :=
  let s := (s.kwakelLog .trip 0).emit .tripN
  { s with pwr := { s.pwr with trip := true } }.cleared

/-- Kwakel takes the samples of every site and monitor. -/
def sampled (s : State) (temps : List Int) (volts : List Nat) (devTemps : List Int) (locks : Nat) : State :=
  if s.mgmt.kstate != .running then s
  else
    let s := s.noteQuiet
    let s := ((List.range 12).zip temps).foldl (fun s x => s.tempSample x.1 x.2) s
    let s := ((List.range 8).zip volts).foldl (fun s x => s.voltSample x.1 x.2) s
    let s := ((List.range 4).zip devTemps).foldl (fun s x => s.putI (Reg.MEM_DEV_TEMP x.1) Fd.MEM_DEV_TEMP.TEMP x.2) s
    ((s.showHottest).relock locks).noteQuiet

/-! ## Failover (R517) -/

/-- A pair after one of its sensors failed. -/
def failPair (x : Bool × Bool) (twin : Bool) : Bool × Bool := if twin then (x.1, true) else (true, x.2)

/-- A sensor out of line with its twin and with the others of its kind fails; for a primary its twin takes over and a
spare is used. -/
def sensorFail (s : State) (volt : Bool) (i : Nat) (twin : Bool) : State :=
  let l := if volt then s.sens.voltFail else s.sens.tempFail
  match l[i]? with
  | none => s
  | some x =>
    if s.mgmt.kstate != .running || failPair x twin = x then s
    else
      let a := if volt then Reg.SENSOR_VOLT i else Reg.SENSOR_TEMP i
      let l := l.set i (failPair x twin)
      let takes := !twin && !x.2
      let s := { s with sens := if volt then { s.sens with voltFail := l } else { s.sens with tempFail := l } }
      let s := s.putB a Fd.SENSOR_TEMP.FAILED true
      let s := if takes then s.putB a Fd.SENSOR_TEMP.TWIN true else s
      let s := if takes then
          { s with spares := if volt then { s.spares with spareMonitors := s.spares.spareMonitors - 1 }
            else { s.spares with spareDiodes := s.spares.spareDiodes - 1 } }
        else s
      let s := (s.event Pg.SENSOR Ev.SENSOR.SENSOR_FAIL).recordFault (if volt then 15 else 14) 0 0 12 false
      s.kwakelLog .failover (i + 256 * b2n volt)

/-! ## The log (R521, R522) -/

/-- The oldest record that flash is due takes its place there; a block that fails is replaced by a spare one. -/
def flashLog (s : State) (bad : Bool) : State :=
  if s.mgmt.kstate != .running then s
  else match s.log.due with
    | [] => s
    | r :: rest =>
      let s := { s with log := { s.log with due := rest } }
      let written (s : State) : State := { s with log := { s.log with flash := pushFlash r s.log.flash } }
      if !bad then written s
      else if s.log.spare = 0 then s
      else (written { s with log := { s.log with spare := s.log.spare - 1 } }).recordFault 16 0 0 13 false

/-- The records of a store, newest first; GDDR-6 holds some only while READY.
DEDUCED (log entry 51). -/
def logStore (s : State) (store : Nat) : List LogRec :=
  if store = 0 then s.log.ram else if store = 1 then (if s.memReady then s.log.mem else []) else s.log.flash

/-- Fill LOG_RD_DATA.
DEDUCED (log entry 51). -/
def putLogData (s : State) (bs : List Byte) : State :=
  (List.range 8).foldl (fun s k => s.wr (Reg.LOG_RD_DATA k) (Word.of (leAt bs (4 * k) 4))) s

/-- A write of LOG_RD_SEQ. A number that the store has passed over, neither before its oldest record nor at LOG_WR_SEQ,
has no status in the manual: a free value.
DEDUCED (log entry 51). -/
def logFetch (s : State) (v : Word) : State :=
  let l := s.logStore (s.get Reg.LOG_RD_STORE Fd.LOG_RD_STORE.STORE)
  if beatAtOrAfter v s.log.next then (s.putLogData []).status Pg.LOG .badParam
  else match l.find? fun r => r.seq = v with
    | some r => (s.putLogData r.bytes).status Pg.LOG .ok
    | none =>
      match l.getLast? with
      | some o =>
        if beatAfter o.seq v then (s.putLogData []).status Pg.LOG .late else gap s
      | none => gap s
where
  /-- No rule names the status. -/
  gap (s : State) : State :=
    let (w, s) := s.freeWord
    (s.putLogData []).put (Reg.PAGE_STATUS Pg.LOG) Fd.PAGE_STATUS.LAST_STATUS (w.toNat % 16)

/-- A write of LOG_NOTE.
DEDUCED (log entry 51). -/
def logNote (s : State) (v : Word) : State :=
  let c := fieldOf v Fd.LOG_NOTE.COLOUR
  if c = 0 then s.status Pg.LOG .badParam
  else
    let r : LogRec :=
      { seq := s.log.next, beat := s.clk.n, stamp := s.netStamp, colour := c, kwakel := false, host := true, page := 0, bit := 0, rep := 0,
        data := wordBytes (s.rd (Reg.LOG_NOTE_DATA 0)) ++ wordBytes (s.rd (Reg.LOG_NOTE_DATA 1)) }
    match s.storeRec r with
    | (s, false) => s.status Pg.LOG .ok
    | (s, true) => ((s.inc Reg.LOG_LOST_CNT Fd.LOG_LOST_CNT.COUNT).event Pg.LOG Ev.LOG.LOST).status Pg.LOG .ok

/-! ## The management port (R523) -/

/-- An ARP request (RFC 826) for an IPv4 address. -/
def arpFor (f : List Byte) (ip : Nat) : Bool :=
  beAt f 12 2 = 0x0806 && beAt f 14 2 = 1 && beAt f 16 2 = 0x0800 && beAt f 18 2 = 0x0604 && beAt f 20 2 = 1 && beAt f 38 4 = ip

/-- The reply to an ARP request, padded to 60 bytes.
DEDUCED (log entry 55). -/
def arpReply (f : List Byte) (ip mac : Nat) : List Byte :=
  slice f 22 6 ++ beBytes 6 mac ++ [8, 6, 0, 1, 8, 0, 6, 4, 0, 2] ++ beBytes 6 mac ++ beBytes 4 ip ++ slice f 22 10 ++ List.replicate 18 0

/-- A frame received on the management port: ARP is answered, everything else dropped.
DEDUCED (log entry 55). -/
def mgmtFrame (s : State) (f : List Byte) : State :=
  let ip := (s.rd Reg.MGMT_NET_IP).toNat
  if s.mgmt.kstate = .running && s.flag Reg.MGMT_NET_CTRL Fd.MGMT_NET_CTRL.EN && arpFor f ip then
    s.emit (.mgmt (arpReply f ip Config.mgmtMac.toNat))
  else s

/-! ## GPIO and PERST_N (R568, R575) -/

/-- A GPIO ball reaches a level. An edge of a ball of the host sets its edge bit where EDGE_EN lets it.
DEDUCED (log entry 54). -/
def gpioLevel (s : State) (k : Nat) (high : Bool) : State :=
  let old := s.get Reg.IO_GPIO_IN Fd.IO_GPIO_IN.IN
  if old.testBit k = high then s
  else
    let s := s.put Reg.IO_GPIO_IN Fd.IO_GPIO_IN.IN (old ^^^ 2 ^ k)
    let edges := s.get Reg.IO_GPIO_EDGE Fd.IO_GPIO_EDGE.EDGE
    if s.get (Reg.IO_MUX k) Fd.IO_MUX.USER = 1 && (s.get Reg.IO_GPIO_EDGE_EN Fd.IO_GPIO_EDGE_EN.EN).testBit k && !edges.testBit k then
      (s.put Reg.IO_GPIO_EDGE Fd.IO_GPIO_EDGE.EDGE (edges ||| 2 ^ k)).event Pg.IO Ev.IO.GPIO_EDGE
    else s

/-- The level of PERST_N of a port. -/
def setLink (s : State) (p : Port) (high : Bool) : State :=
  match p with
  | .a => { s with pwr := { s.pwr with linkA := high } }
  | .b => { s with pwr := { s.pwr with linkB := high } }

end State

/-! ## Meanings -/

/-- SENSOR_SAMPLE (R476, R514, R515): `devTemps` are the readouts of the GDDR-6 devices in °C. -/
def execSensorSample (t : Nat) (temps : List Int) (volts : List Nat) (devTemps : List Int) (locks : BitVec 6) (s : State) : Host.Outcome State Fault Refusal :=
  if (s.atTick t).up && s.trips temps then .next (s.atTick t).thermTrip else s.act t fun s => s.sampled temps volts devTemps locks.toNat

/-- SENSOR_FAIL (R517). -/
def execSensorFail (t : Nat) (volt : Bool) (i : Nat) (twin : Bool) (s : State) : Host.Outcome State Fault Refusal :=
  s.act t fun s => s.sensorFail volt i twin

/-- FLASH_LOG_WRITE (R521). -/
def execFlashLogWrite (t : Nat) (bad : Bool) (s : State) : Host.Outcome State Fault Refusal := s.act t fun s => s.flashLog bad

/-- MGMT_FRAME_RECEIVE (R523). -/
def execMgmtFrameReceive (t : Nat) (frame : List Byte) (s : State) : Host.Outcome State Fault Refusal := s.act t fun s => s.mgmtFrame frame

/-- LOG_RD_SEQ (R522). -/
def execLogRdSeq (t : Nat) (p : Port) (v : Word) (s : State) : Host.Outcome State Fault Refusal :=
  s.act t fun s => s.hostWrite p Reg.LOG_RD_SEQ fun s => s.logFetch v

/-- LOG_NOTE (R522). -/
def execLogNote (t : Nat) (p : Port) (v : Word) (s : State) : Host.Outcome State Fault Refusal :=
  s.act t fun s => s.hostWrite p Reg.LOG_NOTE fun s => s.logNote v

/-- GPIO_EDGE (R575).
DEDUCED (log entry 54). -/
def execGpioEdge (t : Nat) (k : BitVec 4) (high : Bool) (s : State) : Host.Outcome State Fault Refusal :=
  s.act t fun s => s.gpioLevel k.toNat high

/-- PERST_N (R568): low holds the port's link down and acts as a function level reset; at its rise the link trains. -/
def execPerstN (t : Nat) (p : Port) (high : Bool) (s : State) : Host.Outcome State Fault Refusal :=
  let was := s.linked p
  (s.setLink p high).act t fun s => if high then (if was then s else s.emit (.train p)) else s.functionReset p

end Sys2Proof.Machine
end

