-- ==== Sys2Proof/Machine/Views.lean ====
section
/-! DEFINITION. Registers that show other parts of the state: the common header, counts of what is open, queued or in
service, and the states of units (R23, R29, R44, R95, R499). -/

namespace Sys2Proof.Machine

/-- The two low bits of OWN_STATE. -/
def Owner.code : Owner → Nat
  | .none => 0 | .host .a => 1 | .host .b => 2 | .proxy => 3

/-- The code of MODE_STATE.SEAL_PHASE. -/
def SealPhase.code : SealPhase → Nat
  | .none => 0 | .draining => 1 | .drained => 2 | .wiping => 3 | .sealed => 4

/-- The code of TXN_SLOT_STATE.STATE. -/
def SlotState.code : SlotState → Nat
  | .free => 0 | .opened => 1 | .pending => 2

/-- A bit for each index below `n` with a property. -/
def bitsWhere (n : Nat) (f : Nat → Bool) : Nat := (List.range n).foldl (fun w i => if f i then w + 2 ^ i else w) 0

/-- The mapped pages (R25). -/
def mappedPages : List Nat := (pages.map fun p => (List.range p.count).map fun i => p.first + i).flatten

/-- How many of a list have a property. -/
def countOf {α : Type} (f : α → Bool) (l : List α) : Nat := (l.filter f).length

namespace State

/-! ## The common header (R23) -/

/-- REL_INVk. -/
def relInv (s : State) (k : Nat) : Nat :=
  b2n (s.noTol k) * 2 ^ 31 + min 32767 (s.inventory k).2 * 65536 + (s.inventory k).1 % 32768

/-- LEFT and NO_TOLERANCE of a page's SPARE_STATE. -/
def spareLeft (s : State) (page : Nat) : Nat × Bool :=
  if 0x10 ≤ page && page < 0x20 then
    let cs : List Core := match s.cluster (page - 0x10) with
      | some c => if c.cstate = .serving then c.cores else []
      | none => []
    let res := countOf (fun (x : Core) => x.role = .reserve) cs
    (b2n (0 < res), res = 0 && countOf (fun (x : Core) => x.role = .serving) cs < 9)
  else if page = Pg.LPAIR then
    let l := s.standbys
    (countOf s.linkIsUp l, l.any fun p => !s.linkIsUp p)
  else if page = Pg.STRIPE then (b2n (s.devicesOk = 4), 0 < s.devicesLost)
  else if page = Pg.RETIRE then (s.freeEntries / 64, s.freeEntries = 0 || s.goodSpares = 0)
  else if page = Pg.REL then (countOf (fun k => !s.noTol k) (List.range 17), (List.range 17).any s.noTol)
  else if page = Pg.SENSOR then ((s.inventory 14).2, s.noTol 14)
  else if page = Pg.LOG then ((s.inventory 16).2, s.noTol 16)
  else (0, false)

/-- The common header's read-only words.
DEDUCED (log entry 6). -/
def viewHeader (s : State) (page off : Nat) : Option Nat :=
  match findPage page with
  | none => some 0
  | some (p, i) =>
    if off = 0 then some (p.code * 65536 + i * 256 + 1)
    else if off = 4 then some (p.severities.length * 65536)
    else if off = 0x24 then
      let total := if page = Pg.SENSOR then 12 else if page = Pg.LOG then 16 else p.spares
      let (left, none_) := s.spareLeft page
      some (b2n none_ * 65536 + min 255 left * 256 + total)
    else none

/-! ## Host pages (R29, R44, R95, R555) -/

/-- OWN_STATE. -/
def ownWord (s : State) : Nat :=
  let o := s.own
  o.lastCause * 65536 + o.epoch.toNat * 256 + b2n o.pb.claim * 32 + b2n o.pa.claim * 16 + o.owner.code

/-- The latch bits of a page that are enabled. -/
def pendOf (s : State) (page : Nat) : Word := s.rd (Reg.EVT_LATCH page) &&& s.rd (Reg.EVT_ENABLE page)

/-- EVT_PENDk. -/
def evtPend (s : State) (k : Nat) : Nat :=
  bitsWhere 32 fun i => mappedPages.contains (32 * k + i) && s.pendOf (32 * k + i) != 0

/-- EVT_SEVMAX. -/
def evtSevMax (s : State) : Nat :=
  (mappedPages.map fun page =>
    let w := s.pendOf page
    ((List.range 32).map fun b => if w.getLsbD b then severityOf page b else 0).foldl max 0).foldl max 0

/-- The slot registers of the TXN page; STATUS is defined only while DONE is 1 (log entry 12). -/
def viewTxn (s : State) (off : Nat) : Option Nat :=
  if off = 0x58 then
    some (bitsWhere 16 (fun i => (s.slot i).any fun x => x.state = .opened)
      + 65536 * bitsWhere 16 fun i => (s.slot i).any fun x => x.state = .pending)
  else if 0x100 ≤ off && off < 0x200 then
    match s.slot ((off - 0x100) / 16) with
    | none => none
    | some x =>
      if off % 16 = 0 then
        let st := if x.done || x.state = .free then x.status else (Config.freeWord s.freeCtr).toNat % 256
        some (st * 65536 + min 512 x.entries.length * 16 + b2n x.poisoned * 8 + b2n x.done * 4 + x.state.code)
      else if off % 16 = 4 then some x.target.toNat
      else if off % 16 = 8 then some x.tag.toNat
      else some (b2n x.failValid * 1024 + (if x.failValid then x.failEntry % 1024 else 0))
  else none

/-- MODE_STATE, MODE_HOLD and MODE_BRINGUP_CH. -/
def viewMode (s : State) (off : Nat) : Option Nat :=
  let m := s.modes
  if off = 0x40 then
    some (m.phase.code * 2 ^ 24 + s.ccause * 65536
      + (b2n m.bringup + 2 * b2n m.sealOn + 4 * b2n m.isolate + 8 * b2n m.maint + 16 * b2n m.constrain) * 256
      + b2n (m.maint && m.rotMaint) * 8 + m.mode)
  else if off = 0x50 then some s.modeHold
  else if off = 0x78 then some s.compactSlots
  else none

/-! ## Cores and dispatch (R249, R270, R272, R499) -/

/-- A core's role as it is seen: offline while its cluster does not serve (R231). -/
def seenRole (c : Cluster) (x : Core) : Role := if c.cstate = .serving then x.role else .offline

/-- The views of a CLU page. -/
def viewClu (s : State) (k off : Nat) : Option Nat :=
  match s.cluster k with
  | none => none
  | some c =>
    let n (r : Role) : Nat := countOf (fun x => seenRole c x = r) c.cores
    if off = 0x40 then some (c.cstate.code * 4096 + n .retired * 256 + n .reserve * 16 + n .serving)
    else if off = 0x44 then some ((c.cores.map fun x => (seenRole c x).code).foldr (fun r w => r + 4 * w) 0)
    else if off = 0x48 then some c.lib.toNat
    else if off = 0x50 then some (countOf (fun (x : Chan) => x.home = k) s.openChans)
    else if off = 0x54 then some (s.homeLoad k)
    else none

/-- The views of the DSP page. -/
def viewDsp (s : State) (off : Nat) : Option Nat :=
  if 0x80 ≤ off && off < 0xA0 then some (countOf (fun (j : Job) => j.state = .ready && j.level = (off - 0x80) / 4) s.disp.jobs)
  else if off = 0xA0 then some (countOf (fun (j : Job) => j.state = .ready && j.list = .global) s.disp.jobs)
  else none

/-- TRACE_STATE. -/
def viewTrace (s : State) (off : Nat) : Option Nat :=
  if off = 0x60 then some (b2n s.trace.stopped * 2 + b2n (s.traceMode != 0 && !s.trace.stopped)) else none

/-- The views of the REL page. -/
def viewRel (s : State) (off : Nat) : Option Nat :=
  let k := s.get Reg.REL_CORE_SEL Fd.REL_CORE_SEL.CLUSTER
  let i := s.get Reg.REL_CORE_SEL Fd.REL_CORE_SEL.CORE
  if off = 0x40 then
    some (b2n (s.notolBits = 0 && s.peakLoad ≤ s.get Reg.CHAN_CEILING Fd.CHAN_CEILING.CYCLES) * 2 ^ 31 + s.notolBits)
  else if off = 0x54 then
    match s.cluster k, s.core k i with
    | some c, some x => some (x.total * 65536 + (seenRole c x).code * 256 + min 255 (recentFaults s.clk.n x.history).length)
    | _, _ => none
  else if off = 0x58 then (s.core k i).map fun x => x.lastFault.toNat
  else if 0x100 ≤ off && off < 0x144 then some (s.relInv ((off - 0x100) / 4))
  else none

/-! ## Channels and media (R122, R143, R168, R193, R212, R228, R432) -/

/-- The legs of the open channels. -/
def openLegs (s : State) : List (Chan × Bool) := s.openChans.flatMap fun c => [(c, false), (c, true)]

/-- The views of the CHAN page. -/
def viewChan (s : State) (off : Nat) : Option Nat :=
  let l := s.openChans
  if off = 0xA4 then some l.length
  else if off = 0xAC then some s.peakLoad
  else if off = 0xBC then some (countOf (fun (c : Chan) => c.cfg.emergency) l)
  else if off = 0xC0 then some (countOf (fun (c : Chan) => c.cfg.paired) l)
  else if off = 0xC4 then some (countOf (fun (c : Chan) => c.cfg.standing) l)
  else if off = 0xC8 then some s.tdmLegs
  else none

/-- Open packet legs with a codec. -/
def codecLegs (s : State) (k : Nat) : Nat := countOf (fun (x : Chan × Bool) => (x.1.cfg.leg x.2).codec? = some k) s.openLegs

/-- CODEC_LEGSk. -/
def viewCodec (s : State) (off : Nat) : Option Nat :=
  if Reg.CODEC_LEGS 0 % 4096 ≤ off && off ≤ Reg.CODEC_LEGS 11 % 4096 then some (s.codecLegs ((off - Reg.CODEC_LEGS 0 % 4096) / 4)) else none

/-- JBUF_LEGS: packet legs but those of UDPTL. -/
def viewJbuf (s : State) (off : Nat) : Option Nat :=
  if off = Reg.JBUF_LEGS % 4096 then
    some (countOf (fun (x : Chan × Bool) => (x.1.cfg.leg x.2).kind = 0 && !(x.1.cfg.leg x.2).isFax) s.openLegs)
  else none

/-- TONE_ANN_CNT. -/
def viewTone (s : State) (off : Nat) : Option Nat := if off = Reg.TONE_ANN_CNT % 4096 then some s.mgmt.clips.length else none

/-- RATE_CONV_LEGS and RATE_FROZEN_LEGS. -/
def viewRate (s : State) (off : Nat) : Option Nat :=
  if off = Reg.RATE_CONV_LEGS % 4096 then some (countOf (fun (x : Chan × Bool) => x.1.cfg.convert x.2) s.openLegs)
  else if off = Reg.RATE_FROZEN_LEGS % 4096 then some (countOf (fun (x : Chan × Bool) => (x.1.leg x.2).rate.frozen) s.openLegs)
  else none

/-- ECAN_NB_CNT and ECAN_WB_CNT. -/
def viewEcan (s : State) (off : Nat) : Option Nat :=
  let n (wide : Bool) : Nat := countOf (fun (c : Chan) => c.cfg.ec != .off && (c.cfg.intKhz != 8) = wide) s.openChans
  if off = Reg.ECAN_NB_CNT % 4096 then some (n false) else if off = Reg.ECAN_WB_CNT % 4096 then some (n true) else none

/-- MDM_SESS_TALDY and MDM_SESS_FAX. -/
def viewMdm (s : State) (off : Nat) : Option Nat :=
  if off = Reg.MDM_SESS_TALDY % 4096 then some (s.sessCount .taldy)
  else if off = Reg.MDM_SESS_FAX % 4096 then some (s.sessCount .fax)
  else none

/-! ## Network side (R294, R320, R322, R344, R346, R368, R370, R372, R385, R402) -/

/-- PKT_MEM_USED. -/
def viewPkt (s : State) (off : Nat) : Option Nat := if off = Reg.PKT_MEM_USED % 4096 then some s.memUsed else none

/-- EGS_QUEUED and EGS_MEM_USED. -/
def viewEgs (s : State) (off : Nat) : Option Nat :=
  if off = Reg.EGS_QUEUED % 4096 then some ((s.nw.flows.map fun (x : Nat × FlowRun) => x.2.q.length).foldl (· + ·) 0)
  else if off = Reg.EGS_MEM_USED % 4096 then some s.egressUsed
  else none

/-- SHP_FLOWS_EN and SHP_AGGS_EN. -/
def viewShp (s : State) (off : Nat) : Option Nat :=
  if off = Reg.SHP_FLOWS_EN % 4096 then some (countOf (fun (x : Nat × FlowRun) => x.2.shp.cfg.en) s.nw.flows)
  else if off = Reg.SHP_AGGS_EN % 4096 then some (countOf (fun (x : Nat × AggRun) => x.2.shp.cfg.en) s.nw.aggs)
  else none

/-- The views of a MAC page: the lane mode is port 0's. -/
def viewMac (s : State) (p off : Nat) : Option Nat :=
  if off = Reg.MAC_LANE_MODE 0 % 4096 then some s.laneMode
  else if off = Reg.MAC_PAUSE_ST 0 % 4096 then some (bitsWhere 8 (s.inHoldoff p) * 256 + bitsWhere 8 (s.isHeld p))
  else none

/-- LPAIR_STATEk.
DEDUCED (log entry 6). -/
def viewLpair (s : State) (off : Nat) : Option Nat :=
  if 0x40 ≤ off && off < 0x80 && off % 16 = 4 then
    let k := (off - 0x40) / 16
    let x := s.pair k
    if s.pairEn k then some (b2n x.down * 16 + b2n (s.linkIsUp (s.otherMember k x.active)) * 8 + x.active) else some 0
  else none

/-- The snapshot of R352 that port `p` last latched, and TIME_SLEW_LEFT. -/
def viewTime (s : State) (p : Port) (off : Nat) : Option Nat :=
  let x := match p with
    | .a => s.timeSnapA
    | .b => s.timeSnapB
  if off = 0x48 then some (x.gen * 2 ^ 24 + x.sec / 2 ^ 32 % 65536)
  else if off = 0x4C then some x.ns
  else if off = 0x50 then some x.frac
  else if off = 0x78 then some (toField 32 ((s.net.left s.clk.now s.refs.dco).tdiv 65536))
  else none

/-- PTIME_TS_ID. -/
def viewPtime (s : State) (p off : Nat) : Option Nat := if off = 0x60 then some (s.mac p).tsNext else none

/-- GATE_OPERi. -/
def viewGate (s : State) (p off : Nat) : Option Nat :=
  if 0x800 ≤ off && off < 0xC00 then
    match (s.gateOf p).oper.bind fun g => g.entries[(off - 0x800) / 4]? with
    | some e => some (e.gates % 256 * 2 ^ 24 + e.interval % 2 ^ 24)
    | none => some 0
  else none

/-- A leg's PCM highway. -/
def LegCfg.hwy? : LegCfg → Option Nat
  | .pcm _ h _ => some h
  | _ => none

/-- PCM_STATUS, and the group settings that every page of a group reads (R374). -/
def viewPcm (s : State) (h off : Nat) : Option Nat :=
  if off = Reg.PCM_GROUP_CFG 0 % 4096 then some (s.rd (Reg.PCM_GROUP_CFG (h / 4 * 4))).toNat
  else if off = Reg.PCM_STATUS 0 % 4096 then
    some ((s.group (h / 4)).st.code * 65536
      + min 255 (countOf (fun (x : Chan × Bool) => LegCfg.hwy? (x.1.cfg.leg x.2) = some h) s.openLegs))
  else none

/-- RING_RUNNING. -/
def viewRing (s : State) (off : Nat) : Option Nat :=
  if off = Reg.RING_RUNNING % 4096 then some (countOf s.ringRuns (List.range 256)) else none

/-! ## Stores, Kwakel and fuses (R26, R452, R476, R527, R531, R532) -/

/-- The counts of the ARC page. -/
def viewArc (s : State) (off : Nat) : Option Nat :=
  if off = Reg.ARC_DONE_CNT % 4096 then some s.arc.done.length
  else if off = Reg.ARC_SEGS % 4096 then some s.memMap.segments
  else if off = Reg.ARC_CHAIN_LEN % 4096 then some s.chainLen
  else if off = Reg.ARC_STREAMS % 4096 then some s.streamCount
  else none

/-- MEM_SCRUB_POS: the scrub moves on evenly through its pass (log entry 40). -/
def viewMem (s : State) (off : Nat) : Option Nat :=
  if off = Reg.MEM_SCRUB_POS % 4096 then
    let n := scrubSectors (s.flag Reg.MEM_CFG Fd.MEM_CFG.DENSITY)
    some (if s.memReady then min (n - 1) ((s.clk.now - s.mem.since) * n / s.passTicks) else 0)
  else none

/-- The views of the MGMT page. -/
def viewMgmt (s : State) (off : Nat) : Option Nat :=
  let m := s.mgmt
  if off = 0x40 then
    some (s.get Reg.MGMT_STATE Fd.MGMT_STATE.RESTARTS * 256 + m.libSlot * 32 + m.fwSlot * 16 + m.kstate.code)
  else if off = 0x44 then some (s.fwImage m.fwSlot).version.toNat
  else if off = 0x48 then some (s.libImage m.libSlot).version.toNat
  else if off = 0x4C then some (m.fuses.svnLib * 256 + m.fuses.svnFw)
  else if off = 0x50 then
    some (b2n m.rot.isSome * 2 ^ 31 + b2n (m.rot.any fun r => r.wait) * 2 ^ 30
      + s.get Reg.MGMT_ROT Fd.MGMT_ROT.CUR * 65536 + s.get Reg.MGMT_ROT Fd.MGMT_ROT.DONE)
  else none

/-- The oldest record of a store; the manual gives no value for an empty one (log entry 12). -/
def oldestIn (s : State) (l : List LogRec) : Nat :=
  match l.getLast? with
  | some r => r.seq.toNat
  | none => (Config.freeWord s.freeCtr).toNat

/-- LOG_WR_SEQ and the three LOG_OLDEST registers. -/
def viewLog (s : State) (off : Nat) : Option Nat :=
  if off = 0x44 then some s.log.next.toNat
  else if off = 0x48 then some (s.oldestIn s.log.ram)
  else if off = 0x4C then some (s.oldestIn (if s.memReady then s.log.mem else []))
  else if off = 0x50 then some (s.oldestIn s.log.flash)
  else none

/-- LIFE_CHALLENGE. -/
def viewLife (s : State) (off : Nat) : Option Nat :=
  if off = 0x48 then some (s.mgmt.challenge % 2 ^ 32) else if off = 0x4C then some (s.mgmt.challenge / 2 ^ 32 % 2 ^ 32) else none

/-! ## All pages -/

/-- The view of a block register of single pages 0x00 to 0x5F. -/
def viewLow (s : State) (page off : Nat) : Option Nat :=
  if page = Pg.DEV then (if off = 0x44 then some (Config.serial % 2 ^ 32) else if off = 0x48 then some (Config.serial / 2 ^ 32 % 2 ^ 32) else none)
  else if page = Pg.OWN then (if off = 0x40 then some s.ownWord else none)
  else if page = Pg.TXN then s.viewTxn off
  else if page = Pg.EVT then
    (if 0x40 ≤ off && off < 0x60 then some (s.evtPend ((off - 0x40) / 4)) else if off = 0x60 then some s.evtSevMax else none)
  else if page = Pg.MODE then s.viewMode off
  else if 0x10 ≤ page && page < 0x20 then s.viewClu (page - 0x10) off
  else if page = Pg.DSP then s.viewDsp off
  else if page = Pg.TRACE then s.viewTrace off
  else if page = Pg.CHAN then s.viewChan off
  else if page = Pg.CODEC then s.viewCodec off
  else if page = Pg.JBUF then s.viewJbuf off
  else if page = Pg.TONE then s.viewTone off
  else if page = Pg.RATE then s.viewRate off
  else if page = Pg.ECAN then s.viewEcan off
  else if page = Pg.PKT then s.viewPkt off
  else if page = Pg.EGS then s.viewEgs off
  else if page = Pg.SHP then s.viewShp off
  else none

/-- The view of a block register of the pages from 0x60 on. -/
def viewHigh (s : State) (p : Port) (page off : Nat) : Option Nat :=
  if 0x60 ≤ page && page < 0x68 then s.viewMac (page - 0x60) off
  else if page = Pg.LPAIR then s.viewLpair off
  else if page = Pg.TIME then s.viewTime p off
  else if 0x71 ≤ page && page < 0x79 then s.viewPtime (page - 0x71) off
  else if 0x80 ≤ page && page < 0x88 then s.viewGate (page - 0x80) off
  else if 0x90 ≤ page && page < 0xA0 then s.viewPcm (page - 0x90) off
  else if page = Pg.RING then s.viewRing off
  else if page = Pg.MDM then s.viewMdm off
  else if page = Pg.ARC then s.viewArc off
  else if page = Pg.MEM then s.viewMem off
  else if page = Pg.REL then s.viewRel off
  else if page = Pg.MGMT then s.viewMgmt off
  else if page = Pg.LOG then s.viewLog off
  else if page = Pg.LIFE then s.viewLife off
  else none

/-- The view of a register, where it is one. -/
def view (s : State) (p : Port) (a : Nat) : Option Nat :=
  let page := a / 0x1000
  let off := a % 0x1000
  if off < 0x40 then s.viewHeader page off else if page < 0x60 then s.viewLow page off else s.viewHigh p page off

/-- A word with its WO fields read as 0 (R4). -/
def hideWo (fs : List FieldSpec) (w : Word) : Word := fs.foldl (fun w f => if f.acc = .wo then withBits w f.hi f.lo 0 else w) w

/-- The value that a read of a mapped or unmapped BAR0 word returns to a port, without what the read does. -/
def regWord (s : State) (p : Port) (a : Nat) : Word :=
  match s.view p a with
  | some n => Word.of n
  | none => match findReg a with
    | none => 0
    | some (_, _, r, _) => hideWo r.fields (s.rd a)

end State

end Sys2Proof.Machine
end

