-- ==== Sys2Proof/Machine/Regs.lean ====
section
/-! DEFINITION. Reads and writes of BAR0 and BAR2 as a host makes them: the access types of R4, the common header, the
writes that act, RC fields, doorbells and the MSI-X structures (R4, R5, R20 to R24, R28, R31, R578). -/

namespace Sys2Proof.Machine

namespace State

/-! ## The common header (R23, R24, R27, R28, R578) -/

/-- A mask of the event sources of a page. -/
def sourceMask (page : Nat) : Word := Word.of (2 ^ sourcesOf page - 1)

/-- The bits of a mask whose source occurs at this very instant. -/
def recentBits (s : State) (key : Nat) (w : Word) : Word :=
  Word.of (bitsWhere 32 fun b => w.getLsbD b && s.isRecent key b)

/-- A write of EVT_LATCH: a bit whose source occurs in the same cycle ends at 1, and its message is sent again. -/
def latchClear (s : State) (page : Nat) (v : Word) : State :=
  let w := s.rd (Reg.EVT_LATCH page)
  let again := s.recentBits page (w &&& v)
  let s := s.wr (Reg.EVT_LATCH page) ((w &&& ~~~v) ||| again)
  if again &&& s.rd (Reg.EVT_ENABLE page) = 0 then s else s.pageMsix page

/-- A write of EVT_ENABLE: a bit that rises over a set latch bit sends the page's message. -/
def enableWrite (s : State) (page : Nat) (v : Word) : State :=
  let old := s.rd (Reg.EVT_ENABLE page)
  let new := v &&& sourceMask page
  let s := s.wr (Reg.EVT_ENABLE page) new
  if new &&& ~~~old &&& s.rd (Reg.EVT_LATCH page) = 0 then s else s.pageMsix page

/-- A write of EVT_FORCE: the sources of the bits occur, all at this instant.
DEDUCED (log entry 61). -/
def forceWrite (s : State) (page : Nat) (v : Word) : State :=
  let bs := (List.range (sourcesOf page)).filter fun b => v.getLsbD b
  let s := bs.foldl (fun s b => s.noteRecent page b) s
  let old := s.rd (Reg.EVT_LATCH page)
  let up := v &&& sourceMask page &&& ~~~old
  let s := s.wr (Reg.EVT_LATCH page) (old ||| up)
  let s := if up &&& s.rd (Reg.EVT_ENABLE page) = 0 then s else s.pageMsix page
  bs.foldl (fun s b => s.logEvent page b) s

/-- A write of EVT_ROUTE: vector 0 belongs to ownership, and the OWN page routes nothing (R24, R44). -/
def routeWrite (s : State) (page : Nat) (v : Word) : State :=
  let a := Reg.EVT_ROUTE page
  let badA := fieldOf v Fd.EVT_ROUTE.EN_A = 1 && fieldOf v Fd.EVT_ROUTE.VEC_A = 0
  let badB := fieldOf v Fd.EVT_ROUTE.EN_B = 1 && fieldOf v Fd.EVT_ROUTE.VEC_B = 0
  if page = Pg.OWN then s
  else
    let s := s.wr a (mergeFields (fieldsAt a) .rw (s.rd a) v)
    let s := if badA then s.put a Fd.EVT_ROUTE.EN_A 0 else s
    let s := if badB then s.put a Fd.EVT_ROUTE.EN_B 0 else s
    if badA || badB then s.status page .badParam else s

/-- A write of a page's common header. -/
def headerWrite (s : State) (page off : Nat) (v : Word) : State :=
  if off = 0x10 then s.latchClear page v
  else if off = 0x14 then s.enableWrite page v
  else if off = 0x18 then s.forceWrite page v
  else if off = 0x1C then s.routeWrite page v
  else s

/-! ## Fields with no behaviour of their own (R4, R5) -/

/-- A word after its W1C fields are cleared and its W1S fields set by a written word. -/
def oneFields (fs : List FieldSpec) (old v : Word) : Word :=
  fs.foldl (fun w f =>
    if f.acc = .w1c then withBits w f.hi f.lo (bitsOf (w &&& ~~~v) f.hi f.lo)
    else if f.acc = .w1s then withBits w f.hi f.lo (bitsOf (w ||| v) f.hi f.lo)
    else w) old

/-- A write of a register whose fields have no behaviour of their own: RW fields take an accepted value, W1C and W1S fields
clear and set, RWT fields are staged, everything else ignores the write. A value outside a field's range leaves the
register and sets LAST_STATUS.
DEDUCED (log entry 7).
DEDUCED (log entry 8). -/
def plainWrite (s : State) (p : Port) (a : Nat) (v : Word) : State :=
  let fs := fieldsAt a
  if fs.isEmpty then s
  else if hasAcc a .rwt then s.rwtWrite p a v
  else if !fieldsOk fs [.rw] v then s.status (a / 0x1000) .badParam
  else s.wr a (mergeFields fs .rw (oneFields fs (s.rd a) v) v)

/-- A write that must keep a condition, else BAD_PARAM.
DEDUCED (log entry 7). -/
def guarded (s : State) (p : Port) (a : Nat) (v : Word) (ok : Bool) : State :=
  if ok then s.plainWrite p a v else s.status (a / 0x1000) .badParam

/-- A write of one of the write-only key registers, which hold what SRTP_CMD takes (R292). -/
def keyWrite (s : State) (a : Nat) (v : Word) : State := s.wr a (mergeFields (fieldsAt a) .wo 0 v)

/-! ## Writes that act, by page -/

/-- The OWN page (R34, R35, R40, R44). -/
def ownRegs (s : State) (p : Port) (a : Nat) (v : Word) : State :=
  if a = Reg.OWN_CLAIM then
    s.claimWrite p (fieldOf v Fd.OWN_CLAIM.CLAIM = 1) (fieldOf v Fd.OWN_CLAIM.RELEASE = 1) (fieldOf v Fd.OWN_CLAIM.WITHDRAW = 1)
  else if a = Reg.OWN_HEARTBEAT then (if fieldOf v Fd.OWN_HEARTBEAT.BEAT = 1 then s.heartbeat p else s)
  else if a = Reg.OWN_HANDOVER then s.handoverWrite p (fieldOf v Fd.OWN_HANDOVER.TARGET)
  else s.plainWrite p a v

/-- The TXN page (R79, R84, R87). -/
def txnRegs (s : State) (p : Port) (a : Nat) (v : Word) : State :=
  if a = Reg.TXN_OPEN then s.txnOpen p (fieldOf v Fd.TXN_OPEN.ID)
  else if a = Reg.TXN_COMMIT then s.txnCommit p (fieldOf v Fd.TXN_COMMIT.ID) (fieldOf v Fd.TXN_COMMIT.NEXT = 1)
  else if a = Reg.TXN_ABORT then s.txnAbort p (fieldOf v Fd.TXN_ABORT.ID)
  else s.plainWrite p a v

/-- The pages of dispatch and trace (R266, R267, R269, R270).
DEDUCED (log entry 8). -/
def dispRegs (s : State) (p : Port) (a : Nat) (v : Word) : State :=
  if a = Reg.TRACE_CTRL then s.traceCtrl v
  else if a = Reg.TRACE_MARK then s.traceMark v
  else if a = Reg.TRACE_RD_IDX then s.traceFetch v
  else if a / 0x1000 = Pg.DSP then (s.status Pg.DSP .ok).plainWrite p a v
  else s.plainWrite p a v

/-- A GO (R109, R116, R122). -/
def goWrite (s : State) (p : Port) (v : Word) : State :=
  match fieldOf v Fd.CHAN_CMD_GO.ACTION with
  | 1 => s.stageGo p
  | 2 => s.queryGo
  | _ => s.status Pg.CHAN .badParam

/-- The pages of channels and media (R136, R142, R167, R192, R211, R225). -/
def mediaRegs (s : State) (p : Port) (a : Nat) (v : Word) : State :=
  if a = Reg.CHAN_CMD_GO then s.goWrite p v
  else if a = Reg.CODEC_STAT_LEG then s.statWrite Pg.CODEC (fieldOf v Fd.CODEC_STAT_LEG.LEG)
  else if a = Reg.JBUF_STAT_LEG then s.statWrite Pg.JBUF (fieldOf v Fd.JBUF_STAT_LEG.LEG)
  else if a = Reg.TONE_GEN_CMD then s.toneGenCmd v
  else if a = Reg.RATE_LEG_CMD then s.rateCmd (fieldOf v Fd.RATE_LEG_CMD.LEG) (fieldOf v Fd.RATE_LEG_CMD.ACTION)
  else if a = Reg.RATE_STAT_LEG then s.statWrite Pg.RATE (fieldOf v Fd.RATE_STAT_LEG.LEG)
  else if a = Reg.ECAN_CH_CMD then
    s.ecanCmd (fieldOf v Fd.ECAN_CH_CMD.CHANNEL) (fieldOf v Fd.ECAN_CH_CMD.ACTION) (fieldOf v Fd.ECAN_CH_CMD.PROFILE)
  else if a = Reg.ECAN_STAT_CHAN then s.statWrite Pg.ECAN (fieldOf v Fd.ECAN_STAT_CHAN.CHANNEL)
  else s.plainWrite p a v

/-- EGS_AGG_CMD (R304). -/
def aggCmd (s : State) (v : Word) : State :=
  match fieldOf v Fd.EGS_AGG_CMD.OP with
  | 1 => s.aggWrite (fieldOf v Fd.EGS_AGG_CMD.AGG)
  | 2 => s.aggRead (fieldOf v Fd.EGS_AGG_CMD.AGG)
  | _ => s.status Pg.EGS .badParam

/-- SHP_CMD (R313, R322).
DESIGN CHOICE (log entry 63). -/
def shpCmd (s : State) (v : Word) : State :=
  let agg := fieldOf v Fd.SHP_CMD.KIND = 1
  match fieldOf v Fd.SHP_CMD.OP with
  | 1 => s.shpWrite agg (fieldOf v Fd.SHP_CMD.INDEX)
  | 2 => s.shpRead agg (fieldOf v Fd.SHP_CMD.INDEX)
  | _ => s.status Pg.SHP .badParam

/-- The pages of ingress and egress (R282, R292, R304, R313, R320). -/
def packetRegs (s : State) (p : Port) (a : Nat) (v : Word) : State :=
  if a = Reg.EPD_CMD then s.epdStart (fieldOf v Fd.EPD_CMD.OP) (fieldOf v Fd.EPD_CMD.HANDLE)
  else if a = Reg.SRTP_CMD then s.srtpCmd (fieldOf v Fd.SRTP_CMD.ACTION) v
  else if Reg.SRTP_KEY 0 ≤ a && a ≤ Reg.SRTP_MKI then s.keyWrite a v
  else if a = Reg.EGS_AGG_CMD then s.aggCmd v
  else if a = Reg.EGS_STAT_FLOW then s.statWrite Pg.EGS (fieldOf v Fd.EGS_STAT_FLOW.LEG)
  else if a = Reg.SHP_CMD then s.shpCmd v
  else s.plainWrite p a v

/-- A MAC page (R326, R329, R334, R337, R340). -/
def macRegs (s : State) (p : Port) (i a : Nat) (v : Word) : State :=
  if a = Reg.MAC_LANE_MODE i then s.laneWrite i v
  else if a = Reg.MAC_CTRL i then s.macCtrlWrite i v
  else if a = Reg.MAC_PREEMPT i then s.preemptWrite i v
  else if a = Reg.MAC_FC_TX i then (s.plainWrite p a v).noteMem 0
  else if a = Reg.MAC_FC_THR i then
    (s.guarded p a v (fieldOf v Fd.MAC_FC_THR.XON_KIB < fieldOf v Fd.MAC_FC_THR.XOFF_KIB)).noteMem 0
  else if a = Reg.MAC_CNT_NOTICE i then
    let w := s.rd a
    s.wr a ((w &&& ~~~v) ||| s.recentBits (0x1000 + Pg.MAC i) w)
  else s.plainWrite p a v

/-- The LPAIR page (R341). -/
def pairRegs (s : State) (p : Port) (a : Nat) (v : Word) : State :=
  match [0, 1, 2, 3].find? fun k => a = Reg.LPAIR_PAIR k with
  | some k => s.pairWrite k v
  | none => s.plainWrite p a v

/-- TIME_CMD (R350, R351, R368). -/
def timeCmd (s : State) (v : Word) : State :=
  match fieldOf v Fd.TIME_CMD.ACTION with
  | 1 => s.timeSet
  | 2 => s.timeAdjust
  | 3 => s.stopSlew
  | _ => s.status Pg.TIME .badParam

/-- PG_ARM: a write with both bits disarms and then arms (log entry 30). -/
def armWrite (s : State) (k : Nat) (v : Word) : State :=
  let s := if fieldOf v Fd.PG_ARM.DISARM = 1 then s.pgDisarm k else s
  if fieldOf v Fd.PG_ARM.ARM = 1 then s.pgArm k (fieldOf v Fd.PG_ARM.ASAP = 1) else s

/-- The TIME page (R349 to R351, R359 to R363). -/
def timeRegs (s : State) (p : Port) (a : Nat) (v : Word) : State :=
  if a = Reg.TIME_FREQ then s.timeFreq v
  else if a = Reg.TIME_CMD then s.timeCmd v
  else if a = Reg.TIME_CTRL then (s.plainWrite p a v).ppsTrain
  else match [0, 1, 2, 3].find? fun k => a = Reg.PG_ARM k with
    | some k => s.armWrite k v
    | none => s.plainWrite p a v

/-- GATE_CMD: a write with both bits cancels and then changes (log entry 30). -/
def gateCmd (s : State) (i : Nat) (v : Word) : State :=
  let s := if fieldOf v Fd.GATE_CMD.CANCEL = 1 then s.gateCancel i else s
  if fieldOf v Fd.GATE_CMD.CHANGE = 1 then s.gateChange i else s

/-- A GATE page (R364, R365, R372). -/
def gateRegs (s : State) (p : Port) (i a : Nat) (v : Word) : State :=
  if a = Reg.GATE_CMD i then s.gateCmd i v
  else if a = Reg.GATE_CTRL i then (s.plainWrite p a v).showGates i
  else if Reg.GATE_ADMIN i 0 ≤ a && (s.gateOf i).pend.isSome then s.status (Pg.GATE i) .busy
  else s.plainWrite p a v

/-- A PCM page (R374, R383). -/
def pcmRegs (s : State) (p : Port) (h a : Nat) (v : Word) : State :=
  if a = Reg.PCM_GROUP_CFG h then s.groupWrite h v
  else if a = Reg.PCM_HWY_CFG h then s.hwyWrite h v
  else s.plainWrite p a v

/-- A RINGS page (R394, R395, R404): a write with FLUSH = 1 ignores EN.
DEDUCED (log entry 8).
DEDUCED (log entry 34). -/
def ringRegs (s : State) (p : Port) (a : Nat) (v : Word) (x : WriteIn) : State :=
  let page := a / 0x1000
  let g := (page - Pg.RINGS 0) * 32 + (a % 0x1000 - 0x100) / 32
  if a % 0x1000 < 0x100 then s.plainWrite p a v
  else if a = ringReg Reg.RING_CTRL g then
    if fieldOf v Fd.RING_CTRL.FLUSH = 1 then s.withPartial g x.orphans fun s => s.ringFlush g
    else if fieldOf v Fd.RING_CTRL.EN = 1 then s.ringEnable g
    else s.withPartial g x.orphans fun s => s.ringDisable g
  else if hasAcc a .rw && s.ringRuns g then s.status page .busy
  else s.plainWrite p a v

/-- MDM_MAP_CMD and the other commands of the MDM page (R418, R432). -/
def mdmRegs (s : State) (p : Port) (a : Nat) (v : Word) : State :=
  if a = Reg.MDM_TX_CMD then s.mdmTx v
  else if a = Reg.MDM_MAP_CMD then
    s.mdmMap (fieldOf v Fd.MDM_MAP_CMD.OP) (fieldOf v Fd.MDM_MAP_CMD.MAP) (fieldOf v Fd.MDM_MAP_CMD.SESSION)
  else if a = Reg.MDM_STAT_CHAN then s.statWrite Pg.MDM (fieldOf v Fd.MDM_STAT_CHAN.CHANNEL)
  else s.plainWrite p a v

/-- MEM_XFER_CMD (R460, R476). -/
def xferCmd (s : State) (p : Port) (v : Word) (data : List Byte) : State :=
  let op := fieldOf v Fd.MEM_XFER_CMD.OP
  let len := fieldOf v Fd.MEM_XFER_CMD.LEN
  s.startXfer p (op = 1) (if op = 1 || op = 2 then len else 0) data

/-- RETIRE_CMD (R480). -/
def retireOp (s : State) (v : Word) : State :=
  match fieldOf v Fd.RETIRE_CMD.OP with
  | 1 => s.retireCmd
  | 2 => s.retireRead (fieldOf v Fd.RETIRE_CMD.ENTRY)
  | _ => if s.modes.bringup then s.status Pg.RETIRE .notInMode
    else if s.isBusy Pg.RETIRE then s.status Pg.RETIRE .busy
    else s.status Pg.RETIRE .badParam

/-- The pages of the archive and of GDDR-6 (R449, R460, R470, R478). -/
def memRegs (s : State) (p : Port) (a : Nat) (v : Word) (x : WriteIn) : State :=
  if a = Reg.ARC_CMD then s.arcCmd p (fieldOf v Fd.ARC_CMD.OP) (fieldOf v Fd.ARC_CMD.SEGMENT)
  else if a = Reg.MEM_XFER_CMD then s.xferCmd p v x.data
  else if a = Reg.STRIPE_XLAT_LO then s.stripeXlat v
  else if a = Reg.RETIRE_CMD then s.retireOp v
  else s.plainWrite p a v

/-- MBX_CMD by its OP (R507). -/
def mbxCmd (s : State) (p : Port) (v : Word) (x : WriteIn) : State :=
  let len := fieldOf v Fd.MBX_CMD.LEN
  match fieldOf v Fd.MBX_CMD.OP with
  | 1 => s.mbxTake fun s => s.mbxInfo p
  | 2 => s.mbxTake fun s => s.mbxBegin p
  | 3 => s.mbxTake fun s => s.mbxData p len
  | 4 => s.mbxTake fun s => s.mbxImgEnd p x.verified
  | 5 => s.mbxTake fun s =>
    if s.mbxKind = 0 then s.mbxActFw p else if s.mbxKind = 1 then s.mbxActLib p
    else if s.mbxKind = 2 then s.mbxActData p x.clips x.fits else s.mbxSay p .activate .badParam
  | 6 => s.mbxTake fun s => s.mbxCommit p
  | 7 => s.mbxTake fun s => s.mbxAbort p
  | 8 => s.mbxTake fun s => s.mbxBoard p len
  | _ => s.mbxTake fun s => s.mbxSay p .info .badParam

/-- T_WARN stays below T_CRIT and WARN_PCT below CRIT_PCT (R529). -/
def sensorRegs (s : State) (p : Port) (a : Nat) (v : Word) : State :=
  if a = Reg.SENSOR_T_WARN then s.guarded p a v (fieldOf v Fd.SENSOR_T_WARN.C < s.get Reg.SENSOR_T_CRIT Fd.SENSOR_T_CRIT.C)
  else if a = Reg.SENSOR_T_CRIT then s.guarded p a v (s.get Reg.SENSOR_T_WARN Fd.SENSOR_T_WARN.C < fieldOf v Fd.SENSOR_T_CRIT.C)
  else if a = Reg.SENSOR_V_LIMITS then
    s.guarded p a v (fieldOf v Fd.SENSOR_V_LIMITS.WARN_PCT < fieldOf v Fd.SENSOR_V_LIMITS.CRIT_PCT)
  else s.plainWrite p a v

/-- The pages of Kwakel and of reliability (R498, R506, R522, R523, R525, R529).
DEDUCED (log entry 55). -/
def mgmtRegs (s : State) (p : Port) (a : Nat) (v : Word) (x : WriteIn) : State :=
  if a = Reg.REL_INJECT then s.inject v
  else if a = Reg.MBX_CMD then s.mbxCmd p v x
  else if a = Reg.MGMT_NET_CTRL then
    let s := s.plainWrite p a v
    if (s.get Reg.IO_STRAP Fd.IO_STRAP.STRAPS).testBit 4 then s.put a Fd.MGMT_NET_CTRL.EN 0 else s
  else if a = Reg.LOG_RD_SEQ then s.logFetch v
  else if a = Reg.LOG_NOTE then s.logNote v
  else if a = Reg.LIFE_CMD then s.lifeCmd v x.verified
  else s.sensorRegs p a v

/-- The page groups below 0x60. -/
def lowRegs (s : State) (p : Port) (a : Nat) (v : Word) : State :=
  let page := a / 0x1000
  if page = Pg.OWN then s.ownRegs p a v
  else if page = Pg.TXN then s.txnRegs p a v
  else if page = Pg.BEAT then (if a = Reg.BEAT_REF_CTRL then (s.plainWrite p a v).relCheck else s.plainWrite p a v)
  else if page = Pg.MODE then (if a = Reg.MODE_CMD then s.modeCmd v else s.plainWrite p a v)
  else if page < 0x30 then s.dispRegs p a v
  else if page < 0x40 then s.mediaRegs p a v
  else s.packetRegs p a v

/-- The page groups from 0x60 on. A port that the lane mode does not provide refuses writes (R325). -/
def highRegs (s : State) (p : Port) (a : Nat) (v : Word) (x : WriteIn) : State :=
  let page := a / 0x1000
  if page < 0x68 then s.macRegs p (page - 0x60) a v
  else if page = Pg.LPAIR then s.pairRegs p a v
  else if page = Pg.TIME then s.timeRegs p a v
  else if 0x80 ≤ page && page < 0x88 then s.gateRegs p (page - 0x80) a v
  else if 0x90 ≤ page && page < 0xA0 then s.pcmRegs p (page - 0x90) a v
  else if 0xA1 ≤ page && page < 0xA9 then s.ringRegs p a v x
  else if page = Pg.MDM then s.mdmRegs p a v
  else if 0xB8 ≤ page && page < 0xD0 then s.memRegs p a v x
  else if 0xD0 ≤ page && page < 0xF0 then s.mgmtRegs p a v x
  else s.plainWrite p a v

/-- A MAC page of a port that the lane mode does not provide (R325).
DEDUCED (log entry 17). -/
def absentMac (s : State) (page : Nat) : Bool := 0x60 ≤ page && page < 0x68 && !s.provided (page - 0x60)

/-- An accepted write of a register on a mapped page.
DEDUCED (log entry 17). -/
def writeReg (s : State) (p : Port) (a : Nat) (v : Word) (x : WriteIn) : State :=
  let page := a / 0x1000
  if s.absentMac page then s.status page .badParam
  else if a % 0x1000 < 0x40 && a != Reg.TRACE_CTRL then s.headerWrite page (a % 0x1000) v
  else if page < 0x60 then s.lowRegs p a v
  else s.highRegs p a v x

/-! ## BAR0 (R20, R21, R581) -/

/-- A write that R20 or R21 drops. In SEALED the owner's is recorded nowhere (R581). -/
def droppedWrite (s : State) (p : Port) (a : Nat) : State :=
  if !s.linked p then s
  else match s.mgmt.kstate with
  | .boot => s
  | .recovery => s
  | _ =>
    if s.ownedBy p && s.modes.phase = .sealed then
      (if mappedPages.contains (a / 0x1000) then s.status (a / 0x1000) .notInMode else s)
    else s.badAccess p a

/-- One aligned 32-bit write of BAR0. -/
def writeWord (s : State) (p : Port) (a : Nat) (v : Word) (x : WriteIn) : State :=
  if mappedPages.contains (a / 0x1000) then s.hostWrite p a fun s => s.writeReg p a v x else s.droppedWrite p a

/-- A write of BAR0 of any size and alignment.
DEDUCED (log entry 16). -/
def bar0Write (s : State) (p : Port) (a size : Nat) (be : BitVec 8) (v : BitVec 64) (x : WriteIn) : State :=
  if size = 8 && a % 8 = 0 && be = 0xFF then
    (s.writeWord p a (v.setWidth 32) x).writeWord p (a + 4) ((v >>> 32).setWidth 32) x
  else if size = 4 && a % 4 = 0 && be &&& 0xF = 0xF then s.writeWord p a (v.setWidth 32) x
  else s.droppedWrite p a

/-! ## BAR2 (R22, R396) -/

/-- An entry of the MSI-X table with one word written; of the vector control only the mask bit is held.
PRESUMED (log entry 5). -/
def msixEntryWrite (e : MsixEntry) (k : Nat) (v : Word) : MsixEntry :=
  match k with
  | 0 => { e with addrLo := v }
  | 1 => { e with addrHi := v }
  | 2 => { e with data := v }
  | _ => { e with ctrl := v &&& 1 }

/-- A write of the MSI-X table: a vector that is unmasked while pending sends its message (R27). -/
def msixWrite (s : State) (p : Port) (off : Nat) (v : Word) : State :=
  let i := off / 16
  let m := s.msix p
  match m.table[i]? with
  | none => s
  | some e =>
    let e := msixEntryWrite e (off % 16 / 4) v
    let due := m.pba.getD i false && !e.ctrl.getLsbD 0
    let s := s.setMsix p { table := m.table.set i e, pba := if due then m.pba.set i false else m.pba }
    if due then s.sendMsix p i else s

/-- One 32-bit write of a port's BAR2: doorbells, the MSI-X table, and offsets that ignore writes; from a port that is not
the owner only the MSI-X structures take one (R22, R32).
DEDUCED (log entry 16). -/
def bar2Word (s : State) (p : Port) (off : Nat) (v : Word) (descs : List RingDesc) : State :=
  let served := s.linked p && (s.mgmt.kstate = .running || s.mgmt.kstate = .restarting)
  if off < 0x80000 && off % 0x1000 = 0 then s.doorbellWrite p (off / 0x1000) v descs
  else if !served then s
  else if 0x80000 ≤ off && off < 0x80400 then s.msixWrite p (off - 0x80000) v
  else if s.ownedBy p || (0x81000 ≤ off && off < 0x81008) then s
  else s.dropWrite p true off

/-- A write of BAR2: whole aligned words (log entry 30). -/
def bar2Write (s : State) (p : Port) (off size : Nat) (be : BitVec 8) (v : BitVec 64) (descs : List RingDesc) : State :=
  if size = 8 && off % 8 = 0 && be = 0xFF then
    (s.bar2Word p off (v.setWidth 32) descs).bar2Word p (off + 4) ((v >>> 32).setWidth 32) descs
  else if size = 4 && off % 4 = 0 && be &&& 0xF = 0xF then s.bar2Word p off (v.setWidth 32) descs
  else s

/-! ## Reads (R4, R20, R21, R22, R31) -/

/-- A word with its RC fields cleared. -/
def clearRc (fs : List FieldSpec) (w : Word) : Word := fs.foldl (fun w f => if f.acc = .rc then withBits w f.hi f.lo 0 else w) w

/-- The value of a BAR0 word and what its read does: it latches a reading, pops a queue, or clears RC fields when the owner
reads. A free value that is read is drawn. -/
def readWord (s : State) (p : Port) (a : Nat) : Word × State :=
  let w := s.regWord p a
  if a = Reg.BEAT_NOW then s.beatNow
  else if a = Reg.TIME_NOW_SEC_LO then s.timeNow p
  else if a = Reg.ARC_DONE0 then s.arcPop p
  else match (List.range 8).find? fun i => a = Reg.PTIME_TSQ0 i with
    | some i => s.tsqPop p i
    | none =>
      let s := { s with freeCtr := s.freeCtr + 1 }
      (w, if s.ownedBy p && hasAcc a .rc then s.wr a (clearRc (fieldsAt a) (s.rd a)) else s)

/-- A word of the MSI-X table. -/
def msixWord (m : Msix) (off : Nat) : Word :=
  match m.table[off / 16]? with
  | none => 0
  | some e => match off % 16 / 4 with
    | 0 => e.addrLo
    | 1 => e.addrHi
    | 2 => e.data
    | _ => e.ctrl

/-- A word of BAR2. -/
def bar2Read (s : State) (p : Port) (off : Nat) : Word :=
  if off < 0x80000 then
    (if off % 0x1000 = 0 then s.rd (ringReg Reg.RING_HEAD ((if p = .a then 0 else 128) + off / 0x1000)) else 0)
  else if off < 0x80400 then msixWord (s.msix p) (off - 0x80000)
  else if 0x81000 ≤ off && off < 0x81008 then
    Word.of (bitsWhere 32 fun i => (s.msix p).pba.getD ((off - 0x81000) * 8 + i) false)
  else 0

end State

/-! ## Meanings -/

/-- REGISTER_WRITE (R4, R20): a write of any size at an offset of BAR0 or of the port's BAR2. -/
def execRegisterWrite (t : Nat) (p : Port) (bar2 : Bool) (off size : Nat) (be : BitVec 8) (v : BitVec 64) (x : WriteIn) (s : State) :
    Host.Outcome State Fault Refusal :=
  s.act t fun s => if bar2 then s.bar2Write p off size be v x.descs else s.bar0Write p off size be v x

/-- RC_READ (R4, R31): a read of the word that holds an offset of BAR0 or of the port's BAR2. -/
def execRcRead (t : Nat) (p : Port) (bar2 : Bool) (off : Nat) (s : State) : Host.Outcome State Fault Refusal :=
  s.act t fun s => s.hostRead p fun s => if bar2 then (s.bar2Read p (off / 4 * 4), s) else s.readWord p (off / 4 * 4)

/-- EVT_FORCE (R23): a write of the EVT_FORCE register of a page.
DEDUCED (log entry 61). -/
def execEvtForce (t : Nat) (p : Port) (page : Nat) (v : Word) (s : State) : Host.Outcome State Fault Refusal :=
  s.act t fun s => s.writeWord p (Reg.EVT_FORCE page) v
    { verified := false, fits := false, clips := [], data := [], orphans := 0, descs := [] }

end Sys2Proof.Machine
end

