-- ==== Sys2Proof/Machine/Dispatch.lean ====
section
/-! DEFINITION. What each command does: one arm per command, each a direct call of its meaning. -/

namespace Sys2Proof.Machine

def exec (i : Instr) (s : State) : Host.Outcome State Fault Refusal :=
  match i with
  | .registerWrite t p bar2 off size be v x => Sys2Proof.Machine.execRegisterWrite t p bar2 off size be v x s
  | .rcRead t p bar2 off => Sys2Proof.Machine.execRcRead t p bar2 off s
  | .evtForce t p page v => Sys2Proof.Machine.execEvtForce t p page v s
  | .claim t p => Sys2Proof.Machine.execClaim t p s
  | .withdraw t p => Sys2Proof.Machine.execWithdraw t p s
  | .release t p => Sys2Proof.Machine.execRelease t p s
  | .ownHeartbeat t p => Sys2Proof.Machine.execOwnHeartbeat t p s
  | .ownHandover t p target => Sys2Proof.Machine.execOwnHandover t p target s
  | .heartbeatDeadlineExpiry t p => Sys2Proof.Machine.execHeartbeatDeadlineExpiry t p s
  | .functionLevelReset t p => Sys2Proof.Machine.execFunctionLevelReset t p s
  | .perstN t p high => Sys2Proof.Machine.execPerstN t p high s
  | .beatBoundary t inp => Sys2Proof.Machine.execBeatBoundary t inp s
  | .referenceQualify t ref => Sys2Proof.Machine.execReferenceQualify t ref s
  | .referenceDisqualify t ref => Sys2Proof.Machine.execReferenceDisqualify t ref s
  | .cut t => Sys2Proof.Machine.execCut t s
  | .ingressSeal t => Sys2Proof.Machine.execIngressSeal t s
  | .jobDeadline t => Sys2Proof.Machine.execJobDeadline t s
  | .beatNowRead t p => Sys2Proof.Machine.execBeatNowRead t p s
  | .jobGrant t pool => Sys2Proof.Machine.execJobGrant t pool s
  | .stagingComplete t k core reads => Sys2Proof.Machine.execStagingComplete t k core reads s
  | .jobStart t k core => Sys2Proof.Machine.execJobStart t k core s
  | .jobHandover t k core digest => Sys2Proof.Machine.execJobHandover t k core digest s
  | .partnerDigest t chan => Sys2Proof.Machine.execPartnerDigest t chan s
  | .jobCommit t chan result => Sys2Proof.Machine.execJobCommit t chan result s
  | .writeBackComplete t k chan lost => Sys2Proof.Machine.execWriteBackComplete t k chan lost s
  | .coreFault t k core detect loc => Sys2Proof.Machine.execCoreFault t k core detect loc s
  | .coreSelfCheckDone t k core => Sys2Proof.Machine.execCoreSelfCheckDone t k core s
  | .jobOverrun t k core => Sys2Proof.Machine.execJobOverrun t k core s
  | .holdRelease t => Sys2Proof.Machine.execHoldRelease t s
  | .traceModeWrite t p v => Sys2Proof.Machine.execTraceModeWrite t p v s
  | .traceMark t p v => Sys2Proof.Machine.execTraceMark t p v s
  | .traceRdIdx t p v => Sys2Proof.Machine.execTraceRdIdx t p v s
  | .traceStoreFull t => Sys2Proof.Machine.execTraceStoreFull t s
  | .traceTriggerStop t => Sys2Proof.Machine.execTraceTriggerStop t s
  | .txnOpen t p id => Sys2Proof.Machine.execTxnOpen t p id s
  | .rwtWrite t p off v => Sys2Proof.Machine.execRwtWrite t p off v s
  | .txnCommit t p id next => Sys2Proof.Machine.execTxnCommit t p id next s
  | .txnAbort t p id => Sys2Proof.Machine.execTxnAbort t p id s
  | .chanCmdStage t p => Sys2Proof.Machine.execChanCmdStage t p s
  | .standingListWrite t => Sys2Proof.Machine.execStandingListWrite t s
  | .query t p => Sys2Proof.Machine.execQuery t p s
  | .hostcmdJobDone t page => Sys2Proof.Machine.execHostcmdJobDone t page s
  | .ecanFreeze t p chan => Sys2Proof.Machine.execEcanFreeze t p chan s
  | .ecanRun t p chan => Sys2Proof.Machine.execEcanRun t p chan s
  | .ecanLock t p chan => Sys2Proof.Machine.execEcanLock t p chan s
  | .ecanUnlock t p chan => Sys2Proof.Machine.execEcanUnlock t p chan s
  | .ecanReset t p chan => Sys2Proof.Machine.execEcanReset t p chan s
  | .nlpProfile t p chan => Sys2Proof.Machine.execNlpProfile t p chan s
  | .nlpOff t p chan => Sys2Proof.Machine.execNlpOff t p chan s
  | .nlpClip t p chan => Sys2Proof.Machine.execNlpClip t p chan s
  | .nlpComfort t p chan => Sys2Proof.Machine.execNlpComfort t p chan s
  | .ecanProfile t p chan profile => Sys2Proof.Machine.execEcanProfile t p chan profile s
  | .ecanStatChan t p chan => Sys2Proof.Machine.execEcanStatChan t p chan s
  | .codecStatLeg t p leg => Sys2Proof.Machine.execCodecStatLeg t p leg s
  | .jbufStatLeg t p leg => Sys2Proof.Machine.execJbufStatLeg t p leg s
  | .rateStatLeg t p leg => Sys2Proof.Machine.execRateStatLeg t p leg s
  | .egsStatFlow t p leg => Sys2Proof.Machine.execEgsStatFlow t p leg s
  | .mdmStatChan t p chan => Sys2Proof.Machine.execMdmStatChan t p chan s
  | .keyLimit t => Sys2Proof.Machine.execKeyLimit t s
  | .oldKeyErase t => Sys2Proof.Machine.execOldKeyErase t s
  | .toneGenDtmf t p v => Sys2Proof.Machine.execToneGenDtmf t p v s
  | .toneGenDesc t p v => Sys2Proof.Machine.execToneGenDesc t p v s
  | .toneGenStop t p v => Sys2Proof.Machine.execToneGenStop t p v s
  | .relayTimeout t leg => Sys2Proof.Machine.execRelayTimeout t leg s
  | .dcbFreeze t p leg => Sys2Proof.Machine.execDcbFreeze t p leg s
  | .dcbRun t p leg => Sys2Proof.Machine.execDcbRun t p leg s
  | .clearSat t p leg => Sys2Proof.Machine.execClearSat t p leg s
  | .frameReceive t port frame v => Sys2Proof.Machine.execFrameReceive t port frame v s
  | .pktJobDone t port dir v => Sys2Proof.Machine.execPktJobDone t port dir v s
  | .reasmTimeout t => Sys2Proof.Machine.execReasmTimeout t s
  | .overload t => Sys2Proof.Machine.execOverload t s
  | .epdInsert t p handle => Sys2Proof.Machine.execEpdInsert t p handle s
  | .epdDelete t p handle => Sys2Proof.Machine.execEpdDelete t p handle s
  | .epdModify t p handle => Sys2Proof.Machine.execEpdModify t p handle s
  | .epdRead t p handle => Sys2Proof.Machine.execEpdRead t p handle s
  | .epdLookup t p handle => Sys2Proof.Machine.execEpdLookup t p handle s
  | .epdCmdDone t => Sys2Proof.Machine.execEpdCmdDone t s
  | .loadCurrent t p v => Sys2Proof.Machine.execLoadCurrent t p v s
  | .loadNext t p v => Sys2Proof.Machine.execLoadNext t p v s
  | .srtpErase t p v => Sys2Proof.Machine.execSrtpErase t p v s
  | .txOpportunity t port => Sys2Proof.Machine.execTxOpportunity t port s
  | .frameTxDone t port => Sys2Proof.Machine.execFrameTxDone t port s
  | .shaperRefill t => Sys2Proof.Machine.execShaperRefill t s
  | .egsAggWrite t p agg => Sys2Proof.Machine.execEgsAggWrite t p agg s
  | .egsAggRead t p agg => Sys2Proof.Machine.execEgsAggRead t p agg s
  | .shpWrite t p agg index => Sys2Proof.Machine.execShpWrite t p agg index s
  | .shpRead t p agg index => Sys2Proof.Machine.execShpRead t p agg index s
  | .macLaneModeWrite t p port v => Sys2Proof.Machine.execMacLaneModeWrite t p port v s
  | .macCtrlWrite t p port v => Sys2Proof.Machine.execMacCtrlWrite t p port v s
  | .linkUp t port => Sys2Proof.Machine.execLinkUp t port s
  | .linkDown t port cond => Sys2Proof.Machine.execLinkDown t port cond s
  | .reverted t pair => Sys2Proof.Machine.execReverted t pair s
  | .lpairWrite t p pair v => Sys2Proof.Machine.execLpairWrite t p pair v s
  | .preemptVerifyDone t port ok => Sys2Proof.Machine.execPreemptVerifyDone t port ok s
  | .pauseFrame t port frame => Sys2Proof.Machine.execPauseFrame t port frame s
  | .pauseHoldEnd t port => Sys2Proof.Machine.execPauseHoldEnd t port s
  | .pauseBreak t port => Sys2Proof.Machine.execPauseBreak t port s
  | .holdoffEnd t port => Sys2Proof.Machine.execHoldoffEnd t port s
  | .flowControlRepeat t port => Sys2Proof.Machine.execFlowControlRepeat t port s
  | .timeFreqWrite t p v => Sys2Proof.Machine.execTimeFreqWrite t p v s
  | .timeSet t p => Sys2Proof.Machine.execTimeSet t p s
  | .timeAdjust t p => Sys2Proof.Machine.execTimeAdjust t p s
  | .stopSlew t p => Sys2Proof.Machine.execStopSlew t p s
  | .slewDone t => Sys2Proof.Machine.execSlewDone t s
  | .timeNowRead t p => Sys2Proof.Machine.execTimeNowRead t p s
  | .ptimeTsqPop t p port => Sys2Proof.Machine.execPtimeTsqPop t p port s
  | .pgArm t p k asap => Sys2Proof.Machine.execPgArm t p k asap s
  | .pgDisarm t p k => Sys2Proof.Machine.execPgDisarm t p k s
  | .pgFired t k => Sys2Proof.Machine.execPgFired t k s
  | .ppsOutEdge t => Sys2Proof.Machine.execPpsOutEdge t s
  | .ppsIn t => Sys2Proof.Machine.execPpsIn t s
  | .todLine t => Sys2Proof.Machine.execTodLine t s
  | .gateChange t p port => Sys2Proof.Machine.execGateChange t p port s
  | .gateCancel t p port => Sys2Proof.Machine.execGateCancel t p port s
  | .changed t port => Sys2Proof.Machine.execChanged t port s
  | .gateEntry t port => Sys2Proof.Machine.execGateEntry t port s
  | .pcmFrame t g frame => Sys2Proof.Machine.execPcmFrame t g frame s
  | .fsLost t g => Sys2Proof.Machine.execFsLost t g s
  | .pcmGroupCfgWrite t p h v => Sys2Proof.Machine.execPcmGroupCfgWrite t p h v s
  | .pcmHwyCfgWrite t p h v => Sys2Proof.Machine.execPcmHwyCfgWrite t p h v s
  | .ringEnable t p g => Sys2Proof.Machine.execRingEnable t p g s
  | .ringDisable t p g orphans => Sys2Proof.Machine.execRingDisable t p g orphans s
  | .ringFlush t p g orphans => Sys2Proof.Machine.execRingFlush t p g orphans s
  | .doorbell t p r tail descs => Sys2Proof.Machine.execDoorbell t p r tail descs s
  | .txDescFetch t g bytes => Sys2Proof.Machine.execTxDescFetch t g bytes s
  | .txCompletion t g => Sys2Proof.Machine.execTxCompletion t g s
  | .mdmTxCmd t p v => Sys2Proof.Machine.execMdmTxCmd t p v s
  | .mdmMapWrite t p map session => Sys2Proof.Machine.execMdmMapWrite t p map session s
  | .mdmMapRead t p map session => Sys2Proof.Machine.execMdmMapRead t p map session s
  | .modemJobDone t unit res => Sys2Proof.Machine.execModemJobDone t unit res s
  | .archiveJobDone t lane c0 c1 reads => Sys2Proof.Machine.execArchiveJobDone t lane c0 c1 reads s
  | .segmentWaitResolve t => Sys2Proof.Machine.execSegmentWaitResolve t s
  | .arcAppend t p seg => Sys2Proof.Machine.execArcAppend t p seg s
  | .arcQuery t p seg => Sys2Proof.Machine.execArcQuery t p seg s
  | .arcXfer t p seg => Sys2Proof.Machine.execArcXfer t p seg s
  | .arcDecode t p seg => Sys2Proof.Machine.execArcDecode t p seg s
  | .arcCmdDone t reads => Sys2Proof.Machine.execArcCmdDone t reads s
  | .arcDonePop t p => Sys2Proof.Machine.execArcDonePop t p s
  | .memTrainingDone t failed => Sys2Proof.Machine.execMemTrainingDone t failed s
  | .memInitDone t => Sys2Proof.Machine.execMemInitDone t s
  | .faultRecordWrite t => Sys2Proof.Machine.execFaultRecordWrite t s
  | .scrubPass t reads => Sys2Proof.Machine.execScrubPass t reads s
  | .retireSwitchDone t => Sys2Proof.Machine.execRetireSwitchDone t s
  | .retireFrameCmd t p => Sys2Proof.Machine.execRetireFrameCmd t p s
  | .retireRead t p entry => Sys2Proof.Machine.execRetireRead t p entry s
  | .memXferToHost t p len => Sys2Proof.Machine.execMemXferToHost t p len s
  | .memXferFromHost t p len data => Sys2Proof.Machine.execMemXferFromHost t p len data s
  | .xferDone t reads => Sys2Proof.Machine.execXferDone t reads s
  | .stripeXlat t p v => Sys2Proof.Machine.execStripeXlat t p v s
  | .sramRepair t loc column => Sys2Proof.Machine.execSramRepair t loc column s
  | .clusterLost t k detect => Sys2Proof.Machine.execClusterLost t k detect s
  | .wbDrainDone t k => Sys2Proof.Machine.execWbDrainDone t k s
  | .unitFault t archive k detect => Sys2Proof.Machine.execUnitFault t archive k detect s
  | .pllSwitch t => Sys2Proof.Machine.execPllSwitch t s
  | .pllUnlock t pll => Sys2Proof.Machine.execPllUnlock t pll s
  | .injectCoreFault t p v => Sys2Proof.Machine.execInjectCoreFault t p v s
  | .injectCorrError t p v => Sys2Proof.Machine.execInjectCorrError t p v s
  | .injectUncorrError t p v => Sys2Proof.Machine.execInjectUncorrError t p v s
  | .injectClusterLoss t p v => Sys2Proof.Machine.execInjectClusterLoss t p v s
  | .restore t p v => Sys2Proof.Machine.execRestore t p v s
  | .porRelease t straps => Sys2Proof.Machine.execPorRelease t straps s
  | .porAssert t => Sys2Proof.Machine.execPorAssert t s
  | .libraryLoadDone t failed => Sys2Proof.Machine.execLibraryLoadDone t failed s
  | .info t p => Sys2Proof.Machine.execInfo t p s
  | .imgBegin t p => Sys2Proof.Machine.execImgBegin t p s
  | .imgData t p len => Sys2Proof.Machine.execImgData t p len s
  | .imgEnd t p verified => Sys2Proof.Machine.execImgEnd t p verified s
  | .activateFirmware t p => Sys2Proof.Machine.execActivateFirmware t p s
  | .activateLibrary t p => Sys2Proof.Machine.execActivateLibrary t p s
  | .activateDataPackage t p clips fits => Sys2Proof.Machine.execActivateDataPackage t p clips fits s
  | .commitSvn t p => Sys2Proof.Machine.execCommitSvn t p s
  | .mbxAbort t p => Sys2Proof.Machine.execMbxAbort t p s
  | .board t p len => Sys2Proof.Machine.execBoard t p len s
  | .mbxCmdDone t => Sys2Proof.Machine.execMbxCmdDone t s
  | .kwakelWatchdog t => Sys2Proof.Machine.execKwakelWatchdog t s
  | .kwakelRestart t => Sys2Proof.Machine.execKwakelRestart t s
  | .rotationStepLoadDone t => Sys2Proof.Machine.execRotationStepLoadDone t s
  | .sensorSample t temps volts devTemps locks => Sys2Proof.Machine.execSensorSample t temps volts devTemps locks s
  | .sensorFail t volt k twin => Sys2Proof.Machine.execSensorFail t volt k twin s
  | .flashLogWrite t bad => Sys2Proof.Machine.execFlashLogWrite t bad s
  | .mgmtFrameReceive t frame => Sys2Proof.Machine.execMgmtFrameReceive t frame s
  | .logRdSeq t p v => Sys2Proof.Machine.execLogRdSeq t p v s
  | .logNote t p v => Sys2Proof.Machine.execLogNote t p v s
  | .lifeCmd t p v verified => Sys2Proof.Machine.execLifeCmd t p v verified s
  | .directoryCopyDone t => Sys2Proof.Machine.execDirectoryCopyDone t s
  | .standingConfigWrite t => Sys2Proof.Machine.execStandingConfigWrite t s
  | .enterMaint t p => Sys2Proof.Machine.execEnterMaint t p s
  | .leaveMaint t p => Sys2Proof.Machine.execLeaveMaint t p s
  | .rotate t p => Sys2Proof.Machine.execRotate t p s
  | .constrainOn t p => Sys2Proof.Machine.execConstrainOn t p s
  | .constrainOff t p => Sys2Proof.Machine.execConstrainOff t p s
  | .powerTrigger t => Sys2Proof.Machine.execPowerTrigger t s
  | .constrainExit t => Sys2Proof.Machine.execConstrainExit t s
  | .sealCmd t p force => Sys2Proof.Machine.execSeal t p force s
  | .unsealCmd t p => Sys2Proof.Machine.execUnseal t p s
  | .wipe t p => Sys2Proof.Machine.execWipe t p s
  | .snapshot t p => Sys2Proof.Machine.execSnapshot t p s
  | .sealDeadline t => Sys2Proof.Machine.execSealDeadline t s
  | .sealHoldExpiry t => Sys2Proof.Machine.execSealHoldExpiry t s
  | .sealWiped t => Sys2Proof.Machine.execSealWiped t s
  | .gpioEdge t k high => Sys2Proof.Machine.execGpioEdge t k high s
  | .vddAonLoss t => Sys2Proof.Machine.execVddAonLoss t s
  | .vddAonReturn t => Sys2Proof.Machine.execVddAonReturn t s
  | .firmwareVerified t => Sys2Proof.Machine.execFirmwareVerified t s
  | .lifeChangeReset t => Sys2Proof.Machine.execLifeChangeReset t s
  | .pulseEnd t k => Sys2Proof.Machine.execPulseEnd t k s
  | .maintJobDone t task reads => Sys2Proof.Machine.execMaintJobDone t task reads s
  | .powerTriggerEnd t => Sys2Proof.Machine.execPowerTriggerEnd t s

end Sys2Proof.Machine
end

