-- ==== Sys2Proof/Machine/Pads.lean ====
section
/-! DEFINITION. The balls and the levels of the pads: views of the state that no command reads back (R557 to R559, R569,
R575). -/

namespace Sys2Proof.Machine

/-- What a pad does: driven to a level, weakly pulled to one, toggling or carrying its protocol, or undriven. -/
inductive Pad where
  | driven (high : Bool)
  | pulled (high : Bool)
  | active
  | idle
  | undriven
  deriving DecidableEq, Repr

/-- The four columns of the pad table (R569). -/
inductive PadPhase where
  | off | reset | start | modes
  deriving DecidableEq, Repr

/-- The regions of balls whose signals follow in order (R558). -/
inductive Region where
  | westFast | eastFast | westCmos | eastCmos
  deriving DecidableEq, Repr

/-- Signals of a region (R557). -/
def Region.signals : Region → Nat
  | .westFast => 36 | .eastFast => 40 | .westCmos => 54 | .eastCmos => 51

/-- Row and column of signal k of a region (R558). -/
def Region.ball (r : Region) (k : Nat) : Nat × Nat :=
  match r with
  | .westFast => (6 + k / 2, if k % 2 = 0 then 1 else 3)
  | .eastFast => (6 + k / 2, if k % 2 = 0 then 41 else 43)
  | .westCmos => (25 + k / 4, 1 + k % 4)
  | .eastCmos => (26 + k / 4, 40 + k % 4)

namespace State

/-- The column of the pad table that holds now. -/
def padPhase (s : State) : PadPhase :=
  if !s.pwr.vddAon then .off else if !s.pwr.porn || s.pwr.trip then .reset else if s.modes.mode = 0 then .start else .modes

/-- RSTOUT_N. -/
def padRstout (s : State) : Pad :=
  match s.padPhase with
  | .off => .undriven
  | .reset => .driven false
  | .start => .driven (s.mgmt.kstate = .running)
  | .modes => .driven true

/-- SYNC_OK (R559). -/
def padSyncOk (s : State) : Pad :=
  match s.padPhase with
  | .off => .undriven
  | .reset => .undriven
  | .start => .driven false
  | .modes => .driven (s.flag Reg.TIME_CTRL Fd.TIME_CTRL.SYNCED && s.flag Reg.BEAT_REF_STATUS Fd.BEAT_REF_STATUS.ALIGNED)

/-- CLK_MON: the core clock divided by 1,024, or low (R559). -/
def padClkMon (s : State) : Pad :=
  if s.padPhase = .off then .undriven else if s.flag Reg.IO_CTRL Fd.IO_CTRL.MON_EN then .active else .driven false

/-- CLK25_OUT. -/
def padClk25 (s : State) : Pad :=
  if s.padPhase != .off && s.flag Reg.IO_CTRL Fd.IO_CTRL.CLK25_EN then .active else .undriven

/-- THERM_TRIP_N: low while the trip holds, released otherwise (R515). -/
def padThermTrip (s : State) : Pad := if s.pwr.vddAon && s.pwr.trip then .driven false else .undriven

/-- The level of a pulse output that pulses in its polarity. -/
def pulseLevel (s : State) (k : Nat) : Bool :=
  let on := match s.pgs[k]? with
    | some g => g.high
    | none => false
  on != (k < 4 && s.flag (Reg.PG_CTRL k) Fd.PG_CTRL.POL)

/-- PULSE0 to PULSE3, and PPS_OUT as k = 4 (R359, R362). -/
def padPulse (s : State) (k : Nat) : Pad :=
  match s.padPhase with
  | .off => .undriven
  | .reset => .undriven
  | .start => .driven (k < 4 && s.flag (Reg.PG_CTRL k) Fd.PG_CTRL.POL)
  | .modes => .driven (s.pulseLevel k)

/-- PCM_BCLK and PCM_FS of a group (R376). -/
def padPcmClock (s : State) (g : Nat) : Pad :=
  if s.padPhase = .modes && s.groupEn g && s.groupMaster g then .active else .undriven

/-- PCM_DX of a highway: high impedance in the whole highway while its group is OFF or LOST, or it is disabled (R377). -/
def padPcmDx (s : State) (h : Nat) : Pad :=
  if s.padPhase = .modes && s.hwyEn h && s.groupEn (h / 4) && (s.groupMaster (h / 4) || (s.group (h / 4)).st = .locked) then .active
  else .undriven

/-- The Ethernet transmitters of a port. -/
def padEthTx (s : State) (p : Nat) : Pad :=
  match s.padPhase with
  | .off => .undriven
  | .reset => .idle
  | .start => .idle
  | .modes => if s.flag (Reg.MAC_CTRL p) Fd.MAC_CTRL.EN then .active else .idle

/-- The PCIe transmitters of a port: no link while PERST_N is low (R568). -/
def padPcieTx (s : State) (p : Port) : Pad :=
  match s.padPhase with
  | .off => .undriven
  | .reset => .idle
  | .start => if s.linked p then .active else .idle
  | .modes => if s.linked p then .active else .idle

/-- The level of an alternate function of GPIO ball k (R575). -/
def altLevel (s : State) (k : Nat) : Bool :=
  let alt := s.get (Reg.IO_MUX k) Fd.IO_MUX.ALT
  if alt = 0 then s.evtSevMax != 3
  else if alt = 1 then s.clk.started && s.clk.now < s.clk.at0 + usTicks 1
  else s.flag (Reg.MAC_LINK (k % 8)) Fd.MAC_LINK.LINK_UP

/-- GPIO ball k (R575): the pull-down applies to an undriven ball. -/
def padGpio (s : State) (k : Nat) : Pad :=
  let pull : Pad := if (s.get Reg.IO_GPIO_PULL Fd.IO_GPIO_PULL.PULL).testBit k then .pulled false else .undriven
  match s.padPhase with
  | .off => .undriven
  | .reset => .pulled false
  | .start => .pulled false
  | .modes =>
    let user := s.get (Reg.IO_MUX k) Fd.IO_MUX.USER
    if user = 1 then
      if (s.get Reg.IO_GPIO_OE Fd.IO_GPIO_OE.OE).testBit k then .driven ((s.get Reg.IO_GPIO_OUT Fd.IO_GPIO_OUT.OUT).testBit k) else pull
    else if user = 2 then .driven (s.altLevel k)
    else pull

end State

end Sys2Proof.Machine
end

