-- ==== Sys2Proof/Safety.lean ====
section
/-! DEFINITION. What counts as a safe step, when a port's writes are served, and how claims say what a command leaves
unchanged. -/

namespace Sys2Proof.Machine

/-- An outcome that goes on: neither a fault nor a refusal. -/
def Completes (o : Host.Outcome State Fault Refusal) : Prop := ∃ u, o = .next u

/-- A safe step: the machine goes on. -/
def SafeStep (s : State) : Prop := Completes (step s)

/-- A register that an event source may change beside what its command writes: a latch (R27), the count of records lost
(R521) and the count of syslog messages dropped (R523). -/
def evtReg (a : Nat) : Bool := a % 0x1000 = 0x10 || a = Reg.LOG_LOST_CNT || a = Reg.MGMT_NET_DROP

/-- From PORn to the boundary after: the clock never passes the next boundary by itself, and B(n) never lies ahead (R6,
R51). -/
def Clk.Sound (c : Clk) : Prop := c.started = true → c.t0 ≤ c.at0 ∧ c.at0 ≤ c.now ∧ c.now < c.at0 + beatTicks

/-- The codec of a packet leg without SRTP. -/
def LegCfg.plainCodec : LegCfg → Option Nat
  | .packet codec _ _ false _ _ _ _ _ _ _ _ => some codec
  | _ => none

namespace State

/-- The result of a command at instant t whose effect is `f`: the clock is that of t, and the queue is as it was. -/
def after (s : State) (t : Nat) (f : State → State) : State := { f (s.atTick t) with clk := s.clk.advance t, pending := s.pending }

/-- A write of the owner at port p takes effect: the 9340 runs, the link is up, Kwakel runs, p owns, and SEAL has not closed
the registers (R32, R537, R568, R581). -/
def Serves (s : State) (p : Port) : Prop :=
  s.up = true ∧ s.linked p = true ∧ s.mgmt.kstate = .running ∧ s.ownedBy p = true ∧ s.modes.phase ≠ .sealed

/-- `u` is `s` but for the registers listed. -/
def OnlyRegs (s u : State) (rs : List Nat) : Prop := { u with regs := s.regs } = s ∧ ∀ a, a ∉ rs → u.rd a = s.rd a

/-- `u` is `s` but for the registers listed and for what event sources do: latches, MSI-X messages, outputs and the log
(R23, R27, R519). -/
def OnlyEvents (s u : State) (rs : List Nat) : Prop :=
  { u with regs := s.regs, msixA := s.msixA, msixB := s.msixB, out := s.out, log := s.log, recent := s.recent } = s
    ∧ ∀ a, a ∉ rs → evtReg a = false → u.rd a = s.rd a

/-- A register on the page of an Ethernet port. -/
def macReg (a : Nat) : Bool := 0x60 ≤ a / 0x1000 && a / 0x1000 < 0x68

/-- `u` is `s` but for the registers listed, for what event sources do, and for what follows the level of shared packet
memory: its high-water mark, and the flow control of the ports with its frames and counters (R307, R339). -/
def OnlyMem (s u : State) (rs : List Nat) : Prop :=
  { u with regs := s.regs, msixA := s.msixA, msixB := s.msixB, out := s.out, log := s.log, recent := s.recent,
           nw := { u.nw with macs := s.nw.macs } } = s
    ∧ (∀ p, { u.mac p with xoff := (s.mac p).xoff, repeatAt := (s.mac p).repeatAt } = s.mac p)
    ∧ ∀ a, a ∉ rs → evtReg a = false → a ≠ Reg.PKT_MEM_HWM → macReg a = false → u.rd a = s.rd a

/-- A frame that port `p` accepts whole (R331, R388, R391): its size, its FCS and its code blocks are right, its merge and the
ingress FIFO leave it as it is. -/
def Accepts (s : State) (p : Nat) (f : RxFrame) : Prop :=
  s.provided p = true ∧ s.macEn p = true ∧ f.mergeErr = false ∧ frameWhole f = true ∧ f.fcsOk = true
    ∧ f.pcsOk = true ∧ 64 ≤ f.bytes.length + 4 ∧ f.bytes.length + 4 ≤ s.get (Reg.MAC_MAXFRAME p) Fd.MAC_MAXFRAME.BYTES

/-- An output that left on the way from `s` to `u`. -/
def Sends (s u : State) (o : Output) : Prop := o ∈ u.out.take (u.out.length - s.out.length)

/-- An event source's latch bit is 1. -/
def Latched (s : State) (page b : Nat) : Prop := (s.rd (Reg.EVT_LATCH page)).getLsbD b = true

/-- LAST_STATUS of a page holds a status. -/
def Reports (s : State) (page : Nat) (st : Status) : Prop :=
  s.get (Reg.PAGE_STATUS page) Fd.PAGE_STATUS.LAST_STATUS = st.code

/-- The open channel `num` has the list `ctls` of waiting actions in `u`, and nothing else of any channel has changed; `page`
reports OK. -/
def GivesCtls (s u : State) (page num : Nat) (c : Chan) (ctls : List (BeatNo × ChanCtl)) : Prop :=
  u.chan num = some { c with ctls := ctls } ∧ (∀ m d, s.chan m = some d → d.uid ≠ c.uid → u.chan m = some d)
    ∧ u.Reports page .ok ∧ OnlyEvents { s with chans := u.chans, closing := u.closing } u [Reg.PAGE_STATUS page]

/-- REL_LAST_FAULT holds a fault (R499). -/
def LastFault (s : State) (cls cluster index detect : Nat) (injected : Bool) : Prop :=
  s.get Reg.REL_LAST_FAULT Fd.REL_LAST_FAULT.CLASS = cls ∧ s.get Reg.REL_LAST_FAULT Fd.REL_LAST_FAULT.CLUSTER = cluster % 16
    ∧ s.get Reg.REL_LAST_FAULT Fd.REL_LAST_FAULT.INDEX = index % 16 ∧ s.get Reg.REL_LAST_FAULT Fd.REL_LAST_FAULT.DETECT = detect % 256
    ∧ s.flag Reg.REL_LAST_FAULT Fd.REL_LAST_FAULT.INJECTED = injected

end State

end Sys2Proof.Machine
end

