-- ==== Sys2Proof/Certificates/Slice0/Obligations.lean ====
section
/-! DEFINITION. The statements about this model, for the provers. Each docstring names the rules of spec/ that it rests on. -/

open Sys2Proof Sys2Proof.Machine

/-- A step takes the command at the front of the queue and runs it with the queue's rest; with nothing waiting the block idles
(the model's choice, log entry 1). -/
def Obligations.StepRunsFront : Prop :=
  (∀ (c : Instr) (rest : List Instr) (s : State), s.pending = c :: rest → step s = exec c { s with pending := rest })
    ∧ ∀ s : State, s.pending = [] → step s = .next s

/-- The state after reset (R534): RESET ends every channel, transaction, session, ring and recording stream. -/
def Obligations.ResetState : Prop :=
  State.reset.up = false ∧ State.reset.clk.started = false ∧ State.reset.clk.Sound ∧ State.reset.modes.mode = 0 ∧ State.reset.own.owner = .none
    ∧ (∀ p, (State.reset.portOwn p).claim = false) ∧ State.reset.txns.length = 16 ∧ (∀ x ∈ State.reset.txns, x.state = .free)
    ∧ State.reset.chans = [] ∧ State.reset.arc.streams = [] ∧ (∀ g, g < 256 → State.reset.ringRuns g = false)
    ∧ State.reset.log.ram = [] ∧ State.reset.pending = [] ∧ ∀ a, State.reset.rd a = resetWord a

/-- CLAIM, WITHDRAW, RELEASE, OWN_HANDOVER, OWN_HEARTBEAT and HEARTBEAT_DEADLINE_EXPIRY (R34, R35, R37, R40, R41, R44). -/
def Obligations.OwnershipRequests : Prop :=
  (∀ (s : State) (t : Nat) (p : Port), s.up = true → s.linked p = true → s.mgmt.kstate = .running →
    (s.ownedBy p = false → (s.portOwn p).claim = false →
      exec (.claim t p) s
        = .next (((s.atTick t).setPortOwn p { s.portOwn p with claimReq := true }).status Pg.OWN .ok))
    ∧ (s.ownedBy p = false → (s.portOwn p).claim = true →
      exec (.withdraw t p) s
        = .next (((s.atTick t).setPortOwn p { s.portOwn p with withdrawReq := true }).status Pg.OWN .ok))
    ∧ (s.ownedBy p = true → (s.portOwn p).claim = true →
      exec (.release t p) s
        = .next (((s.atTick t).setPortOwn p { s.portOwn p with releaseReq := true, handoverReq := none }).status Pg.OWN .ok))
    ∧ (s.ownedBy p = true → (s.portOwn p).claim = true → (s.portOwn (otherPort p)).claim = true → s.hasOpenTxn p = false →
      exec (.ownHandover t p (match p with
        | .a => 2
        | .b => 1)) s
        = .next (((s.atTick t).setPortOwn p { s.portOwn p with handoverReq := some (otherPort p), releaseReq := false }).status
            Pg.OWN .ok)))
  ∧ ∀ (s : State) (t : Nat) (p : Port), s.up = true →
      (s.linked p = true → s.mgmt.kstate = .running →
        exec (.ownHeartbeat t p) s
          = .next (((s.atTick t).wr (State.ageReg p) 0).setPortOwn p
              { s.portOwn p with
                beaten := true
                deadline := if (s.portOwn p).claim = true ∧ (s.portOwn p).expired = false ∧ (s.clk.advance t).now < (s.portOwn p).deadline
                  then (s.clk.advance t).now + s.ownerLoss else (s.portOwn p).deadline }))
      ∧ ((s.portOwn p).claim = true → (s.portOwn p).deadline ≤ (s.clk.advance t).now →
        exec (.heartbeatDeadlineExpiry t p) s = .next ((s.atTick t).setPortOwn p { s.portOwn p with expired := true }))

/-- Function level reset and PERST_N (R46, R568). -/
def Obligations.FunctionLevelReset : Prop :=
  ∀ (s : State) (t : Nat) (p : Port), s.up = true →
    (∃ u, exec (.functionLevelReset t p) s = .next u
      ∧ u.portOwn p = { s.portOwn p with claim := false, claimReq := false, withdrawReq := false, releaseReq := false,
                                         handoverReq := none, flr := s.ownedBy p }
      ∧ u.portOwn (otherPort p) = s.portOwn (otherPort p) ∧ u.own.owner = s.own.owner ∧ u.own.epoch = s.own.epoch
      ∧ State.OnlyEvents { s.atTick t with own := u.own, spares := u.spares } u [State.resultReg p])
    ∧ (∃ u, exec (.perstN t p false) s = .next u
      ∧ u.linked p = false ∧ u.linked (otherPort p) = s.linked (otherPort p)
      ∧ u.portOwn p = { s.portOwn p with claim := false, claimReq := false, withdrawReq := false, releaseReq := false,
                                         handoverReq := none, flr := s.ownedBy p }
      ∧ u.portOwn (otherPort p) = s.portOwn (otherPort p) ∧ u.own.owner = s.own.owner ∧ u.own.epoch = s.own.epoch
      ∧ State.OnlyEvents { s.atTick t with pwr := u.pwr, own := u.own, spares := u.spares } u [State.resultReg p])
    ∧ (s.linked p = false → exec (.perstN t p true) s = .next (((s.setLink p true).atTick t).emit (.train p)))


/-- BEAT_BOUNDARY once the timebase runs (R6). -/
def Obligations.BeatLength : Prop :=
  ∀ (s : State) (t : Nat) (inp : BoundaryInput), s.up = true → s.clk.started = true →
    ∃ u, exec (.beatBoundary t inp) s = .next u ∧ u.clk.n = s.clk.n + 1 ∧ u.clk.at0 = s.clk.at0 + 122880 * cycTicks
      ∧ u.clk.now = u.clk.at0 ∧ u.clk.started = true ∧ u.clk.t0 = s.clk.t0 ∧ u.pending = s.pending

/-- The first boundary (R51, R537). -/
def Obligations.FirstBoundary : Prop :=
  ∀ (s : State) (t : Nat) (inp : BoundaryInput), s.up = true → s.clk.started = false →
    (s.mgmt.boots = true →
      ∃ u, exec (.beatBoundary t inp) s = .next u ∧ u.clk.started = true ∧ u.clk.n = 0 ∧ u.clk.at0 = max s.clk.now t
        ∧ u.clk.now = u.clk.at0 ∧ u.pending = s.pending)
    ∧ (s.mgmt.boots = false → exec (.beatBoundary t inp) s = .next (s.atTick t))

/-- Step 4 of the processing of claims, as part of BEAT_BOUNDARY (R37, R38, R45). -/
def Obligations.ClaimGranted : Prop :=
  ∀ (s : State) (both : Bool), s.mgmt.kstate = .running → s.own.owner = .none →
    s.own.pa = { PortOwn.fresh with claimReq := true } → s.own.pb = { PortOwn.fresh with claimReq := both } →
    s.ownBoundary.own.owner = .host .a ∧ s.ownBoundary.own.epoch = s.own.epoch + 1 ∧ s.ownBoundary.own.lastCause = 1
      ∧ s.ownBoundary.own.pa.claim = true ∧ s.ownBoundary.own.pb.claim = both
      ∧ s.ownBoundary.own.pa.deadline = s.clk.at0 + s.ownerLoss
      ∧ s.ownBoundary.Latched Pg.OWN Ev.OWN.OWNER_CHANGED
      ∧ s.ownBoundary.get Reg.OWN_RESULT_A Fd.OWN_RESULT_A.STATUS = 0
      ∧ s.ownBoundary.get Reg.OWN_RESULT_A Fd.OWN_RESULT_A.EPOCH = (s.own.epoch + 1).toNat

/-- REFERENCE_QUALIFY and REFERENCE_DISQUALIFY (R49, R497). -/
def Obligations.ReferenceChanges : Prop :=
  ∀ (s : State) (t : Nat) (ref : BitVec 2), s.up = true →
    (ref.toNat ≠ 3 → (ref.toNat = 0 → s.netMayQualify = true) →
      ∃ u, exec (.referenceQualify t ref) s = .next u ∧ u.refQualified ref.toNat = true
        ∧ (∀ r, r ≠ ref.toNat → u.refQualified r = s.refQualified r) ∧ u.refs.active = s.refs.active
        ∧ State.OnlyEvents { s.atTick t with refs := u.refs, spares := u.spares } u [Reg.BEAT_REF_STATUS])
    ∧ (s.refQualified ref.toNat = true →
      ∃ u, exec (.referenceDisqualify t ref) s = .next u ∧ u.refQualified ref.toNat = false
        ∧ (∀ r, r ≠ ref.toNat → u.refQualified r = s.refQualified r) ∧ u.refs.active = s.refs.active
        ∧ (s.activeRef = ref.toNat →
          u.LastFault 13 0 0 11 false ∧ u.Latched Pg.REL Ev.REL.FAULT)
        ∧ State.OnlyEvents { s.atTick t with refs := u.refs, spares := u.spares } u
            [Reg.BEAT_REF_STATUS, Reg.REL_LAST_FAULT, Reg.REL_LAST_BEAT, Reg.REL_FAULT_CNT 13])

/-- CUT, INGRESS_SEAL and BEAT_NOW_READ (R56, R57, R71). -/
def Obligations.CutSealAndNow : Prop :=
  ∀ (s : State) (t : Nat) (p : Port), s.up = true →
    (s.clk.started = true → s.nextCut ≤ (s.clk.advance t).now →
      exec (.cut t) s = .next ((s.atTick t).setRefs { s.refs with sealWait := true }))
    ∧ (s.refs.late = false → s.framesBefore s.nextCut = false →
      exec (.ingressSeal t) s = .next ((s.atTick t).setRefs { s.refs with sealWait := false }))
    ∧ (s.refs.late = true → s.framesBefore s.lastCut = false →
      exec (.ingressSeal t) s
        = .next (s.after t fun s => (((s.setRefs { s.refs with late := false }).inc Reg.BEAT_SEAL_LATE
            Fd.BEAT_SEAL_LATE.COUNT).event Pg.BEAT Ev.BEAT.SEAL_LATE).readyBeat))
    ∧ (s.linked p = true → s.mgmt.kstate ≠ .boot →
      ∃ u, exec (.beatNowRead t p) s = .next u ∧ u.lastRead = s.clk.n
        ∧ (s.clk.started = true → u.get Reg.BEAT_CYCLE Fd.BEAT_CYCLE.CYC = (s.clk.advance t).cycle % 2 ^ 17)
        ∧ u.rd Reg.BEAT_STAMP_NS = Word.of s.refs.stamp.ns ∧ u.rd Reg.BEAT_STAMP_SEC_LO = Word.of s.refs.stamp.sec
        ∧ State.OnlyEvents { s.atTick t with lastRead := s.clk.n } u
            [Reg.BEAT_CYCLE, Reg.BEAT_STAMP_SEC_LO, Reg.BEAT_STAMP_SEC_HI, Reg.BEAT_STAMP_NS])


/-- JOB_GRANT for a cluster and HOLD_RELEASE (R255, R257, R258, R261). -/
def Obligations.GrantAndRelease : Prop :=
  (∀ (s : State) (t k i : Nat) (j : Job) (o : Bool) (c : Core), s.up = true → (s.atTick t).poolGranted (.cluster k) = false →
    (s.atTick t).firstAsk k = some (i, j, o) → s.job j.id = some j → s.core k i = some c →
    ∃ u, exec (.jobGrant t (.cluster k)) s = .next u
      ∧ u.job j.id = some { j with state := .staging, server := some (.core k i), staged := false, grantAt := (s.clk.advance t).now }
      ∧ u.core k i = some { c with slot := some j.id }
      ∧ State.OnlyEvents { s.atTick t with disp := u.disp, clusters := u.clusters, trace := u.trace } u
          [Reg.DSP_GRANT_CNT, Reg.DSP_AFF_CNT, Reg.DSP_STEAL_CNT, Reg.DSP_OLDER_CNT, Reg.TRACE_WR_IDX, Reg.TRACE_OLDEST,
           Reg.TRACE_LOST])
  ∧ ∀ (s : State) (t : Nat) (j : Job), s.up = true → s.disp.jobs.length < maxEntries → State.firstHeld s.disp.held = some j →
    exec (.holdRelease t) s
      = .next (s.after t fun s =>
          (({ s with disp := { s.disp with held := State.unhold j s.disp.held } }.showHolds).traceJob 8 j none 0).enterJob j)

/-- STAGING_COMPLETE, JOB_START and JOB_HANDOVER (R74, R239 to R241, R244). -/
def Obligations.JobOnCore : Prop :=
  ∀ (s : State) (t k i : Nat) (j : Job), s.up = true → s.job j.id = some j →
    (s.slotJob k i = some j → s.nextToStage k = some j →
      ∃ u, exec (.stagingComplete t k i []) s = .next u
        ∧ u.job j.id = some { j with
            staged := true
            flagged := j.flagged || (j.kind = .beat && !s.memReady && (s.life j.uid).any fun c => !c.compact)
            version := ((s.life j.uid).map fun (c : Chan) => c.version).getD 0 }
        ∧ { u with disp := s.disp } = s.atTick t)
    ∧ (∀ c, s.core k i = some c → s.slotJob k i = some j → s.serves k = true → c.run = none → c.checking = none → j.staged = true →
        c.inject = false →
      ∃ u, exec (.jobStart t k i) s = .next u
        ∧ u.job j.id = some { j with state := .running, startAt := (s.clk.advance t).now, acc := (s.clk.advance t).now }
        ∧ u.core k i = some { c with slot := none, run := some j.id, inject := false, sat := false }
        ∧ u.disp.lastCore.find? j.flow = some (k, i)
        ∧ State.OnlyEvents { s.atTick t with disp := u.disp, clusters := u.clusters, trace := u.trace } u
            [Reg.TRACE_WR_IDX, Reg.TRACE_OLDEST, Reg.TRACE_LOST])
    ∧ (∀ (c : Core) (d : Nat), s.core k i = some c → s.runJob k i = some j → j.state = .running → j.server = some (.core k i) →
        (j.kind = .beat → (s.atTick t).elapsed k j < s.budget j) →
      ∃ u, exec (.jobHandover t k i d) s = .next u
        ∧ u.job j.id = some { j with state := .committing, digest := some d, startAt := (s.clk.advance t).now }
        ∧ u.core k i = some { c with slot := if c.slot = some j.id then none else c.slot, run := none }
        ∧ State.OnlyEvents { s.atTick t with disp := u.disp, clusters := u.clusters } u [Reg.CLU_STAGE_WAIT_CNT k])

/-- JOB_COMMIT, PARTNER_DIGEST and WRITE_BACK_COMPLETE (R75, R76, R242, R243, R466, R488). -/
def Obligations.CommitUnit : Prop :=
  (∀ (s : State) (t chan : Nat) (r : JobResult) (j : Job) (c : Chan), s.up = true → s.committingJob chan = some j →
    s.wbFull (State.jobCluster j) = false → s.life j.uid = some c →
    ((s.atTick t).inTurn j c = true → j.flagged = false → (∀ x, s.otherSide j = some x → x.flagged = false ∧ (j.paired = true → j.peer = j.digest)) →
      exec (.jobCommit t chan r) s = .next (s.after t fun s => s.acceptJob j c r))
    ∧ ((s.atTick t).inTurn j c = false → exec (.jobCommit t chan r) s = .next (s.after t fun s => s.abortJob j 1 false))
    ∧ ((s.atTick t).inTurn j c = true → j.flagged = true → exec (.jobCommit t chan r) s = .next (s.after t fun s => s.poisonJob j))
    ∧ (∀ x, (s.atTick t).inTurn j c = true → s.otherSide j = some x → j.flagged = false → x.flagged = false → j.paired = true →
        j.peer ≠ j.digest →
      exec (.jobCommit t chan r) s = .next (s.after t fun s => s.mismatch j x)))
  ∧ (∀ (s : State) (t chan k i : Nat) (x h : Job), s.up = true →
      s.disp.jobs.find? (fun j => j.kind = .beat && j.partner && j.chan = chan && j.state = .committing) = some x →
      s.otherSide x = some h → h.peer = none → x.server = some (.core k i) →
      exec (.partnerDigest t chan) s
        = .next (((s.atTick t).inc (Reg.CLU_PARTNER_CNT k) Fd.CLU_PARTNER_CNT.COUNT).modJob h.id fun h => { h with peer := x.digest }))
  ∧ ∀ (s : State) (t k chan : Nat), s.up = true →
      exec (.writeBackComplete t k chan none) s = .next ((s.atTick t).modCluster k fun c => { c with wb := State.dropWb chan c.wb })

/-- JOB_DEADLINE, JOB_OVERRUN and MAINT_JOB_DONE (R62, R63, R71, R244, R251). -/
def Obligations.DeadlineAndOverrun : Prop :=
  (∀ (s : State) (t : Nat) (w : BeatWork), s.up = true → s.clk.started = true → s.clk.prevDeadline ≤ (s.clk.advance t).now →
    s.workOf (s.clk.n - 1) = some w → s.beatJobs (s.clk.n - 1) = [] → s.disp.held = [] →
    ∃ u, exec (.jobDeadline t) s = .next u ∧ u.workOf (s.clk.n - 1) = none
      ∧ u.get Reg.BEAT_DONE_LAST Fd.BEAT_DONE_LAST.US
          = (if w.had then (match w.last with
              | some τ => (τ - (s.clk.at0 - beatTicks)) / usTicks 1
              | none => 9900) else 0) % 2 ^ (Fd.BEAT_DONE_LAST.US.hi + 1 - Fd.BEAT_DONE_LAST.US.lo)
      ∧ State.OnlyEvents { s.atTick t with disp := u.disp } u
          [Reg.DSP_HOLD, Reg.BEAT_DONE_LAST, Reg.BEAT_DONE_HWM, Reg.BEAT_RECOV_CNT])
  ∧ (∀ (s : State) (t k i : Nat) (j : Job), s.up = true → s.runJob k i = some j → j.kind = .beat → j.state = .running →
      s.budget j ≤ (s.atTick t).elapsed k j →
      exec (.jobOverrun t k i) s
        = .next (s.after t fun s =>
            ((s.inc (Reg.CLU_OVERRUN_CNT k) Fd.CLU_OVERRUN_CNT.COUNT).event (Pg.CLU k) Ev.CLU.OVERRUN).abortJob j 2 false))
  ∧ ∀ (s : State) (t task : Nat) (j : Job), s.up = true → s.coreJob .maint task = some j →
      exec (.maintJobDone t task []) s = .next (s.after t fun s => s.completeJob j)


/-- CORE_FAULT, CORE_SELF_CHECK_DONE and UNIT_FAULT (R485, R486, R495, R499). -/
def Obligations.FaultsAreCharged : Prop :=
  (∀ (s : State) (t k i d : Nat) (cl : Cluster) (c : Core), s.up = true → s.cluster k = some cl → s.core k i = some c →
    c.run = none → c.slot = none → (∀ j ∈ s.disp.jobs, j.server ≠ some (.core k i)) →
    (if cl.charged.contains i then cl.charged else i :: cl.charged).length < 3 →
    ∃ u, exec (.coreFault t k i d none) s = .next u
      ∧ u.core k i = some { c with
          history := State.recentFaults s.clk.n c.history ++ [s.clk.n], total := sat16 (c.total + 1), lastFault := s.clk.n
          retire := c.retire || 3 ≤ (State.recentFaults s.clk.n c.history ++ [s.clk.n]).length, checking := some (s.clk.advance t).now }
      ∧ u.LastFault 0 k i d false ∧ u.rd Reg.REL_LAST_BEAT = s.clk.n ∧ u.Latched Pg.REL Ev.REL.FAULT
      ∧ State.OnlyEvents { s.atTick t with clusters := u.clusters, spares := u.spares } u
          [Reg.REL_LAST_FAULT, Reg.REL_LAST_BEAT, Reg.REL_FAULT_CNT 0])
  ∧ (∀ (s : State) (t k i : Nat), s.up = true →
      exec (.coreSelfCheckDone t k i) s = .next ((s.atTick t).modCore k i fun c => { c with checking := none }))
  ∧ ∀ (s : State) (t i d : Nat) (lane : Bool) (x : PoolUnit), s.up = true → (s.poolUnits lane)[i]? = some x → x.alive = true →
      x.run = none →
      ∃ u, exec (.unitFault t lane i d) s = .next u
        ∧ (u.poolUnits lane)[i]? = some { x with
            history := State.recentFaults s.clk.n x.history ++ [s.clk.n]
            alive := (State.recentFaults s.clk.n x.history ++ [s.clk.n]).length < 3 }
        ∧ u.LastFault (if lane then 7 else 6) 0 i d false ∧ u.rd Reg.REL_LAST_BEAT = s.clk.n

/-- CLUSTER_LOST, WB_DRAIN_DONE, PLL_SWITCH, PLL_UNLOCK and SRAM_REPAIR (R489, R490, R492, R493, R496, R518). -/
def Obligations.ClusterPllAndRepair : Prop :=
  (∀ (s : State) (t k d : Nat) (c : Cluster), s.up = true → s.cluster k = some c →
    (c.cstate ≠ .lost → ∃ u, exec (.clusterLost t k d) s = .next u ∧ u.LastFault 5 k 0 d false ∧ u.Latched Pg.REL Ev.REL.CLUSTER_LOST)
    ∧ (c.cstate = .lost → exec (.wbDrainDone t k) s = .next ((s.atTick t).modCluster k fun c => { c with wb := [] })))
  ∧ (∀ (s : State) (t : Nat), s.up = true → s.spares.onStandby = false →
      ∃ u, exec (.pllSwitch t) s = .next u ∧ u.spares.onStandby = true ∧ u.LastFault 12 0 0 10 false
        ∧ u.Latched Pg.REL Ev.REL.PLL_SWITCH
        ∧ State.OnlyEvents { s.atTick t with spares := u.spares } u [Reg.REL_LAST_FAULT, Reg.REL_LAST_BEAT, Reg.REL_FAULT_CNT 12])
  ∧ (∀ (s : State) (t pll : Nat), s.up = true → pll < 6 →
      ∃ u, exec (.pllUnlock t pll) s = .next u ∧ (u.get Reg.SENSOR_PLL Fd.SENSOR_PLL.FAULT).testBit pll = true
        ∧ (u.get Reg.SENSOR_PLL Fd.SENSOR_PLL.LOCK).testBit pll = false ∧ (pll = 1 → u.spares.standbyLocked = false)
        ∧ u.Latched Pg.SENSOR Ev.SENSOR.PLL_UNLOCK
        ∧ State.OnlyEvents { s.atTick t with spares := u.spares } u [Reg.SENSOR_PLL])
  ∧ ∀ (s : State) (t : Nat) (l : SramLoc) (col : Bool), s.up = true →
      (s.spares.due.any fun y => State.sameLine { loc := l, column := col } y) = true → s.repairFree l = true →
      (if col then (s.bankUse l).cols else (s.bankUse l).rows) < bankSpares →
      ∃ u, exec (.sramRepair t l col) s = .next u
        ∧ (u.bankUse l).rows = (s.bankUse l).rows + (if col then 0 else 1)
        ∧ (u.bankUse l).cols = (s.bankUse l).cols + (if col then 1 else 0)
        ∧ u.spares.due = s.spares.due.filter (fun y => !State.sameLine { loc := l, column := col } y)
        ∧ u.Latched Pg.REL Ev.REL.SRAM_REPAIR
        ∧ State.OnlyEvents { s.atTick t with spares := u.spares, mgmt := u.mgmt } u []

/-- REL_INJECT by CODE (R498). -/
def Obligations.InjectedFaults : Prop :=
  ∀ (s : State) (t k i : Nat) (p : Port) (v : Word), s.Serves p → bitsOf v 23 20 = k → bitsOf v 19 16 = i → i ≤ 9 →
    (s.coreServes k i = true →
      exec (.injectCoreFault t p v) s
        = .next (((s.atTick t).status Pg.REL .ok).modCore k i fun c => { c with inject := true }))
    ∧ exec (.injectCorrError t p v) s
        = .next (((s.atTick t).status Pg.REL .ok).inc (Reg.CLU_ECC_CORR_CNT k) Fd.CLU_ECC_CORR_CNT.COUNT)
    ∧ (∃ u, exec (.injectUncorrError t p v) s = .next u ∧ u.LastFault 1 k i 2 true)
    ∧ (∀ c, s.modes.maint = true → s.cluster k = some c → c.cstate ≠ .lost →
      ∃ u, exec (.injectClusterLoss t p v) s = .next u ∧ u.LastFault 5 k 0 5 true ∧ u.Latched Pg.REL Ev.REL.CLUSTER_LOST)
    ∧ (∀ c, s.cluster k = some c → c.cstate = .lost → c.lostInjected = true →
      exec (.restore t p v) s = .next (((s.atTick t).status Pg.REL .ok).modCluster k fun c => { c with restoring := true }))

/-- The trace commands (R266 to R269). -/
def Obligations.TraceCommands : Prop :=
  (∀ (s : State) (t : Nat) (p : Port) (v : Word), s.Serves p → bitsOf v 2 0 ≤ 4 → (s.modes.bringup = true → bitsOf v 2 0 ≤ 2) →
    ∃ u, exec (.traceModeWrite t p v) s = .next u ∧ u.traceMode = bitsOf v 2 0 ∧ u.Reports Pg.TRACE .ok
      ∧ (s.traceMode = 0 → bitsOf v 2 0 ≠ 0 →
        u.trace.recs = [] ∧ u.trace.stopped = false ∧ u.rd Reg.TRACE_OLDEST = s.rd Reg.TRACE_WR_IDX)
      ∧ State.OnlyEvents { s.atTick t with trace := u.trace } u [Reg.TRACE_CTRL, Reg.PAGE_STATUS Pg.TRACE, Reg.TRACE_OLDEST])
  ∧ (∀ (s : State) (t : Nat) (p : Port) (v : Word), s.Serves p → s.traceOn = true → s.traceMode = 1 → s.trace.lostRun = 0 →
      ∃ u, exec (.traceMark t p v) s = .next u
        ∧ u.trace.recs.head? = some { idx := s.rd Reg.TRACE_WR_IDX, words := (s.atTick t).traceWords 14 0 (bitsOf v 19 0) 0 768 0 }
        ∧ u.rd Reg.TRACE_WR_IDX = s.rd Reg.TRACE_WR_IDX + 1 ∧ u.Reports Pg.TRACE .ok
        ∧ State.OnlyEvents { s.atTick t with trace := u.trace } u
            [Reg.TRACE_WR_IDX, Reg.TRACE_OLDEST, Reg.PAGE_STATUS Pg.TRACE])
  ∧ (∀ (s : State) (t : Nat) (p : Port) (v : Word) (r : TraceRec), s.Serves p → s.trace.recs.find? (fun r => r.idx = v) = some r →
      ∃ u, exec (.traceRdIdx t p v) s = .next u ∧ (∀ k, k < 4 → u.rd (Reg.TRACE_RD_DATA k) = r.words.getD k 0)
        ∧ u.Reports Pg.TRACE .ok
        ∧ State.OnlyRegs (s.atTick t) u [Reg.TRACE_RD_DATA 0, Reg.TRACE_RD_DATA 1, Reg.TRACE_RD_DATA 2, Reg.TRACE_RD_DATA 3,
            Reg.PAGE_STATUS Pg.TRACE])
  ∧ ∀ (s : State) (t : Nat), s.up = true → s.traceMode ≠ 0 → s.trace.stopped = false →
      (s.traceFull = true → ∃ u, exec (.traceStoreFull t) s = .next u ∧ u.Latched Pg.TRACE Ev.TRACE.STOPPED
        ∧ State.OnlyEvents { s.atTick t with trace := { s.trace with stopped := true } } u [])
      ∧ (s.tracePosted = true → ∃ u, exec (.traceTriggerStop t) s = .next u ∧ u.Latched Pg.TRACE Ev.TRACE.STOPPED
        ∧ State.OnlyEvents { s.atTick t with trace := { s.trace with stopped := true } } u [])


/-- TXN_OPEN, TXN_COMMIT and TXN_ABORT (R79, R84 to R87). -/
def Obligations.TransactionSlots : Prop :=
  ∀ (s : State) (t : Nat) (p : Port) (id : BitVec 4) (x : TxnSlot), s.Serves p → State.slotPort id.toNat = p →
    s.slot id.toNat = some x →
    (x.state = .free →
      exec (.txnOpen t p id) s
        = .next (((s.atTick t).setSlot id.toNat { x with
            state := .opened, done := false, poisoned := false, entries := [], failValid := false, failEntry := 0, reached := false }).status Pg.TXN .ok))
    ∧ (∀ next : Bool, x.state = .opened → x.poisoned = false → (next = false → s.reachedBeat (s.rd Reg.TXN_TARGET) = false) →
        (s.wipeBars = true → x.entries = []) → s.conflictAt x.entries = none →
      ∃ u, exec (.txnCommit t p id next) s = .next u ∧ u.Reports Pg.TXN .ok
        ∧ u.slot id.toNat = some { x with
            state := .pending
            target := if next then s.nextBeat else s.rd Reg.TXN_TARGET
            tag := Word.of (State.nextSeq (s.get Reg.TXN_SEQ Fd.TXN_SEQ.SEQ) * 16 + id.toNat)
            order := (s.txns.map fun (y : TxnSlot) => y.order).foldl max 0 + 1 }
        ∧ (∀ j, j ≠ id.toNat → u.slot j = s.slot j)
        ∧ State.OnlyEvents { s.atTick t with txns := u.txns } u [Reg.TXN_SEQ, Reg.PAGE_STATUS Pg.TXN])
    ∧ (x.state = .opened ∨ x.state = .pending ∧ s.reachedBeat x.target = false →
      ∃ u, exec (.txnAbort t p id) s = .next u ∧ u.Reports Pg.TXN .ok
        ∧ u.slot id.toNat = some { x with state := .free, done := true, status := Status.aborted.code, reached := false }
        ∧ (∀ j, j ≠ id.toNat → u.slot j = s.slot j) ∧ u.Latched Pg.TXN id.toNat
        ∧ State.OnlyEvents { s.atTick t with txns := u.txns } u [Reg.PAGE_STATUS Pg.TXN])

/-- RWT_WRITE and CHAN_CMD_STAGE (R80 to R83, R109, R110). -/
def Obligations.Staging : Prop :=
  ∀ (s : State) (t : Nat) (p : Port), s.Serves p →
    (∀ (a i : Nat) (v : Word) (x : TxnSlot), hasAcc a .rwt = true → s.stagingSlot p = some (i, x) → x.poisoned = false →
      x.entries.length < maxTxnEntries → fieldsOk (fieldsAt a) [.rw] v = true → fieldsOk (fieldsAt a) [.rwt] v = true →
      stagedOk a v = true →
      (State.regEntry a x.entries = none →
        exec (.rwtWrite t p a v) s
          = .next (((s.atTick t).wr a (mergeFields (fieldsAt a) .rw (s.rd a) v)).setSlot i
              { x with entries := x.entries ++ [.reg a (mergeFields (fieldsAt a) .rwt 0 v)] }))
      ∧ (∀ k, State.regEntry a x.entries = some k →
        exec (.rwtWrite t p a v) s
          = .next (((s.atTick t).wr a (mergeFields (fieldsAt a) .rw (s.rd a) v)).setSlot i
              { x with entries := x.entries.set k (.reg a (mergeFields (fieldsAt a) .rwt 0 v)) })))
    ∧ (∀ (i : Nat) (x : TxnSlot) (op : CmdOp), s.isBusy Pg.CHAN = false → s.stagingSlot p = some (i, x) → x.poisoned = false →
        x.entries.length < maxTxnEntries → cmdKind s.cmdBuf = some op → stageOk op (s.cmdBuf.take (leAt s.cmdBuf 1 1 * 8)) = true →
      exec (.chanCmdStage t p) s
        = .next (((s.atTick t).setSlot i { x with entries :=
            x.entries ++ [.cmd op (s.cmdBuf.take (leAt s.cmdBuf 1 1 * 8))] }).status Pg.CHAN .ok))
    ∧ (s.stagingSlot p = none → s.isBusy Pg.CHAN = false →
      ∃ u, exec (.chanCmdStage t p) s = .next u ∧ u.Reports Pg.CHAN .aborted ∧ u.Latched Pg.TXN Ev.TXN.STRAY
        ∧ State.OnlyEvents (s.atTick t) u [Reg.PAGE_STATUS Pg.CHAN, Reg.TXN_STRAY_CNT, Reg.TXN_STRAY])

/-- A transaction whose entry fails leaves nothing of itself (R88, R89). -/
def Obligations.TransactionsAreAtomic : Prop :=
  ∀ (s : State) (i : Nat) (x : TxnSlot), i < 16 → s.txns.length = 16 → s.slot i = some x →
    ∀ e f, s.tryTxn x = .error (e, f) →
      (s.applyTxn i).slot i = some { x with
          state := .free, done := true, status := f.status.code, reached := true, failValid := true, failEntry := e }
        ∧ State.OnlyEvents { s with txns := (s.applyTxn i).txns } (s.applyTxn i)
            [Reg.CHAN_NOCAP_CNT, Reg.CHAN_NOCAP_CHAN, Reg.CHAN_NOCAP_INFO, Reg.TXN_CONFLICT_CNT]

/-- STANDING_LIST_WRITE (R121, R539). -/
def Obligations.StandingList : Prop :=
  ∀ (s : State) (t num : Nat), s.up = true → s.mgmt.kstate = .running →
    (∀ cmd : List Byte, s.mgmt.work.find? State.isStandingWork = some (.standing num cmd) →
      (s.mgmt.flash.standing.filter fun e => e.chan ≠ num).length < 256 →
      ∃ u, exec (.standingListWrite t) s = .next u
        ∧ u.mgmt.flash.standing = (s.mgmt.flash.standing.filter fun e => e.chan ≠ num) ++ [s.standingEntry num cmd]
        ∧ u.mgmt.work = State.dropFirst State.isStandingWork s.mgmt.work ∧ { u with mgmt := s.mgmt } = s.atTick t)
    ∧ (s.mgmt.work.find? State.isStandingWork = some (.unstand num) →
      ∃ u, exec (.standingListWrite t) s = .next u
        ∧ u.mgmt.flash.standing = s.mgmt.flash.standing.filter (fun e => e.chan ≠ num)
        ∧ u.mgmt.work = State.dropFirst State.isStandingWork s.mgmt.work ∧ { u with mgmt := s.mgmt } = s.atTick t)

/-- QUERY, the status snapshots and HOSTCMD_JOB_DONE (R116, R117, R142, R167, R192, R227, R251, R320, R432). -/
def Obligations.Snapshots : Prop :=
  (∀ (s : State) (t : Nat) (p : Port) (ch : BitVec 16) (leg : BitVec 17), s.Serves p →
    (s.isBusy Pg.ECAN = false → exec (.ecanStatChan t p ch) s
      = .next (s.after t fun s => s.snapshot Pg.ECAN (State.snapWords 5 ((s.chan ch.toNat).map s.ecanWords))))
    ∧ (s.isBusy Pg.MDM = false → exec (.mdmStatChan t p ch) s
      = .next (s.after t fun s => s.snapshot Pg.MDM (State.snapWords 3 ((s.chan ch.toNat).map State.mdmWords))))
    ∧ (s.isBusy Pg.CODEC = false → exec (.codecStatLeg t p leg) s
      = .next (s.after t fun s => s.snapshot Pg.CODEC (State.snapWords 6 ((s.legChan leg.toNat).map fun x => State.codecWords x.1 x.2))))
    ∧ (s.isBusy Pg.JBUF = false → exec (.jbufStatLeg t p leg) s
      = .next (s.after t fun s => s.snapshot Pg.JBUF (State.snapWords 21 ((s.legChan leg.toNat).map fun x => s.jbufWords x.1 x.2))))
    ∧ (s.isBusy Pg.RATE = false → exec (.rateStatLeg t p leg) s
      = .next (s.after t fun s => s.snapshot Pg.RATE (State.snapWords 3 ((s.legChan leg.toNat).map fun x => State.rateWords x.1 x.2))))
    ∧ (s.isBusy Pg.EGS = false → exec (.egsStatFlow t p leg) s
      = .next (s.after t fun s => s.snapshot Pg.EGS (State.snapWords 5 ((s.legChan leg.toNat).map fun _ => s.egsWords leg.toNat))))
    ∧ (s.isBusy Pg.CHAN = false → leAt s.cmdBuf 0 1 = 4 → exec (.query t p) s
      = .next (s.after t fun s => s.snapshot Pg.CHAN
          (State.snapWords 17 ((s.chan (cmdChan s.cmdBuf)).map fun c => 0 :: bytesWords 16 (s.chanRecord c))))))
  ∧ (∀ (s : State) (page : Nat) (ws : List Word), s.isBusy page = false →
      (s.snapshot page ws).snaps.head? = some { page := page, status := (if (ws.headD 0).getLsbD 8 then 0 else Status.unknownChannel.code), words := ws }
        ∧ (s.snapshot page ws).isBusy page = true)
  ∧ ∀ (s : State) (t page : Nat) (j : Job) (x : Snapshot), s.up = true → s.coreJob .hostcmd page = some j →
      s.snaps.find? (fun x => x.page = page) = some x →
      ∃ u, exec (.hostcmdJobDone t page) s = .next u ∧ u.isBusy page = false ∧ u.Latched page (State.snapEvent page)
        ∧ u.snaps = s.snaps.filter fun y => y.page ≠ page


/-- ECAN_CH_CMD: the ten actions (R136, R137). -/
def Obligations.CancellerActions : Prop :=
  ∀ (s : State) (t : Nat) (p : Port) (ch : BitVec 16) (c : Chan), s.Serves p → s.isBusy Pg.ECAN = false →
    s.chan ch.toNat = some c → c.cfg.ec ≠ .off →
    let Gives (cmd : Instr) (x : EcCtl) : Prop :=
      ∃ u, exec cmd s = .next u ∧ State.GivesCtls (s.atTick t) u Pg.ECAN ch.toNat c (c.ctls ++ [(s.clk.n + 1, .ec x)])
    Gives (.ecanFreeze t p ch) { EcCtl.none with adapt := some false }
      ∧ Gives (.ecanRun t p ch) { EcCtl.none with adapt := some true }
      ∧ Gives (.ecanLock t p ch) { EcCtl.none with window := some false }
      ∧ Gives (.ecanUnlock t p ch) { EcCtl.none with window := some true }
      ∧ Gives (.ecanReset t p ch) { EcCtl.none with reset := true }
      ∧ Gives (.nlpProfile t p ch) { EcCtl.none with nlp := some none }
      ∧ Gives (.nlpOff t p ch) { EcCtl.none with nlp := some (some 0) }
      ∧ Gives (.nlpClip t p ch) { EcCtl.none with nlp := some (some 1) }
      ∧ Gives (.nlpComfort t p ch) { EcCtl.none with nlp := some (some 2) }
      ∧ ∀ prof : BitVec 2, Gives (.ecanProfile t p ch prof) { EcCtl.none with profile := some prof.toNat }

/-- RATE_LEG_CMD, TONE_GEN_CMD and RELAY_TIMEOUT (R207, R211, R225). -/
def Obligations.LegActions : Prop :=
  (∀ (s : State) (t : Nat) (p : Port), s.Serves p →
    (∀ (leg : BitVec 17) (c : Chan), s.isBusy Pg.RATE = false → s.chan (leg.toNat / 2) = some c →
      let b : Bool := leg.toNat % 2 = 1
      let Gives (cmd : Instr) (x : RateCtl) : Prop :=
        ∃ u, exec cmd s = .next u
          ∧ State.GivesCtls (s.atTick t) u Pg.RATE (leg.toNat / 2) c (c.ctls ++ [(s.clk.n + 1, .rate b x)])
      ((c.cfg.leg b).hasRate = true → Gives (.dcbFreeze t p leg) { RateCtl.none with freeze := some true })
        ∧ ((c.cfg.leg b).hasRate = true → Gives (.dcbRun t p leg) { RateCtl.none with freeze := some false })
        ∧ Gives (.clearSat t p leg) { RateCtl.none with clear := true })
    ∧ ∀ (v : Word) (c : Chan), s.chan (fieldOf v Fd.TONE_GEN_CMD.CHANNEL) = some c →
      let b : Bool := fieldOf v Fd.TONE_GEN_CMD.DIR = 1
      let Gives (cmd : Instr) (q : GenReq) : Prop :=
        ∃ u, exec cmd s = .next u
          ∧ State.GivesCtls (s.atTick t) u Pg.TONE (fieldOf v Fd.TONE_GEN_CMD.CHANNEL) c
              (c.ctls.filter (fun k => !State.genWaits (s.clk.n + 1) b k) ++ [(s.clk.n + 1, .gen b q)])
      (c.cfg.leg b).kind ≠ 2 →
        Gives (.toneGenDtmf t p v) (.dtmf (s.genDigits (fieldOf v Fd.TONE_GEN_CMD.NDIG + 1)))
          ∧ ((s.toneDesc (fieldOf v Fd.TONE_GEN_CMD.DESC)).gen = true →
              Gives (.toneGenDesc t p v) (.desc (fieldOf v Fd.TONE_GEN_CMD.DESC)))
          ∧ Gives (.toneGenStop t p v) .stop)
  ∧ ∀ (s : State) (t : Nat) (leg : BitVec 17) (c : Chan), s.up = true → s.chan (leg.toNat / 2) = some c →
      s.life c.uid = some c → (c.leg (leg.toNat % 2 = 1)).relayRx.timedOut = true →
      ∃ u, exec (.relayTimeout t leg) s = .next u
        ∧ u.chan (leg.toNat / 2)
            = some (c.modLeg (leg.toNat % 2 = 1) fun x => { x with relayRx := x.relayRx.finish 0 })
        ∧ (∀ m d, s.chan m = some d → d.uid ≠ c.uid → u.chan m = some d)
        ∧ u.get Reg.TONE_RELAY_TIMEOUT_CNT Fd.TONE_RELAY_TIMEOUT_CNT.COUNT
            = min (s.get Reg.TONE_RELAY_TIMEOUT_CNT Fd.TONE_RELAY_TIMEOUT_CNT.COUNT + 1) (2 ^ 32 - 1)
        ∧ u.Latched Pg.TONE Ev.TONE.RELAY_TIMEOUT
        ∧ State.OnlyEvents { s.atTick t with chans := u.chans, closing := u.closing } u [Reg.TONE_RELAY_TIMEOUT_CNT]

/-- SRTP_CMD (R292, R543, R553). -/
def Obligations.SrtpKeys : Prop :=
  ∀ (s : State) (t : Nat) (p : Port) (v : Word), s.Serves p →
    let ctx := fieldOf v Fd.SRTP_CMD.CONTEXT
    let tx : Bool := fieldOf v Fd.SRTP_CMD.DIR = 1
    let suite := fieldOf v Fd.SRTP_CMD.SUITE
    let len := fieldOf v Fd.SRTP_CMD.MKI_LEN
    let dir (x : SrtpCtx) : SrtpDir := if tx then x.tx else x.rx
    let other (x : SrtpCtx) : SrtpDir := if tx then x.rx else x.tx
    let Gives (cmd : Instr) (d : SrtpDir) : Prop :=
      ∃ u, exec cmd s = .next u ∧ dir (u.srtpCtx ctx) = d ∧ other (u.srtpCtx ctx) = other (s.srtpCtx ctx)
        ∧ (∀ c, c ≠ ctx → u.srtpCtx c = s.srtpCtx c) ∧ u.Reports Pg.SRTP .ok
        ∧ (∀ k, k < 8 → u.rd (Reg.SRTP_KEY k) = 0) ∧ (∀ k, k < 4 → u.rd (Reg.SRTP_SALT k) = 0) ∧ u.rd Reg.SRTP_MKI = 0
        ∧ { u with regs := s.regs, nw := { u.nw with srtp := s.nw.srtp } } = s.atTick t
    let d := dir (s.srtpCtx ctx)
    let key := s.keyRegs suite len
    (s.wipeBars = false → s.modes.bringup = false → suite ≤ 5 → len ≤ 4 →
      Gives (.loadCurrent t p v) { SrtpDir.fresh with cur := some key, next := d.next, old := d.old, switched := d.switched }
        ∧ Gives (.loadNext t p v) { d with next := some key })
    ∧ (s.wipeBars = false → Gives (.srtpErase t p v) { d with cur := none, next := none })
    ∧ (s.modes.bringup = true ∨ s.wipeBars = true →
      exec (.loadCurrent t p v) s = .next ((s.atTick t).status Pg.SRTP .notInMode)
        ∧ exec (.loadNext t p v) s = .next ((s.atTick t).status Pg.SRTP .notInMode))
    ∧ (s.wipeBars = true → exec (.srtpErase t p v) s = .next ((s.atTick t).status Pg.SRTP .notInMode))

/-- KEY_LIMIT and OLD_KEY_ERASE (R165, R166). -/
def Obligations.KeyTimers : Prop :=
  ∀ (s : State) (t ctx : Nat) (x : SrtpCtx), s.up = true → s.nw.srtp = [(ctx, x)] →
    (State.atLimit x.tx = true → x.tx.stopped = false →
      ∃ u, exec (.keyLimit t) s = .next u ∧ u.srtpCtx ctx = { x with tx := { x.tx with stopped := true } }
        ∧ u.Latched Pg.SRTP Ev.SRTP.KEY_LIMIT
        ∧ State.OnlyEvents { s.atTick t with nw := { s.nw with srtp := u.nw.srtp } } u [])
    ∧ ((State.atLimit x.tx = false ∨ x.tx.stopped = true) → exec (.keyLimit t) s = .next (s.atTick t))
    ∧ ∃ u, exec (.oldKeyErase t) s = .next u
      ∧ (u.srtpCtx ctx).rx = { x.rx with old := if 400 ≤ (s.clk.n - x.rx.switched).toNat then none else x.rx.old }
      ∧ (u.srtpCtx ctx).tx = { x.tx with old := if 400 ≤ (s.clk.n - x.tx.switched).toNat then none else x.tx.old }
      ∧ { u with nw := { u.nw with srtp := s.nw.srtp } } = s.atTick t

/-- The writes of EPD_CMD and EPD_CMD_DONE (R279 to R284). -/
def Obligations.DirectoryCommands : Prop :=
  (∀ (s : State) (t : Nat) (p : Port) (h : BitVec 23), s.Serves p →
    let Starts (cmd : Instr) (op : Nat) : Prop :=
      (s.isBusy Pg.EPD = false →
        exec cmd s
          = .next (State.setBusy { s.atTick t with nw := { s.nw with epd := { s.nw.epd with cmd := some (op, h.toNat, s.epdData) } } }
              Pg.EPD true))
        ∧ (s.isBusy Pg.EPD = true → exec cmd s = .next ((s.atTick t).status Pg.EPD .busy))
    Starts (.epdInsert t p h) 1 ∧ Starts (.epdDelete t p h) 2 ∧ Starts (.epdModify t p h) 3 ∧ Starts (.epdRead t p h) 4
      ∧ Starts (.epdLookup t p h) 5)
  ∧ ∀ (s : State) (t op h : Nat) (d : List Byte), s.up = true → s.wiping = false → s.modes.ended = true →
      s.nw.epd.cmd = some (op, h, d) →
      let Ends (u : State) (st : Status) (found : Bool) (handle : Nat) : Prop :=
        exec (.epdCmdDone t) s = .next u ∧ u.Reports Pg.EPD st ∧ u.flag Reg.EPD_RESULT Fd.EPD_RESULT.FOUND = found
          ∧ u.get Reg.EPD_RESULT Fd.EPD_RESULT.HANDLE = handle % 2 ^ 23 ∧ u.isBusy Pg.EPD = false ∧ u.nw.epd.cmd = none
          ∧ u.Latched Pg.EPD Ev.EPD.CMD_DONE
      (op = 1 → keyReserved d = false → h < s.epdPositions → recFieldsOk d (leAt d 2 1) = true →
        (∀ x, s.nw.epd.recs.find? h = some x → ∃ u, Ends u .conflict false h ∧ u.nw.epd.recs = s.nw.epd.recs)
        ∧ (∀ ways n, s.nw.epd.recs.find? h = none → s.epdLookup (slice d 0 40) = none →
            epdPlace s.epdWidth (epdHash (slice d 0 40), h) s.nw.epd.ways = some (ways, n) →
            ∃ u, Ends u .ok false h ∧ u.nw.epd.recs.find? h = some (recOf d (s.clk.advance t).cycles) ∧ u.nw.epd.ways = ways
              ∧ ∀ h', h' ≠ h → u.nw.epd.recs.find? h' = s.nw.epd.recs.find? h'))
      ∧ (op = 2 → (s.nw.epd.recs.find? h = none → ∃ u, Ends u .badParam false h ∧ u.nw.epd.recs = s.nw.epd.recs)
        ∧ ∀ x, s.nw.epd.recs.find? h = some x →
            ∃ u, Ends u .ok false h ∧ u.nw.epd.recs = s.nw.epd.recs.erase h
              ∧ u.nw.epd.ways = s.nw.epd.ways.filter (fun w => w.2.2 ≠ h))
      ∧ (op = 3 → ∀ x, s.nw.epd.recs.find? h = some x → recFieldsOk d (leAt x.key 2 1) = true →
          ∃ u, Ends u .ok false h ∧ u.nw.epd.recs.find? h = some (x.modify d)
            ∧ ∀ h', h' ≠ h → u.nw.epd.recs.find? h' = s.nw.epd.recs.find? h')
      ∧ (op = 4 → ∀ x, s.nw.epd.recs.find? h = some x →
          ∃ u, Ends u .ok false h ∧ u.nw.epd.recs = s.nw.epd.recs ∧ ∀ k, k < 48 → u.rd (Reg.EPD_DATA k) = (bytesWords 48 x.bytes).getD k 0)
      ∧ (op = 5 → keyReserved d = false → protoOk (leAt d 2 1) = true →
          ∃ u, Ends u .ok (s.epdLookup (slice d 0 40)).isSome ((s.epdLookup (slice d 0 40)).getD 0)
            ∧ u.nw.epd.recs = s.nw.epd.recs ∧ u.nw.epd.ways = s.nw.epd.ways)


/-- FRAME_RECEIVE (R274, R277 to R290, R388, R391). -/
def Obligations.FrameReception : Prop :=
  ∀ (s : State) (t : Nat) (port : BitVec 3) (f : RxFrame) (v : SrtpIn), s.up = true →
    let p := port.toNat
    let len := f.bytes.length + 4
    let one (r : Nat) (fd : Fd) (u : State) : Prop := u.get r fd = (s.get r fd + 1) % 2 ^ 32
    let sat (r : Nat) (fd : Fd) (u : State) : Prop := u.get r fd = min (s.get r fd + 1) (2 ^ 32 - 1)
    (s.macEn p = false → exec (.frameReceive t port f v) s = .next (s.atTick t))
    ∧ (s.Accepts p f → s.ingressUsed + len ≤ s.ingressCap →
        (f.late = true → (∀ pfc named, classOf f.bytes ≠ .macctl pfc named) →
          ∃ u, exec (.frameReceive t port f v) s = .next u
            ∧ u.nw.waiting = s.nw.waiting ++ [{ stamp := (s.clk.advance t).now, port := p, bytes := f.bytes }]
            ∧ one Reg.PKT_RX_CNT Fd.PKT_RX_CNT.COUNT u
            ∧ State.OnlyMem { s.atTick t with nw := { s.nw with waiting := u.nw.waiting } } u [Reg.PKT_RX_CNT, Reg.RING_MACFIFO p])
        ∧ (f.late = false → classOf f.bytes = .error →
            ∃ u, exec (.frameReceive t port f v) s = .next u ∧ one Reg.PKT_RX_CNT Fd.PKT_RX_CNT.COUNT u
              ∧ sat Reg.PKT_ERR_CNT Fd.PKT_ERR_CNT.COUNT u ∧ u.Latched Pg.PKT Ev.PKT.PARSE_ERR
              ∧ State.OnlyMem (s.atTick t) u [Reg.PKT_RX_CNT, Reg.PKT_ERR_CNT, Reg.RING_MACFIFO p])
        ∧ ∀ (d : Found) (h : Nat) (r : EpRec) (c : Chan) (codec : Nat), f.late = false →
            f.dir.hit = true → classOf f.bytes = .lookup d →
            s.epdLookup (d.key (domainOf (s.get (Reg.PKT_PORT_DOM p) Fd.PKT_PORT_DOM.MODE)
              (s.get (Reg.PKT_PORT_DOM p) Fd.PKT_PORT_DOM.DOMAIN) (frameTags f.bytes))) = some h →
            s.epdRecs.find? h = some r → r.meterEn = false → r.bindRing = false → s.chan (r.leg / 2) = some c →
            (c.cfg.leg (r.leg % 2 = 1)).plainCodec = some codec →
            (c.leg (r.leg % 2 = 1)).inbox.length < 64 →
            ∃ u, exec (.frameReceive t port f v) s = .next u
              ∧ u.chan (r.leg / 2) = some (c.modLeg (r.leg % 2 = 1) fun l =>
                  { l with inbox := l.inbox ++ [inPkt codec d.payload (s.clk.advance t).now len] })
              ∧ (∀ m e, s.chan m = some e → e.uid ≠ c.uid → u.chan m = some e)
              ∧ one Reg.PKT_RX_CNT Fd.PKT_RX_CNT.COUNT u ∧ one Reg.PKT_BOUND_CNT Fd.PKT_BOUND_CNT.COUNT u)
    ∧ (s.Accepts p f → s.ingressCap < s.ingressUsed + len →
        ∃ u, exec (.frameReceive t port f v) s = .next u ∧ sat Reg.PKT_MEM_DROP_CNT Fd.PKT_MEM_DROP_CNT.COUNT u
          ∧ u.Latched Pg.PKT Ev.PKT.MEM_DROP
          ∧ State.OnlyMem (s.atTick t) u [Reg.PKT_RX_CNT, Reg.PKT_MEM_DROP_CNT, Reg.RING_MACFIFO p])
    ∧ (s.provided p = true → s.macEn p = true → f.mergeErr = false → frameWhole f = false →
        ∃ u, exec (.frameReceive t port f v) s = .next u ∧ sat Reg.RING_FIFO_DROP_CNT Fd.RING_FIFO_DROP_CNT.COUNT u
          ∧ ((macPass f).ignored ≠ [] → u.flag (Reg.RING_MACFIFO p) Fd.RING_MACFIFO.OVR = true)
          ∧ ((macPass f).broken ≠ [] → u.flag (Reg.RING_MACFIFO p) Fd.RING_MACFIFO.UNCORR = true)
          ∧ State.OnlyMem (s.atTick t) u [Reg.RING_FIFO_DROP_CNT, Reg.RING_MACFIFO p])

/-- PKT_JOB_DONE, REASM_TIMEOUT and OVERLOAD (R276, R286). -/
def Obligations.ReassemblyAndOverload : Prop :=
  (∀ (s : State) (t : Nat) (port : BitVec 3) (dir : DirRead) (v : SrtpIn) (j : Job) (w : StoredFrame) (x : IpPart) (id : List Byte)
      (off : Nat) (more : Bool), s.up = true → s.coreJob .pkt port.toNat = some j →
      s.nw.frags.find? (fun w => w.port = port.toNat) = some w → classOf w.bytes = .frag x → x.frag = some (id, off, more) →
      let key := s.fragKey w x id
      let live := s.nw.reasm.filter fun d => (s.clk.n - d.beat).toNat < 4
      let d := (live.find? fun d => d.key = key).getD
        { key := key, beat := s.beatOf w.stamp, frags := [], size := 0, total := none, first := none }
      let d' := State.Datagram.add d w.port (etherHead w.bytes x.v6) x off more (w.bytes.length + 4)
      live.length < 512 → d.frags.length < 16 → off + x.pay.length ≤ 9216 → State.whole d' = none →
      ∃ u, exec (.pktJobDone t port dir v) s = .next u ∧ u.nw.frags = s.nw.frags.erase w
        ∧ u.nw.reasm = live.filter (fun d => d.key ≠ key) ++ [d'])
  ∧ ∀ (s : State) (t : Nat), s.up = true →
      (∃ u, exec (.reasmTimeout t) s = .next u ∧ u.nw.reasm = s.nw.reasm.filter (fun d => (s.clk.n - d.beat).toNat < 4)
        ∧ u.get Reg.PKT_REASM_DROP_CNT Fd.PKT_REASM_DROP_CNT.COUNT
            = min (s.get Reg.PKT_REASM_DROP_CNT Fd.PKT_REASM_DROP_CNT.COUNT
                + (s.nw.reasm.filter fun d => 4 ≤ (s.clk.n - d.beat).toNat).length) (2 ^ 32 - 1)
        ∧ State.OnlyMem { s.atTick t with nw := { s.nw with reasm := u.nw.reasm } } u [Reg.PKT_REASM_DROP_CNT])
      ∧ ∃ u, exec (.overload t) s = .next u
        ∧ u.nw.waiting = s.nw.waiting.filter (fun w => (s.clk.advance t).now < w.stamp + usTicks 40)
        ∧ u.get Reg.PKT_OVERLOAD_DROP_CNT Fd.PKT_OVERLOAD_DROP_CNT.COUNT
            = min (s.get Reg.PKT_OVERLOAD_DROP_CNT Fd.PKT_OVERLOAD_DROP_CNT.COUNT
                + (s.nw.waiting.filter fun w => w.stamp + usTicks 40 ≤ (s.clk.advance t).now).length) (2 ^ 32 - 1)
        ∧ ((s.nw.waiting.filter fun w => w.stamp + usTicks 40 ≤ (s.clk.advance t).now) ≠ [] → u.Latched Pg.PKT Ev.PKT.OVERLOAD)
        ∧ State.OnlyMem { s.atTick t with nw := { s.nw with waiting := u.nw.waiting } } u [Reg.PKT_OVERLOAD_DROP_CNT]


/-- SHAPER_REFILL, SHP_WRITE and SHP_READ (R312 to R314, R322). -/
def Obligations.Shapers : Prop :=
  (∀ i, refillAt i = i * 12288 / 25 * cycTicks)
  ∧ (∀ (s : State) (t : Nat), s.up = true → s.clk.started = true → (s.atTick t).refillsDue = s.nw.refills + 1 →
      ∃ u, exec (.shaperRefill t) s = .next u ∧ u.nw.refills = s.nw.refills + 1
        ∧ (∀ leg, (s.flow leg).shp.cfg.en = true → (s.flow leg).shp.pend = none →
            (u.flow leg).shp = { (s.flow leg).shp with
              tc := min ((s.flow leg).shp.cfg.cbs * 50000) ((s.flow leg).shp.tc + (s.flow leg).shp.cfg.cir)
              tp := min ((s.flow leg).shp.cfg.pbs * 50000) ((s.flow leg).shp.tp + (s.flow leg).shp.cfg.pir) }
            ∧ (u.flow leg).q = (s.flow leg).q)
        ∧ (∀ a, (s.agg a).shp.cfg.en = true → (s.agg a).shp.pend = none →
            (u.agg a).shp = { (s.agg a).shp with
              tc := min ((s.agg a).shp.cfg.cbs * 50000) ((s.agg a).shp.tc + (s.agg a).shp.cfg.cir)
              tp := min ((s.agg a).shp.cfg.pbs * 50000) ((s.agg a).shp.tp + (s.agg a).shp.cfg.pir) })
        ∧ { u with nw := { u.nw with flows := s.nw.flows, aggs := s.nw.aggs, refills := s.nw.refills } } = s.atTick t)
  ∧ ∀ (s : State) (t : Nat) (p : Port) (agg : Bool) (i : BitVec 17), s.Serves p → State.shpRange agg i.toNat = false →
      (State.shpBad s.shpData = false →
        ∃ u, exec (.shpWrite t p agg i) s = .next u ∧ u.Reports Pg.SHP .ok
          ∧ u.shaper agg i.toNat = { s.shaper agg i.toNat with pend := some ((s.clk.advance t).now, s.shpData) }
          ∧ (∀ b k, (b, k) ≠ (agg, i.toNat) → u.shaper b k = s.shaper b k)
          ∧ State.OnlyRegs { s.atTick t with nw := { s.nw with flows := u.nw.flows, aggs := u.nw.aggs } } u [Reg.PAGE_STATUS Pg.SHP])
      ∧ ∃ u, exec (.shpRead t p agg i) s = .next u ∧ u.Reports Pg.SHP .ok
          ∧ u.flag Reg.SHP_CIR Fd.SHP_CIR.EN = (s.shaper agg i.toNat).cfg.en
          ∧ u.get Reg.SHP_CIR Fd.SHP_CIR.CIR = (s.shaper agg i.toNat).cfg.cir % 2 ^ 24
          ∧ u.get Reg.SHP_PIR Fd.SHP_PIR.PIR = (s.shaper agg i.toNat).cfg.pir % 2 ^ 24
          ∧ u.get Reg.SHP_DEPTH Fd.SHP_DEPTH.CBS = (s.shaper agg i.toNat).cfg.cbs % 2 ^ 16
          ∧ u.get Reg.SHP_DEPTH Fd.SHP_DEPTH.PBS = (s.shaper agg i.toNat).cfg.pbs % 2 ^ 16
          ∧ u.get Reg.SHP_STATE Fd.SHP_STATE.STATE = (s.shaper agg i.toNat).state
          ∧ State.OnlyRegs (s.atTick t) u [Reg.SHP_CIR, Reg.SHP_PIR, Reg.SHP_DEPTH, Reg.SHP_TC, Reg.SHP_TP, Reg.SHP_STATE,
              Reg.PAGE_STATUS Pg.SHP]

/-- EGS_AGG_WRITE and EGS_AGG_READ (R304). -/
def Obligations.Aggregates : Prop :=
  ∀ (s : State) (t : Nat) (p : Port) (a : BitVec 11), s.Serves p →
    let n := s.aggData
    let old := (s.agg a.toNat).cfg
    let moves : Bool := n.port != old.port || n.cls != old.cls || (old.en && !n.en)
    (n.weight ≠ 0 → s.provided n.port = true →
      (moves = false ∨ s.aggFlows a.toNat = 0 →
        ∃ u, exec (.egsAggWrite t p a) s = .next u ∧ u.Reports Pg.EGS .ok
          ∧ u.agg a.toNat = { s.agg a.toNat with cfg := n, cfgAt := (s.clk.advance t).now }
          ∧ (∀ b, b ≠ a.toNat → u.agg b = s.agg b)
          ∧ State.OnlyRegs { s.atTick t with nw := { s.nw with aggs := u.nw.aggs } } u [Reg.PAGE_STATUS Pg.EGS])
      ∧ (moves = true → 0 < s.aggFlows a.toNat →
        exec (.egsAggWrite t p a) s = .next ((s.atTick t).status Pg.EGS .conflict)))
    ∧ (n.weight = 0 ∨ s.provided n.port = false →
        exec (.egsAggWrite t p a) s = .next ((s.atTick t).status Pg.EGS .badParam))
    ∧ ∃ u, exec (.egsAggRead t p a) s = .next u ∧ u.Reports Pg.EGS .ok
        ∧ u.flag Reg.EGS_AGG_DATA Fd.EGS_AGG_DATA.EN = old.en ∧ u.get Reg.EGS_AGG_DATA Fd.EGS_AGG_DATA.CLASS = old.cls % 8
        ∧ u.get Reg.EGS_AGG_DATA Fd.EGS_AGG_DATA.PORT = old.port % 8
        ∧ u.get Reg.EGS_AGG_DATA Fd.EGS_AGG_DATA.WEIGHT = old.weight % 2 ^ 8
        ∧ u.get Reg.EGS_AGG_FLOWS Fd.EGS_AGG_FLOWS.COUNT = s.aggFlows a.toNat % 2 ^ 18
        ∧ State.OnlyRegs (s.atTick t) u [Reg.EGS_AGG_DATA, Reg.EGS_AGG_FLOWS, Reg.PAGE_STATUS Pg.EGS]

/-- TX_OPPORTUNITY and FRAME_TX_DONE (R308, R310, R315, R330, R357, R399). -/
def Obligations.Transmission : Prop :=
  ∀ (s : State) (t : Nat) (port : BitVec 3), s.up = true →
    let p := port.toNat
    let a := (s.atTick t).agePort p
    (a.linkIsUp p = false → exec (.txOpportunity t port) s = .next (s.after t fun s => s.agePort p))
    ∧ (a.provided p = true → a.macEn p = true → a.linkIsUp p = true → (a.mac p).wire = none → (a.mac p).parked = none →
        (a.readyClass p (fun _ => true) = none → exec (.txOpportunity t port) s = .next (s.after t fun _ => a))
        ∧ (∀ k f, a.readyClass p (fun _ => true) = some (k, .host f) →
            ∃ u w, exec (.txOpportunity t port) s = .next u ∧ (u.mac p).wire = some w ∧ w.bytes = f.bytes ∧ w.cls = k
              ∧ w.start = (s.clk.advance t).now ∧ w.host = some f ∧ (u.cls p k).hostq = (a.cls p k).hostq.drop 1
              ∧ u.nw.flows = a.nw.flows)
        ∧ ∀ k g leg, a.readyClass p (fun _ => true) = some (k, .fresh g leg) →
            ∃ u w, exec (.txOpportunity t port) s = .next u ∧ (u.mac p).wire = some w ∧ w.bytes = a.candBytes p k (.fresh g leg)
              ∧ w.cls = k ∧ w.start = (s.clk.advance t).now ∧ w.host = none ∧ (u.flow leg).q = (a.flow leg).q.drop 1
              ∧ ∀ l, l ≠ leg → u.flow l = a.flow l)
    ∧ ∀ w, (s.mac p).wire = some w →
        ((s.clk.advance t).now < s.wireEnd w → exec (.frameTxDone t port) s = .next (s.atTick t))
        ∧ (s.wireEnd w ≤ (s.clk.advance t).now → w.frags = 0 →
            (w.host = none → ∃ u, exec (.frameTxDone t port) s = .next u ∧ (u.mac p).wire = none
              ∧ State.Sends s u (.frame p (padFrame w.bytes))
              ∧ (u.rd (Reg.MAC_CNT p 23)).toNat = ((s.rd (Reg.MAC_CNT p 23)).toNat + 1) % 2 ^ 32
              ∧ (u.rd (Reg.MAC_CNT p 24)).toNat = ((s.rd (Reg.MAC_CNT p 24)).toNat + wireBytes w.bytes) % 2 ^ 32)
            ∧ ∀ f, w.host = some f → f.ts = false → (s.ringOf f.ring).gen = f.gen →
              ∃ u, exec (.frameTxDone t port) s = .next u ∧ (u.mac p).wire = none
                ∧ (u.ringOf f.ring).tx = (s.ringOf f.ring).tx.map fun x =>
                    if x.count = f.count then { x with done := some (Status.ok.code, 0) } else x)


/-- MAC_LANE_MODE_WRITE, MAC_CTRL_WRITE, LPAIR_WRITE and PREEMPT_VERIFY_DONE (R325, R326, R329, R334, R341). -/
def Obligations.PortSettings : Prop :=
  (∀ (s : State) (t : Nat) (p : Port) (port : BitVec 3) (v : Word), s.Serves p →
    let m := fieldOf v Fd.MAC_LANE_MODE.MODE
    let busy : Bool := (State.allPorts.any fun q => s.macEn q) || (State.allPairs.any fun k => s.pairEn k)
    (port.toNat ≠ 0 ∨ 3 < m →
      exec (.macLaneModeWrite t p port v) s = .next ((s.atTick t).status (Pg.MAC port.toNat) .badParam))
    ∧ (port.toNat = 0 → m ≤ 3 → busy = true →
        exec (.macLaneModeWrite t p port v) s = .next ((s.atTick t).status (Pg.MAC 0) .busy))
    ∧ (port.toNat = 0 → m ≤ 3 → busy = false →
        ∃ u, exec (.macLaneModeWrite t p port v) s = .next u ∧ u.laneMode = m ∧ { u with regs := s.regs } = s.atTick t
          ∧ (∀ a, State.macReg a = false → u.rd a = s.rd a)
          ∧ (s.laneMode ≠ m → ∀ q, q < 8 → (∀ i, i < 32 → u.rd (Reg.MAC_CNT q i) = 0) ∧ u.rd (Reg.MAC_CNT_NOTICE q) = 0
              ∧ (u.provided q = false → u.rd (Reg.MAC_LINK q) = 0)))
    ∧ let a := Reg.MAC_CTRL port.toNat
      let fec := fieldOf v Fd.MAC_CTRL.FEC
      let bad : Bool := !s.provided port.toNat || !fecAllowed s.laneMode fec || fieldOf v Fd.MAC_CTRL.PAUSE_MODE = 3
      (bad = true → exec (.macCtrlWrite t p port v) s = .next ((s.atTick t).status (Pg.MAC port.toNat) .badParam))
      ∧ (bad = false → s.macEn port.toNat = true → fec ≠ s.get a Fd.MAC_CTRL.FEC →
          exec (.macCtrlWrite t p port v) s = .next ((s.atTick t).status (Pg.MAC port.toNat) .busy))
      ∧ (bad = false → (s.macEn port.toNat = false ∨ fec = s.get a Fd.MAC_CTRL.FEC) →
          exec (.macCtrlWrite t p port v) s = .next ((s.atTick t).wr a (mergeFields (fieldsAt a) .rw (s.rd a) v))))
  ∧ (∀ (s : State) (t : Nat) (p : Port) (k : BitVec 2) (v : Word), s.Serves p →
      let pr := fieldOf v Fd.LPAIR_PAIR.PRIMARY
      let se := fieldOf v Fd.LPAIR_PAIR.SECONDARY
      let on : Bool := fieldOf v Fd.LPAIR_PAIR.EN = 1
      s.provided pr = true → s.provided se = true → pr ≠ se →
      (∀ j, j < 4 → j ≠ k.toNat → s.pairEn j = true → s.primary j ≠ pr ∧ s.primary j ≠ se ∧ s.secondary j ≠ pr ∧ s.secondary j ≠ se) →
      (s.pairEn k.toNat = true → s.primary k.toNat = pr ∧ s.secondary k.toNat = se) →
      ∃ u, exec (.lpairWrite t p k v) s = .next u ∧ u.pairEn k.toNat = on ∧ u.primary k.toNat = pr ∧ u.secondary k.toNat = se
        ∧ (on = true → s.pairEn k.toNat = false →
            u.pair k.toNat = { active := if s.linkIsUp pr then pr else se, down := !s.linkIsUp pr && !s.linkIsUp se })
        ∧ (on = false ∨ s.pairEn k.toNat = true → u.pair k.toNat = s.pair k.toNat))
  ∧ ∀ (s : State) (t : Nat) (port : BitVec 3), s.up = true →
      let a := Reg.MAC_PREEMPT_ST port.toNat
      s.get a Fd.MAC_PREEMPT_ST.VERIFY = 1 →
      exec (.preemptVerifyDone t port true) s
        = .next (((s.atTick t).put a Fd.MAC_PREEMPT_ST.VERIFY 2).putB a Fd.MAC_PREEMPT_ST.ACTIVE true)
      ∧ ∃ u, exec (.preemptVerifyDone t port false) s = .next u ∧ u.get a Fd.MAC_PREEMPT_ST.VERIFY = 3
          ∧ u.Latched (Pg.MAC port.toNat) Ev.MAC.VERIFY_FAIL ∧ State.OnlyEvents (s.atTick t) u [a]

/-- LINK_UP, LINK_DOWN and REVERTED (R330, R341 to R343). -/
def Obligations.LinkState : Prop :=
  ∀ (s : State) (t : Nat), s.up = true →
    (∀ port : BitVec 3, s.provided port.toNat = true → s.linkIsUp port.toNat = false →
      ∃ u, exec (.linkUp t port) s = .next u ∧ u.linkIsUp port.toNat = true
        ∧ u.flag (Reg.MAC_LINK port.toNat) Fd.MAC_LINK.SIGNAL = true ∧ u.flag (Reg.MAC_LINK port.toNat) Fd.MAC_LINK.BLOCK_LOCK = true
        ∧ (u.mac port.toNat).upSince = (s.clk.advance t).now ∧ u.Latched (Pg.MAC port.toNat) Ev.MAC.LINK_CHANGE
        ∧ ∀ k, s.pairOf port.toNat = some k →
            u.pair k = if (s.pair k).down then { active := port.toNat, down := false } else s.pair k)
    ∧ (∀ (port : BitVec 3) (cond : BitVec 5), s.provided port.toNat = true → s.linkIsUp port.toNat = true →
        ∃ u, exec (.linkDown t port cond) s = .next u ∧ u.linkIsUp port.toNat = false
          ∧ u.rd (Reg.MAC_LINK port.toNat) = Word.of (cond.toNat * 2)
          ∧ (u.mac port.toNat).wire = none ∧ (u.mac port.toNat).parked = none ∧ u.Latched (Pg.MAC port.toNat) Ev.MAC.LINK_CHANGE
          ∧ (u.rd (Reg.MAC_CNT port.toNat 31)).toNat = ((s.rd (Reg.MAC_CNT port.toNat 31)).toNat + 1) % 2 ^ 32
          ∧ ∀ k, s.pairOf port.toNat = some k → (s.pair k).active = port.toNat → s.primary k ≠ s.secondary k →
              (s.linkIsUp (s.otherMember k port.toNat) = true →
                u.pair k = { active := s.otherMember k port.toNat, down := false } ∧ u.Latched Pg.LPAIR Ev.LPAIR.FAILOVER
                  ∧ u.rd (Reg.LPAIR_LAST k) = s.clk.n)
              ∧ (s.linkIsUp (s.otherMember k port.toNat) = false →
                  u.pair k = { active := port.toNat, down := true } ∧ u.Latched Pg.LPAIR Ev.LPAIR.PAIR_DOWN))
    ∧ ∀ k : BitVec 2, s.pairEn k.toNat = true → s.flag (Reg.LPAIR_PAIR k.toNat) Fd.LPAIR_PAIR.REVERT = true →
        (s.pair k.toNat).active ≠ s.primary k.toNat → s.linkIsUp (s.primary k.toNat) = true →
        (s.mac (s.primary k.toNat)).upSince + secTicks (s.get Reg.LPAIR_REVERT_S Fd.LPAIR_REVERT_S.SECONDS) ≤ (s.clk.advance t).now →
        ∃ u, exec (.reverted t k) s = .next u ∧ u.pair k.toNat = { active := s.primary k.toNat, down := false }
          ∧ u.rd (Reg.LPAIR_LAST k.toNat) = s.clk.n ∧ u.Latched Pg.LPAIR Ev.LPAIR.REVERTED

/-- PAUSE_FRAME, PAUSE_HOLD_END, PAUSE_BREAK, HOLDOFF_END and FLOW_CONTROL_REPEAT (R336 to R339). -/
def Obligations.Pause : Prop :=
  ∀ (s : State) (t : Nat) (port : BitVec 3), s.up = true →
    let p := port.toNat
    let now := (s.clk.advance t).now
    let OnlyHolds (u : State) : Prop :=
      { u with nw := { u.nw with macs := s.nw.macs } } = s.atTick t
        ∧ ∀ q, { u.mac q with holds := (s.mac q).holds } = s.mac q ∧ (q ≠ p → u.mac q = s.mac q)
    (∀ (f : RxFrame) (pfc : Bool) (named : List (Nat × Nat)) (k q : Nat), s.Accepts p f →
        s.ingressUsed + (f.bytes.length + 4) ≤ s.ingressCap → classOf f.bytes = .macctl pfc named → k < 8 →
        s.pauseMode p = (if pfc then 2 else 1) → named.filter (fun x => x.1 = k) = [(k, q)] →
        s.get (Reg.MAC_PWD p) Fd.MAC_PWD.LIMIT_MS = 0 → (s.holdOf p k).holdoff = none →
        (∀ w, (s.mac p).wire = some w → w.cls ≠ k) →
        ∃ u, exec (.pauseFrame t port f) s = .next u
          ∧ (0 < s.bitTicks (512 * q) → (u.holdOf p k).stop = now + s.bitTicks (512 * q) ∧ (u.holdOf p k).held = true)
          ∧ (q = 0 → (u.holdOf p k).held = false))
    ∧ (∃ u, exec (.pauseHoldEnd t port) s = .next u ∧ OnlyHolds u
        ∧ ∀ k, k < 8 → u.holdOf p k =
            if (s.holdOf p k).held ∧ (s.holdOf p k).stop ≤ now then { s.holdOf p k with held := false } else s.holdOf p k)
    ∧ (∃ u, exec (.holdoffEnd t port) s = .next u ∧ OnlyHolds u
        ∧ ∀ k, k < 8 → u.holdOf p k =
            { s.holdOf p k with holdoff := (s.holdOf p k).holdoff.filter fun d => now < d })
    ∧ (∃ u, exec (.pauseBreak t port) s = .next u
        ∧ (∀ k d, k < 8 → (s.atTick t).breakDue p k = some d →
            u.holdOf p k = { Hold.none with holdoff := some (d + msTicks (s.get (Reg.MAC_PWD p) Fd.MAC_PWD.HOLDOFF_MS)) }
              ∧ u.Latched (Pg.MAC p) Ev.MAC.PAUSE_BREAK)
        ∧ ∀ k, k < 8 → (s.atTick t).breakDue p k = none → u.holdOf p k = s.holdOf p k)
    ∧ ((s.fcOn p = false ∨ (s.mac p).xoff = false ∨ now < (s.mac p).repeatAt) →
        exec (.flowControlRepeat t port) s = .next (s.atTick t))
    ∧ (s.fcOn p = true → (s.mac p).xoff = true → (s.mac p).repeatAt ≤ now →
        ∃ u, exec (.flowControlRepeat t port) s = .next u
          ∧ u.mac p = { s.mac p with repeatAt := (s.mac p).repeatAt + s.fcPeriod p }
          ∧ State.Sends s u (.frame p (padFrame (State.pauseFrame (s.macSa p) (s.pauseMode p = 2)
              (s.get (Reg.MAC_FC_TX p) Fd.MAC_FC_TX.PRI) (s.get (Reg.MAC_FC_TX p) Fd.MAC_FC_TX.QUANTA)))))


/-- TIME_FREQ_WRITE, TIME_SET, TIME_ADJUST, STOP_SLEW, SLEW_DONE, TIME_NOW_READ, PTIME_TSQ_POP and PPS_IN (R349 to R352, R358,
R362). -/
def Obligations.NetworkClock : Prop :=
  (∀ (s : State) (t : Nat) (p : Port) (v : Word), s.Serves p →
    let f := asSigned 32 v.toNat
    let units := (s.atTick t).netUnits
    (-16000000 ≤ f → f ≤ 16000000 →
      ∃ u, exec (.timeFreqWrite t p v) s = .next u ∧ u.net.freq16 = f ∧ u.netUnits = units ∧ u.net.gen = s.net.gen
        ∧ u.rd Reg.TIME_FREQ = v ∧ State.OnlyRegs { s.atTick t with net := u.net } u [Reg.TIME_FREQ])
    ∧ (f < -16000000 ∨ 16000000 < f → exec (.timeFreqWrite t p v) s = .next ((s.atTick t).status Pg.TIME .badParam))
    ∧ (let x := s.getTime Reg.TIME_SET_SEC_LO Reg.TIME_SET_SEC_HI Reg.TIME_SET_NS
       ((s.rd Reg.TIME_SET_NS).toNat < nsPerSec →
          ∃ u, exec (.timeSet t p) s = .next u ∧ u.netUnits = x * 65536 ∧ u.net.gen = s.net.gen + 1
            ∧ u.net.freq16 = s.net.freq16 ∧ u.Latched Pg.TIME Ev.TIME.STEP ∧ u.Reports Pg.TIME .ok)
       ∧ (nsPerSec ≤ (s.rd Reg.TIME_SET_NS).toNat → exec (.timeSet t p) s = .next ((s.atTick t).status Pg.TIME .badParam)))
    ∧ (let off := asSigned 64 ((s.rd Reg.TIME_ADJ_LO).toNat + (s.rd Reg.TIME_ADJ_HI).toNat * 2 ^ 32)
       let thr := s.get Reg.TIME_STEP_THR Fd.TIME_STEP_THR.US * 1000
       (off.natAbs < thr →
          ∃ u, exec (.timeAdjust t p) s = .next u ∧ u.netUnits = units ∧ u.net.slewLeft = off * 65536
            ∧ u.net.slewPpm = s.get Reg.TIME_SLEW Fd.TIME_SLEW.PPM ∧ u.net.gen = s.net.gen ∧ u.Reports Pg.TIME .ok
            ∧ State.OnlyRegs { s.atTick t with net := u.net } u [Reg.PAGE_STATUS Pg.TIME])
       ∧ (thr ≤ off.natAbs →
          ∃ u, exec (.timeAdjust t p) s = .next u ∧ u.netUnits = ((units : Int) + off * 65536).toNat
            ∧ u.net.slewLeft = 0 ∧ u.net.gen = s.net.gen + 1 ∧ u.Latched Pg.TIME Ev.TIME.STEP ∧ u.Reports Pg.TIME .ok))
    ∧ ∃ u, exec (.stopSlew t p) s = .next u ∧ u.netUnits = units ∧ u.net.slewLeft = 0 ∧ u.net.gen = s.net.gen
        ∧ u.Reports Pg.TIME .ok ∧ State.OnlyRegs { s.atTick t with net := u.net } u [Reg.PAGE_STATUS Pg.TIME])
  ∧ ∀ (s : State) (t : Nat), s.up = true →
      (s.net.slewLeft ≠ 0 → s.net.left (s.clk.advance t).now s.refs.dco = 0 →
        ∃ u, exec (.slewDone t) s = .next u ∧ u.netUnits = (s.atTick t).netUnits ∧ u.net.slewLeft = 0
          ∧ u.Latched Pg.TIME Ev.TIME.SLEW_DONE ∧ State.OnlyEvents { s.atTick t with net := u.net } u [])
      ∧ (∃ u, exec (.ppsIn t) s = .next u ∧ u.rd Reg.TIME_PPSIN_NS = Word.of (s.atTick t).netStamp.ns
          ∧ u.rd Reg.TIME_PPSIN_SEC_LO = Word.of (s.atTick t).netStamp.sec ∧ u.Latched Pg.TIME Ev.TIME.PPS_IN
          ∧ u.get Reg.TIME_PPSIN_CNT Fd.TIME_PPSIN_CNT.COUNT = (s.get Reg.TIME_PPSIN_CNT Fd.TIME_PPSIN_CNT.COUNT + 1) % 2 ^ 32
          ∧ State.OnlyEvents (s.atTick t) u [Reg.TIME_PPSIN_SEC_LO, Reg.TIME_PPSIN_SEC_HI, Reg.TIME_PPSIN_NS, Reg.TIME_PPSIN_CNT])
      ∧ ∀ p : Port, s.linked p = true → s.mgmt.kstate ≠ .boot →
          (exec (.timeNowRead t p) s = .next { s.atTick t with
              lastRead := Word.of (s.atTick t).netStamp.sec
              timeSnapA := if p = .a then (s.atTick t).netStamp else s.timeSnapA
              timeSnapB := if p = .b then (s.atTick t).netStamp else s.timeSnapB })
          ∧ ∀ port : BitVec 3,
            (s.ownedBy p = false ∨ s.tsq.getD port.toNat [] = [] →
              exec (.ptimeTsqPop t p port) s = .next { s.atTick t with lastRead := s.tsqWord port.toNat })
            ∧ ∀ e rest, s.ownedBy p = true → s.tsq.getD port.toNat [] = e :: rest →
                ∃ u, exec (.ptimeTsqPop t p port) s = .next u
                  ∧ u.lastRead = Word.of (2 ^ 31 + e.stamp.gen * 65536 + e.ident) ∧ u.tsq.getD port.toNat [] = rest
                  ∧ (∀ q, q ≠ port.toNat → u.tsq.getD q [] = s.tsq.getD q [])
                  ∧ u.rd (Reg.PTIME_TSQ1 port.toNat) = Word.of e.stamp.sec ∧ u.rd (Reg.PTIME_TSQ3 port.toNat) = Word.of e.stamp.ns
                  ∧ u.rd (Reg.PTIME_TSQ2 port.toNat) = Word.of (e.stamp.frac * 65536 + e.stamp.sec / 2 ^ 32)
                  ∧ State.OnlyRegs { s.atTick t with tsq := u.tsq, lastRead := u.lastRead } u
                      [Reg.PTIME_TSQ_CNT port.toNat, Reg.PTIME_TSQ1 port.toNat, Reg.PTIME_TSQ2 port.toNat, Reg.PTIME_TSQ3 port.toNat]

/-- PG_ARM, PG_DISARM, PG_FIRED, PULSE_END, PPS_OUT_EDGE and TOD_LINE (R359 to R363). -/
def Obligations.Pulses : Prop :=
  (∀ (s : State) (t : Nat) (p : Port) (k : BitVec 2) (asap : Bool), s.Serves p →
    let i := k.toNat
    let start := s.getTime (Reg.PG_START_SEC_LO i) (Reg.PG_START_SEC_HI i) (Reg.PG_START_NS i)
    let width := s.get (Reg.PG_WIDTH i) Fd.PG_WIDTH.NS
    let period := s.get (Reg.PG_PERIOD i) Fd.PG_PERIOD.NS
    let periodic := s.flag (Reg.PG_CTRL i) Fd.PG_CTRL.PERIODIC
    let user : Prop := s.get (Reg.PG_CTRL i) Fd.PG_CTRL.USER = 1
    let good : Prop := user ∧ (periodic = true → width < period)
    let Ends (u : State) (st : Status) : Prop :=
      exec (.pgArm t p k asap) s = .next u ∧ u.Reports Pg.TIME st ∧ u.get (Reg.PG_STATUS i) Fd.PG_STATUS.LAST = st.code
    let Only (u : State) : Prop :=
      State.OnlyEvents { s.atTick t with pgs := u.pgs } u [Reg.PG_STATUS i, Reg.PAGE_STATUS Pg.TIME]
        ∧ ∀ j, j ≠ i → u.pgOf j = s.pgOf j
    (¬user → ∃ u, Ends u .conflict ∧ Only u ∧ u.pgs = s.pgs)
    ∧ (user → periodic = true → period ≤ width → ∃ u, Ends u .badParam ∧ Only u ∧ u.pgs = s.pgs)
    ∧ (good → (s.atTick t).netUnits < start * 65536 →
        ∃ u, Ends u .ok ∧ Only u ∧ u.pgOf i = { s.pgOf i with
          st := if periodic then .train else .armed
          start := start, period := period, width := width, fireAt := none, next := start })
    ∧ (good → start * 65536 ≤ (s.atTick t).netUnits →
        (asap = false → ∃ u, Ends u .late ∧ Only u ∧ u.pgs = s.pgs ∧ u.Latched Pg.TIME Ev.TIME.PG_LATE)
        ∧ (asap = true → periodic = false →
            ∃ u, Ends u .startAdjusted ∧ Only u ∧ u.pgOf i = { s.pgOf i with
              st := .armed, start := start, period := period, width := width, next := start
              fireAt := some ((s.clk.advance t).now + usTicks 1) })
        ∧ (asap = true → periodic = true →
            ∃ u, Ends u .startAdjusted ∧ Only u ∧ u.pgOf i = { s.pgOf i with
              st := .train, start := start, period := period, width := width, fireAt := none
              next := gridFrom start period ((s.atTick t).netNs + 1000) }))
    ∧ ∃ u, exec (.pgDisarm t p k) s = .next u ∧ Only u ∧ u.pgOf i = { s.pgOf i with st := .idle, fireAt := none }
        ∧ u.Reports Pg.TIME .ok)
  ∧ ∀ (s : State) (t : Nat), s.up = true →
      let now := (s.clk.advance t).now
      (∀ k : BitVec 2, (s.atTick t).pgDue k.toNat = true →
        let g := s.pgOf k.toNat
        ∃ u, exec (.pgFired t k) s = .next u
          ∧ u.pgOf k.toNat = { g with
              high := true, endAt := now + nsTicks g.width
              st := if g.st = .train then .train else .fired
              fireAt := if g.st = .train then g.fireAt else none
              next := if g.st = .train then g.next + g.period else g.next }
          ∧ State.Sends s u (.pulse k.toNat (!s.flag (Reg.PG_CTRL k.toNat) Fd.PG_CTRL.POL))
          ∧ (g.st ≠ .train → u.Latched Pg.TIME Ev.TIME.PG_FIRED)
          ∧ State.OnlyEvents { s.atTick t with pgs := u.pgs } u [Reg.PG_STATUS k.toNat])
      ∧ (∀ k : BitVec 3, (s.pgOf k.toNat).high = true → (s.pgOf k.toNat).endAt ≤ now →
          ∃ u, exec (.pulseEnd t k) s = .next u ∧ u.pgOf k.toNat = { s.pgOf k.toNat with high := false }
            ∧ (∀ j, j ≠ k.toNat → u.pgOf j = s.pgOf j) ∧ u = { s.atTick t with
                pgs := u.pgs
                out := .pulse k.toNat (k.toNat < 4 && s.flag (Reg.PG_CTRL k.toNat) Fd.PG_CTRL.POL) :: s.out })
      ∧ (s.flag Reg.TIME_CTRL Fd.TIME_CTRL.PPS_OUT_EN = true → (s.pgOf 4).next * 65536 ≤ (s.atTick t).netUnits →
          ∃ u, exec (.ppsOutEdge t) s = .next u
            ∧ u.pgOf 4 = { s.pgOf 4 with
                next := (s.pgOf 4).next + nsPerSec, high := true
                endAt := now + nsTicks (s.get Reg.TIME_PPS_OUT Fd.TIME_PPS_OUT.WIDTH_NS) }
            ∧ u = { s.atTick t with pgs := u.pgs, out := .pulse 4 true :: s.out })
      ∧ (s.flag Reg.TIME_CTRL Fd.TIME_CTRL.TOD_EN = true → s.net.todUntil ≤ now →
          let l := State.todBytes ((s.atTick t).netNs / nsPerSec) s.net.gen.toNat (s.flag Reg.TIME_CTRL Fd.TIME_CTRL.SYNCED)
          let baud := if s.get Reg.TIME_TOD Fd.TIME_TOD.BAUD = 0 then 9600 else 115200
          exec (.todLine t) s = .next { s.atTick t with
              net := { s.net with todUntil := now + secTicks 1 * (10 * l.length) / baud }, out := .tod l :: s.out })

/-- GATE_CHANGE, GATE_CANCEL, CHANGED and GATE_ENTRY (R364, R365). -/
def Obligations.Gates : Prop :=
  ∀ (s : State) (t : Nat) (port : BitVec 3),
    let i := port.toNat
    let Others (u : State) : Prop := ∀ q, q ≠ i → u.gateOf q = s.gateOf q
    (∀ p : Port, s.Serves p →
      let len := s.get (Reg.GATE_ADMIN_LEN i) Fd.GATE_ADMIN_LEN.LEN
      let cyc := s.get (Reg.GATE_ADMIN_CYCLE i) Fd.GATE_ADMIN_CYCLE.NS
      let es : List GateEntry := (List.range len).map fun k =>
        { gates := s.get (Reg.GATE_ADMIN i k) Fd.GATE_ADMIN.GATES, interval := s.get (Reg.GATE_ADMIN i k) Fd.GATE_ADMIN.INTERVAL }
      let good : Prop := 1 ≤ len ∧ len ≤ 256 ∧ 1000 ≤ cyc ∧ cyc ≤ 1000000000 ∧ ∀ e ∈ es, e.interval ≠ 0
      let base := s.getTime (Reg.GATE_ADMIN_BASE_SEC_LO i) (Reg.GATE_ADMIN_BASE_SEC_HI i) (Reg.GATE_ADMIN_BASE_NS i)
      let start := gridFrom base cyc ((s.atTick t).netNs + 2000)
      (¬good → exec (.gateChange t p port) s = .next ((s.atTick t).status (Pg.GATE i) .badParam))
      ∧ (good → (s.gateOf i).pend.isSome = true → exec (.gateChange t p port) s = .next ((s.atTick t).status (Pg.GATE i) .busy))
      ∧ (good → (s.gateOf i).pend = none →
          ∃ u, exec (.gateChange t p port) s = .next u ∧ Others u
            ∧ u.gateOf i = { s.gateOf i with pend := some { start := start, base := base, cycle := cyc, entries := es } }
            ∧ u.flag (Reg.GATE_STATE i) Fd.GATE_STATE.PENDING = true
            ∧ (start = base → u.Reports (Pg.GATE i) .ok)
            ∧ (start ≠ base → u.Reports (Pg.GATE i) .startAdjusted ∧ u.Latched (Pg.GATE i) Ev.GATE.START_ADJ))
      ∧ ∃ u, exec (.gateCancel t p port) s = .next u ∧ Others u ∧ u.gateOf i = { s.gateOf i with pend := none }
          ∧ u.flag (Reg.GATE_STATE i) Fd.GATE_STATE.PENDING = false ∧ u.Reports (Pg.GATE i) .ok
          ∧ State.OnlyRegs { s.atTick t with gates := u.gates } u [Reg.GATE_STATE i, Reg.PAGE_STATUS (Pg.GATE i)])
    ∧ (s.up = true →
        (∀ l, (s.gateOf i).pend = some l → l.start ≤ (s.atTick t).netNs →
          ∃ u, exec (.changed t port) s = .next u ∧ Others u
            ∧ u.gateOf i = { pend := none, oper := some l, entry := l.at (s.atTick t).netNs }
            ∧ u.Latched (Pg.GATE i) Ev.GATE.CHANGED
            ∧ State.OnlyEvents { s.atTick t with gates := u.gates } u
                [Reg.GATE_STATE i, Reg.GATE_OPER_CYCLE i, Reg.GATE_OPER_LEN i, Reg.GATE_CHANGE_CNT i, Reg.GATE_CUR i])
        ∧ ∀ l, (s.gateOf i).oper = some l →
            ∃ u, exec (.gateEntry t port) s = .next u ∧ Others u
              ∧ u.gateOf i = { s.gateOf i with entry := l.at (s.atTick t).netNs }
              ∧ (s.flag (Reg.GATE_CTRL i) Fd.GATE_CTRL.EN = true →
                  u.get (Reg.GATE_CUR i) Fd.GATE_CUR.GATES = l.gates (l.at (s.atTick t).netNs) % 256)
              ∧ State.OnlyRegs { s.atTick t with gates := u.gates } u [Reg.GATE_CUR i])


/-- PCM_FRAME, FS_LOST, PCM_GROUP_CFG_WRITE and PCM_HWY_CFG_WRITE (R374 to R378, R383). -/
def Obligations.PcmHighways : Prop :=
  (∀ (s : State) (t : Nat) (g : BitVec 2) (x : PcmFrameIn), s.up = true →
    let i := g.toNat
    let y := s.group i
    let now := (s.clk.advance t).now
    (s.groupEn i = false → exec (.pcmFrame t g x) s = .next (s.atTick t))
    ∧ (s.groupEn i = true → s.groupMaster i = true → (s.atTick t).masterEdge i = false →
        exec (.pcmFrame t g x) s = .next (s.atTick t))
    ∧ (let bits := if s.groupMaster i then s.frameBits i else x.bits
       s.groupEn i = true →
        (if s.groupMaster i then (s.atTick t).masterEdge i = true else y.st = .locked ∧ now < y.lastEdge + usTicks 375) →
          ∃ u, exec (.pcmFrame t g x) s = .next u ∧ u.group i = { y with lastEdge := now, edges := y.edges + 1 }
            ∧ (∀ h ∈ State.groupHwys i,
                u.hwy h = { s.hwy h with
                  rx := (s.hwy h).rx ++ [s.rxSlots h bits (s.frameBits i / 8) (x.data.getD (h % 4) []) (rxLost x h bits)] }
                ∧ (s.hwyEn h = true → State.Sends s u (.pcm h
                    ((List.range (s.frameBits i / 8)).map fun k => s.slotOut h k y.edges y.whole x.txLost))))
            ∧ (∀ h, h ∉ State.groupHwys i → u.hwy h = s.hwy h)
            ∧ (bits ≠ s.frameBits i → u.Latched (Pg.PCM (4 * i)) Ev.PCM.FRAME_ERR))
    ∧ (s.groupEn i = true → s.groupMaster i = false →
        (y.st = .lost →
            (x.bits = s.frameBits i → 39 ≤ y.regular →
              ∃ u, exec (.pcmFrame t g x) s = .next u ∧ (u.group i).st = .locked ∧ u.Latched (Pg.PCM (4 * i)) Ev.PCM.FS_LOCKED)
            ∧ (x.bits ≠ s.frameBits i ∨ y.regular < 39 →
                ∃ u, exec (.pcmFrame t g x) s = .next u
                  ∧ u.group i = { y with regular := if x.bits = s.frameBits i then y.regular + 1 else 0, lastEdge := now }
                  ∧ (∀ k, k ≠ i → u.group k = s.group k) ∧ { u with nw := { u.nw with groups := s.nw.groups } } = s.atTick t)))
    ∧ (y.st = .locked → s.groupMaster i = false → y.lastEdge + usTicks 375 ≤ now →
        ∃ u, exec (.fsLost t g) s = .next u ∧ u.group i = { y with st := .lost, regular := 0, whole := false }
          ∧ u.Latched (Pg.PCM (4 * i)) Ev.PCM.FS_LOST
          ∧ State.OnlyEvents { s.atTick t with nw := { s.nw with groups := u.nw.groups } } u [Reg.PCM_FS_LOSS_CNT (4 * i)]))
  ∧ ∀ (s : State) (t : Nat) (p : Port) (h : BitVec 4) (v : Word), s.Serves p →
      let i := h.toNat
      let ga := Reg.PCM_GROUP_CFG i
      let gnew := mergeFields (fieldsAt ga) .rw (s.rd ga) v
      let bad : Bool := i % 4 != 0 || fieldOf v Fd.PCM_GROUP_CFG.RATE = 3 || 3071 < fieldOf v Fd.PCM_GROUP_CFG.FS_PHASE
      let owned : Bool := (State.groupHwys (i / 4)).any fun k => s.hwyOwned k
      (bad = true → exec (.pcmGroupCfgWrite t p h v) s = .next ((s.atTick t).status (Pg.PCM i) .badParam))
      ∧ (bad = false → gnew ≠ s.rd ga → owned = true →
          exec (.pcmGroupCfgWrite t p h v) s = .next ((s.atTick t).status (Pg.PCM i) .busy))
      ∧ (bad = false → (gnew = s.rd ga ∨ owned = false) →
          ∃ u, exec (.pcmGroupCfgWrite t p h v) s = .next u ∧ u.rd ga = gnew
            ∧ (fieldOf gnew Fd.PCM_GROUP_CFG.EN = 0 → (u.group (i / 4)).st = .off)
            ∧ (∀ k, k ≠ i / 4 → u.group k = s.group k)
            ∧ State.OnlyEvents { s.atTick t with nw := { s.nw with groups := u.nw.groups } } u [ga])
      ∧ let ha := Reg.PCM_HWY_CFG i
        let off : Prop := s.hwyEn i = true ∧ fieldOf v Fd.PCM_HWY_CFG.EN = 0 ∧ s.hwyOwned i = true
        (off → exec (.pcmHwyCfgWrite t p h v) s = .next ((s.atTick t).status (Pg.PCM i) .busy))
        ∧ (¬off → exec (.pcmHwyCfgWrite t p h v) s = .next ((s.atTick t).wr ha (mergeFields (fieldsAt ha) .rw (s.rd ha) v)))

/-- RING_ENABLE, RING_DISABLE, RING_FLUSH, DOORBELL, TX_DESC_FETCH and TX_COMPLETION (R392, R395, R396, R399, R401). -/
def Obligations.HostRings : Prop :=
  (∀ (s : State) (t : Nat) (p : Port), s.Serves p →
    (∀ g : BitVec 8,
      let i := g.toNat
      let page := Pg.RINGS (i / 32)
      let l := s.get (ringReg Reg.RING_CFG i) Fd.RING_CFG.LOG2SIZE
      let Others (u : State) : Prop := ∀ k, k ≠ i → u.ringOf k = s.ringOf k
      let regs : List Nat := [ringReg Reg.RING_HEAD i, ringReg Reg.RING_TAIL i, ringReg Reg.RING_STATUS i, ringReg Reg.RING_CTRL i,
        Reg.PAGE_STATUS page]
      (ringPort i ≠ p → exec (.ringEnable t p g) s = .next ((s.atTick t).status page .notOwner))
      ∧ (ringPort i = p → s.ringRuns i = true → exec (.ringEnable t p g) s = .next ((s.atTick t).status page .ok))
      ∧ (ringPort i = p → s.ringRuns i = false → (l < 6 ∨ 16 < l) →
          exec (.ringEnable t p g) s = .next ((s.atTick t).status page .badParam))
      ∧ (ringPort i = p → s.ringRuns i = false → 6 ≤ l → l ≤ 16 →
          ∃ u, exec (.ringEnable t p g) s = .next u ∧ u.ringRuns i = true ∧ Others u
            ∧ u.ringOf i = { avail := [], since := 0, tx := [], gen := (s.ringOf i).gen + 1 }
            ∧ u.rd (ringReg Reg.RING_HEAD i) = 0 ∧ u.rd (ringReg Reg.RING_TAIL i) = 0
            ∧ u.get (ringReg Reg.RING_CTRL i) Fd.RING_CTRL.EN = 1 ∧ u.Reports page .ok
            ∧ State.OnlyRegs { s.atTick t with nw := { s.nw with rings := u.nw.rings } } u regs)
      ∧ ∀ (n cause : Nat) (cmd : Instr), (cmd = .ringDisable t p g n ∧ cause = 1 ∨ cmd = .ringFlush t p g n ∧ cause = 2) →
          s.ringRuns i = true →
          ∃ u, exec cmd s = .next u ∧ u.ringRuns i = false ∧ Others u
            ∧ u.ringOf i = { s.ringOf i with avail := [], since := 0, tx := [] }
            ∧ u.rd (ringReg Reg.RING_STATUS i) = Word.of cause ∧ u.get (ringReg Reg.RING_CTRL i) Fd.RING_CTRL.EN = 0
            ∧ u.Reports page .ok
            ∧ State.OnlyEvents { s.atTick t with nw := { s.nw with rings := u.nw.rings, partials := [] } } u
                (Reg.RING_ORPHAN_CNT :: regs))
    ∧ ∀ (r : BitVec 7) (tail : Word) (descs : List RingDesc),
      let i := if p = .a then r.toNat else 128 + r.toNat
      let new := (tail - s.rd (ringReg Reg.RING_TAIL i)).toNat
      let fits : Prop := s.ringRuns i = true ∧ new ≤ s.ringSize i ∧ (tail - s.rd (ringReg Reg.RING_HEAD i)).toNat ≤ s.ringSize i
      (fits → descs.length = new →
        ∃ u, exec (.doorbell t p r tail descs) s = .next u
          ∧ u.ringOf i = { s.ringOf i with avail := (s.ringOf i).avail ++ descs } ∧ u.rd (ringReg Reg.RING_TAIL i) = tail
          ∧ (∀ k, k ≠ i → u.ringOf k = s.ringOf k)
          ∧ State.OnlyRegs { s.atTick t with nw := { s.nw with rings := u.nw.rings } } u [ringReg Reg.RING_TAIL i])
      ∧ (¬fits →
        ∃ u, exec (.doorbell t p r tail descs) s = .next u ∧ u.Latched Pg.RING Ev.RING.DB_ERR
          ∧ u.get Reg.RING_DB_ERR_CNT Fd.RING_DB_ERR_CNT.COUNT = min (s.get Reg.RING_DB_ERR_CNT Fd.RING_DB_ERR_CNT.COUNT + 1) (2 ^ 32 - 1)
          ∧ State.OnlyEvents (s.atTick t) u [Reg.RING_DB_ERR_CNT, Reg.RING_DB_LAST]))
  ∧ ∀ (s : State) (t : Nat) (g : BitVec 8), s.up = true →
      let i := g.toNat
      let r := s.ringOf i
      let count := (s.rd (ringReg Reg.RING_HEAD i)).toNat + r.tx.length
      let Others (u : State) : Prop := ∀ k, k ≠ i → u.ringOf k = s.ringOf k
      (∀ (d : RingDesc) (rest : List RingDesc) (bytes : List Byte), s.ringRuns i = true →
          s.flag (ringReg Reg.RING_CFG i) Fd.RING_CFG.DIR = true → r.tx.length < 16 → r.avail = d :: rest →
          (s.descBad d = true →
            ∃ u, exec (.txDescFetch t g bytes) s = .next u ∧ Others u
              ∧ u.ringOf i = { r with
                  avail := rest, tx := r.tx ++ [{ count := count, desc := d, done := some (Status.badParam.code, 0) }] }
              ∧ { u with nw := { u.nw with rings := s.nw.rings } } = s.atTick t)
          ∧ (s.descBad d = false → (s.cls (d.ctrl % 8) (s.descClass d)).hostq.length < 16 →
              ∃ u, exec (.txDescFetch t g bytes) s = .next u ∧ Others u
                ∧ u.ringOf i = { r with avail := rest, tx := r.tx ++ [{ count := count, desc := d, done := none }] }
                ∧ (u.cls (d.ctrl % 8) (s.descClass d)).hostq = (s.cls (d.ctrl % 8) (s.descClass d)).hostq
                    ++ [{ ring := i, gen := r.gen, count := count, bytes := s.taggedFrame d bytes, ts := bit d.ctrl 3 }]
                ∧ { u with nw := { u.nw with rings := s.nw.rings, macs := s.nw.macs }, out := s.out } = s.atTick t))
      ∧ ∀ (x : TxItem) (rest : List TxItem) (st id : Nat), r.tx = x :: rest → x.done = some (st, id) →
          ∃ u, exec (.txCompletion t g) s = .next u ∧ Others u ∧ (u.ringOf i).tx = rest ∧ (u.ringOf i).avail = r.avail
            ∧ State.Sends s u (.dma (ringPort i) (s.descAddr i x.count + 11)
                ([1] ++ leBytes 4 s.clk.n.toNat ++ leBytes 1 st ++ [0] ++ leBytes 2 id))
            ∧ u.get (ringReg Reg.RING_HEAD i) Fd.RING_HEAD.COUNT = (s.get (ringReg Reg.RING_HEAD i) Fd.RING_HEAD.COUNT + 1) % 2 ^ 32
            ∧ State.OnlyEvents { s.atTick t with nw := { s.nw with rings := u.nw.rings } } u [ringReg Reg.RING_HEAD i]

/-- MDM_TX_CMD, MDM_MAP_WRITE, MDM_MAP_READ and MODEM_JOB_DONE (R416, R418, R424, R432). -/
def Obligations.TaldyCommands : Prop :=
  (∀ (s : State) (t : Nat) (p : Port), s.Serves p → s.isBusy Pg.MDM = false →
    (∀ (v : Word) (c : Chan),
      let num := fieldOf v Fd.MDM_TX_CMD.CHANNEL
      let map := fieldOf v Fd.MDM_TX_CMD.MAP
      let rate := fieldOf v Fd.MDM_TX_CMD.RATE
      let len := s.get Reg.MDM_TX_LEN Fd.MDM_TX_LEN.LEN
      s.chan num = some c → c.cfg.sess = .taldy → 1 ≤ len → len ≤ 256 → rate ≠ 3 →
      24 ≤ mapBits (c.hostMaps.getD map freshMap) s.notchEn →
      (State.sendWaits c = false → c.taldy.tx = none →
        ∃ u, exec (.mdmTxCmd t p v) s = .next u
          ∧ State.GivesCtls (s.atTick t) u Pg.MDM num c
              (c.ctls ++ [(s.clk.n + 1, .send
                { tag := s.get Reg.MDM_TX_LEN Fd.MDM_TX_LEN.TAG, map := map, rate := rate, payload := s.txPayload len })]))
      ∧ (State.sendWaits c = true ∨ c.taldy.tx.isSome = true →
        exec (.mdmTxCmd t p v) s = .next ((s.atTick t).status Pg.MDM .busy)))
    ∧ ∀ (map : BitVec 4) (session : BitVec 12) (num : Nat) (c : Chan), s.taldyChan session.toNat = some (num, c) →
      s.chan num = some c →
      ((s.mapData.any fun e => 6 < e.1 || 60 < e.2) = false →
        ∃ u, exec (.mdmMapWrite t p map session) s = .next u
          ∧ u.chan num = some { c with
              hostMaps := c.hostMaps.set map.toNat s.mapData, ctls := c.ctls ++ [(s.clk.n + 1, .map map.toNat s.mapData)] }
          ∧ (∀ m d, s.chan m = some d → d.uid ≠ c.uid → u.chan m = some d) ∧ u.Reports Pg.MDM .ok)
      ∧ ((s.mapData.any fun e => 6 < e.1 || 60 < e.2) = true →
        exec (.mdmMapWrite t p map session) s = .next ((s.atTick t).status Pg.MDM .badParam))
      ∧ ∃ u, exec (.mdmMapRead t p map session) s = .next u ∧ u.Reports Pg.MDM .ok
          ∧ (∀ k, k < 12 → u.rd (Reg.MDM_MAP_DATA k) = (State.mapWords (c.hostMaps.getD map.toNat freshMap)).getD k 0)
          ∧ { u with regs := s.regs } = s.atTick t)
  ∧ ∀ (s : State) (t : Nat) (i : BitVec 2) (res : ModemRes) (x : PoolUnit) (id : Nat) (j : Job) (c : Chan), s.up = true →
      s.disp.trellis[i.toNat]? = some x → x.run = some id → s.job id = some j → s.life j.uid = some c →
      ∃ u, exec (.modemJobDone t i res) s = .next u
        ∧ u.life j.uid = some { c with taldy := { c.taldy with res := c.taldy.res ++ [(j.version.toNat, res)] } }
        ∧ u.disp.trellisNow = s.disp.trellisNow + res.bits


/-- ARC_APPEND, ARC_QUERY, ARC_XFER, ARC_DECODE, ARC_CMD_DONE and ARC_DONE_POP (R447, R449, R450). -/
def Obligations.ArchiveCommands : Prop :=
  (∀ (s : State) (t : Nat) (p : Port) (seg : BitVec 15) (cmd : Instr) (op : Nat), s.Serves p →
    (cmd = .arcAppend t p seg ∧ op = 1 ∨ cmd = .arcQuery t p seg ∧ op = 2 ∨ cmd = .arcXfer t p seg ∧ op = 3
      ∨ cmd = .arcDecode t p seg ∧ op = 4) →
    (s.modes.bringup = true ∨ s.wipeBars = true →
      exec cmd s = .next (s.after t fun s => (s.status Pg.ARC .notInMode).event Pg.ARC Ev.ARC.CMD_DONE))
    ∧ (s.modes.bringup = false → s.wipeBars = false →
        (∀ st, s.arcRefusal op seg.toNat = some st → exec cmd s = .next ((s.atTick t).status Pg.ARC st))
        ∧ (s.arcRefusal op seg.toNat = none →
            let c : ArcCmd :=
              { op := op, seg := seg.toNat, off := s.get Reg.ARC_ARG_OFFSET Fd.ARC_ARG_OFFSET.BYTES
                len := s.get Reg.ARC_ARG_LEN Fd.ARC_ARG_LEN.BYTES
                addr := (s.rd Reg.ARC_ARG_ADDR_LO).toNat + (s.rd Reg.ARC_ARG_ADDR_HI).toNat * 2 ^ 32
                port := p, stamp := (s.clk.advance t).now, applied := false, ran := op != 4 }
            ∃ u, exec cmd s = .next u ∧ u.isBusy Pg.ARC = true
              ∧ u.arc = { s.arc with cmd := some c }
              ∧ (op ≠ 4 → State.OnlyRegs { s.atTick t with arc := u.arc } u [Reg.PAGE_STATUS Pg.ARC]))))
  ∧ (∀ (s : State) (t : Nat) (c : ArcCmd), s.up = true → s.arc.cmd = some c → c.ran = true →
      let Ends (u : State) (st : Status) : Prop :=
        exec (.arcCmdDone t []) s = .next u ∧ u.arc.cmd = none ∧ u.isBusy Pg.ARC = false ∧ u.Reports Pg.ARC st
          ∧ u.Latched Pg.ARC Ev.ARC.CMD_DONE
      (c.op = 1 → c.applied = false →
        ∃ u, Ends u .ok ∧ u.arc.tail = s.arc.tail ++ [c.seg] ∧ u.arc.segs.find? c.seg = none)
      ∧ (c.op = 2 →
        ∃ u, Ends u .ok ∧ u.arc.segs = s.arc.segs ∧ u.arc.tail = s.arc.tail
          ∧ u.get Reg.ARC_RES_SEG Fd.ARC_RES_SEG.SSTATE = s.segState c.seg
          ∧ u.get Reg.ARC_RES_SEG Fd.ARC_RES_SEG.USED = s.segUsed c.seg % 2 ^ 16)
      ∧ (∀ x, c.op = 3 → s.arc.segs.find? c.seg = some x → c.off + c.len ≤ x.bytes.length →
        ∃ u, Ends u .ok ∧ State.Sends s u (.dma c.port c.addr ((x.bytes.drop c.off).take c.len)))
      ∧ (c.op = 4 →
        let r := decodeBlock (s.chainBytes 64 c.seg c.off).1 (s.chainBytes 64 c.seg c.off).2
        ∃ u, Ends u (if r.cause = 0 then .ok else .checkFail)
          ∧ (r.pairs ≠ [] → State.Sends s u (.dma c.port c.addr (pairBytes r.pairs)))
          ∧ u.get Reg.ARC_RES_DEC Fd.ARC_RES_DEC.CAUSE = r.cause % 16))
  ∧ ∀ (s : State) (t : Nat) (p : Port) (e : ArcDone) (rest : List ArcDone), s.up = true → s.linked p = true →
      s.mgmt.kstate ≠ .boot → s.arc.done = e :: rest →
      let w := Word.of (2 ^ 31 + b2n e.ended * 2 ^ 30 + b2n e.abandon * 2 ^ 29 + e.stream * 2 ^ 16 + e.seg)
      (s.ownedBy p = false → exec (.arcDonePop t p) s = .next { s.atTick t with lastRead := w })
      ∧ (s.ownedBy p = true →
          ∃ u, exec (.arcDonePop t p) s = .next u ∧ u.lastRead = w ∧ u.arc = { s.arc with done := rest }
            ∧ State.OnlyRegs { s.atTick t with arc := u.arc, lastRead := w } u [Reg.ARC_DONE1])

/-- ARCHIVE_JOB_DONE and SEGMENT_WAIT_RESOLVE (R445, R446). -/
def Obligations.ArchiveWork : Prop :=
  (∀ (s : State) (t : Nat) (i : BitVec 4) (c0 c1 : SectionChoice) (x : PoolUnit) (id : Nat) (j : Job), s.up = true →
    s.disp.lanes[i.toNat]? = some x → x.run = some id → s.job id = some j → j.id = id →
    (j.uid = 0 →
      ∃ u, exec (.archiveJobDone t i c0 c1 []) s = .next u ∧ u.job id = none ∧ u.disp.lanes[i.toNat]? = some { x with run := none }
        ∧ u.arc = { s.arc with cmd := s.arc.cmd.map fun c => { c with ran := true } })
    ∧ (j.uid ≠ 0 → exec (.archiveJobDone t i c0 c1 []) s
        = .next (s.after t fun s => (s.laneDone i.toNat j).archiveWork j.uid c0 c1 false)))
  ∧ ∀ (s : State) (t : Nat), s.up = true → s.arc.cmd = none →
      let waits (x : ArcStream) : Bool := match x.waitSince with
        | some w => w < s.clk.at0
        | none => false
      (s.arc.streams.filter waits = [] → exec (.segmentWaitResolve t) s = .next (s.atTick t))
      ∧ ∀ x w, s.arc.streams.filter waits = [x] → x.num < 4096 → x.write = some w →
          (s.segmentBefore = true → ∃ u, exec (.segmentWaitResolve t) s = .next u
            ∧ (∀ y, u.stream x.key = some y → y.waitSince = none ∧ y.seg.isSome = true))
          ∧ (s.segmentBefore = false →
              ∃ u, exec (.segmentWaitResolve t) s = .next u ∧ u.Latched Pg.ARC Ev.ARC.ABANDON
                ∧ u.get Reg.ARC_ABANDON_CNT Fd.ARC_ABANDON_CNT.COUNT
                    = min (s.get Reg.ARC_ABANDON_CNT Fd.ARC_ABANDON_CNT.COUNT + 1) (2 ^ 32 - 1))

/-- MEM_TRAINING_DONE, MEM_INIT_DONE, SCRUB_PASS and FAULT_RECORD_WRITE (R456 to R458, R469, R473). -/
def Obligations.MemoryStart : Prop :=
  ∀ (s : State) (t : Nat), s.up = true →
    let st := s.get Reg.MEM_STATE Fd.MEM_STATE.STATE
    (st ≠ 1 → ∀ l, exec (.memTrainingDone t l) s = .next (s.atTick t))
    ∧ (st = 1 → s.mgmt.flash.lostDevices = [] → s.devicesLost = 0 →
        ∃ u, exec (.memTrainingDone t []) s = .next u ∧ u.get Reg.MEM_STATE Fd.MEM_STATE.STATE = 2
          ∧ u.get Reg.MEM_STATE Fd.MEM_STATE.DEV_OK = 15 ∧ u.Latched Pg.MEM Ev.MEM.STATE_CHANGE
          ∧ State.OnlyEvents { s.atTick t with spares := u.spares } u [Reg.MEM_STATE, Reg.MEM_TRAIN_MS])
    ∧ (st ≠ 2 → exec (.memInitDone t) s = .next (s.atTick t))
    ∧ (st = 2 →
        ∃ u, exec (.memInitDone t) s = .next u ∧ u.memReady = true ∧ (∀ a, memGet u.mem.scratch a = 0)
          ∧ Memory.wf u.mem.scratch ∧ u.mem.table = s.mem.table.map (fun e => (e.1, { e.2 with poison := [] }))
          ∧ u.chainLen = u.memMap.segments ∧ u.arc.segs = [] ∧ u.arc.done = []
          ∧ State.OnlyEvents { s.atTick t with mem := u.mem, arc := u.arc } u [Reg.MEM_STATE])
    ∧ (s.memReady = false → ∀ l, exec (.scrubPass t l) s = .next (s.atTick t))
    ∧ (s.memReady = true →
        ∃ u, exec (.scrubPass t []) s = .next u ∧ u.Latched Pg.MEM Ev.MEM.SCRUB_PASS
          ∧ u.get Reg.MEM_SCRUB_PASSES Fd.MEM_SCRUB_PASSES.COUNT
              = (s.get Reg.MEM_SCRUB_PASSES Fd.MEM_SCRUB_PASSES.COUNT + 1) % 2 ^ 32
          ∧ State.OnlyEvents { s.atTick t with mem := { s.mem with since := (s.clk.advance t).now } } u [Reg.MEM_SCRUB_PASSES])
    ∧ (s.mgmt.kstate = .running →
        (takeFirst FlashWork.isFault s.mgmt.work = none → exec (.faultRecordWrite t) s = .next (s.atTick t))
        ∧ ∀ w rest, takeFirst FlashWork.isFault s.mgmt.work = some (w, rest) →
            exec (.faultRecordWrite t) s
              = .next { s.atTick t with mgmt := { s.mgmt with work := rest, flash := s.mgmt.flash.record w } })

/-- RETIRE_FRAME_CMD, RETIRE_SWITCH_DONE and RETIRE_READ (R470 to R472, R480). -/
def Obligations.Retirement : Prop :=
  (∀ (s : State) (t : Nat) (p : Port) (i : BitVec 12), s.Serves p →
    let f := s.get Reg.RETIRE_FRAME Fd.RETIRE_FRAME.FRAME
    (s.modes.bringup = true → exec (.retireFrameCmd t p) s = .next ((s.atTick t).status Pg.RETIRE .notInMode)
      ∧ exec (.retireRead t p i) s = .next ((s.atTick t).status Pg.RETIRE .notInMode))
    ∧ (s.modes.bringup = false → s.isBusy Pg.RETIRE = true →
        exec (.retireFrameCmd t p) s = .next ((s.atTick t).status Pg.RETIRE .busy)
          ∧ exec (.retireRead t p i) s = .next ((s.atTick t).status Pg.RETIRE .busy))
    ∧ (s.modes.bringup = false → s.isBusy Pg.RETIRE = false →
        (s.retirable f = false → exec (.retireFrameCmd t p) s = .next ((s.atTick t).status Pg.RETIRE .badParam))
        ∧ (∀ q, s.retirable f = true → (∀ c ∈ s.mem.copies, c.frame ≠ f) → s.lowestSpare = some q → s.canRetire f = true →
            let c : RetCopy := { frame := f, pool := q, poison := [], byCmd := true, lastFree := s.freeEntries = 1 }
            exec (.retireFrameCmd t p) s
              = .next (State.setBusy { s.atTick t with mem := { s.mem with copies := s.mem.copies ++ [c] } } Pg.RETIRE true))
        ∧ ∃ u, exec (.retireRead t p i) s = .next u ∧ u.Reports Pg.RETIRE .ok ∧ { u with regs := s.regs } = s.atTick t
            ∧ (s.mem.table.find? i.toNat = none → u.rd Reg.RETIRE_RES_FRAME = 0 ∧ u.rd Reg.RETIRE_RES_POOL = 0
                ∧ u.rd Reg.RETIRE_RES_POISON_LO = 0 ∧ u.rd Reg.RETIRE_RES_POISON_HI = 0)
            ∧ ∀ e, s.mem.table.find? i.toNat = some e → u.rd Reg.RETIRE_RES_FRAME = Word.of (2 ^ 31 + e.frame)
                ∧ ∀ k, k < 32 → ((u.rd Reg.RETIRE_RES_POISON_LO).getLsbD k = e.poison.contains k)
                    ∧ (u.rd Reg.RETIRE_RES_POISON_HI).getLsbD k = e.poison.contains (32 + k)))
  ∧ ∀ (s : State) (t : Nat) (c : RetCopy) (rest : List RetCopy) (i : Nat), s.up = true → s.mem.copies = c :: rest →
      s.retEntry c.frame = none → s.lowestEntry = some i →
      ∃ u, exec (.retireSwitchDone t) s = .next u ∧ u.mem.copies = rest
        ∧ u.mem.table.find? i = some { frame := c.frame, pool := c.pool, poison := c.poison }
        ∧ (∀ k, k ≠ i → u.mem.table.find? k = s.mem.table.find? k) ∧ u.mem.bad = s.mem.bad
        ∧ u.Latched Pg.RETIRE Ev.RETIRE.RETIRED
        ∧ u.get Reg.RETIRE_CNT Fd.RETIRE_CNT.COUNT = min (s.get Reg.RETIRE_CNT Fd.RETIRE_CNT.COUNT + 1) (2 ^ 32 - 1)
        ∧ (c.byCmd = true → u.Reports Pg.RETIRE (if c.lastFree then .degraded else .ok) ∧ u.isBusy Pg.RETIRE = false)

/-- MEM_XFER_TO_HOST, MEM_XFER_FROM_HOST, XFER_DONE and STRIPE_XLAT (R460, R461, R478). -/
def Obligations.ScratchAndStripes : Prop :=
  (∀ (s : State) (t : Nat) (p : Port) (len : BitVec 17) (data : List Byte), s.Serves p → s.modes.bringup = false →
    s.wipeBars = false → s.isBusy Pg.MEM = false →
    let off := s.get Reg.MEM_XFER_OFFSET Fd.MEM_XFER_OFFSET.BYTES
    let n := len.toNat
    let good : Prop := n ≠ 0 ∧ n ≤ 65536 ∧ n % 4 = 0 ∧ off + n ≤ s.memMap.scratchSize
    let addr := (s.rd Reg.MEM_XFER_ADDR_LO).toNat + (s.rd Reg.MEM_XFER_ADDR_HI).toNat * 2 ^ 32
    let run (toHost : Bool) (d : List Byte) : XferRun :=
      { toHost := toHost, len := n, off := off, addr := addr, port := p, data := d }
    let begun (toHost : Bool) (d : List Byte) : State :=
      State.setBusy { s.atTick t with mem := { s.mem with xfer := some (run toHost d) } } Pg.MEM true
    (good → exec (.memXferToHost t p len) s = .next (begun true [])
      ∧ exec (.memXferFromHost t p len data) s = .next ((begun false data).emit (.dmaRead p addr n)))
    ∧ (¬good → exec (.memXferToHost t p len) s = .next ((s.atTick t).status Pg.MEM .badParam)
      ∧ exec (.memXferFromHost t p len data) s = .next ((s.atTick t).status Pg.MEM .badParam)))
  ∧ (∀ (s : State) (t : Nat) (x : XferRun), s.up = true → s.mem.xfer = some x → s.memReady = true → s.devicesLost = 0 → 0 < x.len →
      ∃ u, exec (.xferDone t []) s = .next u ∧ u.mem.xfer = none ∧ u.isBusy Pg.MEM = false ∧ u.Reports Pg.MEM .ok
        ∧ u.Latched Pg.MEM Ev.MEM.XFER_DONE
        ∧ (x.toHost = true → u.mem.scratch = s.mem.scratch ∧ State.Sends s u (.dma x.port x.addr (memRead s.mem.scratch x.off x.len)))
        ∧ (x.toHost = false →
            (∀ k, k < x.len → memGet u.mem.scratch (x.off + k) = x.data.getD k 0)
            ∧ (∀ a, a < x.off ∨ x.off + x.len ≤ a → memGet u.mem.scratch a = memGet s.mem.scratch a)
            ∧ (Memory.wf s.mem.scratch → Memory.wf u.mem.scratch)))
  ∧ ∀ (s : State) (t : Nat) (p : Port) (v : Word), s.Serves p →
      let a := v.toNat + s.get Reg.STRIPE_XLAT_HI Fd.STRIPE_XLAT_HI.ADDR * 2 ^ 32
      let sn := a / 768
      (a < s.memMap.usable → s.retEntry (a / 4096) = none →
        exec (.stripeXlat t p v) s = .next ((((s.atTick t).wr Reg.STRIPE_XLAT_LO v).wr Reg.STRIPE_XLAT_RES
          (Word.of (2 ^ 31 + (sn % 4 + 1 + a % 768 / 256) % 4 * 2 ^ 26 + sn % 4 * 2 ^ 24))).wr Reg.STRIPE_XLAT_DADDR
          (Word.of (sn * 256 + a % 256))))
      ∧ (s.memMap.usable ≤ a →
          exec (.stripeXlat t p v) s = .next ((((s.atTick t).wr Reg.STRIPE_XLAT_LO v).wr Reg.STRIPE_XLAT_RES 0).wr
            Reg.STRIPE_XLAT_DADDR 0))


/-- POR_RELEASE, POR_ASSERT, VDD_AON_LOSS, VDD_AON_RETURN and LIFE_CHANGE_RESET (R501, R503, R524 to R526, R534, R561 to R563).
The links' levels and the choice of the fault are the model's (log entries 4 and 13). -/
def Obligations.PowerAndReset : Prop :=
  ∀ (s : State) (t : Nat),
    let Fresh (u : State) : Prop :=
      { u with regs := [], clk := Clk.zero, pwr := State.reset.pwr, out := [], lastRead := 0, log := LogState.fresh,
               mgmt := Mgmt.fresh, freeCtr := 0, pending := [] } = State.reset
        ∧ u.out = s.out ∧ u.lastRead = s.lastRead ∧ u.freeCtr = s.freeCtr ∧ u.pending = s.pending
        ∧ u.log.flash = s.log.flash ∧ u.log.spare = s.log.spare ∧ u.log.mem = [] ∧ u.log.queue = []
        ∧ u.mgmt.fuses = s.mgmt.fuses ∧ u.mgmt.flash = { s.mgmt.flash with fwPrev := none } ∧ u.mgmt.fwA = s.mgmt.fwA
        ∧ u.mgmt.fwB = s.mgmt.fwB ∧ u.mgmt.libA = s.mgmt.libA ∧ u.mgmt.libB = s.mgmt.libB ∧ u.mgmt.boots = false
    let KeepsRam (u : State) : Prop := u.log.ram = s.log.ram ∧ u.log.next = s.log.next ∧ u.log.due = s.log.due
    let Starts (u : State) (straps : Nat) : Prop :=
      Fresh u ∧ KeepsRam u ∧ u.clk = Clk.zero
        ∧ u.get Reg.IO_STRAP Fd.IO_STRAP.STRAPS = straps % 32
        ∧ u.get Reg.LIFE_STATE Fd.LIFE_STATE.STATE = s.mgmt.fuses.lifeState % 8
        ∧ u.get Reg.LIFE_JTAG Fd.LIFE_JTAG.ACCESS = State.jtagAccess s.mgmt.fuses.lifeState
        ∧ (∀ a, a ≠ Reg.IO_STRAP → a ≠ Reg.LIFE_STATE → a ≠ Reg.LIFE_JTAG → u.rd a = resetWord a)
        ∧ (∀ k, pickSlot s.mgmt.flash.fwSel s.fwValid = some k → u.mgmt.kstate = .boot ∧ u.mgmt.fwSlot = k)
        ∧ (pickSlot s.mgmt.flash.fwSel s.fwValid = none → u.mgmt.kstate = .recovery)
    (∀ straps : BitVec 5,
      (s.pwr.vddAon = true → s.pwr.porn = false →
        ∃ u, exec (.porRelease t straps) s = .next u ∧ u.up = true ∧ u.pwr = { s.pwr with porn := true, trip := false }
          ∧ Starts u straps.toNat)
      ∧ (s.pwr.vddAon = false ∨ s.pwr.porn = true → exec (.porRelease t straps) s = .next s))
    ∧ (s.pwr.porn = true →
        ∃ u, exec (.porAssert t) s = .next u ∧ u.pwr = { s.pwr with porn := false, trip := false } ∧ u.regs = [] ∧ Fresh u
          ∧ KeepsRam u)
    ∧ (s.pwr.porn = false → exec (.porAssert t) s = .next (s.atTick t))
    ∧ (s.pwr.vddAon = true →
        ∃ u, exec (.vddAonLoss t) s = .next u ∧ u.pwr = { s.pwr with vddAon := false, trip := false } ∧ u.regs = [] ∧ Fresh u
          ∧ u.log.ram = [] ∧ u.log.due = [])
    ∧ (s.pwr.vddAon = false → exec (.vddAonLoss t) s = .next (s.atTick t))
    ∧ (s.pwr.vddAon = true → exec (.vddAonReturn t) s = .next (s.atTick t))
    ∧ (s.pwr.vddAon = false → s.pwr.porn = true → exec (.vddAonReturn t) s = .fault .outsideRatings)
    ∧ (s.pwr.vddAon = false → s.pwr.porn = false →
        exec (.vddAonReturn t) s = .next { s.atTick t with pwr := { s.pwr with vddAon := true } })
    ∧ (s.up = true → s.mgmt.kstate = .running → s.mgmt.fuses.changed = true →
        ∃ u, exec (.lifeChangeReset t) s = .next u ∧ u.pwr = s.pwr ∧ Starts u (s.get Reg.IO_STRAP Fd.IO_STRAP.STRAPS))
    ∧ (s.mgmt.fuses.changed = false → exec (.lifeChangeReset t) s = .next (s.atTick t))

/-- FIRMWARE_VERIFIED, LIBRARY_LOAD_DONE and DIRECTORY_COPY_DONE (R232, R246, R473, R494, R501, R544). -/
def Obligations.StartUp : Prop :=
  ∀ (s : State) (t : Nat), s.up = true →
    (s.mgmt.kstate ≠ .boot → exec (.firmwareVerified t) s = .next (s.atTick t))
    ∧ (s.mgmt.kstate = .boot →
        ∃ u, exec (.firmwareVerified t) s = .next u ∧ u.mgmt.kstate = .running ∧ u.mgmt.boots = true
          ∧ u.get Reg.MEM_STATE Fd.MEM_STATE.STATE = 1
          ∧ u.mem.table = State.tableOf s.mgmt.flash.retiredFrames ∧ u.mgmt.fuses.changed = false
          ∧ u.get Reg.RETIRE_USED Fd.RETIRE_USED.COUNT = s.mgmt.flash.retiredFrames.length % 2 ^ 13
          ∧ State.OnlyEvents { s.atTick t with mgmt := u.mgmt, mem := u.mem, freeCtr := u.freeCtr } u
              [Reg.MEM_STATE, Reg.RETIRE_USED, Reg.RETIRE_POOL_BAD])
    ∧ (∀ failed, s.mgmt.kstate ≠ .running → exec (.libraryLoadDone t failed) s = .next (s.atTick t))
    ∧ (∀ failed, s.mgmt.kstate = .running → s.mgmt.restoredConfig = false →
        ∃ u, exec (.libraryLoadDone t failed) s = .next u ∧ u.mgmt.restoredConfig = true)
    ∧ (∀ failed, s.mgmt.kstate = .running → s.mgmt.restoredConfig = true →
        (pickSlot s.mgmt.flash.libSel s.libValid = none → exec (.libraryLoadDone t failed) s = .next (s.atTick t))
        ∧ ∀ slot, pickSlot s.mgmt.flash.libSel s.libValid = some slot →
            ∃ u, exec (.libraryLoadDone t failed) s = .next u ∧ u.mgmt.libSlot = slot
              ∧ ∀ k c, k < 16 → s.cluster k = some c →
                  (c.cstate ≠ .off → u.cluster k = some c)
                  ∧ (c.cstate = .off → s.mgmt.flash.lostClusters.contains k = true → u.cluster k = some { c with cstate := .lost })
                  ∧ (c.cstate = .off → s.mgmt.flash.lostClusters.contains k = false →
                      u.cluster k = some { c with cstate := .serving, cores := s.startRoles k failed, lib := (s.libImage slot).version,
                                                  libSlot := slot }))
    ∧ (s.mgmt.kstate ≠ .running ∨ s.memReady = false ∨ s.epdOnChip = false →
        exec (.directoryCopyDone t) s = .next (s.atTick t))
    ∧ (s.mgmt.kstate = .running → s.memReady = true → s.epdOnChip = true → (s.nw.epd.chip.map Prod.fst).Nodup →
        ∃ u, exec (.directoryCopyDone t) s = .next u ∧ u.modes = { s.modes with dirCopied := true }
          ∧ u.nw.epd.chip = s.nw.epd.chip
          ∧ (∀ h r, u.nw.epd.recs.find? h = some r → s.nw.epd.chip.find? h = some r)
          ∧ State.OnlyEvents { s.atTick t with modes := u.modes, nw := { s.nw with epd := u.nw.epd } } u [])

/-- STANDING_CONFIG_WRITE and LIFE_CMD (R525, R539). -/
def Obligations.FlashAndLifeCycle : Prop :=
  (∀ (s : State) (t : Nat), s.up = true →
    (s.mgmt.kstate ≠ .running ∨ FlashWork.config ∉ s.mgmt.work → exec (.standingConfigWrite t) s = .next (s.atTick t))
    ∧ (s.mgmt.kstate = .running → FlashWork.config ∈ s.mgmt.work →
        exec (.standingConfigWrite t) s = .next { s.atTick t with
          mgmt := { s.mgmt with work := s.mgmt.work.filter (· ≠ FlashWork.config),
                                flash := { s.mgmt.flash with config := s.savedConfig } } }))
  ∧ ∀ (s : State) (t : Nat) (p : Port) (v : Word) (verified : Bool), s.up = true → s.linked p = true →
      s.mgmt.kstate = .running → s.ownedBy p = true →
      let target := fieldOf v Fd.LIFE_CMD.TARGET
      let f := s.mgmt.fuses
      let asked : Prop := fieldOf v Fd.LIFE_CMD.CONFIRM = 0x5A17 ∧ State.lifeLegal f target = true
      let free : Prop := s.modes.mode = 6 ∧ s.openChans = []
      let signed : Prop := f.lifeState = 2 ∧ target = 3
      let Ends (u : State) (st : Status) : Prop :=
        exec (.lifeCmd t p v verified) s = .next u ∧ u.Reports Pg.LIFE st
      let Refuses (st : Status) : Prop :=
        ∃ u, Ends u st ∧ u.Latched Pg.LIFE Ev.LIFE.REFUSED ∧ { u.mgmt with challenge := s.mgmt.challenge } = s.mgmt
          ∧ State.OnlyEvents { s.atTick t with mgmt := u.mgmt, freeCtr := u.freeCtr } u [Reg.PAGE_STATUS Pg.LIFE]
      (¬asked → Refuses .badParam)
      ∧ (asked → ¬free → Refuses .notInMode)
      ∧ (asked → free → signed → verified = false → Refuses .checkFail)
      ∧ (asked → free → (¬signed ∨ verified = true) →
          ∃ u, Ends u .ok ∧ { u.mgmt with challenge := s.mgmt.challenge } = { s.mgmt with lifeReq := some target }
            ∧ State.OnlyEvents { s.atTick t with mgmt := u.mgmt, freeCtr := u.freeCtr } u [Reg.PAGE_STATUS Pg.LIFE])

/-- INFO, IMG_BEGIN, IMG_DATA, IMG_END, MBX_ABORT and MBX_CMD_DONE (R502, R506, R507). -/
def Obligations.MailboxImages : Prop :=
  (∀ (s : State) (t : Nat) (p : Port), s.Serves p → s.isBusy Pg.MGMT = true →
    ∀ cmd, (cmd = .info t p ∨ cmd = .imgBegin t p ∨ (∃ l, cmd = .imgData t p l) ∨ (∃ v, cmd = .imgEnd t p v)
        ∨ cmd = .activateFirmware t p ∨ cmd = .activateLibrary t p ∨ (∃ c v, cmd = .activateDataPackage t p c v)
        ∨ cmd = .commitSvn t p ∨ cmd = .mbxAbort t p ∨ ∃ l, cmd = .board t p l) →
      exec cmd s = .next ((s.atTick t).status Pg.MGMT .busy))
  ∧ (∀ (s : State) (t : Nat) (p : Port), s.Serves p → s.isBusy Pg.MGMT = false →
      let k := s.mbxKind
      let b := (s.atTick t).setBusy Pg.MGMT true
      let total := (s.rd (Reg.MBX_ARG 1)).toNat
      (k < 2 →
        let i := s.mbxImage k s.mbxSlot
        exec (.info t p) s = .next (b.mbxEnd p .info .ok i.1.version (Word.of (i.1.svn % 64 + 256 * b2n i.2))))
      ∧ (2 ≤ k → exec (.info t p) s = .next (b.mbxSay p .info .badParam))
      ∧ (s.mgmt.session.isSome = true → exec (.imgBegin t p) s = .next (b.mbxSay p .imgBegin .busy))
      ∧ (s.mgmt.session = none → k = 3 ∨ slotBytes k < total → exec (.imgBegin t p) s = .next (b.mbxSay p .imgBegin .badParam))
      ∧ (s.mgmt.session = none → k ≠ 3 → total ≤ slotBytes k →
          let m := (s.storeImage k ImageSlot.empty).mgmt
          let x : Session := { port := p, kind := k, total := total, bytes := [], doomed := false }
          exec (.imgBegin t p) s = .next (State.mbxSay { b with mgmt := { m with session := some x } } p .imgBegin .ok))
      ∧ (s.sessionOf p = none → ∀ l v, exec (.imgData t p l) s = .next (b.mbxSay p .imgData .badParam)
          ∧ exec (.imgEnd t p v) s = .next (b.mbxSay p .imgEnd .badParam))
      ∧ (∀ x (l : BitVec 12), s.sessionOf p = some x →
          let fits : Prop := (s.rd (Reg.MBX_ARG 0)).toNat = x.bytes.length ∧ 1 ≤ l.toNat ∧ l.toNat ≤ 2048
            ∧ x.bytes.length + l.toNat ≤ x.total
          let y : Session := { x with bytes := x.bytes ++ s.mbxBytes l.toNat }
          (fits → exec (.imgData t p l) s = .next (State.mbxSay { b with mgmt := { s.mgmt with session := some y } } p .imgData .ok))
          ∧ (¬fits → exec (.imgData t p l) s = .next (b.mbxSay p .imgData .badParam)))
      ∧ (∀ x v, s.sessionOf p = some x →
          let i : ImageSlot := { bytes := x.bytes, sigOk := v }
          let st : Status := if i.valid x.kind (s.svnCount x.kind) then .ok else .checkFail
          let m := (s.storeImage x.kind i).mgmt
          (x.kind = 0 → m = if s.mgmt.fwSlot = 1 then { s.mgmt with fwA := i } else { s.mgmt with fwB := i })
          ∧ (x.bytes.length < x.total → exec (.imgEnd t p v) s = .next (b.mbxSay p .imgEnd .badParam))
          ∧ (x.total ≤ x.bytes.length →
              exec (.imgEnd t p v) s = .next (State.mbxSay { b with mgmt := { m with session := none } } p .imgEnd st)))
      ∧ ∃ u, exec (.mbxAbort t p) s = .next u ∧ u.isBusy Pg.MGMT = true ∧ u.sessionOf p = none
          ∧ (s.sessionOf p = none → u.mgmt.session = s.mgmt.session)
          ∧ (∀ r, u.mgmt.rot = some r → r.stop = true) ∧ u.mgmt.rot.isSome = s.mgmt.rot.isSome
          ∧ { u.mgmt with session := s.mgmt.session, rot := s.mgmt.rot, mbx := s.mgmt.mbx } = s.mgmt
          ∧ State.OnlyRegs { s.atTick t with mgmt := u.mgmt } u [Reg.PAGE_STATUS Pg.MGMT])
  ∧ ∀ (s : State) (t : Nat), s.up = true →
      (s.mgmt.mbx = none → exec (.mbxCmdDone t) s = .next (s.atTick t))
      ∧ ∀ c, s.mgmt.mbx = some c → c.restart = false → (∀ x, s.mgmt.session = some x → x.doomed = false) → c.status < 256 →
          ∃ u, exec (.mbxCmdDone t) s = .next u ∧ u.mgmt = { s.mgmt with mbx := none } ∧ u.isBusy Pg.MGMT = false
            ∧ u.get (Reg.PAGE_STATUS Pg.MGMT) Fd.PAGE_STATUS.LAST_STATUS = c.status
            ∧ u.rd (Reg.MBX_RES 0) = c.res0 ∧ u.rd (Reg.MBX_RES 1) = c.res1 ∧ u.Latched Pg.MGMT Ev.MGMT.CMD_DONE
            ∧ (c.op = 4 → c.status = Status.checkFail.code → u.Latched Pg.MGMT Ev.MGMT.IMG_CHECK_FAIL)
            ∧ State.OnlyEvents { s.atTick t with mgmt := u.mgmt } u [Reg.PAGE_STATUS Pg.MGMT, Reg.MBX_RES 0, Reg.MBX_RES 1]

/-- ACTIVATE_FIRMWARE, ACTIVATE_LIBRARY, ACTIVATE_DATA_PACKAGE, COMMIT_SVN and BOARD (R503, R504, R507, R510). The order of the
refusals of a library is the model's (log entry 50). -/
def Obligations.MailboxActivation : Prop :=
  ∀ (s : State) (t : Nat) (p : Port), s.Serves p → s.isBusy Pg.MGMT = false →
    let b := (s.atTick t).setBusy Pg.MGMT true
    let slot := s.mbxSlot
    let f := s.mgmt.flash
    (s.fwValid slot = false → exec (.activateFirmware t p) s = .next (b.mbxSay p .activate .checkFail))
    ∧ (s.fwValid slot = true →
        let c : MbxCmd := { op := 5, port := p, status := 0, res0 := 0, res1 := 0, restart := true }
        exec (.activateFirmware t p) s = .next { b with
          mgmt := { s.mgmt with flash := { f with fwSel := slot, fwPrev := some f.fwSel }, firstStart := none, mbx := some c } })
    ∧ (let old := (s.libImage s.mgmt.libSlot).compat
       let Says (st : Status) : Prop := exec (.activateLibrary t p) s = .next (b.mbxSay p .activate st)
       let Chosen (u : State) : Prop := exec (.activateLibrary t p) s = .next u ∧ u.mgmt.flash = { f with libSel := slot }
         ∧ u.mgmt.mbx = some { op := 5, port := p, status := 0, res0 := 0, res1 := 0, restart := false }
       (s.libValid slot = false → Says .checkFail)
       ∧ (s.libValid slot = true → s.libraryRuns = false → ∃ u, Chosen u ∧ u.mgmt.rot = s.mgmt.rot ∧ u.modes = s.modes)
       ∧ (s.libValid slot = true → s.libraryRuns = true →
           ((s.libImage slot).compat ≠ old → Says .badParam)
           ∧ ((s.libImage slot).compat = old → s.modes.mode ≠ 2 → s.modes.mode ≠ 4 → Says .notInMode)
           ∧ ((s.libImage slot).compat = old → s.modes.mode = 2 ∨ s.modes.mode = 4 →
               (s.rotCapacity = false → Says .noCapacity)
               ∧ (s.rotCapacity = true → s.mgmt.rot.isSome = true → Says .busy)
               ∧ (s.rotCapacity = true → s.mgmt.rot = none →
                   ∃ u r, Chosen u ∧ u.mgmt.rot = some r ∧ r.slot = slot ∧ r.byActivate = true ∧ r.cur = none
                     ∧ r.rest = s.notLost.filter (fun k => s.libOf k != (s.libImage slot).version)
                     ∧ u.modes = { s.modes with rotReq := true } ∧ u.get Reg.MGMT_ROT Fd.MGMT_ROT.DONE = 0))))
    ∧ (∀ clips fits,
        let ok : Prop := ∃ i, s.mgmt.package = some i ∧ i.valid 2 0 = true
        let Says (st : Status) : Prop := exec (.activateDataPackage t p clips fits) s = .next (b.mbxSay p .activate st)
        (s.modes.bringup = true → Says .notInMode)
        ∧ (s.modes.bringup = false → ¬ok → Says .checkFail)
        ∧ (s.modes.bringup = false → ok → fits = false → Says .full)
        ∧ (s.modes.bringup = false → ok → fits = true →
            ∃ u, exec (.activateDataPackage t p clips fits) s = .next u ∧ u.mgmt.clips = clips
              ∧ State.OnlyEvents { b with mgmt := { s.mgmt with clips := clips, mbx := u.mgmt.mbx } } u []))
    ∧ (2 ≤ s.mbxKind → exec (.commitSvn t p) s = .next (b.mbxSay p .commitSvn .badParam))
    ∧ (s.mbxKind = 0 →
        let n := min 32 (max s.mgmt.fuses.svnFw (s.fwImage s.mgmt.fwSlot).svn)
        exec (.commitSvn t p) s = .next (State.mbxEnd { b with mgmt := { s.mgmt with fuses := { s.mgmt.fuses with svnFw := n } } } p
          .commitSvn .ok (Word.of n) 0))
    ∧ (s.mbxKind = 1 →
        ∃ u, exec (.commitSvn t p) s = .next u ∧ (s.mgmt.fuses.svnLib ≤ 32 → s.mgmt.fuses.svnLib ≤ u.mgmt.fuses.svnLib)
          ∧ u.mgmt.fuses.svnLib ≤ 32 ∧ u.mgmt.fuses = { s.mgmt.fuses with svnLib := u.mgmt.fuses.svnLib }
          ∧ { u with mgmt := s.mgmt } = b)
    ∧ ∀ l : BitVec 12,
        let off := (s.rd (Reg.MBX_ARG 0)).toNat
        (2 ≤ s.mgmt.fuses.lifeState → exec (.board t p l) s = .next (b.mbxSay p .board .notInMode))
        ∧ (s.mgmt.fuses.lifeState < 2 → 2048 < l.toNat ∨ boardBytes < off + l.toNat →
            exec (.board t p l) s = .next (b.mbxSay p .board .badParam))
        ∧ (s.mgmt.fuses.lifeState < 2 → l.toNat ≤ 2048 → off + l.toNat ≤ boardBytes →
            exec (.board t p l) s = .next (State.mbxSay { b with mgmt := { s.mgmt with
              flash := { f with board := State.putBoard f.board off (s.mbxBytes l.toNat) } } } p .board .ok))

/-- KWAKEL_WATCHDOG, KWAKEL_RESTART and ROTATION_STEP_LOAD_DONE (R503, R508, R509, R511). -/
def Obligations.KwakelRestarts : Prop :=
  ∀ (s : State) (t : Nat), s.up = true →
    let now := (s.clk.advance t).now
    let near := s.mgmt.watchdogs.filter (fun x => now < x + secTicks 3600) ++ [now]
    (s.mgmt.kstate ≠ .running → exec (.kwakelWatchdog t) s = .next (s.atTick t))
    ∧ (s.mgmt.kstate = .running →
        let early : Prop := ∃ f, s.mgmt.firstStart = some f ∧ now < f + secTicks 60
        ∃ u, exec (.kwakelWatchdog t) s = .next u
          ∧ u.mgmt.kstate = (if 3 ≤ near.length then .recovery else .restarting)
          ∧ u.mgmt.watchdogs = near ∧ u.mgmt.mbx = none ∧ u.mgmt.session = none
          ∧ (∀ k, s.mgmt.flash.fwPrev = some k → early → u.mgmt.flash = { s.mgmt.flash with fwSel := k, fwPrev := none })
          ∧ (s.mgmt.flash.fwPrev = none ∨ ¬early → u.mgmt.flash = s.mgmt.flash)
          ∧ (s.mgmt.mbx.isSome = true → u.isBusy Pg.MGMT = false ∧ u.Reports Pg.MGMT .aborted)
          ∧ u.get Reg.MGMT_STATE Fd.MGMT_STATE.RESTARTS
              = min (s.get Reg.MGMT_STATE Fd.MGMT_STATE.RESTARTS + 1) (2 ^ (Fd.MGMT_STATE.RESTARTS.hi + 1 - Fd.MGMT_STATE.RESTARTS.lo) - 1)
          ∧ u.Latched Pg.MGMT Ev.MGMT.KWAKEL_RESTART
          ∧ State.OnlyEvents { s.atTick t with mgmt := u.mgmt } u [Reg.MGMT_STATE, Reg.PAGE_STATUS Pg.MGMT])
    ∧ (s.mgmt.kstate ≠ .restarting → exec (.kwakelRestart t) s = .next (s.atTick t))
    ∧ (s.mgmt.kstate = .restarting → pickSlot s.mgmt.flash.fwSel s.fwValid = none →
        exec (.kwakelRestart t) s = .next { s.atTick t with mgmt := { s.mgmt with kstate := .recovery } })
    ∧ (∀ k, s.mgmt.kstate = .restarting → s.mgmt.boots = true → pickSlot s.mgmt.flash.fwSel s.fwValid = some k →
        ∃ u, exec (.kwakelRestart t) s = .next u ∧ u.log.queue = [] ∧ u.mgmt.kstate = .running ∧ u.mgmt.fwSlot = k
          ∧ u.mgmt.flash = s.mgmt.flash ∧ State.OnlyEvents { s.atTick t with mgmt := u.mgmt } u [])
    ∧ (∀ k, s.mgmt.kstate = .restarting → s.mgmt.boots = false → pickSlot s.mgmt.flash.fwSel s.fwValid = some k →
        ∃ u, exec (.kwakelRestart t) s = .next u ∧ u.mgmt.kstate = .running ∧ u.mgmt.fwSlot = k ∧ u.mgmt.boots = true
          ∧ u.get Reg.MEM_STATE Fd.MEM_STATE.STATE = 1)
    ∧ (s.mgmt.rot = none → exec (.rotationStepLoadDone t) s = .next (s.atTick t))
    ∧ (∀ r k c, s.mgmt.kstate = .running → s.mgmt.rot = some r → r.cur = some k → s.cluster k = some c → c.cstate = .evacuated →
        s.clusterJobs k = [] →
        ∃ u, exec (.rotationStepLoadDone t) s = .next u ∧ u.mgmt = { s.mgmt with rot := some { r with loaded := true } }
          ∧ u.cluster k = some { c with lib := (s.libImage r.slot).version, libSlot := r.slot }
          ∧ (∀ j, j ≠ k → u.cluster j = s.cluster j)
          ∧ State.OnlyEvents { s.atTick t with mgmt := u.mgmt, clusters := u.clusters } u [])
    ∧ (∀ r k c, s.mgmt.rot = some r → r.cur = some k → s.cluster k = some c → c.cstate ≠ .evacuated ∨ s.clusterJobs k ≠ [] →
        exec (.rotationStepLoadDone t) s = .next (s.atTick t))

/-- LOG_RD_SEQ, LOG_NOTE, FLASH_LOG_WRITE, MGMT_FRAME_RECEIVE and GPIO_EDGE (R519 to R523, R575). The zeros in LOG_RD_DATA after a
refusal are the model's (log entry 51). -/
def Obligations.LogAndPins : Prop :=
  (∀ (s : State) (t : Nat) (p : Port) (v : Word), s.Serves p →
    let store := s.logStore (s.get Reg.LOG_RD_STORE Fd.LOG_RD_STORE.STORE)
    let Reads (bs : List Byte) (st : Status) : Prop :=
      ∃ u, exec (.logRdSeq t p v) s = .next u ∧ u.Reports Pg.LOG st
        ∧ (∀ k, k < 8 → u.rd (Reg.LOG_RD_DATA k) = Word.of (leAt bs (4 * k) 4))
        ∧ State.OnlyRegs (s.atTick t) u (Reg.PAGE_STATUS Pg.LOG :: (List.range 8).map Reg.LOG_RD_DATA)
    let c := fieldOf v Fd.LOG_NOTE.COLOUR
    (beatAtOrAfter v s.log.next = true → Reads [] .badParam)
    ∧ (∀ r, beatAtOrAfter v s.log.next = false → store.find? (fun r => r.seq = v) = some r → Reads r.bytes .ok)
    ∧ (∀ o, beatAtOrAfter v s.log.next = false → store.find? (fun r => r.seq = v) = none → store.getLast? = some o →
        beatAfter o.seq v = true → Reads [] .late)
    ∧ (c = 0 → exec (.logNote t p v) s = .next ((s.atTick t).status Pg.LOG .badParam))
    ∧ (c ≠ 0 →
        ∃ u r, exec (.logNote t p v) s = .next u ∧ u.Reports Pg.LOG .ok ∧ r ∈ u.log.ram ∧ r.seq = s.log.next ∧ r.host = true
          ∧ r.kwakel = false ∧ r.colour = c ∧ r.beat = s.clk.n
          ∧ r.data = wordBytes (s.rd (Reg.LOG_NOTE_DATA 0)) ++ wordBytes (s.rd (Reg.LOG_NOTE_DATA 1))
          ∧ State.OnlyEvents (s.atTick t) u [Reg.PAGE_STATUS Pg.LOG]))
  ∧ (∀ (s : State) (t : Nat), s.up = true →
      (s.log.due = [] ∨ s.mgmt.kstate ≠ .running → ∀ bad, exec (.flashLogWrite t bad) s = .next (s.atTick t))
      ∧ (∀ r rest, s.mgmt.kstate = .running → s.log.due = r :: rest →
          (exec (.flashLogWrite t false) s
            = .next { s.atTick t with log := { s.log with due := rest, flash := pushFlash r s.log.flash } })
          ∧ (s.log.spare = 0 → exec (.flashLogWrite t true) s = .next { s.atTick t with log := { s.log with due := rest } })
          ∧ (0 < s.log.spare →
              ∃ u, exec (.flashLogWrite t true) s = .next u ∧ u.log.spare = s.log.spare - 1
                ∧ u.log.flash = pushFlash r s.log.flash ∧ u.LastFault 16 0 0 13 false ∧ u.Latched Pg.REL Ev.REL.FAULT)))
  ∧ (∀ (s : State) (t : Nat) (f : List Byte), s.up = true →
      let on : Prop := s.mgmt.kstate = .running ∧ s.flag Reg.MGMT_NET_CTRL Fd.MGMT_NET_CTRL.EN = true
        ∧ State.arpFor f (s.rd Reg.MGMT_NET_IP).toNat = true
      (on → exec (.mgmtFrameReceive t f) s
        = .next ((s.atTick t).emit (.mgmt (State.arpReply f (s.rd Reg.MGMT_NET_IP).toNat Config.mgmtMac.toNat))))
      ∧ (¬on → exec (.mgmtFrameReceive t f) s = .next (s.atTick t)))
  ∧ ∀ (s : State) (t : Nat) (k : BitVec 4) (high : Bool), s.up = true →
      let level (s : State) : Bool := (s.get Reg.IO_GPIO_IN Fd.IO_GPIO_IN.IN).testBit k.toNat
      let edge (s : State) : Bool := (s.get Reg.IO_GPIO_EDGE Fd.IO_GPIO_EDGE.EDGE).testBit k.toNat
      let heard : Prop := s.get (Reg.IO_MUX k.toNat) Fd.IO_MUX.USER = 1
        ∧ (s.get Reg.IO_GPIO_EDGE_EN Fd.IO_GPIO_EDGE_EN.EN).testBit k.toNat = true
      (level s = high → exec (.gpioEdge t k high) s = .next (s.atTick t))
      ∧ (level s ≠ high →
          ∃ u, exec (.gpioEdge t k high) s = .next u ∧ level u = high
            ∧ (heard → edge s = false → edge u = true ∧ u.Latched Pg.IO Ev.IO.GPIO_EDGE)
            ∧ (¬heard ∨ edge s = true → State.OnlyRegs (s.atTick t) u [Reg.IO_GPIO_IN])
            ∧ State.OnlyEvents (s.atTick t) u [Reg.IO_GPIO_IN, Reg.IO_GPIO_EDGE])

/-- SENSOR_SAMPLE and SENSOR_FAIL (R514, R515, R517). -/
def Obligations.Sensing : Prop :=
  ∀ (s : State) (t : Nat), s.up = true →
    (∀ temps volts dev locks, s.trips temps = true →
      ∃ u, exec (.sensorSample t temps volts dev locks) s = .next u ∧ u.pwr = { s.pwr with trip := true } ∧ u.up = false
        ∧ u.regs = [] ∧ u.chans = [] ∧ u.modes = Modes.fresh ∧ u.mgmt.fuses = s.mgmt.fuses ∧ State.Sends s u .tripN)
    ∧ (∀ temps volts dev locks, s.trips temps = false → s.mgmt.kstate ≠ .running →
        exec (.sensorSample t temps volts dev locks) s = .next (s.atTick t))
    ∧ (∀ x : Int, s.trips [x] = false → s.mgmt.kstate = .running → State.pairDead s.sens.tempFail 0 = false →
        let l := (x :: s.sens.temps.getD 0 []).take 16
        let r := meanOf l
        let a := Reg.SENSOR_TEMP 0
        let deg (a : Nat) (f : Fd) : Int := s.get a f * 16
        let h := deg Reg.SENSOR_T_HYST Fd.SENSOR_T_HYST.C
        let After (u : State) (f : Fd) (e : Nat) (top : Int) : Prop :=
          (top ≤ r → u.flag a f = true ∧ (s.flag a f = false → u.Latched Pg.SENSOR e))
            ∧ (r < top - h → r < top → u.flag a f = false) ∧ (top - h ≤ r → r < top → u.flag a f = s.flag a f)
        ∃ u, exec (.sensorSample t [x] [] [] 0) s = .next u
          ∧ u.get a Fd.SENSOR_TEMP.TEMP = toField (Fd.SENSOR_TEMP.TEMP.hi + 1 - Fd.SENSOR_TEMP.TEMP.lo) r
          ∧ u.sens.temps[0]? = s.sens.temps[0]?.map (fun _ => l)
          ∧ After u Fd.SENSOR_TEMP.WARN Ev.SENSOR.T_WARN (deg Reg.SENSOR_T_WARN Fd.SENSOR_T_WARN.C)
          ∧ After u Fd.SENSOR_TEMP.CRIT Ev.SENSOR.T_CRIT (deg Reg.SENSOR_T_CRIT Fd.SENSOR_T_CRIT.C)
          ∧ (∀ i, 0 < i → i < 12 → u.rd (Reg.SENSOR_TEMP i) = s.rd (Reg.SENSOR_TEMP i))
          ∧ State.OnlyEvents { s.atTick t with sens := u.sens, modes := u.modes, spares := u.spares } u
              [a, Reg.SENSOR_HOTTEST, Reg.SENSOR_PLL])
    ∧ (∀ volt i twin, s.mgmt.kstate ≠ .running → exec (.sensorFail t volt i twin) s = .next (s.atTick t))
    ∧ (∀ volt i x twin, s.mgmt.kstate = .running → (if volt then i < 8 else i < 12) →
        (if volt then s.sens.voltFail else s.sens.tempFail)[i]? = some x →
        let a := if volt then Reg.SENSOR_VOLT i else Reg.SENSOR_TEMP i
        let takes : Bool := twin = false && x.2 = false
        let spares (u : State) : Nat := if volt then u.spares.spareMonitors else u.spares.spareDiodes
        (State.failPair x twin = x → exec (.sensorFail t volt i twin) s = .next (s.atTick t))
        ∧ (State.failPair x twin ≠ x →
            ∃ u, exec (.sensorFail t volt i twin) s = .next u ∧ u.flag a Fd.SENSOR_TEMP.FAILED = true
              ∧ u.flag a Fd.SENSOR_TEMP.TWIN = (takes || s.flag a Fd.SENSOR_TEMP.TWIN)
              ∧ u.Latched Pg.SENSOR Ev.SENSOR.SENSOR_FAIL ∧ u.LastFault (if volt then 15 else 14) 0 0 12 false
              ∧ spares u = (if takes then spares s - 1 else spares s)
              ∧ (if volt then u.sens.voltFail else u.sens.tempFail)[i]? = some (State.failPair x twin)
              ∧ State.OnlyEvents { s.atTick t with sens := u.sens, spares := u.spares } u
                  [a, Reg.REL_LAST_FAULT, Reg.REL_LAST_BEAT, Reg.REL_FAULT_CNT (if volt then 15 else 14)]))

/-- ENTER_MAINT, LEAVE_MAINT, ROTATE, CONSTRAIN_ON, CONSTRAIN_OFF, SEAL, UNSEAL, WIPE and SNAPSHOT (R539, R546, R547, R551, R552,
R554, R555). That the later of two requests stands is the model's (log entry 9). -/
def Obligations.ModeCommands : Prop :=
  ∀ (s : State) (t : Nat) (p : Port), s.Serves p →
    let m := s.modes
    let Refused (cmd : Instr) (st : Status) : Prop := exec cmd s = .next ((s.atTick t).status Pg.MODE st)
    let Gives (cmd : Instr) (m' : Modes) : Prop := exec cmd s = .next (State.status { s.atTick t with modes := m' } Pg.MODE .ok)
    (m.bringup = true ∨ m.sealOn = true → Refused (.enterMaint t p) .notInMode)
    ∧ (m.bringup = false → m.sealOn = false → Gives (.enterMaint t p) { m with enterReq := true, leaveReq := false })
    ∧ (s.mgmt.rot.isSome = true → Refused (.leaveMaint t p) .busy)
    ∧ (s.mgmt.rot = none → Gives (.leaveMaint t p) { m with enterReq := false, leaveReq := true })
    ∧ (m.mode ≠ 4 → Refused (.rotate t p) .notInMode)
    ∧ (m.mode = 4 → s.mgmt.rot.isSome = true → Refused (.rotate t p) .busy)
    ∧ (m.mode = 4 → s.mgmt.rot = none →
        let r : Rotation :=
          { rest := s.notLost, cur := none, loaded := false, slot := s.mgmt.libSlot, stop := false, byActivate := false, wait := false }
        ∃ u, exec (.rotate t p) s = .next u ∧ u.mgmt = { s.mgmt with rot := some r } ∧ u.get Reg.MGMT_ROT Fd.MGMT_ROT.DONE = 0
          ∧ u.Reports Pg.MODE .ok ∧ State.OnlyRegs { s.atTick t with mgmt := u.mgmt } u [Reg.MGMT_ROT, Reg.PAGE_STATUS Pg.MODE])
    ∧ (m.sealOn = true → Refused (.constrainOn t p) .notInMode)
    ∧ (m.sealOn = false → Gives (.constrainOn t p) { m with forced := true })
    ∧ (s.anyTrigger = false → Gives (.constrainOff t p) { m with forced := false })
    ∧ (s.anyTrigger = true →
        Gives (.constrainOff t p) { m with forced := false, quietSince := (s.clk.advance t).now, quietDone := false })
    ∧ (∀ force : Bool,
        (m.bringup = true → Refused (.sealCmd t p force) .notInMode)
        ∧ (m.bringup = false → m.sealOn = false → Gives (.sealCmd t p force) { m with sealReq := true, forceReq := m.forceReq || force })
        ∧ (m.bringup = false → m.sealOn = true → force = true → m.phase = .draining → Gives (.sealCmd t p force) { m with forceReq := true })
        ∧ (m.bringup = false → m.sealOn = true → force = false ∨ m.phase ≠ .draining → Refused (.sealCmd t p force) .notInMode))
    ∧ (m.phase = .draining ∨ m.phase = .drained → Gives (.unsealCmd t p) { m with unsealReq := true, wipeReq := false })
    ∧ (m.phase ≠ .draining → m.phase ≠ .drained → Refused (.unsealCmd t p) .notInMode)
    ∧ (m.phase = .drained → Gives (.wipe t p) { m with wipeReq := true, unsealReq := false })
    ∧ (m.phase ≠ .drained → Refused (.wipe t p) .notInMode)
    ∧ exec (.snapshot t p) s
        = .next (State.status { s.atTick t with mgmt := { s.mgmt with work := s.mgmt.work ++ [.config] } } Pg.MODE .ok)

/-- POWER_TRIGGER, POWER_TRIGGER_END, CONSTRAIN_EXIT, SEAL_DEADLINE, SEAL_HOLD_EXPIRY and SEAL_WIPED (R547, R551 to R553). -/
def Obligations.ModeTimers : Prop :=
  ∀ (s : State) (t : Nat), s.up = true →
    let m := s.modes
    let now := (s.clk.advance t).now
    let With (cmd : Instr) (m' : Modes) : Prop := exec cmd s = .next { s.atTick t with modes := m' }
    let Nothing (cmd : Instr) : Prop := exec cmd s = .next (s.atTick t)
    (s.mgmt.kstate ≠ .running → Nothing (.powerTrigger t) ∧ Nothing (.powerTriggerEnd t))
    ∧ (s.mgmt.kstate = .running →
        With (.powerTrigger t) { m with power := true, quietSince := now, quietDone := false }
        ∧ (s.anyTrigger = true → With (.powerTriggerEnd t) { m with power := false, quietSince := now, quietDone := false })
        ∧ (s.anyTrigger = false → With (.powerTriggerEnd t) { m with power := false }))
    ∧ (let spent : Prop := s.anyTrigger = false
        ∧ (m.quietDone = true ∨ m.quietSince + secTicks (s.get Reg.MODE_CONSTRAIN Fd.MODE_CONSTRAIN.EXIT_S) ≤ now)
       (m.constrain = true → spent → With (.constrainExit t) { m with quietDone := true })
       ∧ (m.constrain = false ∨ ¬spent → Nothing (.constrainExit t)))
    ∧ (m.phase ≠ .draining ∨ m.bringup = true ∨ beatAtOrAfter s.clk.n (s.rd Reg.MODE_SEAL_DEADLINE) = false →
        Nothing (.sealDeadline t))
    ∧ (m.phase = .draining → m.bringup = false → beatAtOrAfter s.clk.n (s.rd Reg.MODE_SEAL_DEADLINE) = true →
        ((∀ c ∈ s.openChans, c.cfg.emergency = true) → Nothing (.sealDeadline t))
        ∧ exec (.sealDeadline t) s
            = .next (s.after t fun s => s.sealClose (s.openChans.filter fun c => !c.cfg.emergency)))
    ∧ (let spent : Prop := m.phase = .drained
        ∧ (m.holdDue = true ∨ m.drainedAt + secTicks (s.get Reg.MODE_SEAL_CFG Fd.MODE_SEAL_CFG.HOLD_S) ≤ now)
       (spent → With (.sealHoldExpiry t) { m with holdDue := true }) ∧ (¬spent → Nothing (.sealHoldExpiry t)))
    ∧ (let spent : Prop := m.phase = .wiping ∧ s.get Reg.MEM_STATE Fd.MEM_STATE.STATE ≠ 2
       (spent → ∃ u, exec (.sealWiped t) s = .next u ∧ u.modes = { m with phase := .sealed } ∧ u.Latched Pg.MODE Ev.MODE.SEAL_WIPED
         ∧ State.OnlyEvents { s.atTick t with modes := u.modes } u [])
       ∧ (¬spent → Nothing (.sealWiped t)))

/-- R21, outside BOOT and RECOVERY and, for the owner's writes, the SEALED phase. -/
def Obligations.UnmappedPages : Prop :=
  ∀ (s : State) (t : Nat) (p : Port) (a : Nat), s.up = true → s.linked p = true → a < 2 ^ 26 →
    mappedPages.contains (a / 0x1000) = false →
    (s.mgmt.kstate ≠ .boot →
      ∃ u, exec (.rcRead t p false a) s = .next u ∧ u.lastRead = 0
        ∧ { u with lastRead := s.lastRead, freeCtr := s.freeCtr } = s.atTick t)
    ∧ ∀ (size : Nat) (be : BitVec 8) (v : BitVec 64) (x : WriteIn), s.mgmt.kstate = .running ∨ s.mgmt.kstate = .restarting →
        s.ownedBy p = false ∨ s.modes.phase ≠ .sealed →
        let two : Prop := size = 8 ∧ a % 8 = 0 ∧ be = 0xFF
        ∃ u, exec (.registerWrite t p false a size be v x) s = .next u
          ∧ u.get Reg.DEV_BADACC Fd.DEV_BADACC.OFFSET = (if two then a + 4 else a)
          ∧ u.get Reg.DEV_BADACC Fd.DEV_BADACC.PORT = (if p = .b then 1 else 0)
          ∧ u.get Reg.DEV_BADACC_CNT Fd.DEV_BADACC_CNT.COUNT
              = min (s.get Reg.DEV_BADACC_CNT Fd.DEV_BADACC_CNT.COUNT + if two then 2 else 1) (2 ^ 32 - 1)
          ∧ u.Latched Pg.DEV Ev.DEV.BAD_ACCESS
          ∧ State.OnlyEvents (s.atTick t) u [Reg.DEV_BADACC, Reg.DEV_BADACC_CNT]

/-- REGISTER_WRITE, RC_READ and EVT_FORCE (R4, R20, R22 to R24, R27, R28, R31, R32, R578). -/
def Obligations.RegisterAccesses : Prop :=
  (∀ (s : State) (t : Nat) (p : Port) (a : Nat) (v : Word) (x : WriteIn), s.Serves p → a % 4 = 0 → a < 2 ^ 26 →
    let page := a / 0x1000
    let fs := fieldsAt a
    let Write (o : Host.Outcome State Fault Refusal) : Prop :=
      exec (.registerWrite t p false a 4 0xF (v.setWidth 64) x) s = o
    (page = Pg.DEV ∨ page = Pg.EVT ∨ (0x10 ≤ page ∧ page < 0x20) ∨ page = Pg.IO → 0x40 ≤ a % 0x1000 → fs ≠ [] →
        hasAcc a .rwt = false →
      (fieldsOk fs [.rw] v = true → Write (.next ((s.atTick t).wr a (mergeFields fs .rw (State.oneFields fs (s.rd a) v) v))))
      ∧ (fieldsOk fs [.rw] v = false → Write (.next ((s.atTick t).status page .badParam))))
    ∧ (mappedPages.contains page = true → s.absentMac page = false →
        (a = Reg.EVT_LATCH page → s.recent.at0 ≠ (s.clk.advance t).now → Write (.next ((s.atTick t).wr a (s.rd a &&& ~~~v))))
        ∧ (a = Reg.EVT_ROUTE page → page ≠ Pg.OWN →
            let badA : Prop := fieldOf v Fd.EVT_ROUTE.EN_A = 1 ∧ fieldOf v Fd.EVT_ROUTE.VEC_A = 0
            let badB : Prop := fieldOf v Fd.EVT_ROUTE.EN_B = 1 ∧ fieldOf v Fd.EVT_ROUTE.VEC_B = 0
            ∃ u, Write (.next u)
              ∧ u.get a Fd.EVT_ROUTE.EN_A = (if badA then 0 else fieldOf v Fd.EVT_ROUTE.EN_A)
              ∧ u.get a Fd.EVT_ROUTE.VEC_A = fieldOf v Fd.EVT_ROUTE.VEC_A
              ∧ u.get a Fd.EVT_ROUTE.EN_B = (if badB then 0 else fieldOf v Fd.EVT_ROUTE.EN_B)
              ∧ u.get a Fd.EVT_ROUTE.VEC_B = fieldOf v Fd.EVT_ROUTE.VEC_B
              ∧ (badA ∨ badB → u.Reports page .badParam)
              ∧ State.OnlyRegs (s.atTick t) u (if badA ∨ badB then [a, Reg.PAGE_STATUS page] else [a]))))
  ∧ (∀ (s : State) (t : Nat) (p : Port) (a : Nat) (v : BitVec 64) (x : WriteIn), s.up = true → a % 8 = 0 →
      exec (.registerWrite t p false a 8 0xFF v x) s
        = .next (s.after t fun s => (s.writeWord p a (v.setWidth 32) x).writeWord p (a + 4) ((v >>> 32).setWidth 32) x))
  ∧ (∀ (s : State) (t : Nat) (p : Port) (a : Nat) (v : BitVec 64) (x : WriteIn), s.up = true → s.linked p = true →
      s.mgmt.kstate = .running → s.ownedBy p = false → a % 4 = 0 → a < 2 ^ 26 → mappedPages.contains (a / 0x1000) = true →
      a ≠ Reg.OWN_CLAIM → a ≠ Reg.OWN_HEARTBEAT →
      ∃ u, exec (.registerWrite t p false a 4 0xF v x) s = .next u
        ∧ u.get (State.dropReg p) Fd.OWN_DROP_A.COUNT = min (s.get (State.dropReg p) Fd.OWN_DROP_A.COUNT + 1) (2 ^ 32 - 1)
        ∧ u.rd Reg.OWN_LAST_DROP = withBits (withBits (withBits 0 29 29 (if p = .b then 1 else 0)) 28 28 0) 25 0 a
        ∧ u.Latched Pg.OWN Ev.OWN.OBS_WRITE
        ∧ State.OnlyEvents (s.atTick t) u [State.dropReg p, Reg.OWN_LAST_DROP])
  ∧ (∀ (s : State) (t : Nat) (p : Port) (off : Nat) (v : Word) (x : WriteIn) (e : MsixEntry), s.up = true → s.linked p = true →
      s.mgmt.kstate = .running → 0x80000 ≤ off → off < 0x80400 → off % 4 = 0 →
      (s.msix p).table[(off - 0x80000) / 16]? = some e →
      ∃ u, exec (.registerWrite t p true off 4 0xF (v.setWidth 64) x) s = .next u
        ∧ (u.msix p).table[(off - 0x80000) / 16]? = some (State.msixEntryWrite e ((off - 0x80000) % 16 / 4) v)
        ∧ u.msix (otherPort p) = s.msix (otherPort p) ∧ State.OnlyEvents (s.atTick t) u [])
  ∧ (∀ (s : State) (t : Nat) (p : Port) (off : Nat), s.up = true → s.linked p = true → s.mgmt.kstate ≠ .boot →
      let a := off / 4 * 4
      a ≠ Reg.BEAT_NOW → a ≠ Reg.TIME_NOW_SEC_LO → a ≠ Reg.ARC_DONE0 → (∀ i, i < 8 → a ≠ Reg.PTIME_TSQ0 i) →
      ∃ u, exec (.rcRead t p false off) s = .next u ∧ u.lastRead = (s.atTick t).regWord p a
        ∧ (s.ownedBy p = false ∨ hasAcc a .rc = false → { u with lastRead := s.lastRead, freeCtr := s.freeCtr } = s.atTick t)
        ∧ (s.ownedBy p = true → hasAcc a .rc = true →
            { u with lastRead := s.lastRead, freeCtr := s.freeCtr } = (s.atTick t).wr a (State.clearRc (fieldsAt a) (s.rd a))))
  ∧ ∀ (s : State) (t : Nat) (p : Port) (page : Nat) (v : Word), s.Serves p → mappedPages.contains page = true →
      s.absentMac page = false →
      let a := Reg.EVT_LATCH page
      ∃ u, exec (.evtForce t p page v) s = .next u
        ∧ (page ≠ Pg.LOG → u.rd a = s.rd a ||| (v &&& State.sourceMask page))
        ∧ (∀ b, b < sourcesOf page → v.getLsbD b = true → u.Latched page b)
        ∧ State.OnlyEvents (s.atTick t) u [a]

/-- The clock (R6, R7, R51, R534): only a boundary moves the beat number on, and only a reset takes it back. -/
def Obligations.TimeGoesForward : Prop :=
  (∀ s u : State, s.clk.Sound → step s = .next u → u.clk.Sound)
  ∧ ∀ (c : Instr) (s u : State), exec c s = .next u →
      (u.clk.n = s.clk.n ∧ u.clk.at0 = s.clk.at0 ∧ u.clk.t0 = s.clk.t0 ∧ u.clk.started = s.clk.started
        ∧ (s.clk.Sound → s.clk.now ≤ u.clk.now))
      ∨ (∃ t inp, c = .beatBoundary t inp ∧ u.clk.started = true
          ∧ (s.clk.started = false → u.clk.n = 0)
          ∧ (s.clk.started = true → u.clk.n = s.clk.n + 1 ∧ u.clk.at0 = s.clk.at0 + beatTicks))
      ∨ (u.clk.started = false ∧ u.clk.n = 0 ∧ u.chans = [] ∧ u.own = Own.fresh ∧ u.modes = Modes.fresh)

/-- No command is refused (R534, R562): one stop, named; and nothing acts in OFF and RESET. -/
def Obligations.EveryCommandCompletes : Prop :=
  (∀ (c : Instr) (s : State), (∀ t, c = .vddAonReturn t → s.pwr.vddAon = true ∨ s.pwr.porn = false) →
    let power : Prop := (∃ t x, c = .porRelease t x) ∨ (∃ t, c = .porAssert t) ∨ (∃ t, c = .vddAonLoss t)
      ∨ (∃ t, c = .vddAonReturn t) ∨ ∃ t p h, c = .perstN t p h
    ∃ u, exec c s = .next u ∧ u.pending = s.pending ∧ (s.up = false → ¬power → ∃ t, u = s.atTick t))
  ∧ (∀ (t : Nat) (s : State), s.pwr.vddAon = false → s.pwr.porn = true → exec (.vddAonReturn t) s = .fault .outsideRatings)
  ∧ ∀ (c : Instr) (rest : List Instr) (s u : State), s.pending = c :: rest → step s = .next u → u.pending = rest
end

