-- ==== Sys2Proof/Laws/Assoc.lean ====
section
/-! SUPPORT. Laws of the finite maps that hold registers and other sparse data: a read after a write, and the canonical form
that every operation keeps. -/

namespace Sys2Proof.Machine

variable {α : Type}

/-- What a key holds after an insertion. -/
theorem Assoc.find?_insert (m : Assoc α) (k j : Nat) (v : α) :
    Assoc.find? j (Assoc.insert k v m) = if j = k then some v else Assoc.find? j m := by
  induction m with
  | nil => by_cases h : k = j <;> simp [Assoc.insert, Assoc.find?, h, eq_comm]
  | cons p rest ih =>
    obtain ⟨k', v'⟩ := p
    simp only [Assoc.insert]
    split
    · by_cases h : k = j <;> simp [Assoc.find?, h, eq_comm]
    · split
      · rename_i hk
        rw [← hk]
        by_cases h : k = j
        · simp [Assoc.find?, h]
        · simp [Assoc.find?, h, Ne.symm h]
      · simp only [Assoc.find?, ih]
        split <;> split <;> simp_all

/-- What a key holds after a removal. -/
theorem Assoc.find?_erase (m : Assoc α) (k j : Nat) :
    Assoc.find? j (Assoc.erase k m) = if j = k then none else Assoc.find? j m := by
  induction m with
  | nil => simp [Assoc.erase, Assoc.find?]
  | cons p rest ih =>
    obtain ⟨k', v'⟩ := p
    simp only [Assoc.erase, List.filter_cons] at ih ⊢
    by_cases h : k' = k
    · subst h
      simp only [ne_eq, not_true_eq_false, decide_false, Bool.false_eq_true, if_false, ih]
      by_cases h2 : j = k'
      · simp [h2]
      · simp [Assoc.find?, h2, Ne.symm h2]
    · simp only [ne_eq, h, not_false_eq_true, decide_true, if_true, Assoc.find?, ih]
      by_cases h2 : k' = j
      · subst h2; simp [h]
      · simp [h2]

/-- A read after a write: the written key has the written value, every other key its old one. -/
theorem Assoc.get_set [DecidableEq α] (d : Nat → α) (m : Assoc α) (k j : Nat) (v : α) :
    Assoc.get d (Assoc.set d m k v) j = if j = k then v else Assoc.get d m j := by
  unfold Assoc.get Assoc.set
  split
  · rw [Assoc.find?_erase]
    split <;> simp_all
  · rw [Assoc.find?_insert]
    split <;> simp_all

/-- A read of the key just written. -/
@[simp] theorem Assoc.get_set_same [DecidableEq α] (d : Nat → α) (m : Assoc α) (k : Nat) (v : α) :
    Assoc.get d (Assoc.set d m k v) k = v := by simp [Assoc.get_set]

/-- A read of another key. -/
theorem Assoc.get_set_ne [DecidableEq α] (d : Nat → α) (m : Assoc α) {k j : Nat} (v : α) (h : j ≠ k) :
    Assoc.get d (Assoc.set d m k v) j = Assoc.get d m j := by simp [Assoc.get_set, h]

/-- A change of the value under one listed key. -/
theorem Assoc.find?_modify (m : Assoc α) (k j : Nat) (f : α → α) :
    Assoc.find? j (Assoc.modify k f m) = if j = k then (Assoc.find? j m).map f else Assoc.find? j m := by
  induction m with
  | nil => simp [Assoc.modify, Assoc.find?]
  | cons p rest ih =>
    obtain ⟨k', v'⟩ := p
    simp only [Assoc.modify, List.map_cons] at ih ⊢
    by_cases h : k' = k
    · subst h
      by_cases h2 : k' = j
      · subst h2; simp [Assoc.find?]
      · simp [Assoc.find?, h2, ih, Ne.symm h2]
    · simp only [h, if_false, Assoc.find?, ih]
      by_cases h2 : k' = j
      · subst h2; simp [h]
      · simp [h2]

/-- The entries after an insertion are the new one or old ones. -/
theorem Assoc.mem_insert (m : Assoc α) (k : Nat) (v : α) (p : Nat × α) (h : p ∈ Assoc.insert k v m) :
    p = (k, v) ∨ p ∈ m := by
  induction m with
  | nil => simpa [Assoc.insert] using h
  | cons q rest ih =>
    obtain ⟨k', v'⟩ := q
    simp only [Assoc.insert] at h
    split at h
    · simpa using h
    · split at h
      · rcases List.mem_cons.mp h with h | h
        · exact Or.inl h
        · exact Or.inr (List.mem_cons_of_mem _ h)
      · rcases List.mem_cons.mp h with h | h
        · exact Or.inr (by simp [h])
        · exact (ih h).imp id (List.mem_cons_of_mem _)

/-- Insertion keeps the keys strictly rising. -/
theorem Assoc.sorted_insert (m : Assoc α) (k : Nat) (v : α) (h : Assoc.Sorted m) : Assoc.Sorted (Assoc.insert k v m) := by
  induction m with
  | nil => simp [Assoc.insert, Assoc.Sorted]
  | cons q rest ih =>
    obtain ⟨k', v'⟩ := q
    obtain ⟨h1, h2⟩ := List.pairwise_cons.mp h
    simp only [Assoc.insert]
    split
    · rename_i hk
      refine List.pairwise_cons.mpr ⟨?_, h⟩
      intro p hp
      rcases List.mem_cons.mp hp with rfl | hp
      · exact hk
      · exact Nat.lt_trans hk (h1 p hp)
    · split
      · rename_i hk
        subst hk
        exact List.pairwise_cons.mpr ⟨h1, h2⟩
      · refine List.pairwise_cons.mpr ⟨?_, ih h2⟩
        intro p hp
        rcases Assoc.mem_insert rest k v p hp with rfl | hp
        · simp only; omega
        · exact h1 p hp

/-- Removal keeps the keys strictly rising. -/
theorem Assoc.sorted_erase (m : Assoc α) (k : Nat) (h : Assoc.Sorted m) : Assoc.Sorted (Assoc.erase k m) :=
  List.Pairwise.filter _ h

/-- A write keeps the canonical form. -/
theorem Assoc.canonical_set [DecidableEq α] (d : Nat → α) (m : Assoc α) (k : Nat) (v : α) (h : Assoc.Canonical d m) :
    Assoc.Canonical d (Assoc.set d m k v) := by
  unfold Assoc.set
  split
  · exact ⟨Assoc.sorted_erase m k h.1, fun p hp => h.2 p (List.mem_of_mem_filter hp)⟩
  · rename_i hv
    refine ⟨Assoc.sorted_insert m k v h.1, fun p hp => ?_⟩
    rcases Assoc.mem_insert m k v p hp with rfl | hp
    · exact hv
    · exact h.2 p hp

/-- The empty map is canonical. -/
theorem Assoc.canonical_nil [DecidableEq α] (d : Nat → α) : Assoc.Canonical d ([] : Assoc α) := by
  simp [Assoc.Canonical, Assoc.Sorted]

/-- A list read past its end gives the default. -/
theorem getD_putAt {α : Type} (d : α) (l : List α) (i j : Nat) (x : α) :
    (putAt d l i x).getD j d = if j = i then x else l.getD j d := by
  unfold putAt
  simp only [List.getD_eq_getElem?_getD, List.getElem?_set, List.length_append, List.length_replicate]
  by_cases h : j = i
  · subst h
    have : j < l.length + (j + 1 - l.length) := by omega
    simp [this]
  · have h' : ¬ i = j := fun e => h e.symm
    simp only [h, h', if_false]
    by_cases hl : j < l.length
    · simp [List.getElem?_append_left hl]
    · rw [List.getElem?_append_right (by omega)]
      simp only [List.getElem?_replicate]
      split <;> simp [List.getElem?_eq_none (Nat.le_of_not_lt hl)]

end Sys2Proof.Machine
end

