-- ==== Sys2Proof/Laws/Bits.lean ====
section
/-! SUPPORT. Laws of bit fields: a field read after a field is written. -/

namespace Sys2Proof.Machine

/-- A number cut at a field: what lies above, the field, and what lies below. -/
theorem cut_field (n lo k : Nat) : n = n / 2 ^ (lo + k) * 2 ^ (lo + k) + n / 2 ^ lo % 2 ^ k * 2 ^ lo + n % 2 ^ lo := by
  have h1 := Nat.div_add_mod n (2 ^ lo)
  have h2 := Nat.div_add_mod (n / 2 ^ lo) (2 ^ k)
  rw [Nat.div_div_eq_div_mul, ← pow_add] at h2
  have h3 : 2 ^ (lo + k) = 2 ^ lo * 2 ^ k := pow_add 2 lo k
  calc n = 2 ^ lo * (n / 2 ^ lo) + n % 2 ^ lo := h1.symm
    _ = 2 ^ lo * (2 ^ k * (n / 2 ^ (lo + k)) + n / 2 ^ lo % 2 ^ k) + n % 2 ^ lo := by rw [h2]
    _ = _ := by rw [h3]; ring

/-- A field of a number put together from three parts. -/
theorem field_of_parts (a v b lo k : Nat) (hv : v < 2 ^ k) (hb : b < 2 ^ lo) :
    (a * 2 ^ (lo + k) + v * 2 ^ lo + b) / 2 ^ lo % 2 ^ k = v := by
  have h3 : 2 ^ (lo + k) = 2 ^ k * 2 ^ lo := by rw [pow_add, Nat.mul_comm]
  have h : (a * 2 ^ (lo + k) + v * 2 ^ lo + b) = b + (a * 2 ^ k + v) * 2 ^ lo := by rw [h3]; ring
  rw [h, Nat.add_mul_div_right _ _ (Nat.two_pow_pos lo), Nat.div_eq_of_lt hb, Nat.zero_add,
    Nat.mul_comm, Nat.mul_add_mod, Nat.mod_eq_of_lt hv]

/-- The number behind a word with a field replaced. -/
theorem withBits_toNat (w : Word) (hi lo v : Nat) (h : lo ≤ hi) (h2 : hi < 32) :
    (withBits w hi lo v).toNat
      = w.toNat / 2 ^ (hi + 1) * 2 ^ (hi + 1) + v % 2 ^ (hi + 1 - lo) * 2 ^ lo + w.toNat % 2 ^ lo := by
  obtain ⟨k, e0⟩ : ∃ k, hi + 1 = lo + k := ⟨hi + 1 - lo, by omega⟩
  rw [withBits, e0]
  have hk : lo + k - lo = k := by omega
  have hc := cut_field w.toNat lo k
  have hw : w.toNat < 2 ^ 32 := w.isLt
  have ha : w.toNat / 2 ^ (lo + k) < 2 ^ (32 - (lo + k)) := by
    rw [Nat.div_lt_iff_lt_mul (Nat.two_pow_pos _), ← pow_add]
    convert hw using 2
    omega
  have hv : v % 2 ^ k < 2 ^ k := Nat.mod_lt _ (Nat.two_pow_pos k)
  have hb : w.toNat % 2 ^ lo < 2 ^ lo := Nat.mod_lt _ (Nat.two_pow_pos lo)
  have hlt : w.toNat / 2 ^ (lo + k) * 2 ^ (lo + k) + v % 2 ^ k * 2 ^ lo + w.toNat % 2 ^ lo < 2 ^ 32 := by
    have e1 : (v % 2 ^ k) * 2 ^ lo + w.toNat % 2 ^ lo < 2 ^ (lo + k) := by
      calc (v % 2 ^ k) * 2 ^ lo + w.toNat % 2 ^ lo < (v % 2 ^ k) * 2 ^ lo + 2 ^ lo := by omega
        _ = (v % 2 ^ k + 1) * 2 ^ lo := by ring
        _ ≤ 2 ^ k * 2 ^ lo := Nat.mul_le_mul_right _ hv
        _ = 2 ^ (lo + k) := by rw [pow_add, Nat.mul_comm]
    calc _ < w.toNat / 2 ^ (lo + k) * 2 ^ (lo + k) + 2 ^ (lo + k) := by omega
      _ = (w.toNat / 2 ^ (lo + k) + 1) * 2 ^ (lo + k) := by ring
      _ ≤ 2 ^ (32 - (lo + k)) * 2 ^ (lo + k) := Nat.mul_le_mul_right _ ha
      _ = 2 ^ 32 := by rw [← pow_add]; congr 1; omega
  simp only [Word.of, BitVec.toNat_ofNat]
  rw [hk, Nat.and_two_pow_sub_one_eq_mod, Nat.shiftRight_eq_div_pow]
  have e : w.toNat - w.toNat / 2 ^ lo % 2 ^ k * 2 ^ lo + v % 2 ^ k * 2 ^ lo
      = w.toNat / 2 ^ (lo + k) * 2 ^ (lo + k) + v % 2 ^ k * 2 ^ lo + w.toNat % 2 ^ lo := by omega
  rw [e, Nat.mod_eq_of_lt hlt]

/-- A field read back holds the low bits of what was written. -/
theorem bitsOf_withBits (w : Word) (hi lo v : Nat) (h : lo ≤ hi) (h2 : hi < 32) :
    bitsOf (withBits w hi lo v) hi lo = v % 2 ^ (hi + 1 - lo) := by
  rw [bitsOf, withBits_toNat w hi lo v h h2, Nat.shiftRight_eq_div_pow]
  obtain ⟨k, hk⟩ : ∃ k, hi + 1 = lo + k := ⟨hi + 1 - lo, by omega⟩
  rw [hk, show lo + k - lo = k by omega]
  exact field_of_parts _ _ _ _ _ (Nat.mod_lt _ (Nat.two_pow_pos k)) (Nat.mod_lt _ (Nat.two_pow_pos lo))

/-- Two numbers with the same bits outside a field agree on every field apart from it. -/
theorem bitsOf_withBits_ne (w : Word) (hi lo v hi' lo' : Nat) (h : lo ≤ hi) (h2 : hi < 32) (h3 : hi < lo' ∨ hi' < lo)
    (h4 : lo' ≤ hi') : bitsOf (withBits w hi lo v) hi' lo' = bitsOf w hi' lo' := by
  rw [bitsOf, bitsOf, withBits_toNat w hi lo v h h2, Nat.shiftRight_eq_div_pow, Nat.shiftRight_eq_div_pow]
  obtain ⟨k, hk⟩ : ∃ k, hi + 1 = lo + k := ⟨hi + 1 - lo, by omega⟩
  obtain ⟨k', hk'⟩ : ∃ k', hi' + 1 = lo' + k' := ⟨hi' + 1 - lo', by omega⟩
  rw [hk, hk', show lo + k - lo = k by omega, show lo' + k' - lo' = k' by omega]
  have hv : v % 2 ^ k < 2 ^ k := Nat.mod_lt _ (Nat.two_pow_pos k)
  have hb : w.toNat % 2 ^ lo < 2 ^ lo := Nat.mod_lt _ (Nat.two_pow_pos lo)
  have e1 : (v % 2 ^ k) * 2 ^ lo + w.toNat % 2 ^ lo < 2 ^ (lo + k) := by
    calc (v % 2 ^ k) * 2 ^ lo + w.toNat % 2 ^ lo < (v % 2 ^ k) * 2 ^ lo + 2 ^ lo := by omega
      _ = (v % 2 ^ k + 1) * 2 ^ lo := by ring
      _ ≤ 2 ^ k * 2 ^ lo := Nat.mul_le_mul_right _ hv
      _ = 2 ^ (lo + k) := by rw [pow_add, Nat.mul_comm]
  rcases h3 with h3 | h3
  · obtain ⟨d, hd⟩ : ∃ d, lo' = lo + k + d := ⟨lo' - (lo + k), by omega⟩
    rw [hd]
    have key : ∀ r, r < 2 ^ (lo + k) → (w.toNat / 2 ^ (lo + k) * 2 ^ (lo + k) + r) / 2 ^ (lo + k + d) = w.toNat / 2 ^ (lo + k) / 2 ^ d := by
      intro r hr
      rw [pow_add 2 (lo + k) d, ← Nat.div_div_eq_div_mul, Nat.add_comm, Nat.add_mul_div_right _ _ (Nat.two_pow_pos _),
        Nat.div_eq_of_lt hr, Nat.zero_add]
    rw [Nat.add_assoc, key _ e1, Nat.div_div_eq_div_mul, ← pow_add]
  · obtain ⟨d, hd⟩ : ∃ d, lo = lo' + k' + d := ⟨lo - (lo' + k'), by omega⟩
    have e2 : ∀ n c, (c * 2 ^ lo + n % 2 ^ lo) / 2 ^ lo' % 2 ^ k' = n / 2 ^ lo' % 2 ^ k' := by
      intro n c
      have g : ∀ x : Nat, x / 2 ^ lo' % 2 ^ k' = x % 2 ^ (lo' + k') / 2 ^ lo' := by
        intro x
        rw [pow_add, Nat.mod_mul_right_div_self]
      rw [g, g n]
      congr 1
      rw [hd, Nat.add_assoc lo' k' d, ← Nat.add_assoc, pow_add, Nat.add_mod, show c * (2 ^ (lo' + k') * 2 ^ d) = c * 2 ^ d * 2 ^ (lo' + k') by ring]
      rw [Nat.mul_mod_left, Nat.zero_add, Nat.mod_mod, Nat.mod_mul_right_mod]
    have e3 : w.toNat / 2 ^ (lo + k) * 2 ^ (lo + k) + v % 2 ^ k * 2 ^ lo + w.toNat % 2 ^ lo
        = (w.toNat / 2 ^ (lo + k) * 2 ^ k + v % 2 ^ k) * 2 ^ lo + w.toNat % 2 ^ lo := by
      rw [pow_add]; ring
    rw [e3, e2]

/-- A field is below its range. -/
theorem bitsOf_lt (w : Word) (hi lo : Nat) : bitsOf w hi lo < 2 ^ (hi + 1 - lo) := Nat.mod_lt _ (Nat.two_pow_pos _)

end Sys2Proof.Machine
end

