-- ==== Sys2Proof/Laws/State.lean ====
section
/-! SUPPORT. What the named updates of the state leave alone and what they set, field by field, so that no later proof unfolds a
record update. -/

namespace Sys2Proof.Machine.State

@[simp] theorem wr_clk (s : State) (a : Nat) (w : Word) : (s.wr a w).clk = s.clk := rfl
@[simp] theorem wr_pwr (s : State) (a : Nat) (w : Word) : (s.wr a w).pwr = s.pwr := rfl
@[simp] theorem wr_cfgs (s : State) (a : Nat) (w : Word) : (s.wr a w).cfgs = s.cfgs := rfl
@[simp] theorem wr_own (s : State) (a : Nat) (w : Word) : (s.wr a w).own = s.own := rfl
@[simp] theorem wr_msixA (s : State) (a : Nat) (w : Word) : (s.wr a w).msixA = s.msixA := rfl
@[simp] theorem wr_msixB (s : State) (a : Nat) (w : Word) : (s.wr a w).msixB = s.msixB := rfl
@[simp] theorem wr_out (s : State) (a : Nat) (w : Word) : (s.wr a w).out = s.out := rfl
@[simp] theorem wr_recent (s : State) (a : Nat) (w : Word) : (s.wr a w).recent = s.recent := rfl
@[simp] theorem wr_lastRead (s : State) (a : Nat) (w : Word) : (s.wr a w).lastRead = s.lastRead := rfl
@[simp] theorem wr_timeSnapA (s : State) (a : Nat) (w : Word) : (s.wr a w).timeSnapA = s.timeSnapA := rfl
@[simp] theorem wr_timeSnapB (s : State) (a : Nat) (w : Word) : (s.wr a w).timeSnapB = s.timeSnapB := rfl
@[simp] theorem wr_txns (s : State) (a : Nat) (w : Word) : (s.wr a w).txns = s.txns := rfl
@[simp] theorem wr_net (s : State) (a : Nat) (w : Word) : (s.wr a w).net = s.net := rfl
@[simp] theorem wr_pgs (s : State) (a : Nat) (w : Word) : (s.wr a w).pgs = s.pgs := rfl
@[simp] theorem wr_gates (s : State) (a : Nat) (w : Word) : (s.wr a w).gates = s.gates := rfl
@[simp] theorem wr_tsq (s : State) (a : Nat) (w : Word) : (s.wr a w).tsq = s.tsq := rfl
@[simp] theorem wr_refs (s : State) (a : Nat) (w : Word) : (s.wr a w).refs = s.refs := rfl
@[simp] theorem wr_log (s : State) (a : Nat) (w : Word) : (s.wr a w).log = s.log := rfl
@[simp] theorem wr_mgmt (s : State) (a : Nat) (w : Word) : (s.wr a w).mgmt = s.mgmt := rfl
@[simp] theorem wr_sens (s : State) (a : Nat) (w : Word) : (s.wr a w).sens = s.sens := rfl
@[simp] theorem wr_modes (s : State) (a : Nat) (w : Word) : (s.wr a w).modes = s.modes := rfl
@[simp] theorem wr_clusters (s : State) (a : Nat) (w : Word) : (s.wr a w).clusters = s.clusters := rfl
@[simp] theorem wr_disp (s : State) (a : Nat) (w : Word) : (s.wr a w).disp = s.disp := rfl
@[simp] theorem wr_trace (s : State) (a : Nat) (w : Word) : (s.wr a w).trace = s.trace := rfl
@[simp] theorem wr_spares (s : State) (a : Nat) (w : Word) : (s.wr a w).spares = s.spares := rfl
@[simp] theorem wr_chans (s : State) (a : Nat) (w : Word) : (s.wr a w).chans = s.chans := rfl
@[simp] theorem wr_closing (s : State) (a : Nat) (w : Word) : (s.wr a w).closing = s.closing := rfl
@[simp] theorem wr_nextUid (s : State) (a : Nat) (w : Word) : (s.wr a w).nextUid = s.nextUid := rfl
@[simp] theorem wr_nw (s : State) (a : Nat) (w : Word) : (s.wr a w).nw = s.nw := rfl
@[simp] theorem wr_mem (s : State) (a : Nat) (w : Word) : (s.wr a w).mem = s.mem := rfl
@[simp] theorem wr_arc (s : State) (a : Nat) (w : Word) : (s.wr a w).arc = s.arc := rfl
@[simp] theorem wr_snaps (s : State) (a : Nat) (w : Word) : (s.wr a w).snaps = s.snaps := rfl
@[simp] theorem wr_freeCtr (s : State) (a : Nat) (w : Word) : (s.wr a w).freeCtr = s.freeCtr := rfl
@[simp] theorem wr_pending (s : State) (a : Nat) (w : Word) : (s.wr a w).pending = s.pending := rfl

@[simp] theorem put_clk (s : State) (a : Nat) (f : Fd) (v : Nat) : (s.put a f v).clk = s.clk := rfl
@[simp] theorem put_pwr (s : State) (a : Nat) (f : Fd) (v : Nat) : (s.put a f v).pwr = s.pwr := rfl
@[simp] theorem put_cfgs (s : State) (a : Nat) (f : Fd) (v : Nat) : (s.put a f v).cfgs = s.cfgs := rfl
@[simp] theorem put_own (s : State) (a : Nat) (f : Fd) (v : Nat) : (s.put a f v).own = s.own := rfl
@[simp] theorem put_msixA (s : State) (a : Nat) (f : Fd) (v : Nat) : (s.put a f v).msixA = s.msixA := rfl
@[simp] theorem put_msixB (s : State) (a : Nat) (f : Fd) (v : Nat) : (s.put a f v).msixB = s.msixB := rfl
@[simp] theorem put_out (s : State) (a : Nat) (f : Fd) (v : Nat) : (s.put a f v).out = s.out := rfl
@[simp] theorem put_recent (s : State) (a : Nat) (f : Fd) (v : Nat) : (s.put a f v).recent = s.recent := rfl
@[simp] theorem put_lastRead (s : State) (a : Nat) (f : Fd) (v : Nat) : (s.put a f v).lastRead = s.lastRead := rfl
@[simp] theorem put_timeSnapA (s : State) (a : Nat) (f : Fd) (v : Nat) : (s.put a f v).timeSnapA = s.timeSnapA := rfl
@[simp] theorem put_timeSnapB (s : State) (a : Nat) (f : Fd) (v : Nat) : (s.put a f v).timeSnapB = s.timeSnapB := rfl
@[simp] theorem put_txns (s : State) (a : Nat) (f : Fd) (v : Nat) : (s.put a f v).txns = s.txns := rfl
@[simp] theorem put_net (s : State) (a : Nat) (f : Fd) (v : Nat) : (s.put a f v).net = s.net := rfl
@[simp] theorem put_pgs (s : State) (a : Nat) (f : Fd) (v : Nat) : (s.put a f v).pgs = s.pgs := rfl
@[simp] theorem put_gates (s : State) (a : Nat) (f : Fd) (v : Nat) : (s.put a f v).gates = s.gates := rfl
@[simp] theorem put_tsq (s : State) (a : Nat) (f : Fd) (v : Nat) : (s.put a f v).tsq = s.tsq := rfl
@[simp] theorem put_refs (s : State) (a : Nat) (f : Fd) (v : Nat) : (s.put a f v).refs = s.refs := rfl
@[simp] theorem put_log (s : State) (a : Nat) (f : Fd) (v : Nat) : (s.put a f v).log = s.log := rfl
@[simp] theorem put_mgmt (s : State) (a : Nat) (f : Fd) (v : Nat) : (s.put a f v).mgmt = s.mgmt := rfl
@[simp] theorem put_sens (s : State) (a : Nat) (f : Fd) (v : Nat) : (s.put a f v).sens = s.sens := rfl
@[simp] theorem put_modes (s : State) (a : Nat) (f : Fd) (v : Nat) : (s.put a f v).modes = s.modes := rfl
@[simp] theorem put_clusters (s : State) (a : Nat) (f : Fd) (v : Nat) : (s.put a f v).clusters = s.clusters := rfl
@[simp] theorem put_disp (s : State) (a : Nat) (f : Fd) (v : Nat) : (s.put a f v).disp = s.disp := rfl
@[simp] theorem put_trace (s : State) (a : Nat) (f : Fd) (v : Nat) : (s.put a f v).trace = s.trace := rfl
@[simp] theorem put_spares (s : State) (a : Nat) (f : Fd) (v : Nat) : (s.put a f v).spares = s.spares := rfl
@[simp] theorem put_chans (s : State) (a : Nat) (f : Fd) (v : Nat) : (s.put a f v).chans = s.chans := rfl
@[simp] theorem put_closing (s : State) (a : Nat) (f : Fd) (v : Nat) : (s.put a f v).closing = s.closing := rfl
@[simp] theorem put_nextUid (s : State) (a : Nat) (f : Fd) (v : Nat) : (s.put a f v).nextUid = s.nextUid := rfl
@[simp] theorem put_nw (s : State) (a : Nat) (f : Fd) (v : Nat) : (s.put a f v).nw = s.nw := rfl
@[simp] theorem put_mem (s : State) (a : Nat) (f : Fd) (v : Nat) : (s.put a f v).mem = s.mem := rfl
@[simp] theorem put_arc (s : State) (a : Nat) (f : Fd) (v : Nat) : (s.put a f v).arc = s.arc := rfl
@[simp] theorem put_snaps (s : State) (a : Nat) (f : Fd) (v : Nat) : (s.put a f v).snaps = s.snaps := rfl
@[simp] theorem put_freeCtr (s : State) (a : Nat) (f : Fd) (v : Nat) : (s.put a f v).freeCtr = s.freeCtr := rfl
@[simp] theorem put_pending (s : State) (a : Nat) (f : Fd) (v : Nat) : (s.put a f v).pending = s.pending := rfl

@[simp] theorem putB_clk (s : State) (a : Nat) (f : Fd) (b : Bool) : (s.putB a f b).clk = s.clk := rfl
@[simp] theorem putB_pwr (s : State) (a : Nat) (f : Fd) (b : Bool) : (s.putB a f b).pwr = s.pwr := rfl
@[simp] theorem putB_cfgs (s : State) (a : Nat) (f : Fd) (b : Bool) : (s.putB a f b).cfgs = s.cfgs := rfl
@[simp] theorem putB_own (s : State) (a : Nat) (f : Fd) (b : Bool) : (s.putB a f b).own = s.own := rfl
@[simp] theorem putB_msixA (s : State) (a : Nat) (f : Fd) (b : Bool) : (s.putB a f b).msixA = s.msixA := rfl
@[simp] theorem putB_msixB (s : State) (a : Nat) (f : Fd) (b : Bool) : (s.putB a f b).msixB = s.msixB := rfl
@[simp] theorem putB_out (s : State) (a : Nat) (f : Fd) (b : Bool) : (s.putB a f b).out = s.out := rfl
@[simp] theorem putB_recent (s : State) (a : Nat) (f : Fd) (b : Bool) : (s.putB a f b).recent = s.recent := rfl
@[simp] theorem putB_lastRead (s : State) (a : Nat) (f : Fd) (b : Bool) : (s.putB a f b).lastRead = s.lastRead := rfl
@[simp] theorem putB_timeSnapA (s : State) (a : Nat) (f : Fd) (b : Bool) : (s.putB a f b).timeSnapA = s.timeSnapA := rfl
@[simp] theorem putB_timeSnapB (s : State) (a : Nat) (f : Fd) (b : Bool) : (s.putB a f b).timeSnapB = s.timeSnapB := rfl
@[simp] theorem putB_txns (s : State) (a : Nat) (f : Fd) (b : Bool) : (s.putB a f b).txns = s.txns := rfl
@[simp] theorem putB_net (s : State) (a : Nat) (f : Fd) (b : Bool) : (s.putB a f b).net = s.net := rfl
@[simp] theorem putB_pgs (s : State) (a : Nat) (f : Fd) (b : Bool) : (s.putB a f b).pgs = s.pgs := rfl
@[simp] theorem putB_gates (s : State) (a : Nat) (f : Fd) (b : Bool) : (s.putB a f b).gates = s.gates := rfl
@[simp] theorem putB_tsq (s : State) (a : Nat) (f : Fd) (b : Bool) : (s.putB a f b).tsq = s.tsq := rfl
@[simp] theorem putB_refs (s : State) (a : Nat) (f : Fd) (b : Bool) : (s.putB a f b).refs = s.refs := rfl
@[simp] theorem putB_log (s : State) (a : Nat) (f : Fd) (b : Bool) : (s.putB a f b).log = s.log := rfl
@[simp] theorem putB_mgmt (s : State) (a : Nat) (f : Fd) (b : Bool) : (s.putB a f b).mgmt = s.mgmt := rfl
@[simp] theorem putB_sens (s : State) (a : Nat) (f : Fd) (b : Bool) : (s.putB a f b).sens = s.sens := rfl
@[simp] theorem putB_modes (s : State) (a : Nat) (f : Fd) (b : Bool) : (s.putB a f b).modes = s.modes := rfl
@[simp] theorem putB_clusters (s : State) (a : Nat) (f : Fd) (b : Bool) : (s.putB a f b).clusters = s.clusters := rfl
@[simp] theorem putB_disp (s : State) (a : Nat) (f : Fd) (b : Bool) : (s.putB a f b).disp = s.disp := rfl
@[simp] theorem putB_trace (s : State) (a : Nat) (f : Fd) (b : Bool) : (s.putB a f b).trace = s.trace := rfl
@[simp] theorem putB_spares (s : State) (a : Nat) (f : Fd) (b : Bool) : (s.putB a f b).spares = s.spares := rfl
@[simp] theorem putB_chans (s : State) (a : Nat) (f : Fd) (b : Bool) : (s.putB a f b).chans = s.chans := rfl
@[simp] theorem putB_closing (s : State) (a : Nat) (f : Fd) (b : Bool) : (s.putB a f b).closing = s.closing := rfl
@[simp] theorem putB_nextUid (s : State) (a : Nat) (f : Fd) (b : Bool) : (s.putB a f b).nextUid = s.nextUid := rfl
@[simp] theorem putB_nw (s : State) (a : Nat) (f : Fd) (b : Bool) : (s.putB a f b).nw = s.nw := rfl
@[simp] theorem putB_mem (s : State) (a : Nat) (f : Fd) (b : Bool) : (s.putB a f b).mem = s.mem := rfl
@[simp] theorem putB_arc (s : State) (a : Nat) (f : Fd) (b : Bool) : (s.putB a f b).arc = s.arc := rfl
@[simp] theorem putB_snaps (s : State) (a : Nat) (f : Fd) (b : Bool) : (s.putB a f b).snaps = s.snaps := rfl
@[simp] theorem putB_freeCtr (s : State) (a : Nat) (f : Fd) (b : Bool) : (s.putB a f b).freeCtr = s.freeCtr := rfl
@[simp] theorem putB_pending (s : State) (a : Nat) (f : Fd) (b : Bool) : (s.putB a f b).pending = s.pending := rfl

@[simp] theorem putI_clk (s : State) (a : Nat) (f : Fd) (v : Int) : (s.putI a f v).clk = s.clk := rfl
@[simp] theorem putI_pwr (s : State) (a : Nat) (f : Fd) (v : Int) : (s.putI a f v).pwr = s.pwr := rfl
@[simp] theorem putI_cfgs (s : State) (a : Nat) (f : Fd) (v : Int) : (s.putI a f v).cfgs = s.cfgs := rfl
@[simp] theorem putI_own (s : State) (a : Nat) (f : Fd) (v : Int) : (s.putI a f v).own = s.own := rfl
@[simp] theorem putI_msixA (s : State) (a : Nat) (f : Fd) (v : Int) : (s.putI a f v).msixA = s.msixA := rfl
@[simp] theorem putI_msixB (s : State) (a : Nat) (f : Fd) (v : Int) : (s.putI a f v).msixB = s.msixB := rfl
@[simp] theorem putI_out (s : State) (a : Nat) (f : Fd) (v : Int) : (s.putI a f v).out = s.out := rfl
@[simp] theorem putI_recent (s : State) (a : Nat) (f : Fd) (v : Int) : (s.putI a f v).recent = s.recent := rfl
@[simp] theorem putI_lastRead (s : State) (a : Nat) (f : Fd) (v : Int) : (s.putI a f v).lastRead = s.lastRead := rfl
@[simp] theorem putI_timeSnapA (s : State) (a : Nat) (f : Fd) (v : Int) : (s.putI a f v).timeSnapA = s.timeSnapA := rfl
@[simp] theorem putI_timeSnapB (s : State) (a : Nat) (f : Fd) (v : Int) : (s.putI a f v).timeSnapB = s.timeSnapB := rfl
@[simp] theorem putI_txns (s : State) (a : Nat) (f : Fd) (v : Int) : (s.putI a f v).txns = s.txns := rfl
@[simp] theorem putI_net (s : State) (a : Nat) (f : Fd) (v : Int) : (s.putI a f v).net = s.net := rfl
@[simp] theorem putI_pgs (s : State) (a : Nat) (f : Fd) (v : Int) : (s.putI a f v).pgs = s.pgs := rfl
@[simp] theorem putI_gates (s : State) (a : Nat) (f : Fd) (v : Int) : (s.putI a f v).gates = s.gates := rfl
@[simp] theorem putI_tsq (s : State) (a : Nat) (f : Fd) (v : Int) : (s.putI a f v).tsq = s.tsq := rfl
@[simp] theorem putI_refs (s : State) (a : Nat) (f : Fd) (v : Int) : (s.putI a f v).refs = s.refs := rfl
@[simp] theorem putI_log (s : State) (a : Nat) (f : Fd) (v : Int) : (s.putI a f v).log = s.log := rfl
@[simp] theorem putI_mgmt (s : State) (a : Nat) (f : Fd) (v : Int) : (s.putI a f v).mgmt = s.mgmt := rfl
@[simp] theorem putI_sens (s : State) (a : Nat) (f : Fd) (v : Int) : (s.putI a f v).sens = s.sens := rfl
@[simp] theorem putI_modes (s : State) (a : Nat) (f : Fd) (v : Int) : (s.putI a f v).modes = s.modes := rfl
@[simp] theorem putI_clusters (s : State) (a : Nat) (f : Fd) (v : Int) : (s.putI a f v).clusters = s.clusters := rfl
@[simp] theorem putI_disp (s : State) (a : Nat) (f : Fd) (v : Int) : (s.putI a f v).disp = s.disp := rfl
@[simp] theorem putI_trace (s : State) (a : Nat) (f : Fd) (v : Int) : (s.putI a f v).trace = s.trace := rfl
@[simp] theorem putI_spares (s : State) (a : Nat) (f : Fd) (v : Int) : (s.putI a f v).spares = s.spares := rfl
@[simp] theorem putI_chans (s : State) (a : Nat) (f : Fd) (v : Int) : (s.putI a f v).chans = s.chans := rfl
@[simp] theorem putI_closing (s : State) (a : Nat) (f : Fd) (v : Int) : (s.putI a f v).closing = s.closing := rfl
@[simp] theorem putI_nextUid (s : State) (a : Nat) (f : Fd) (v : Int) : (s.putI a f v).nextUid = s.nextUid := rfl
@[simp] theorem putI_nw (s : State) (a : Nat) (f : Fd) (v : Int) : (s.putI a f v).nw = s.nw := rfl
@[simp] theorem putI_mem (s : State) (a : Nat) (f : Fd) (v : Int) : (s.putI a f v).mem = s.mem := rfl
@[simp] theorem putI_arc (s : State) (a : Nat) (f : Fd) (v : Int) : (s.putI a f v).arc = s.arc := rfl
@[simp] theorem putI_snaps (s : State) (a : Nat) (f : Fd) (v : Int) : (s.putI a f v).snaps = s.snaps := rfl
@[simp] theorem putI_freeCtr (s : State) (a : Nat) (f : Fd) (v : Int) : (s.putI a f v).freeCtr = s.freeCtr := rfl
@[simp] theorem putI_pending (s : State) (a : Nat) (f : Fd) (v : Int) : (s.putI a f v).pending = s.pending := rfl

@[simp] theorem inc_clk (s : State) (a : Nat) (f : Fd) (d : Nat) : (s.inc a f d).clk = s.clk := rfl
@[simp] theorem inc_pwr (s : State) (a : Nat) (f : Fd) (d : Nat) : (s.inc a f d).pwr = s.pwr := rfl
@[simp] theorem inc_cfgs (s : State) (a : Nat) (f : Fd) (d : Nat) : (s.inc a f d).cfgs = s.cfgs := rfl
@[simp] theorem inc_own (s : State) (a : Nat) (f : Fd) (d : Nat) : (s.inc a f d).own = s.own := rfl
@[simp] theorem inc_msixA (s : State) (a : Nat) (f : Fd) (d : Nat) : (s.inc a f d).msixA = s.msixA := rfl
@[simp] theorem inc_msixB (s : State) (a : Nat) (f : Fd) (d : Nat) : (s.inc a f d).msixB = s.msixB := rfl
@[simp] theorem inc_out (s : State) (a : Nat) (f : Fd) (d : Nat) : (s.inc a f d).out = s.out := rfl
@[simp] theorem inc_recent (s : State) (a : Nat) (f : Fd) (d : Nat) : (s.inc a f d).recent = s.recent := rfl
@[simp] theorem inc_lastRead (s : State) (a : Nat) (f : Fd) (d : Nat) : (s.inc a f d).lastRead = s.lastRead := rfl
@[simp] theorem inc_timeSnapA (s : State) (a : Nat) (f : Fd) (d : Nat) : (s.inc a f d).timeSnapA = s.timeSnapA := rfl
@[simp] theorem inc_timeSnapB (s : State) (a : Nat) (f : Fd) (d : Nat) : (s.inc a f d).timeSnapB = s.timeSnapB := rfl
@[simp] theorem inc_txns (s : State) (a : Nat) (f : Fd) (d : Nat) : (s.inc a f d).txns = s.txns := rfl
@[simp] theorem inc_net (s : State) (a : Nat) (f : Fd) (d : Nat) : (s.inc a f d).net = s.net := rfl
@[simp] theorem inc_pgs (s : State) (a : Nat) (f : Fd) (d : Nat) : (s.inc a f d).pgs = s.pgs := rfl
@[simp] theorem inc_gates (s : State) (a : Nat) (f : Fd) (d : Nat) : (s.inc a f d).gates = s.gates := rfl
@[simp] theorem inc_tsq (s : State) (a : Nat) (f : Fd) (d : Nat) : (s.inc a f d).tsq = s.tsq := rfl
@[simp] theorem inc_refs (s : State) (a : Nat) (f : Fd) (d : Nat) : (s.inc a f d).refs = s.refs := rfl
@[simp] theorem inc_log (s : State) (a : Nat) (f : Fd) (d : Nat) : (s.inc a f d).log = s.log := rfl
@[simp] theorem inc_mgmt (s : State) (a : Nat) (f : Fd) (d : Nat) : (s.inc a f d).mgmt = s.mgmt := rfl
@[simp] theorem inc_sens (s : State) (a : Nat) (f : Fd) (d : Nat) : (s.inc a f d).sens = s.sens := rfl
@[simp] theorem inc_modes (s : State) (a : Nat) (f : Fd) (d : Nat) : (s.inc a f d).modes = s.modes := rfl
@[simp] theorem inc_clusters (s : State) (a : Nat) (f : Fd) (d : Nat) : (s.inc a f d).clusters = s.clusters := rfl
@[simp] theorem inc_disp (s : State) (a : Nat) (f : Fd) (d : Nat) : (s.inc a f d).disp = s.disp := rfl
@[simp] theorem inc_trace (s : State) (a : Nat) (f : Fd) (d : Nat) : (s.inc a f d).trace = s.trace := rfl
@[simp] theorem inc_spares (s : State) (a : Nat) (f : Fd) (d : Nat) : (s.inc a f d).spares = s.spares := rfl
@[simp] theorem inc_chans (s : State) (a : Nat) (f : Fd) (d : Nat) : (s.inc a f d).chans = s.chans := rfl
@[simp] theorem inc_closing (s : State) (a : Nat) (f : Fd) (d : Nat) : (s.inc a f d).closing = s.closing := rfl
@[simp] theorem inc_nextUid (s : State) (a : Nat) (f : Fd) (d : Nat) : (s.inc a f d).nextUid = s.nextUid := rfl
@[simp] theorem inc_nw (s : State) (a : Nat) (f : Fd) (d : Nat) : (s.inc a f d).nw = s.nw := rfl
@[simp] theorem inc_mem (s : State) (a : Nat) (f : Fd) (d : Nat) : (s.inc a f d).mem = s.mem := rfl
@[simp] theorem inc_arc (s : State) (a : Nat) (f : Fd) (d : Nat) : (s.inc a f d).arc = s.arc := rfl
@[simp] theorem inc_snaps (s : State) (a : Nat) (f : Fd) (d : Nat) : (s.inc a f d).snaps = s.snaps := rfl
@[simp] theorem inc_freeCtr (s : State) (a : Nat) (f : Fd) (d : Nat) : (s.inc a f d).freeCtr = s.freeCtr := rfl
@[simp] theorem inc_pending (s : State) (a : Nat) (f : Fd) (d : Nat) : (s.inc a f d).pending = s.pending := rfl

@[simp] theorem incWrap_clk (s : State) (a : Nat) (f : Fd) (d : Nat) : (s.incWrap a f d).clk = s.clk := rfl
@[simp] theorem incWrap_pwr (s : State) (a : Nat) (f : Fd) (d : Nat) : (s.incWrap a f d).pwr = s.pwr := rfl
@[simp] theorem incWrap_cfgs (s : State) (a : Nat) (f : Fd) (d : Nat) : (s.incWrap a f d).cfgs = s.cfgs := rfl
@[simp] theorem incWrap_own (s : State) (a : Nat) (f : Fd) (d : Nat) : (s.incWrap a f d).own = s.own := rfl
@[simp] theorem incWrap_msixA (s : State) (a : Nat) (f : Fd) (d : Nat) : (s.incWrap a f d).msixA = s.msixA := rfl
@[simp] theorem incWrap_msixB (s : State) (a : Nat) (f : Fd) (d : Nat) : (s.incWrap a f d).msixB = s.msixB := rfl
@[simp] theorem incWrap_out (s : State) (a : Nat) (f : Fd) (d : Nat) : (s.incWrap a f d).out = s.out := rfl
@[simp] theorem incWrap_recent (s : State) (a : Nat) (f : Fd) (d : Nat) : (s.incWrap a f d).recent = s.recent := rfl
@[simp] theorem incWrap_lastRead (s : State) (a : Nat) (f : Fd) (d : Nat) : (s.incWrap a f d).lastRead = s.lastRead := rfl
@[simp] theorem incWrap_timeSnapA (s : State) (a : Nat) (f : Fd) (d : Nat) : (s.incWrap a f d).timeSnapA = s.timeSnapA := rfl
@[simp] theorem incWrap_timeSnapB (s : State) (a : Nat) (f : Fd) (d : Nat) : (s.incWrap a f d).timeSnapB = s.timeSnapB := rfl
@[simp] theorem incWrap_txns (s : State) (a : Nat) (f : Fd) (d : Nat) : (s.incWrap a f d).txns = s.txns := rfl
@[simp] theorem incWrap_net (s : State) (a : Nat) (f : Fd) (d : Nat) : (s.incWrap a f d).net = s.net := rfl
@[simp] theorem incWrap_pgs (s : State) (a : Nat) (f : Fd) (d : Nat) : (s.incWrap a f d).pgs = s.pgs := rfl
@[simp] theorem incWrap_gates (s : State) (a : Nat) (f : Fd) (d : Nat) : (s.incWrap a f d).gates = s.gates := rfl
@[simp] theorem incWrap_tsq (s : State) (a : Nat) (f : Fd) (d : Nat) : (s.incWrap a f d).tsq = s.tsq := rfl
@[simp] theorem incWrap_refs (s : State) (a : Nat) (f : Fd) (d : Nat) : (s.incWrap a f d).refs = s.refs := rfl
@[simp] theorem incWrap_log (s : State) (a : Nat) (f : Fd) (d : Nat) : (s.incWrap a f d).log = s.log := rfl
@[simp] theorem incWrap_mgmt (s : State) (a : Nat) (f : Fd) (d : Nat) : (s.incWrap a f d).mgmt = s.mgmt := rfl
@[simp] theorem incWrap_sens (s : State) (a : Nat) (f : Fd) (d : Nat) : (s.incWrap a f d).sens = s.sens := rfl
@[simp] theorem incWrap_modes (s : State) (a : Nat) (f : Fd) (d : Nat) : (s.incWrap a f d).modes = s.modes := rfl
@[simp] theorem incWrap_clusters (s : State) (a : Nat) (f : Fd) (d : Nat) : (s.incWrap a f d).clusters = s.clusters := rfl
@[simp] theorem incWrap_disp (s : State) (a : Nat) (f : Fd) (d : Nat) : (s.incWrap a f d).disp = s.disp := rfl
@[simp] theorem incWrap_trace (s : State) (a : Nat) (f : Fd) (d : Nat) : (s.incWrap a f d).trace = s.trace := rfl
@[simp] theorem incWrap_spares (s : State) (a : Nat) (f : Fd) (d : Nat) : (s.incWrap a f d).spares = s.spares := rfl
@[simp] theorem incWrap_chans (s : State) (a : Nat) (f : Fd) (d : Nat) : (s.incWrap a f d).chans = s.chans := rfl
@[simp] theorem incWrap_closing (s : State) (a : Nat) (f : Fd) (d : Nat) : (s.incWrap a f d).closing = s.closing := rfl
@[simp] theorem incWrap_nextUid (s : State) (a : Nat) (f : Fd) (d : Nat) : (s.incWrap a f d).nextUid = s.nextUid := rfl
@[simp] theorem incWrap_nw (s : State) (a : Nat) (f : Fd) (d : Nat) : (s.incWrap a f d).nw = s.nw := rfl
@[simp] theorem incWrap_mem (s : State) (a : Nat) (f : Fd) (d : Nat) : (s.incWrap a f d).mem = s.mem := rfl
@[simp] theorem incWrap_arc (s : State) (a : Nat) (f : Fd) (d : Nat) : (s.incWrap a f d).arc = s.arc := rfl
@[simp] theorem incWrap_snaps (s : State) (a : Nat) (f : Fd) (d : Nat) : (s.incWrap a f d).snaps = s.snaps := rfl
@[simp] theorem incWrap_freeCtr (s : State) (a : Nat) (f : Fd) (d : Nat) : (s.incWrap a f d).freeCtr = s.freeCtr := rfl
@[simp] theorem incWrap_pending (s : State) (a : Nat) (f : Fd) (d : Nat) : (s.incWrap a f d).pending = s.pending := rfl

@[simp] theorem raise_clk (s : State) (a : Nat) (f : Fd) (v : Nat) : (s.raise a f v).clk = s.clk := rfl
@[simp] theorem raise_pwr (s : State) (a : Nat) (f : Fd) (v : Nat) : (s.raise a f v).pwr = s.pwr := rfl
@[simp] theorem raise_cfgs (s : State) (a : Nat) (f : Fd) (v : Nat) : (s.raise a f v).cfgs = s.cfgs := rfl
@[simp] theorem raise_own (s : State) (a : Nat) (f : Fd) (v : Nat) : (s.raise a f v).own = s.own := rfl
@[simp] theorem raise_msixA (s : State) (a : Nat) (f : Fd) (v : Nat) : (s.raise a f v).msixA = s.msixA := rfl
@[simp] theorem raise_msixB (s : State) (a : Nat) (f : Fd) (v : Nat) : (s.raise a f v).msixB = s.msixB := rfl
@[simp] theorem raise_out (s : State) (a : Nat) (f : Fd) (v : Nat) : (s.raise a f v).out = s.out := rfl
@[simp] theorem raise_recent (s : State) (a : Nat) (f : Fd) (v : Nat) : (s.raise a f v).recent = s.recent := rfl
@[simp] theorem raise_lastRead (s : State) (a : Nat) (f : Fd) (v : Nat) : (s.raise a f v).lastRead = s.lastRead := rfl
@[simp] theorem raise_timeSnapA (s : State) (a : Nat) (f : Fd) (v : Nat) : (s.raise a f v).timeSnapA = s.timeSnapA := rfl
@[simp] theorem raise_timeSnapB (s : State) (a : Nat) (f : Fd) (v : Nat) : (s.raise a f v).timeSnapB = s.timeSnapB := rfl
@[simp] theorem raise_txns (s : State) (a : Nat) (f : Fd) (v : Nat) : (s.raise a f v).txns = s.txns := rfl
@[simp] theorem raise_net (s : State) (a : Nat) (f : Fd) (v : Nat) : (s.raise a f v).net = s.net := rfl
@[simp] theorem raise_pgs (s : State) (a : Nat) (f : Fd) (v : Nat) : (s.raise a f v).pgs = s.pgs := rfl
@[simp] theorem raise_gates (s : State) (a : Nat) (f : Fd) (v : Nat) : (s.raise a f v).gates = s.gates := rfl
@[simp] theorem raise_tsq (s : State) (a : Nat) (f : Fd) (v : Nat) : (s.raise a f v).tsq = s.tsq := rfl
@[simp] theorem raise_refs (s : State) (a : Nat) (f : Fd) (v : Nat) : (s.raise a f v).refs = s.refs := rfl
@[simp] theorem raise_log (s : State) (a : Nat) (f : Fd) (v : Nat) : (s.raise a f v).log = s.log := rfl
@[simp] theorem raise_mgmt (s : State) (a : Nat) (f : Fd) (v : Nat) : (s.raise a f v).mgmt = s.mgmt := rfl
@[simp] theorem raise_sens (s : State) (a : Nat) (f : Fd) (v : Nat) : (s.raise a f v).sens = s.sens := rfl
@[simp] theorem raise_modes (s : State) (a : Nat) (f : Fd) (v : Nat) : (s.raise a f v).modes = s.modes := rfl
@[simp] theorem raise_clusters (s : State) (a : Nat) (f : Fd) (v : Nat) : (s.raise a f v).clusters = s.clusters := rfl
@[simp] theorem raise_disp (s : State) (a : Nat) (f : Fd) (v : Nat) : (s.raise a f v).disp = s.disp := rfl
@[simp] theorem raise_trace (s : State) (a : Nat) (f : Fd) (v : Nat) : (s.raise a f v).trace = s.trace := rfl
@[simp] theorem raise_spares (s : State) (a : Nat) (f : Fd) (v : Nat) : (s.raise a f v).spares = s.spares := rfl
@[simp] theorem raise_chans (s : State) (a : Nat) (f : Fd) (v : Nat) : (s.raise a f v).chans = s.chans := rfl
@[simp] theorem raise_closing (s : State) (a : Nat) (f : Fd) (v : Nat) : (s.raise a f v).closing = s.closing := rfl
@[simp] theorem raise_nextUid (s : State) (a : Nat) (f : Fd) (v : Nat) : (s.raise a f v).nextUid = s.nextUid := rfl
@[simp] theorem raise_nw (s : State) (a : Nat) (f : Fd) (v : Nat) : (s.raise a f v).nw = s.nw := rfl
@[simp] theorem raise_mem (s : State) (a : Nat) (f : Fd) (v : Nat) : (s.raise a f v).mem = s.mem := rfl
@[simp] theorem raise_arc (s : State) (a : Nat) (f : Fd) (v : Nat) : (s.raise a f v).arc = s.arc := rfl
@[simp] theorem raise_snaps (s : State) (a : Nat) (f : Fd) (v : Nat) : (s.raise a f v).snaps = s.snaps := rfl
@[simp] theorem raise_freeCtr (s : State) (a : Nat) (f : Fd) (v : Nat) : (s.raise a f v).freeCtr = s.freeCtr := rfl
@[simp] theorem raise_pending (s : State) (a : Nat) (f : Fd) (v : Nat) : (s.raise a f v).pending = s.pending := rfl

@[simp] theorem status_clk (s : State) (page : Nat) (st : Status) : (s.status page st).clk = s.clk := rfl
@[simp] theorem status_pwr (s : State) (page : Nat) (st : Status) : (s.status page st).pwr = s.pwr := rfl
@[simp] theorem status_cfgs (s : State) (page : Nat) (st : Status) : (s.status page st).cfgs = s.cfgs := rfl
@[simp] theorem status_own (s : State) (page : Nat) (st : Status) : (s.status page st).own = s.own := rfl
@[simp] theorem status_msixA (s : State) (page : Nat) (st : Status) : (s.status page st).msixA = s.msixA := rfl
@[simp] theorem status_msixB (s : State) (page : Nat) (st : Status) : (s.status page st).msixB = s.msixB := rfl
@[simp] theorem status_out (s : State) (page : Nat) (st : Status) : (s.status page st).out = s.out := rfl
@[simp] theorem status_recent (s : State) (page : Nat) (st : Status) : (s.status page st).recent = s.recent := rfl
@[simp] theorem status_lastRead (s : State) (page : Nat) (st : Status) : (s.status page st).lastRead = s.lastRead := rfl
@[simp] theorem status_timeSnapA (s : State) (page : Nat) (st : Status) : (s.status page st).timeSnapA = s.timeSnapA := rfl
@[simp] theorem status_timeSnapB (s : State) (page : Nat) (st : Status) : (s.status page st).timeSnapB = s.timeSnapB := rfl
@[simp] theorem status_txns (s : State) (page : Nat) (st : Status) : (s.status page st).txns = s.txns := rfl
@[simp] theorem status_net (s : State) (page : Nat) (st : Status) : (s.status page st).net = s.net := rfl
@[simp] theorem status_pgs (s : State) (page : Nat) (st : Status) : (s.status page st).pgs = s.pgs := rfl
@[simp] theorem status_gates (s : State) (page : Nat) (st : Status) : (s.status page st).gates = s.gates := rfl
@[simp] theorem status_tsq (s : State) (page : Nat) (st : Status) : (s.status page st).tsq = s.tsq := rfl
@[simp] theorem status_refs (s : State) (page : Nat) (st : Status) : (s.status page st).refs = s.refs := rfl
@[simp] theorem status_log (s : State) (page : Nat) (st : Status) : (s.status page st).log = s.log := rfl
@[simp] theorem status_mgmt (s : State) (page : Nat) (st : Status) : (s.status page st).mgmt = s.mgmt := rfl
@[simp] theorem status_sens (s : State) (page : Nat) (st : Status) : (s.status page st).sens = s.sens := rfl
@[simp] theorem status_modes (s : State) (page : Nat) (st : Status) : (s.status page st).modes = s.modes := rfl
@[simp] theorem status_clusters (s : State) (page : Nat) (st : Status) : (s.status page st).clusters = s.clusters := rfl
@[simp] theorem status_disp (s : State) (page : Nat) (st : Status) : (s.status page st).disp = s.disp := rfl
@[simp] theorem status_trace (s : State) (page : Nat) (st : Status) : (s.status page st).trace = s.trace := rfl
@[simp] theorem status_spares (s : State) (page : Nat) (st : Status) : (s.status page st).spares = s.spares := rfl
@[simp] theorem status_chans (s : State) (page : Nat) (st : Status) : (s.status page st).chans = s.chans := rfl
@[simp] theorem status_closing (s : State) (page : Nat) (st : Status) : (s.status page st).closing = s.closing := rfl
@[simp] theorem status_nextUid (s : State) (page : Nat) (st : Status) : (s.status page st).nextUid = s.nextUid := rfl
@[simp] theorem status_nw (s : State) (page : Nat) (st : Status) : (s.status page st).nw = s.nw := rfl
@[simp] theorem status_mem (s : State) (page : Nat) (st : Status) : (s.status page st).mem = s.mem := rfl
@[simp] theorem status_arc (s : State) (page : Nat) (st : Status) : (s.status page st).arc = s.arc := rfl
@[simp] theorem status_snaps (s : State) (page : Nat) (st : Status) : (s.status page st).snaps = s.snaps := rfl
@[simp] theorem status_freeCtr (s : State) (page : Nat) (st : Status) : (s.status page st).freeCtr = s.freeCtr := rfl
@[simp] theorem status_pending (s : State) (page : Nat) (st : Status) : (s.status page st).pending = s.pending := rfl

@[simp] theorem setBusy_clk (s : State) (page : Nat) (b : Bool) : (s.setBusy page b).clk = s.clk := rfl
@[simp] theorem setBusy_pwr (s : State) (page : Nat) (b : Bool) : (s.setBusy page b).pwr = s.pwr := rfl
@[simp] theorem setBusy_cfgs (s : State) (page : Nat) (b : Bool) : (s.setBusy page b).cfgs = s.cfgs := rfl
@[simp] theorem setBusy_own (s : State) (page : Nat) (b : Bool) : (s.setBusy page b).own = s.own := rfl
@[simp] theorem setBusy_msixA (s : State) (page : Nat) (b : Bool) : (s.setBusy page b).msixA = s.msixA := rfl
@[simp] theorem setBusy_msixB (s : State) (page : Nat) (b : Bool) : (s.setBusy page b).msixB = s.msixB := rfl
@[simp] theorem setBusy_out (s : State) (page : Nat) (b : Bool) : (s.setBusy page b).out = s.out := rfl
@[simp] theorem setBusy_recent (s : State) (page : Nat) (b : Bool) : (s.setBusy page b).recent = s.recent := rfl
@[simp] theorem setBusy_lastRead (s : State) (page : Nat) (b : Bool) : (s.setBusy page b).lastRead = s.lastRead := rfl
@[simp] theorem setBusy_timeSnapA (s : State) (page : Nat) (b : Bool) : (s.setBusy page b).timeSnapA = s.timeSnapA := rfl
@[simp] theorem setBusy_timeSnapB (s : State) (page : Nat) (b : Bool) : (s.setBusy page b).timeSnapB = s.timeSnapB := rfl
@[simp] theorem setBusy_txns (s : State) (page : Nat) (b : Bool) : (s.setBusy page b).txns = s.txns := rfl
@[simp] theorem setBusy_net (s : State) (page : Nat) (b : Bool) : (s.setBusy page b).net = s.net := rfl
@[simp] theorem setBusy_pgs (s : State) (page : Nat) (b : Bool) : (s.setBusy page b).pgs = s.pgs := rfl
@[simp] theorem setBusy_gates (s : State) (page : Nat) (b : Bool) : (s.setBusy page b).gates = s.gates := rfl
@[simp] theorem setBusy_tsq (s : State) (page : Nat) (b : Bool) : (s.setBusy page b).tsq = s.tsq := rfl
@[simp] theorem setBusy_refs (s : State) (page : Nat) (b : Bool) : (s.setBusy page b).refs = s.refs := rfl
@[simp] theorem setBusy_log (s : State) (page : Nat) (b : Bool) : (s.setBusy page b).log = s.log := rfl
@[simp] theorem setBusy_mgmt (s : State) (page : Nat) (b : Bool) : (s.setBusy page b).mgmt = s.mgmt := rfl
@[simp] theorem setBusy_sens (s : State) (page : Nat) (b : Bool) : (s.setBusy page b).sens = s.sens := rfl
@[simp] theorem setBusy_modes (s : State) (page : Nat) (b : Bool) : (s.setBusy page b).modes = s.modes := rfl
@[simp] theorem setBusy_clusters (s : State) (page : Nat) (b : Bool) : (s.setBusy page b).clusters = s.clusters := rfl
@[simp] theorem setBusy_disp (s : State) (page : Nat) (b : Bool) : (s.setBusy page b).disp = s.disp := rfl
@[simp] theorem setBusy_trace (s : State) (page : Nat) (b : Bool) : (s.setBusy page b).trace = s.trace := rfl
@[simp] theorem setBusy_spares (s : State) (page : Nat) (b : Bool) : (s.setBusy page b).spares = s.spares := rfl
@[simp] theorem setBusy_chans (s : State) (page : Nat) (b : Bool) : (s.setBusy page b).chans = s.chans := rfl
@[simp] theorem setBusy_closing (s : State) (page : Nat) (b : Bool) : (s.setBusy page b).closing = s.closing := rfl
@[simp] theorem setBusy_nextUid (s : State) (page : Nat) (b : Bool) : (s.setBusy page b).nextUid = s.nextUid := rfl
@[simp] theorem setBusy_nw (s : State) (page : Nat) (b : Bool) : (s.setBusy page b).nw = s.nw := rfl
@[simp] theorem setBusy_mem (s : State) (page : Nat) (b : Bool) : (s.setBusy page b).mem = s.mem := rfl
@[simp] theorem setBusy_arc (s : State) (page : Nat) (b : Bool) : (s.setBusy page b).arc = s.arc := rfl
@[simp] theorem setBusy_snaps (s : State) (page : Nat) (b : Bool) : (s.setBusy page b).snaps = s.snaps := rfl
@[simp] theorem setBusy_freeCtr (s : State) (page : Nat) (b : Bool) : (s.setBusy page b).freeCtr = s.freeCtr := rfl
@[simp] theorem setBusy_pending (s : State) (page : Nat) (b : Bool) : (s.setBusy page b).pending = s.pending := rfl

@[simp] theorem emit_clk (s : State) (o : Output) : (s.emit o).clk = s.clk := rfl
@[simp] theorem emit_pwr (s : State) (o : Output) : (s.emit o).pwr = s.pwr := rfl
@[simp] theorem emit_regs (s : State) (o : Output) : (s.emit o).regs = s.regs := rfl
@[simp] theorem emit_cfgs (s : State) (o : Output) : (s.emit o).cfgs = s.cfgs := rfl
@[simp] theorem emit_own (s : State) (o : Output) : (s.emit o).own = s.own := rfl
@[simp] theorem emit_msixA (s : State) (o : Output) : (s.emit o).msixA = s.msixA := rfl
@[simp] theorem emit_msixB (s : State) (o : Output) : (s.emit o).msixB = s.msixB := rfl
@[simp] theorem emit_recent (s : State) (o : Output) : (s.emit o).recent = s.recent := rfl
@[simp] theorem emit_lastRead (s : State) (o : Output) : (s.emit o).lastRead = s.lastRead := rfl
@[simp] theorem emit_timeSnapA (s : State) (o : Output) : (s.emit o).timeSnapA = s.timeSnapA := rfl
@[simp] theorem emit_timeSnapB (s : State) (o : Output) : (s.emit o).timeSnapB = s.timeSnapB := rfl
@[simp] theorem emit_txns (s : State) (o : Output) : (s.emit o).txns = s.txns := rfl
@[simp] theorem emit_net (s : State) (o : Output) : (s.emit o).net = s.net := rfl
@[simp] theorem emit_pgs (s : State) (o : Output) : (s.emit o).pgs = s.pgs := rfl
@[simp] theorem emit_gates (s : State) (o : Output) : (s.emit o).gates = s.gates := rfl
@[simp] theorem emit_tsq (s : State) (o : Output) : (s.emit o).tsq = s.tsq := rfl
@[simp] theorem emit_refs (s : State) (o : Output) : (s.emit o).refs = s.refs := rfl
@[simp] theorem emit_log (s : State) (o : Output) : (s.emit o).log = s.log := rfl
@[simp] theorem emit_mgmt (s : State) (o : Output) : (s.emit o).mgmt = s.mgmt := rfl
@[simp] theorem emit_sens (s : State) (o : Output) : (s.emit o).sens = s.sens := rfl
@[simp] theorem emit_modes (s : State) (o : Output) : (s.emit o).modes = s.modes := rfl
@[simp] theorem emit_clusters (s : State) (o : Output) : (s.emit o).clusters = s.clusters := rfl
@[simp] theorem emit_disp (s : State) (o : Output) : (s.emit o).disp = s.disp := rfl
@[simp] theorem emit_trace (s : State) (o : Output) : (s.emit o).trace = s.trace := rfl
@[simp] theorem emit_spares (s : State) (o : Output) : (s.emit o).spares = s.spares := rfl
@[simp] theorem emit_chans (s : State) (o : Output) : (s.emit o).chans = s.chans := rfl
@[simp] theorem emit_closing (s : State) (o : Output) : (s.emit o).closing = s.closing := rfl
@[simp] theorem emit_nextUid (s : State) (o : Output) : (s.emit o).nextUid = s.nextUid := rfl
@[simp] theorem emit_nw (s : State) (o : Output) : (s.emit o).nw = s.nw := rfl
@[simp] theorem emit_mem (s : State) (o : Output) : (s.emit o).mem = s.mem := rfl
@[simp] theorem emit_arc (s : State) (o : Output) : (s.emit o).arc = s.arc := rfl
@[simp] theorem emit_snaps (s : State) (o : Output) : (s.emit o).snaps = s.snaps := rfl
@[simp] theorem emit_freeCtr (s : State) (o : Output) : (s.emit o).freeCtr = s.freeCtr := rfl
@[simp] theorem emit_pending (s : State) (o : Output) : (s.emit o).pending = s.pending := rfl

@[simp] theorem atTick_pwr (s : State) (t : Nat) : (s.atTick t).pwr = s.pwr := rfl
@[simp] theorem atTick_regs (s : State) (t : Nat) : (s.atTick t).regs = s.regs := rfl
@[simp] theorem atTick_cfgs (s : State) (t : Nat) : (s.atTick t).cfgs = s.cfgs := rfl
@[simp] theorem atTick_own (s : State) (t : Nat) : (s.atTick t).own = s.own := rfl
@[simp] theorem atTick_msixA (s : State) (t : Nat) : (s.atTick t).msixA = s.msixA := rfl
@[simp] theorem atTick_msixB (s : State) (t : Nat) : (s.atTick t).msixB = s.msixB := rfl
@[simp] theorem atTick_out (s : State) (t : Nat) : (s.atTick t).out = s.out := rfl
@[simp] theorem atTick_recent (s : State) (t : Nat) : (s.atTick t).recent = s.recent := rfl
@[simp] theorem atTick_lastRead (s : State) (t : Nat) : (s.atTick t).lastRead = s.lastRead := rfl
@[simp] theorem atTick_timeSnapA (s : State) (t : Nat) : (s.atTick t).timeSnapA = s.timeSnapA := rfl
@[simp] theorem atTick_timeSnapB (s : State) (t : Nat) : (s.atTick t).timeSnapB = s.timeSnapB := rfl
@[simp] theorem atTick_txns (s : State) (t : Nat) : (s.atTick t).txns = s.txns := rfl
@[simp] theorem atTick_net (s : State) (t : Nat) : (s.atTick t).net = s.net := rfl
@[simp] theorem atTick_pgs (s : State) (t : Nat) : (s.atTick t).pgs = s.pgs := rfl
@[simp] theorem atTick_gates (s : State) (t : Nat) : (s.atTick t).gates = s.gates := rfl
@[simp] theorem atTick_tsq (s : State) (t : Nat) : (s.atTick t).tsq = s.tsq := rfl
@[simp] theorem atTick_refs (s : State) (t : Nat) : (s.atTick t).refs = s.refs := rfl
@[simp] theorem atTick_log (s : State) (t : Nat) : (s.atTick t).log = s.log := rfl
@[simp] theorem atTick_mgmt (s : State) (t : Nat) : (s.atTick t).mgmt = s.mgmt := rfl
@[simp] theorem atTick_sens (s : State) (t : Nat) : (s.atTick t).sens = s.sens := rfl
@[simp] theorem atTick_modes (s : State) (t : Nat) : (s.atTick t).modes = s.modes := rfl
@[simp] theorem atTick_clusters (s : State) (t : Nat) : (s.atTick t).clusters = s.clusters := rfl
@[simp] theorem atTick_disp (s : State) (t : Nat) : (s.atTick t).disp = s.disp := rfl
@[simp] theorem atTick_trace (s : State) (t : Nat) : (s.atTick t).trace = s.trace := rfl
@[simp] theorem atTick_spares (s : State) (t : Nat) : (s.atTick t).spares = s.spares := rfl
@[simp] theorem atTick_chans (s : State) (t : Nat) : (s.atTick t).chans = s.chans := rfl
@[simp] theorem atTick_closing (s : State) (t : Nat) : (s.atTick t).closing = s.closing := rfl
@[simp] theorem atTick_nextUid (s : State) (t : Nat) : (s.atTick t).nextUid = s.nextUid := rfl
@[simp] theorem atTick_nw (s : State) (t : Nat) : (s.atTick t).nw = s.nw := rfl
@[simp] theorem atTick_mem (s : State) (t : Nat) : (s.atTick t).mem = s.mem := rfl
@[simp] theorem atTick_arc (s : State) (t : Nat) : (s.atTick t).arc = s.arc := rfl
@[simp] theorem atTick_snaps (s : State) (t : Nat) : (s.atTick t).snaps = s.snaps := rfl
@[simp] theorem atTick_freeCtr (s : State) (t : Nat) : (s.atTick t).freeCtr = s.freeCtr := rfl
@[simp] theorem atTick_pending (s : State) (t : Nat) : (s.atTick t).pending = s.pending := rfl

@[simp] theorem noteRecent_clk (s : State) (page b : Nat) : (s.noteRecent page b).clk = s.clk := rfl
@[simp] theorem noteRecent_pwr (s : State) (page b : Nat) : (s.noteRecent page b).pwr = s.pwr := rfl
@[simp] theorem noteRecent_regs (s : State) (page b : Nat) : (s.noteRecent page b).regs = s.regs := rfl
@[simp] theorem noteRecent_cfgs (s : State) (page b : Nat) : (s.noteRecent page b).cfgs = s.cfgs := rfl
@[simp] theorem noteRecent_own (s : State) (page b : Nat) : (s.noteRecent page b).own = s.own := rfl
@[simp] theorem noteRecent_msixA (s : State) (page b : Nat) : (s.noteRecent page b).msixA = s.msixA := rfl
@[simp] theorem noteRecent_msixB (s : State) (page b : Nat) : (s.noteRecent page b).msixB = s.msixB := rfl
@[simp] theorem noteRecent_out (s : State) (page b : Nat) : (s.noteRecent page b).out = s.out := rfl
@[simp] theorem noteRecent_lastRead (s : State) (page b : Nat) : (s.noteRecent page b).lastRead = s.lastRead := rfl
@[simp] theorem noteRecent_timeSnapA (s : State) (page b : Nat) : (s.noteRecent page b).timeSnapA = s.timeSnapA := rfl
@[simp] theorem noteRecent_timeSnapB (s : State) (page b : Nat) : (s.noteRecent page b).timeSnapB = s.timeSnapB := rfl
@[simp] theorem noteRecent_txns (s : State) (page b : Nat) : (s.noteRecent page b).txns = s.txns := rfl
@[simp] theorem noteRecent_net (s : State) (page b : Nat) : (s.noteRecent page b).net = s.net := rfl
@[simp] theorem noteRecent_pgs (s : State) (page b : Nat) : (s.noteRecent page b).pgs = s.pgs := rfl
@[simp] theorem noteRecent_gates (s : State) (page b : Nat) : (s.noteRecent page b).gates = s.gates := rfl
@[simp] theorem noteRecent_tsq (s : State) (page b : Nat) : (s.noteRecent page b).tsq = s.tsq := rfl
@[simp] theorem noteRecent_refs (s : State) (page b : Nat) : (s.noteRecent page b).refs = s.refs := rfl
@[simp] theorem noteRecent_log (s : State) (page b : Nat) : (s.noteRecent page b).log = s.log := rfl
@[simp] theorem noteRecent_mgmt (s : State) (page b : Nat) : (s.noteRecent page b).mgmt = s.mgmt := rfl
@[simp] theorem noteRecent_sens (s : State) (page b : Nat) : (s.noteRecent page b).sens = s.sens := rfl
@[simp] theorem noteRecent_modes (s : State) (page b : Nat) : (s.noteRecent page b).modes = s.modes := rfl
@[simp] theorem noteRecent_clusters (s : State) (page b : Nat) : (s.noteRecent page b).clusters = s.clusters := rfl
@[simp] theorem noteRecent_disp (s : State) (page b : Nat) : (s.noteRecent page b).disp = s.disp := rfl
@[simp] theorem noteRecent_trace (s : State) (page b : Nat) : (s.noteRecent page b).trace = s.trace := rfl
@[simp] theorem noteRecent_spares (s : State) (page b : Nat) : (s.noteRecent page b).spares = s.spares := rfl
@[simp] theorem noteRecent_chans (s : State) (page b : Nat) : (s.noteRecent page b).chans = s.chans := rfl
@[simp] theorem noteRecent_closing (s : State) (page b : Nat) : (s.noteRecent page b).closing = s.closing := rfl
@[simp] theorem noteRecent_nextUid (s : State) (page b : Nat) : (s.noteRecent page b).nextUid = s.nextUid := rfl
@[simp] theorem noteRecent_nw (s : State) (page b : Nat) : (s.noteRecent page b).nw = s.nw := rfl
@[simp] theorem noteRecent_mem (s : State) (page b : Nat) : (s.noteRecent page b).mem = s.mem := rfl
@[simp] theorem noteRecent_arc (s : State) (page b : Nat) : (s.noteRecent page b).arc = s.arc := rfl
@[simp] theorem noteRecent_snaps (s : State) (page b : Nat) : (s.noteRecent page b).snaps = s.snaps := rfl
@[simp] theorem noteRecent_freeCtr (s : State) (page b : Nat) : (s.noteRecent page b).freeCtr = s.freeCtr := rfl
@[simp] theorem noteRecent_pending (s : State) (page b : Nat) : (s.noteRecent page b).pending = s.pending := rfl

@[simp] theorem setSlot_clk (s : State) (i : Nat) (x : TxnSlot) : (s.setSlot i x).clk = s.clk := rfl
@[simp] theorem setSlot_pwr (s : State) (i : Nat) (x : TxnSlot) : (s.setSlot i x).pwr = s.pwr := rfl
@[simp] theorem setSlot_regs (s : State) (i : Nat) (x : TxnSlot) : (s.setSlot i x).regs = s.regs := rfl
@[simp] theorem setSlot_cfgs (s : State) (i : Nat) (x : TxnSlot) : (s.setSlot i x).cfgs = s.cfgs := rfl
@[simp] theorem setSlot_own (s : State) (i : Nat) (x : TxnSlot) : (s.setSlot i x).own = s.own := rfl
@[simp] theorem setSlot_msixA (s : State) (i : Nat) (x : TxnSlot) : (s.setSlot i x).msixA = s.msixA := rfl
@[simp] theorem setSlot_msixB (s : State) (i : Nat) (x : TxnSlot) : (s.setSlot i x).msixB = s.msixB := rfl
@[simp] theorem setSlot_out (s : State) (i : Nat) (x : TxnSlot) : (s.setSlot i x).out = s.out := rfl
@[simp] theorem setSlot_recent (s : State) (i : Nat) (x : TxnSlot) : (s.setSlot i x).recent = s.recent := rfl
@[simp] theorem setSlot_lastRead (s : State) (i : Nat) (x : TxnSlot) : (s.setSlot i x).lastRead = s.lastRead := rfl
@[simp] theorem setSlot_timeSnapA (s : State) (i : Nat) (x : TxnSlot) : (s.setSlot i x).timeSnapA = s.timeSnapA := rfl
@[simp] theorem setSlot_timeSnapB (s : State) (i : Nat) (x : TxnSlot) : (s.setSlot i x).timeSnapB = s.timeSnapB := rfl
@[simp] theorem setSlot_net (s : State) (i : Nat) (x : TxnSlot) : (s.setSlot i x).net = s.net := rfl
@[simp] theorem setSlot_pgs (s : State) (i : Nat) (x : TxnSlot) : (s.setSlot i x).pgs = s.pgs := rfl
@[simp] theorem setSlot_gates (s : State) (i : Nat) (x : TxnSlot) : (s.setSlot i x).gates = s.gates := rfl
@[simp] theorem setSlot_tsq (s : State) (i : Nat) (x : TxnSlot) : (s.setSlot i x).tsq = s.tsq := rfl
@[simp] theorem setSlot_refs (s : State) (i : Nat) (x : TxnSlot) : (s.setSlot i x).refs = s.refs := rfl
@[simp] theorem setSlot_log (s : State) (i : Nat) (x : TxnSlot) : (s.setSlot i x).log = s.log := rfl
@[simp] theorem setSlot_mgmt (s : State) (i : Nat) (x : TxnSlot) : (s.setSlot i x).mgmt = s.mgmt := rfl
@[simp] theorem setSlot_sens (s : State) (i : Nat) (x : TxnSlot) : (s.setSlot i x).sens = s.sens := rfl
@[simp] theorem setSlot_modes (s : State) (i : Nat) (x : TxnSlot) : (s.setSlot i x).modes = s.modes := rfl
@[simp] theorem setSlot_clusters (s : State) (i : Nat) (x : TxnSlot) : (s.setSlot i x).clusters = s.clusters := rfl
@[simp] theorem setSlot_disp (s : State) (i : Nat) (x : TxnSlot) : (s.setSlot i x).disp = s.disp := rfl
@[simp] theorem setSlot_trace (s : State) (i : Nat) (x : TxnSlot) : (s.setSlot i x).trace = s.trace := rfl
@[simp] theorem setSlot_spares (s : State) (i : Nat) (x : TxnSlot) : (s.setSlot i x).spares = s.spares := rfl
@[simp] theorem setSlot_chans (s : State) (i : Nat) (x : TxnSlot) : (s.setSlot i x).chans = s.chans := rfl
@[simp] theorem setSlot_closing (s : State) (i : Nat) (x : TxnSlot) : (s.setSlot i x).closing = s.closing := rfl
@[simp] theorem setSlot_nextUid (s : State) (i : Nat) (x : TxnSlot) : (s.setSlot i x).nextUid = s.nextUid := rfl
@[simp] theorem setSlot_nw (s : State) (i : Nat) (x : TxnSlot) : (s.setSlot i x).nw = s.nw := rfl
@[simp] theorem setSlot_mem (s : State) (i : Nat) (x : TxnSlot) : (s.setSlot i x).mem = s.mem := rfl
@[simp] theorem setSlot_arc (s : State) (i : Nat) (x : TxnSlot) : (s.setSlot i x).arc = s.arc := rfl
@[simp] theorem setSlot_snaps (s : State) (i : Nat) (x : TxnSlot) : (s.setSlot i x).snaps = s.snaps := rfl
@[simp] theorem setSlot_freeCtr (s : State) (i : Nat) (x : TxnSlot) : (s.setSlot i x).freeCtr = s.freeCtr := rfl
@[simp] theorem setSlot_pending (s : State) (i : Nat) (x : TxnSlot) : (s.setSlot i x).pending = s.pending := rfl

@[simp] theorem setMsix_clk (s : State) (p : Port) (m : Msix) : (s.setMsix p m).clk = s.clk := by cases p <;> rfl
@[simp] theorem setMsix_pwr (s : State) (p : Port) (m : Msix) : (s.setMsix p m).pwr = s.pwr := by cases p <;> rfl
@[simp] theorem setMsix_regs (s : State) (p : Port) (m : Msix) : (s.setMsix p m).regs = s.regs := by cases p <;> rfl
@[simp] theorem setMsix_cfgs (s : State) (p : Port) (m : Msix) : (s.setMsix p m).cfgs = s.cfgs := by cases p <;> rfl
@[simp] theorem setMsix_own (s : State) (p : Port) (m : Msix) : (s.setMsix p m).own = s.own := by cases p <;> rfl
@[simp] theorem setMsix_out (s : State) (p : Port) (m : Msix) : (s.setMsix p m).out = s.out := by cases p <;> rfl
@[simp] theorem setMsix_recent (s : State) (p : Port) (m : Msix) : (s.setMsix p m).recent = s.recent := by cases p <;> rfl
@[simp] theorem setMsix_lastRead (s : State) (p : Port) (m : Msix) : (s.setMsix p m).lastRead = s.lastRead := by cases p <;> rfl
@[simp] theorem setMsix_timeSnapA (s : State) (p : Port) (m : Msix) : (s.setMsix p m).timeSnapA = s.timeSnapA := by cases p <;> rfl
@[simp] theorem setMsix_timeSnapB (s : State) (p : Port) (m : Msix) : (s.setMsix p m).timeSnapB = s.timeSnapB := by cases p <;> rfl
@[simp] theorem setMsix_txns (s : State) (p : Port) (m : Msix) : (s.setMsix p m).txns = s.txns := by cases p <;> rfl
@[simp] theorem setMsix_net (s : State) (p : Port) (m : Msix) : (s.setMsix p m).net = s.net := by cases p <;> rfl
@[simp] theorem setMsix_pgs (s : State) (p : Port) (m : Msix) : (s.setMsix p m).pgs = s.pgs := by cases p <;> rfl
@[simp] theorem setMsix_gates (s : State) (p : Port) (m : Msix) : (s.setMsix p m).gates = s.gates := by cases p <;> rfl
@[simp] theorem setMsix_tsq (s : State) (p : Port) (m : Msix) : (s.setMsix p m).tsq = s.tsq := by cases p <;> rfl
@[simp] theorem setMsix_refs (s : State) (p : Port) (m : Msix) : (s.setMsix p m).refs = s.refs := by cases p <;> rfl
@[simp] theorem setMsix_log (s : State) (p : Port) (m : Msix) : (s.setMsix p m).log = s.log := by cases p <;> rfl
@[simp] theorem setMsix_mgmt (s : State) (p : Port) (m : Msix) : (s.setMsix p m).mgmt = s.mgmt := by cases p <;> rfl
@[simp] theorem setMsix_sens (s : State) (p : Port) (m : Msix) : (s.setMsix p m).sens = s.sens := by cases p <;> rfl
@[simp] theorem setMsix_modes (s : State) (p : Port) (m : Msix) : (s.setMsix p m).modes = s.modes := by cases p <;> rfl
@[simp] theorem setMsix_clusters (s : State) (p : Port) (m : Msix) : (s.setMsix p m).clusters = s.clusters := by cases p <;> rfl
@[simp] theorem setMsix_disp (s : State) (p : Port) (m : Msix) : (s.setMsix p m).disp = s.disp := by cases p <;> rfl
@[simp] theorem setMsix_trace (s : State) (p : Port) (m : Msix) : (s.setMsix p m).trace = s.trace := by cases p <;> rfl
@[simp] theorem setMsix_spares (s : State) (p : Port) (m : Msix) : (s.setMsix p m).spares = s.spares := by cases p <;> rfl
@[simp] theorem setMsix_chans (s : State) (p : Port) (m : Msix) : (s.setMsix p m).chans = s.chans := by cases p <;> rfl
@[simp] theorem setMsix_closing (s : State) (p : Port) (m : Msix) : (s.setMsix p m).closing = s.closing := by cases p <;> rfl
@[simp] theorem setMsix_nextUid (s : State) (p : Port) (m : Msix) : (s.setMsix p m).nextUid = s.nextUid := by cases p <;> rfl
@[simp] theorem setMsix_nw (s : State) (p : Port) (m : Msix) : (s.setMsix p m).nw = s.nw := by cases p <;> rfl
@[simp] theorem setMsix_mem (s : State) (p : Port) (m : Msix) : (s.setMsix p m).mem = s.mem := by cases p <;> rfl
@[simp] theorem setMsix_arc (s : State) (p : Port) (m : Msix) : (s.setMsix p m).arc = s.arc := by cases p <;> rfl
@[simp] theorem setMsix_snaps (s : State) (p : Port) (m : Msix) : (s.setMsix p m).snaps = s.snaps := by cases p <;> rfl
@[simp] theorem setMsix_freeCtr (s : State) (p : Port) (m : Msix) : (s.setMsix p m).freeCtr = s.freeCtr := by cases p <;> rfl
@[simp] theorem setMsix_pending (s : State) (p : Port) (m : Msix) : (s.setMsix p m).pending = s.pending := by cases p <;> rfl

@[simp] theorem setPortOwn_clk (s : State) (p : Port) (o : PortOwn) : (s.setPortOwn p o).clk = s.clk := by cases p <;> rfl
@[simp] theorem setPortOwn_pwr (s : State) (p : Port) (o : PortOwn) : (s.setPortOwn p o).pwr = s.pwr := by cases p <;> rfl
@[simp] theorem setPortOwn_regs (s : State) (p : Port) (o : PortOwn) : (s.setPortOwn p o).regs = s.regs := by cases p <;> rfl
@[simp] theorem setPortOwn_cfgs (s : State) (p : Port) (o : PortOwn) : (s.setPortOwn p o).cfgs = s.cfgs := by cases p <;> rfl
@[simp] theorem setPortOwn_msixA (s : State) (p : Port) (o : PortOwn) : (s.setPortOwn p o).msixA = s.msixA := by cases p <;> rfl
@[simp] theorem setPortOwn_msixB (s : State) (p : Port) (o : PortOwn) : (s.setPortOwn p o).msixB = s.msixB := by cases p <;> rfl
@[simp] theorem setPortOwn_out (s : State) (p : Port) (o : PortOwn) : (s.setPortOwn p o).out = s.out := by cases p <;> rfl
@[simp] theorem setPortOwn_recent (s : State) (p : Port) (o : PortOwn) : (s.setPortOwn p o).recent = s.recent := by cases p <;> rfl
@[simp] theorem setPortOwn_lastRead (s : State) (p : Port) (o : PortOwn) : (s.setPortOwn p o).lastRead = s.lastRead := by cases p <;> rfl
@[simp] theorem setPortOwn_timeSnapA (s : State) (p : Port) (o : PortOwn) : (s.setPortOwn p o).timeSnapA = s.timeSnapA := by cases p <;> rfl
@[simp] theorem setPortOwn_timeSnapB (s : State) (p : Port) (o : PortOwn) : (s.setPortOwn p o).timeSnapB = s.timeSnapB := by cases p <;> rfl
@[simp] theorem setPortOwn_txns (s : State) (p : Port) (o : PortOwn) : (s.setPortOwn p o).txns = s.txns := by cases p <;> rfl
@[simp] theorem setPortOwn_net (s : State) (p : Port) (o : PortOwn) : (s.setPortOwn p o).net = s.net := by cases p <;> rfl
@[simp] theorem setPortOwn_pgs (s : State) (p : Port) (o : PortOwn) : (s.setPortOwn p o).pgs = s.pgs := by cases p <;> rfl
@[simp] theorem setPortOwn_gates (s : State) (p : Port) (o : PortOwn) : (s.setPortOwn p o).gates = s.gates := by cases p <;> rfl
@[simp] theorem setPortOwn_tsq (s : State) (p : Port) (o : PortOwn) : (s.setPortOwn p o).tsq = s.tsq := by cases p <;> rfl
@[simp] theorem setPortOwn_refs (s : State) (p : Port) (o : PortOwn) : (s.setPortOwn p o).refs = s.refs := by cases p <;> rfl
@[simp] theorem setPortOwn_log (s : State) (p : Port) (o : PortOwn) : (s.setPortOwn p o).log = s.log := by cases p <;> rfl
@[simp] theorem setPortOwn_mgmt (s : State) (p : Port) (o : PortOwn) : (s.setPortOwn p o).mgmt = s.mgmt := by cases p <;> rfl
@[simp] theorem setPortOwn_sens (s : State) (p : Port) (o : PortOwn) : (s.setPortOwn p o).sens = s.sens := by cases p <;> rfl
@[simp] theorem setPortOwn_modes (s : State) (p : Port) (o : PortOwn) : (s.setPortOwn p o).modes = s.modes := by cases p <;> rfl
@[simp] theorem setPortOwn_clusters (s : State) (p : Port) (o : PortOwn) : (s.setPortOwn p o).clusters = s.clusters := by cases p <;> rfl
@[simp] theorem setPortOwn_disp (s : State) (p : Port) (o : PortOwn) : (s.setPortOwn p o).disp = s.disp := by cases p <;> rfl
@[simp] theorem setPortOwn_trace (s : State) (p : Port) (o : PortOwn) : (s.setPortOwn p o).trace = s.trace := by cases p <;> rfl
@[simp] theorem setPortOwn_spares (s : State) (p : Port) (o : PortOwn) : (s.setPortOwn p o).spares = s.spares := by cases p <;> rfl
@[simp] theorem setPortOwn_chans (s : State) (p : Port) (o : PortOwn) : (s.setPortOwn p o).chans = s.chans := by cases p <;> rfl
@[simp] theorem setPortOwn_closing (s : State) (p : Port) (o : PortOwn) : (s.setPortOwn p o).closing = s.closing := by cases p <;> rfl
@[simp] theorem setPortOwn_nextUid (s : State) (p : Port) (o : PortOwn) : (s.setPortOwn p o).nextUid = s.nextUid := by cases p <;> rfl
@[simp] theorem setPortOwn_nw (s : State) (p : Port) (o : PortOwn) : (s.setPortOwn p o).nw = s.nw := by cases p <;> rfl
@[simp] theorem setPortOwn_mem (s : State) (p : Port) (o : PortOwn) : (s.setPortOwn p o).mem = s.mem := by cases p <;> rfl
@[simp] theorem setPortOwn_arc (s : State) (p : Port) (o : PortOwn) : (s.setPortOwn p o).arc = s.arc := by cases p <;> rfl
@[simp] theorem setPortOwn_snaps (s : State) (p : Port) (o : PortOwn) : (s.setPortOwn p o).snaps = s.snaps := by cases p <;> rfl
@[simp] theorem setPortOwn_freeCtr (s : State) (p : Port) (o : PortOwn) : (s.setPortOwn p o).freeCtr = s.freeCtr := by cases p <;> rfl
@[simp] theorem setPortOwn_pending (s : State) (p : Port) (o : PortOwn) : (s.setPortOwn p o).pending = s.pending := by cases p <;> rfl

/-! ## Registers -/

/-- A register read after a register is written. -/
theorem rd_wr (s : State) (a b : Nat) (w : Word) : (s.wr a w).rd b = if b = a then w else s.rd b := Assoc.get_set _ _ _ _ _

@[simp] theorem rd_wr_same (s : State) (a : Nat) (w : Word) : (s.wr a w).rd a = w := by simp [rd_wr]

theorem rd_wr_ne (s : State) {a b : Nat} (w : Word) (h : b ≠ a) : (s.wr a w).rd b = s.rd b := by simp [rd_wr, h]

/-- A field write leaves every other register. -/
theorem rd_put_ne (s : State) {a b : Nat} (f : Fd) (v : Nat) (h : b ≠ a) : (s.put a f v).rd b = s.rd b := rd_wr_ne s _ h

theorem rd_putB_ne (s : State) {a b : Nat} (f : Fd) (v : Bool) (h : b ≠ a) : (s.putB a f v).rd b = s.rd b := rd_wr_ne s _ h

theorem rd_putI_ne (s : State) {a b : Nat} (f : Fd) (v : Int) (h : b ≠ a) : (s.putI a f v).rd b = s.rd b := rd_wr_ne s _ h

theorem rd_inc_ne (s : State) {a b : Nat} (f : Fd) (d : Nat) (h : b ≠ a) : (s.inc a f d).rd b = s.rd b := rd_wr_ne s _ h

theorem rd_incWrap_ne (s : State) {a b : Nat} (f : Fd) (d : Nat) (h : b ≠ a) : (s.incWrap a f d).rd b = s.rd b := rd_wr_ne s _ h

theorem rd_raise_ne (s : State) {a b : Nat} (f : Fd) (v : Nat) (h : b ≠ a) : (s.raise a f v).rd b = s.rd b := rd_wr_ne s _ h

/-- A status leaves every register but PAGE_STATUS of its page. -/
theorem rd_status_ne (s : State) {page b : Nat} (st : Status) (h : b ≠ Reg.PAGE_STATUS page) : (s.status page st).rd b = s.rd b :=
  rd_wr_ne s _ h

@[simp] theorem rd_atTick (s : State) (t b : Nat) : (s.atTick t).rd b = s.rd b := rfl

@[simp] theorem rd_emit (s : State) (o : Output) (b : Nat) : (s.emit o).rd b = s.rd b := rfl

@[simp] theorem rd_noteRecent (s : State) (p c b : Nat) : (s.noteRecent p c).rd b = s.rd b := rfl

@[simp] theorem rd_setSlot (s : State) (i : Nat) (x : TxnSlot) (b : Nat) : (s.setSlot i x).rd b = s.rd b := rfl

@[simp] theorem rd_setMsix (s : State) (p : Port) (m : Msix) (b : Nat) : (s.setMsix p m).rd b = s.rd b := by cases p <;> rfl

@[simp] theorem rd_setPortOwn (s : State) (p : Port) (o : PortOwn) (b : Nat) : (s.setPortOwn p o).rd b = s.rd b := by cases p <;> rfl

/-- A field reads as the value written to it. -/
theorem get_put_same (s : State) (a : Nat) (f : Fd) (v : Nat) (h : f.lo ≤ f.hi) (h2 : f.hi < 32) :
    (s.put a f v).get a f = v % 2 ^ (f.hi + 1 - f.lo) := by
  rw [get, put, rd_wr_same, bitsOf_withBits _ _ _ _ h h2]

/-- Another field of the register keeps its value. -/
theorem get_put_other (s : State) (a : Nat) (f g : Fd) (v : Nat) (h : f.lo ≤ f.hi) (h2 : f.hi < 32) (h3 : f.hi < g.lo ∨ g.hi < f.lo)
    (h4 : g.lo ≤ g.hi) : (s.put a f v).get a g = s.get a g := by
  rw [get, put, rd_wr_same, bitsOf_withBits_ne _ _ _ _ _ _ h h2 h3 h4, get]

/-- A field of another register keeps its value. -/
theorem get_put_ne (s : State) {a b : Nat} (f g : Fd) (v : Nat) (h : b ≠ a) : (s.put a f v).get b g = s.get b g := by
  rw [get, rd_put_ne s f v h, get]

/-- LAST_STATUS after a status. -/
theorem get_status (s : State) (page : Nat) (st : Status) :
    (s.status page st).get (Reg.PAGE_STATUS page) Fd.PAGE_STATUS.LAST_STATUS = st.code := by
  rw [status, get_put_same _ _ _ _ (by decide) (by decide)]
  cases st <;> rfl

/-- The register file stays canonical under a register write. -/
theorem canonical_wr (s : State) (a : Nat) (w : Word) (h : Assoc.Canonical resetWord s.regs) :
    Assoc.Canonical resetWord (s.wr a w).regs := Assoc.canonical_set _ _ _ _ h

/-! ## Ports -/

@[simp] theorem portOwn_setPortOwn_same (s : State) (p : Port) (o : PortOwn) : (s.setPortOwn p o).portOwn p = o := by cases p <;> rfl

theorem portOwn_setPortOwn_ne (s : State) {p q : Port} (o : PortOwn) (h : q ≠ p) : (s.setPortOwn p o).portOwn q = s.portOwn q := by
  cases p <;> cases q <;> first | rfl | exact absurd rfl h

@[simp] theorem owner_setPortOwn (s : State) (p : Port) (o : PortOwn) : (s.setPortOwn p o).own.owner = s.own.owner := by cases p <;> rfl

@[simp] theorem msix_setMsix_same (s : State) (p : Port) (m : Msix) : (s.setMsix p m).msix p = m := by cases p <;> rfl

/-! ## Transaction slots -/

theorem slot_setSlot (s : State) (i j : Nat) (x : TxnSlot) (h : i < s.txns.length) :
    (s.setSlot i x).slot j = if j = i then some x else s.slot j := by
  simp only [slot, setSlot, List.getElem?_set]
  by_cases hj : i = j
  · subst hj; simp [h]
  · simp [hj, Ne.symm hj]


end Sys2Proof.Machine.State
end

