-- ==== Sys2Proof/Laws/Chan.lean ====
section
/-! SUPPORT. What a change of one life of a channel does to channels, and that it changes nothing else. -/

namespace Sys2Proof.Machine.State

/-- An open channel after a change of one life: changed when it is that life, as before otherwise. -/
theorem chan_modLife (s : State) (uid num : Nat) (f : Chan → Chan) :
    (s.modLife uid f).chan num = (s.chan num).map fun c => if c.uid = uid then f c else c := by
  unfold chan modLife
  dsimp only
  induction s.chans with
  | nil => rfl
  | cons p rest ih =>
    obtain ⟨k, c⟩ := p
    simp only [List.map_cons, Assoc.find?]
    by_cases h : c.uid = uid <;> by_cases h2 : k = num <;> simp_all

/-- Another life's channel stays. -/
theorem chan_modLife_ne (s : State) (uid num : Nat) (f : Chan → Chan) {c : Chan} (h : s.chan num = some c) (hu : c.uid ≠ uid) :
    (s.modLife uid f).chan num = some c := by
  rw [chan_modLife, h]
  simp [hu]

/-- A change of one life changes nothing but open and closing channels. -/
theorem modLife_only (s : State) (uid : Nat) (f : Chan → Chan) :
    { s.modLife uid f with chans := s.chans, closing := s.closing } = s := rfl

@[simp] theorem modLife_regs (s : State) (uid : Nat) (f : Chan → Chan) : (s.modLife uid f).regs = s.regs := rfl
@[simp] theorem modLife_clk (s : State) (uid : Nat) (f : Chan → Chan) : (s.modLife uid f).clk = s.clk := rfl
@[simp] theorem modLife_pending (s : State) (uid : Nat) (f : Chan → Chan) : (s.modLife uid f).pending = s.pending := rfl

/-- An action given to an open channel waits for the job of the next beat (R137). -/
theorem addCtl_chan (s : State) (num : Nat) (x : ChanCtl) {c : Chan} (h : s.chan num = some c) :
    (s.addCtl num x).chan num = some { c with ctls := c.ctls ++ [(s.clk.n + 1, x)] } := by
  unfold addCtl
  rw [h]
  dsimp only
  rw [chan_modLife, h]
  simp

/-- It changes nothing but channels. -/
theorem addCtl_only (s : State) (num : Nat) (x : ChanCtl) :
    { s.addCtl num x with chans := s.chans, closing := s.closing } = s := by
  unfold addCtl
  split <;> rfl

/-- An action for a channel that is not open changes nothing. -/
theorem addCtl_none (s : State) (num : Nat) (x : ChanCtl) (h : s.chan num = none) : s.addCtl num x = s := by
  unfold addCtl
  rw [h]

end Sys2Proof.Machine.State
end

