-- ==== Sys2Proof/Laws/Events.lean ====
section
/-! SUPPORT. Everything that an event source, a message and a status can change, said once for each of these operations. -/

namespace Sys2Proof.Machine.State

theorem OnlyEvents.refl (s : State) : s.OnlyEvents s [] := ⟨rfl, fun _ _ _ => rfl⟩

/-- One change after another. -/
theorem OnlyEvents.trans {s u v : State} {r r' : List Nat} (h : s.OnlyEvents u r) (h' : u.OnlyEvents v r') :
    s.OnlyEvents v (r ++ r') := by
  refine ⟨?_, fun a ha he => ?_⟩
  · have e := h.1
    have e' := h'.1
    cases s; cases u; cases v
    simp only [State.mk.injEq] at e e' ⊢
    simp_all
  · rw [List.mem_append, not_or] at ha
    rw [h'.2 a ha.2 he, h.2 a ha.1 he]

/-- A longer list of registers says less. -/
theorem OnlyEvents.mono {s u : State} {r r' : List Nat} (h : s.OnlyEvents u r) (hr : ∀ a ∈ r, a ∈ r') : s.OnlyEvents u r' :=
  ⟨h.1, fun a ha he => h.2 a (fun hm => ha (hr a hm)) he⟩

theorem OnlyEvents.clk {s u : State} {r : List Nat} (h : s.OnlyEvents u r) : u.clk = s.clk := (congrArg State.clk h.1 :)
theorem OnlyEvents.pwr {s u : State} {r : List Nat} (h : s.OnlyEvents u r) : u.pwr = s.pwr := (congrArg State.pwr h.1 :)
theorem OnlyEvents.cfgs {s u : State} {r : List Nat} (h : s.OnlyEvents u r) : u.cfgs = s.cfgs := (congrArg State.cfgs h.1 :)
theorem OnlyEvents.own {s u : State} {r : List Nat} (h : s.OnlyEvents u r) : u.own = s.own := (congrArg State.own h.1 :)
theorem OnlyEvents.lastRead {s u : State} {r : List Nat} (h : s.OnlyEvents u r) : u.lastRead = s.lastRead := (congrArg State.lastRead h.1 :)
theorem OnlyEvents.txns {s u : State} {r : List Nat} (h : s.OnlyEvents u r) : u.txns = s.txns := (congrArg State.txns h.1 :)
theorem OnlyEvents.net {s u : State} {r : List Nat} (h : s.OnlyEvents u r) : u.net = s.net := (congrArg State.net h.1 :)
theorem OnlyEvents.pgs {s u : State} {r : List Nat} (h : s.OnlyEvents u r) : u.pgs = s.pgs := (congrArg State.pgs h.1 :)
theorem OnlyEvents.gates {s u : State} {r : List Nat} (h : s.OnlyEvents u r) : u.gates = s.gates := (congrArg State.gates h.1 :)
theorem OnlyEvents.tsq {s u : State} {r : List Nat} (h : s.OnlyEvents u r) : u.tsq = s.tsq := (congrArg State.tsq h.1 :)
theorem OnlyEvents.refs {s u : State} {r : List Nat} (h : s.OnlyEvents u r) : u.refs = s.refs := (congrArg State.refs h.1 :)
theorem OnlyEvents.mgmt {s u : State} {r : List Nat} (h : s.OnlyEvents u r) : u.mgmt = s.mgmt := (congrArg State.mgmt h.1 :)
theorem OnlyEvents.sens {s u : State} {r : List Nat} (h : s.OnlyEvents u r) : u.sens = s.sens := (congrArg State.sens h.1 :)
theorem OnlyEvents.modes {s u : State} {r : List Nat} (h : s.OnlyEvents u r) : u.modes = s.modes := (congrArg State.modes h.1 :)
theorem OnlyEvents.clusters {s u : State} {r : List Nat} (h : s.OnlyEvents u r) : u.clusters = s.clusters := (congrArg State.clusters h.1 :)
theorem OnlyEvents.disp {s u : State} {r : List Nat} (h : s.OnlyEvents u r) : u.disp = s.disp := (congrArg State.disp h.1 :)
theorem OnlyEvents.trace {s u : State} {r : List Nat} (h : s.OnlyEvents u r) : u.trace = s.trace := (congrArg State.trace h.1 :)
theorem OnlyEvents.spares {s u : State} {r : List Nat} (h : s.OnlyEvents u r) : u.spares = s.spares := (congrArg State.spares h.1 :)
theorem OnlyEvents.chans {s u : State} {r : List Nat} (h : s.OnlyEvents u r) : u.chans = s.chans := (congrArg State.chans h.1 :)
theorem OnlyEvents.closing {s u : State} {r : List Nat} (h : s.OnlyEvents u r) : u.closing = s.closing := (congrArg State.closing h.1 :)
theorem OnlyEvents.nw {s u : State} {r : List Nat} (h : s.OnlyEvents u r) : u.nw = s.nw := (congrArg State.nw h.1 :)
theorem OnlyEvents.mem {s u : State} {r : List Nat} (h : s.OnlyEvents u r) : u.mem = s.mem := (congrArg State.mem h.1 :)
theorem OnlyEvents.arc {s u : State} {r : List Nat} (h : s.OnlyEvents u r) : u.arc = s.arc := (congrArg State.arc h.1 :)
theorem OnlyEvents.snaps {s u : State} {r : List Nat} (h : s.OnlyEvents u r) : u.snaps = s.snaps := (congrArg State.snaps h.1 :)
theorem OnlyEvents.freeCtr {s u : State} {r : List Nat} (h : s.OnlyEvents u r) : u.freeCtr = s.freeCtr := (congrArg State.freeCtr h.1 :)
theorem OnlyEvents.pending {s u : State} {r : List Nat} (h : s.OnlyEvents u r) : u.pending = s.pending := (congrArg State.pending h.1 :)

/-! ## Single operations -/

theorem wr_onlyEvents (s : State) (a : Nat) (w : Word) : s.OnlyEvents (s.wr a w) [a] :=
  ⟨rfl, fun b hb _ => rd_wr_ne s w (by simpa using hb)⟩

theorem put_onlyEvents (s : State) (a : Nat) (f : Fd) (v : Nat) : s.OnlyEvents (s.put a f v) [a] := wr_onlyEvents s a _

theorem inc_onlyEvents (s : State) (a : Nat) (f : Fd) (d : Nat) : s.OnlyEvents (s.inc a f d) [a] := wr_onlyEvents s a _

theorem incWrap_onlyEvents (s : State) (a : Nat) (f : Fd) (d : Nat) : s.OnlyEvents (s.incWrap a f d) [a] := wr_onlyEvents s a _

theorem status_onlyEvents (s : State) (page : Nat) (st : Status) : s.OnlyEvents (s.status page st) [Reg.PAGE_STATUS page] :=
  wr_onlyEvents s _ _

theorem emit_onlyEvents (s : State) (o : Output) : s.OnlyEvents (s.emit o) [] := ⟨rfl, fun _ _ _ => rfl⟩

/-- A message on one port: the port's pending bit or an output. -/
theorem sendMsix_onlyEvents (s : State) (p : Port) (vec : Nat) : s.OnlyEvents (s.sendMsix p vec) [] := by
  unfold sendMsix
  cases p <;> simp only [msix] <;> split <;> first
    | exact OnlyEvents.refl s
    | (split <;> exact ⟨rfl, fun _ _ _ => rfl⟩)

/-- A message leaves every register. -/
@[simp] theorem rd_sendMsix (s : State) (p : Port) (vec a : Nat) : (s.sendMsix p vec).rd a = s.rd a := by
  unfold sendMsix
  cases p <;> simp only [msix] <;> split <;> first
    | rfl
    | (split <;> rfl)

/-- A page's message (R27). -/
theorem pageMsix_onlyEvents (s : State) (page : Nat) : s.OnlyEvents (s.pageMsix page) [] := by
  unfold pageMsix
  dsimp only
  split <;> split
  · exact (sendMsix_onlyEvents s _ _).trans (sendMsix_onlyEvents _ _ _)
  · exact sendMsix_onlyEvents s _ _
  · exact sendMsix_onlyEvents s _ _
  · exact OnlyEvents.refl s

@[simp] theorem rd_pageMsix (s : State) (page a : Nat) : (s.pageMsix page).rd a = s.rd a := by
  unfold pageMsix
  dsimp only
  split <;> split <;> simp

/-- A latch bit sets (R27): only the page's latch register changes, and perhaps a message leaves. -/
theorem setLatch_onlyEvents (s : State) (page b : Nat) : s.OnlyEvents (s.setLatch page b) [] := by
  unfold setLatch
  dsimp only
  split
  · exact OnlyEvents.refl s
  · have h : s.OnlyEvents (s.wr (Reg.EVT_LATCH page) (s.rd (Reg.EVT_LATCH page) ||| Word.of (2 ^ b))) [] := by
      refine ⟨rfl, fun a _ he => rd_wr_ne s _ ?_⟩
      rintro rfl
      simp [evtReg] at he
    split
    · exact h.trans (pageMsix_onlyEvents _ _)
    · exact h

/-- Other registers keep their value when a latch bit sets. -/
theorem rd_setLatch_ne (s : State) {page b a : Nat} (h : a ≠ Reg.EVT_LATCH page) : (s.setLatch page b).rd a = s.rd a := by
  unfold setLatch
  dsimp only
  split
  · rfl
  · split
    · rw [rd_pageMsix, rd_wr_ne s _ h]
    · exact rd_wr_ne s _ h

/-- The bit of a power of two. -/
theorem getLsbD_bit (w : Word) (b : Nat) (h : b < 32) : (w ||| Word.of (2 ^ b)).getLsbD b = true := by
  rw [BitVec.getLsbD_or, BitVec.getLsbD_ofNat, Nat.testBit_two_pow]
  simp [h]

/-- The latch register holds its old bits and the new one. -/
theorem rd_setLatch (s : State) (page b : Nat) (hb : b < 32) :
    (s.setLatch page b).rd (Reg.EVT_LATCH page) = s.rd (Reg.EVT_LATCH page) ||| Word.of (2 ^ b) := by
  unfold setLatch
  dsimp only
  split
  · rename_i h
    apply BitVec.eq_of_getLsbD_eq
    intro i hi
    by_cases hib : i = b
    · subst hib; simp [h]
    · simp only [BitVec.getLsbD_or, BitVec.getLsbD_ofNat, Nat.testBit_two_pow]
      simp [Ne.symm hib]
  · split <;> simp

/-- The log's syslog message or its count of drops (R523). -/
theorem syslog_onlyEvents (s : State) (r : LogRec) : s.OnlyEvents (s.syslog r) [] := by
  unfold syslog
  dsimp only
  repeat' split
  all_goals first
    | exact ⟨rfl, fun _ _ _ => rfl⟩
    | (refine ⟨rfl, fun a _ he => rd_wr_ne s _ ?_⟩
       rintro rfl
       simp [evtReg] at he)

theorem rd_syslog_ne (s : State) (r : LogRec) {a : Nat} (h : a ≠ Reg.MGMT_NET_DROP) : (s.syslog r).rd a = s.rd a := by
  unfold syslog
  dsimp only
  repeat' split
  all_goals first
    | rfl
    | exact rd_wr_ne s _ h

/-- The stores take a record (R521). -/
theorem storeRec_onlyEvents (s : State) (r : LogRec) : s.OnlyEvents (s.storeRec r).1 [] := by
  unfold storeRec
  dsimp only
  refine OnlyEvents.trans (r := []) (r' := []) ?_ (syslog_onlyEvents _ _)
  exact ⟨rfl, fun _ _ _ => rfl⟩

theorem rd_storeRec_ne (s : State) (r : LogRec) {a : Nat} (h : a ≠ Reg.MGMT_NET_DROP) : (s.storeRec r).1.rd a = s.rd a :=
  rd_syslog_ne _ _ h

theorem logSource_onlyEvents (s : State) (page b : Nat) (w : Word) : s.OnlyEvents (s.logSource page b w).1 [] := by
  unfold logSource
  dsimp only
  split
  · exact OnlyEvents.refl s
  · split
    · split
      · exact ⟨rfl, fun _ _ _ => rfl⟩
      · exact storeRec_onlyEvents s _
    · split
      · exact ⟨rfl, fun _ _ _ => rfl⟩
      · exact OnlyEvents.refl s

theorem rd_logSource_ne (s : State) (page b : Nat) (w : Word) {a : Nat} (h : a ≠ Reg.MGMT_NET_DROP) :
    (s.logSource page b w).1.rd a = s.rd a := by
  unfold logSource
  dsimp only
  split
  · rfl
  · split
    · split
      · rfl
      · exact rd_storeRec_ne s _ h
    · split <;> rfl

/-- The log takes an occurrence (R519, R521). -/
theorem logEvent_onlyEvents (s : State) (page b : Nat) : s.OnlyEvents (s.logEvent page b) [] := by
  unfold logEvent
  have h := logSource_onlyEvents s page b (s.rd (Reg.EVT_LATCH page))
  split
  · rename_i e; rw [e] at h; exact h
  · rename_i s1 e
    rw [e] at h
    refine h.trans ?_
    have h2 : s1.OnlyEvents (s1.inc Reg.LOG_LOST_CNT Fd.LOG_LOST_CNT.COUNT) [] := by
      refine ⟨rfl, fun a _ he => rd_wr_ne s1 _ ?_⟩
      rintro rfl
      simp [evtReg] at he
    exact (h2.trans (setLatch_onlyEvents _ _ _)).trans (logSource_onlyEvents _ _ _ _)

/-- An event source occurs (R23, R27, R519): only latches, messages and the log change. -/
theorem event_onlyEvents (s : State) (page b : Nat) : s.OnlyEvents (s.event page b) [] := by
  unfold event
  exact ((show s.OnlyEvents (s.noteRecent page b) [] from ⟨rfl, fun _ _ _ => rfl⟩).trans (setLatch_onlyEvents _ _ _)).trans
    (logEvent_onlyEvents _ _ _)

theorem eventIf_onlyEvents (s : State) (c : Bool) (page b : Nat) : s.OnlyEvents (s.eventIf c page b) [] := by
  unfold eventIf
  split
  · exact event_onlyEvents s page b
  · exact OnlyEvents.refl s

/-- A set latch bit stays set through whatever the log does. -/
theorem logEvent_keeps (s : State) (page b p b' : Nat) (h : s.Latched p b') : (s.logEvent page b).Latched p b' := by
  have hne : Reg.EVT_LATCH p ≠ Reg.MGMT_NET_DROP := by unfold Reg.EVT_LATCH Reg.MGMT_NET_DROP; omega
  have hne2 : Reg.EVT_LATCH p ≠ Reg.LOG_LOST_CNT := by unfold Reg.EVT_LATCH Reg.LOG_LOST_CNT; omega
  unfold Latched logEvent at *
  split
  · rename_i e
    have := rd_logSource_ne s page b (s.rd (Reg.EVT_LATCH page)) hne
    rw [e] at this
    rw [this]; exact h
  · rename_i s1 e
    have h1 := rd_logSource_ne s page b (s.rd (Reg.EVT_LATCH page)) hne
    rw [e] at h1
    dsimp only at h1 ⊢
    rw [rd_logSource_ne _ _ _ _ hne]
    by_cases hp : Reg.EVT_LATCH p = Reg.EVT_LATCH Pg.LOG
    · rw [hp, rd_setLatch _ _ _ (by decide), rd_inc_ne _ _ _ (by decide), ← hp, h1]
      simp [h]
    · rw [rd_setLatch_ne _ hp, rd_inc_ne _ _ _ hne2, h1]; exact h

/-- The latch bit of a source that occurs is set (R27). -/
theorem event_latched (s : State) (page b : Nat) (hb : b < 32) : (s.event page b).Latched page b := by
  unfold event
  apply logEvent_keeps
  unfold Latched
  rw [rd_setLatch _ _ _ hb]
  exact getLsbD_bit _ _ hb

/-- A set latch bit stays set when another source occurs. -/
theorem event_keeps (s : State) (page b p b' : Nat) (hb : b < 32) (h : s.Latched p b') : (s.event page b).Latched p b' := by
  unfold event
  apply logEvent_keeps
  unfold Latched at *
  by_cases hp : Reg.EVT_LATCH p = Reg.EVT_LATCH page
  · rw [hp, rd_setLatch _ _ _ hb, rd_noteRecent, ← hp]
    simp [h]
  · rw [rd_setLatch_ne _ hp]; exact h

/-- A register that no event source changes. -/
theorem rd_event (s : State) (page b : Nat) {a : Nat} (h : evtReg a = false) : (s.event page b).rd a = s.rd a :=
  (event_onlyEvents s page b).2 a (by simp) h

theorem get_event (s : State) (page b : Nat) {a : Nat} (f : Fd) (h : evtReg a = false) : (s.event page b).get a f = s.get a f := by
  rw [get, rd_event s page b h, get]

end Sys2Proof.Machine.State
end

