-- ==== Sys2Proof/Laws/Faults.lean ====
section
/-! SUPPORT. What noting a fault and its effect on tolerance can change (R483, R499, R500). -/

namespace Sys2Proof.Machine.State

/-- The tolerance check changes nothing but its own note of NOTOL and what its event does. -/
theorem relCheck_only (s : State) :
    OnlyEvents { s with spares := { s.spares with notol := s.notolBits } } s.relCheck [] := eventIf_onlyEvents _ _ _ _

/-- The note after the tolerance check (R483). -/
theorem relCheck_notol (s : State) : s.relCheck.spares.notol = s.notolBits :=
  congrArg (fun x : Spares => x.notol) (relCheck_only s).spares

/-- A fault of a class changes the class's count, the last fault, its beat, the note of NOTOL and what events do (R499). -/
theorem recordFault_only (s : State) (cls cluster index detect : Nat) (inj : Bool) :
    OnlyEvents { s with spares := { s.spares with notol := (s.recordFault cls cluster index detect inj).spares.notol } }
      (s.recordFault cls cluster index detect inj) [Reg.REL_FAULT_CNT cls, Reg.REL_LAST_FAULT, Reg.REL_LAST_BEAT] := by
  have h : ∃ v : State, s.recordFault cls cluster index detect inj = v.relCheck
      ∧ s.OnlyEvents v [Reg.REL_FAULT_CNT cls, Reg.REL_LAST_FAULT, Reg.REL_LAST_BEAT] := by
    refine ⟨_, rfl, OnlyEvents.mono (((wr_onlyEvents s _ _).trans (wr_onlyEvents _ _ _)).trans
      ((inc_onlyEvents _ _ _ _).trans (event_onlyEvents _ _ _))) ?_⟩
    intro a ha
    simp at ha ⊢
    tauto
  obtain ⟨v, hv, ho⟩ := h
  rw [hv, relCheck_notol]
  have h2 := relCheck_only v
  refine ⟨?_, fun a ha he => ?_⟩
  · have e := ho.1
    have e2 := h2.1
    generalize v.relCheck = w at *
    generalize v.notolBits = x at *
    cases s; cases v; cases w
    simp only [State.mk.injEq] at e e2 ⊢
    simp_all
  · rw [h2.2 a (by simp) he]
    exact ho.2 a ha he

end Sys2Proof.Machine.State
end

