-- ==== Sys2Proof/Laws/Flow.lean ====
section
/-! SUPPORT. What follows the level of shared packet memory (R307, R339), said once. -/

namespace Sys2Proof.Machine.State

/-- A state with what OnlyMem lets change put back. -/
abbrev base (x s : State) : State :=
  { x with regs := s.regs, msixA := s.msixA, msixB := s.msixB, out := s.out, log := s.log, recent := s.recent,
           nw := { x.nw with macs := s.nw.macs } }

theorem OnlyMem.refl (s : State) : s.OnlyMem s [] := ⟨rfl, fun _ => rfl, fun _ _ _ _ _ => rfl⟩

/-- One change after another. -/
theorem OnlyMem.trans {s u v : State} {r r' : List Nat} (h : s.OnlyMem u r) (h' : u.OnlyMem v r') : s.OnlyMem v (r ++ r') := by
  refine ⟨?_, fun p => ?_, fun a ha he h1 h2 => ?_⟩
  · exact (congrArg (fun x => base x s) h'.1).trans h.1
  · have e := h.2.1 p
    have e' := h'.2.1 p
    generalize s.mac p = x at *
    generalize u.mac p = y at *
    generalize v.mac p = z at *
    cases x; cases y; cases z
    simp only [MacRun.mk.injEq] at e e' ⊢
    simp_all
  · rw [List.mem_append, not_or] at ha
    rw [h'.2.2 a ha.2 he h1 h2, h.2.2 a ha.1 he h1 h2]

/-- What only events change is such a change. -/
theorem OnlyEvents.onlyMem {s u : State} {r : List Nat} (h : s.OnlyEvents u r) : s.OnlyMem u r := by
  refine ⟨?_, fun p => ?_, fun a ha he _ _ => h.2 a ha he⟩
  · have e := h.1
    have e2 := h.nw
    cases s; cases u
    simp only [State.mk.injEq] at e e2 ⊢
    simp_all
  · unfold mac
    rw [h.nw]

/-- A port after a port was replaced. -/
theorem mac_setMac (s : State) (p q : Nat) (m : MacRun) : (s.setMac p m).mac q = if q = p then m else s.mac q :=
  getD_putAt _ _ _ _ _

@[simp] theorem rd_setMac (s : State) (p : Nat) (m : MacRun) (a : Nat) : (s.setMac p m).rd a = s.rd a := rfl

/-- A change of a port's own flow control. -/
theorem setMac_onlyMem (s : State) (p : Nat) (x : Bool) (t : Nat) :
    s.OnlyMem (s.setMac p { s.mac p with xoff := x, repeatAt := t }) [] := by
  refine ⟨rfl, fun q => ?_, fun _ _ _ _ _ => rfl⟩
  rw [mac_setMac]
  split
  · rename_i h; subst h; rfl
  · rfl

/-- A write of one register of an Ethernet port's page. -/
theorem wr_onlyMem (s : State) (a : Nat) (w : Word) (h : macReg a = true) : s.OnlyMem (s.wr a w) [] := by
  refine ⟨rfl, fun _ => rfl, fun b _ _ _ hb => rd_wr_ne s w ?_⟩
  rintro rfl
  rw [h] at hb
  exact absurd hb (by decide)

/-- A counter of a port counts. -/
theorem macCount_onlyMem (s : State) (p i n : Nat) (h : macReg (Reg.MAC_CNT p i) = true) (h2 : macReg (Reg.MAC_CNT_NOTICE p) = true) :
    s.OnlyMem (s.macCount p i n) [] := by
  unfold macCount
  split
  · exact OnlyMem.refl s
  · dsimp only
    split
    · refine OnlyMem.trans (r := []) (r' := []) ?_ (eventIf_onlyEvents _ _ _ _).onlyMem
      refine OnlyMem.trans (r := []) (r' := []) ?_ (wr_onlyMem _ _ _ h2)
      exact wr_onlyMem s _ _ h
    · exact wr_onlyMem s _ _ h

/-- A flow control frame leaves a port. -/
theorem sendPause_onlyMem (s : State) (p q : Nat) (h : p < 8) : s.OnlyMem (s.sendPause p q) [] := by
  have hp : ∀ i, i < 32 → macReg (Reg.MAC_CNT p i) = true ∧ macReg (Reg.MAC_CNT_NOTICE p) = true := by
    intro i hi
    constructor <;> simp only [macReg, Reg.MAC_CNT, Reg.MAC_CNT_NOTICE, Bool.and_eq_true, decide_eq_true_eq] <;> omega
  have c : ∀ (u : State) (i n : Nat), i < 32 → u.OnlyMem (u.macCount p i n) [] := fun u i n hi => macCount_onlyMem u p i n (hp i hi).1 (hp i hi).2
  unfold sendPause
  dsimp only
  refine OnlyMem.trans (r := []) (r' := []) ?_ (c _ _ _ (by split <;> decide))
  unfold sentFrame
  exact ((c s 23 1 (by decide)).trans (r := []) (r' := []) (c _ 24 _ (by decide))).trans (r := []) (r' := []) (emit_onlyEvents _ _).onlyMem

/-- One port's flow control follows the level. -/
theorem fcPort_onlyMem (used : Nat) (s : State) (p : Nat) (h : p < 8) : s.OnlyMem (fcPort used s p) [] := by
  unfold fcPort
  dsimp only
  split
  · split
    · exact setMac_onlyMem s p false (s.mac p).repeatAt
    · exact OnlyMem.refl s
  · split
    · exact (setMac_onlyMem s p true _).trans (r := []) (r' := []) (sendPause_onlyMem _ p _ h)
    · split
      · exact (setMac_onlyMem s p false (s.mac p).repeatAt).trans (r := []) (r' := []) (sendPause_onlyMem _ p _ h)
      · exact OnlyMem.refl s

/-- The level of shared packet memory has changed: the high-water mark and the flow control of the ports follow, and nothing
else does (R307, R339). -/
theorem noteMem_onlyMem (s : State) (more : Nat) : s.OnlyMem (s.noteMem more) [] := by
  have key : ∀ (l : List Nat) (used : Nat) (u : State), (∀ p ∈ l, p < 8) → u.OnlyMem (l.foldl (fcPort used) u) [] := by
    intro l used
    induction l with
    | nil => intro u _; exact OnlyMem.refl u
    | cons p ps ih =>
      intro u hl
      exact (fcPort_onlyMem used u p (hl p (by simp))).trans (r := []) (r' := []) (ih _ fun q hq => hl q (by simp [hq]))
  unfold noteMem
  dsimp only
  refine OnlyMem.trans (r := []) (r' := []) ?_ (key _ _ _ (by decide))
  refine ⟨rfl, fun _ => rfl, fun a _ _ h _ => rd_put_ne s _ _ h⟩

end Sys2Proof.Machine.State
end

