-- ==== Sys2Proof/Laws/Host.lean ====
section
/-! SUPPORT. What a command's frame does: the clock moves on, the queue stays, and a write is served or not; and what the
advance of the clock keeps. -/

namespace Sys2Proof.Machine

/-- The clock stays sound as it advances. -/
theorem Clk.sound_advance (c : Clk) (t : Nat) (h : c.Sound) : (c.advance t).Sound := by
  intro hs
  have hb : 0 < beatTicks := by decide
  have h' := h hs
  simp only [advance] at hs ⊢
  rw [hs]
  simp only [if_true]
  refine ⟨h'.1, ?_, ?_⟩ <;> omega

/-- A sound clock gives a sound clock at the next boundary. -/
theorem Clk.sound_boundary (c : Clk) (t : Nat) (h : c.Sound) : (c.boundary t).Sound := by
  intro hs
  have hb : 0 < beatTicks := by decide
  unfold boundary at *
  split
  · rename_i h0
    have h' := h h0
    refine ⟨?_, ?_, ?_⟩ <;> dsimp only <;> omega
  · refine ⟨?_, ?_, ?_⟩ <;> dsimp only <;> omega

namespace State

/-- A command in the running 9340: its effect at instant t, with the clock of t and the queue as it was. -/
theorem act_up (s : State) (t : Nat) (f : State → State) (h : s.up = true) :
    s.act t f = .next { f (s.atTick t) with clk := s.clk.advance t, pending := s.pending } := by
  unfold act
  have hu : (s.atTick t).up = true := h
  simp only [hu, if_true]
  rfl

/-- In OFF and RESET a command only lets time pass (R534). -/
theorem act_down (s : State) (t : Nat) (f : State → State) (h : s.up = false) : s.act t f = .next (s.atTick t) := by
  unfold act
  have hu : (s.atTick t).up = false := h
  simp [hu]

/-- A command's effect that keeps clock and queue is its whole result. -/
theorem act_eq (s : State) (t : Nat) (f : State → State) (h : s.up = true) (hc : (f (s.atTick t)).clk = s.clk.advance t)
    (hp : (f (s.atTick t)).pending = s.pending) : s.act t f = .next (f (s.atTick t)) := by
  rw [act_up s t f h, ← hc, ← hp]

/-- Every command of this shape goes on. -/
theorem act_completes (s : State) (t : Nat) (f : State → State) : Completes (s.act t f) := by
  by_cases h : s.up = true
  · exact ⟨_, act_up s t f h⟩
  · exact ⟨_, act_down s t f (by simpa using h)⟩

/-- It keeps the queue. -/
theorem act_pending (s : State) (t : Nat) (f : State → State) {u : State} (h : s.act t f = .next u) : u.pending = s.pending := by
  by_cases hu : s.up = true
  · rw [act_up s t f hu] at h; cases h; rfl
  · rw [act_down s t f (by simpa using hu)] at h; cases h; rfl

/-- It advances the clock to its instant. -/
theorem act_clk (s : State) (t : Nat) (f : State → State) {u : State} (h : s.act t f = .next u) : u.clk = s.clk.advance t := by
  by_cases hu : s.up = true
  · rw [act_up s t f hu] at h; cases h; rfl
  · rw [act_down s t f (by simpa using hu)] at h; cases h; rfl

/-- A write of the owner in the running 9340 is served. -/
theorem hostWrite_serves (s : State) (p : Port) (off t : Nat) (f : State → State) (h : s.Serves p) :
    (s.atTick t).hostWrite p off f = f (s.atTick t) := by
  obtain ⟨_, h2, h3, h4, h5⟩ := h
  have a2 : (s.atTick t).linked p = true := by cases p <;> exact h2
  have a4 : (s.atTick t).ownedBy p = true := h4
  unfold hostWrite
  simp [a2, a4, h3, h5]

/-- A write that ownership asks for is served while Kwakel runs: the owner's in every phase of SEAL, and the claim and
heartbeat registers from either port (R32, R581). -/
theorem hostWrite_run (s : State) (p : Port) (t off : Nat) (f : State → State) (hl : s.linked p = true)
    (hk : s.mgmt.kstate = .running)
    (h : s.ownedBy p = true ∧ sealedServes off = true ∨ s.ownedBy p = false ∧ (off = Reg.OWN_CLAIM ∨ off = Reg.OWN_HEARTBEAT)) :
    (s.atTick t).hostWrite p off f = f (s.atTick t) := by
  have a2 : (s.atTick t).linked p = true := by cases p <;> exact hl
  unfold hostWrite
  rcases h with ⟨h, h2⟩ | ⟨h, h2⟩
  · have a4 : (s.atTick t).ownedBy p = true := h
    simp [a2, a4, hk, h2]
  · have a4 : (s.atTick t).ownedBy p = false := h
    rcases h2 with rfl | rfl <;> simp [a2, a4, hk]

/-- A write in RECOVERY of a mailbox register is served from either port (R503). -/
theorem hostWrite_recovery (s : State) (p : Port) (off : Nat) (f : State → State) (h : s.linked p = true)
    (hk : s.mgmt.kstate = .recovery) (hm : isMailbox off = true) : s.hostWrite p off f = f s := by
  unfold hostWrite
  simp [h, hk, hm]

/-- The result of an owner's command over a served write. -/
theorem act_serves (s : State) (p : Port) (off t : Nat) (f : State → State) (h : s.Serves p) :
    (s.act t fun s => s.hostWrite p off f) = .next { f (s.atTick t) with clk := s.clk.advance t, pending := s.pending } := by
  rw [act_up s t _ h.1, hostWrite_serves s p off t f h]

/-- The same, where the write keeps clock and queue. -/
theorem act_serves_eq (s : State) (p : Port) (off t : Nat) (f : State → State) (h : s.Serves p)
    (hc : (f (s.atTick t)).clk = s.clk.advance t) (hp : (f (s.atTick t)).pending = s.pending) :
    (s.act t fun s => s.hostWrite p off f) = .next (f (s.atTick t)) := by
  rw [act_serves s p off t f h, ← hc, ← hp]

@[simp] theorem clk_atTick (s : State) (t : Nat) : (s.atTick t).clk = s.clk.advance t := rfl
@[simp] theorem up_atTick (s : State) (t : Nat) : (s.atTick t).up = s.up := rfl
@[simp] theorem get_atTick (s : State) (t a : Nat) (f : Fd) : (s.atTick t).get a f = s.get a f := rfl
@[simp] theorem flag_atTick (s : State) (t a : Nat) (f : Fd) : (s.atTick t).flag a f = s.flag a f := rfl
@[simp] theorem isBusy_atTick (s : State) (t page : Nat) : (s.atTick t).isBusy page = s.isBusy page := rfl
@[simp] theorem portOwn_atTick (s : State) (t : Nat) (p : Port) : (s.atTick t).portOwn p = s.portOwn p := by cases p <;> rfl
@[simp] theorem ownedBy_atTick (s : State) (t : Nat) (p : Port) : (s.atTick t).ownedBy p = s.ownedBy p := rfl
@[simp] theorem slot_atTick (s : State) (t i : Nat) : (s.atTick t).slot i = s.slot i := rfl

end State

end Sys2Proof.Machine
end

