-- ==== Sys2Proof/Laws/Mem.lean ====
section
/-! SUPPORT. Laws of host scratch: a read after a write, and that every operation on it keeps the canonical form. -/

namespace Sys2Proof.Machine

/-- A byte after one byte was written. -/
theorem memGet_memPut (m : List Host.Cell) (a j : Nat) (b : BitVec 8) : memGet (memPut m a b) j = if j = a then b else memGet m j :=
  Assoc.get_set _ _ _ _ _

/-- A byte after a run of bytes was written: inside the run the byte written, outside it the old one. -/
theorem memGet_memWrite (m : List Host.Cell) (a j : Nat) (bs : List (BitVec 8)) :
    memGet (memWrite m a bs) j = if a ≤ j then (bs[j - a]?).getD (memGet m j) else memGet m j := by
  induction bs generalizing m a with
  | nil => simp [memWrite]
  | cons b bs ih =>
    rw [memWrite, ih, memGet_memPut]
    by_cases h : j = a
    · subst h
      simp
    · by_cases h2 : a + 1 ≤ j
      · obtain ⟨k, rfl⟩ : ∃ k, j = a + 1 + k := ⟨j - (a + 1), by omega⟩
        have e : a + 1 + k - a = k + 1 := by omega
        have e2 : a + 1 + k - (a + 1) = k := by omega
        rw [e, e2]
        simp [h]
        omega
      · have : ¬ a ≤ j := by omega
        simp [h, h2, this]

/-- A byte outside the bytes written keeps its value. -/
theorem memGet_memWrite_ne (m : List Host.Cell) (a j : Nat) (bs : List (BitVec 8)) (h : j < a ∨ a + bs.length ≤ j) :
    memGet (memWrite m a bs) j = memGet m j := by
  rw [memGet_memWrite]
  split
  · have : bs.length ≤ j - a := by omega
    simp [List.getElem?_eq_none this]
  · rfl

/-- Writing a byte keeps the canonical form. -/
theorem memPut_wf (m : List Host.Cell) (a : Nat) (b : BitVec 8) (h : Memory.wf m) : Memory.wf (memPut m a b) :=
  Assoc.canonical_set _ _ _ _ h

/-- Writing a run of bytes keeps the canonical form. -/
theorem memWrite_wf (m : List Host.Cell) (a : Nat) (bs : List (BitVec 8)) (h : Memory.wf m) : Memory.wf (memWrite m a bs) := by
  induction bs generalizing m a with
  | nil => exact h
  | cons b bs ih => exact ih _ _ (memPut_wf m a b h)

/-- Empty scratch, as after reset and after initialisation, is in the canonical form. -/
theorem memory_wf_nil : Memory.wf [] := Assoc.canonical_nil _

namespace State

/-- Scratch as reset leaves it is in the canonical form. -/
theorem reset_mem_wf : Memory.wf State.reset.mem.scratch := memory_wf_nil

@[simp] theorem clearPoison_scratch (s : State) (a : Nat) : (s.clearPoison a).mem.scratch = s.mem.scratch := rfl

/-- A write to scratch changes its bytes as `memWrite` does. -/
theorem scratchWrite_scratch (s : State) (off : Nat) (bs : List Byte) :
    (s.scratchWrite off bs).mem.scratch = memWrite s.mem.scratch off bs := by
  have key : ∀ (l : List Nat) (f : Nat → Nat) (u : State), (l.foldl (fun s i => s.clearPoison (f i)) u).mem.scratch = u.mem.scratch := by
    intro l f
    induction l with
    | nil => intro u; rfl
    | cons x xs ih => intro u; rw [List.foldl_cons, ih, clearPoison_scratch]
  unfold scratchWrite
  dsimp only
  rw [key]
  simp

/-- A write to scratch keeps the canonical form. -/
theorem scratchWrite_wf (s : State) (off : Nat) (bs : List Byte) (h : Memory.wf s.mem.scratch) :
    Memory.wf (s.scratchWrite off bs).mem.scratch := by
  rw [scratchWrite_scratch]
  exact memWrite_wf _ _ _ h

/-- The bytes a transfer moves leave scratch in the canonical form. -/
theorem moveXfer_wf (s : State) (x : XferRun) (n : Nat) (h : Memory.wf s.mem.scratch) : Memory.wf (s.moveXfer x n).mem.scratch := by
  unfold moveXfer
  split
  · split
    · exact h
    · exact h
  · exact scratchWrite_wf s _ _ h

end State

end Sys2Proof.Machine
end

