-- ==== Sys2Proof/WellFormed.lean ====
section
/-! DEFINITION. Well-formed commands: operands in the ranges that the manual gives them. The meanings are total on any
operands; a host of the model is expected to send well-formed commands only. -/

namespace Sys2Proof

/-- A 16-bit signed sample. -/
def sampleOk (x : Int) : Bool := -32768 ≤ x && x ≤ 32767

/-- A temperature in 1/16 °C that a thermal diode reads, −128 °C to 128 °C. -/
def tempOk (x : Int) : Bool := -2048 ≤ x && x < 2048

/-- An offset of BAR0 (64 MiB) or of BAR2 (1 MiB) (R18). -/
def offOk (bar2 : Bool) (off : Nat) : Bool := off < if bar2 then 2 ^ 20 else 2 ^ 26

/-- A size in bytes of a PCIe access to a register. -/
def sizeOk (n : Nat) : Bool := n = 1 || n = 2 || n = 4 || n = 8

/-- A clip of R210, at 8 or 16 kHz. -/
def Clip.wf (c : Clip) : Bool := (c.khz = 8 || c.khz = 16) && 0 < c.len

/-- A ring descriptor as host memory holds one (R398, R399). -/
def RingDesc.wf (d : RingDesc) : Bool := d.addr < 2 ^ 64 && d.len < 65536 && d.ctrl < 2 ^ 32

/-- What comes with a register write. -/
def WriteIn.wf (x : WriteIn) : Bool :=
  (x.clips.all fun c => c.1 < 1024 && c.2.wf) && x.data.length ≤ 65536 && x.orphans ≤ 2048 && x.descs.all RingDesc.wf

/-- A pool of servers: clusters 0 to 15 (R251). -/
def Pool.wf : Pool → Bool
  | .cluster k => k < 16
  | .trellis => true
  | .archive => true

/-- A boundary's measurements: records in flight name rings 0 to 255. -/
def BoundaryInput.wf (x : BoundaryInput) : Bool := x.orphans.all fun o => o.1 < 256 && o.2 ≤ 2048

/-- A 64-byte sector (R465): at most four retries of the link (R464). -/
def SectorRead.wf (r : SectorRead) : Bool := r.addr % 64 = 0 && r.retries ≤ 4

/-- A place in on-chip memory (R489): 16 clusters of ten cores, 32 banks. -/
def SramLoc.wf (l : SramLoc) : Bool := l.cluster < 16 && l.core < 10 && l.bank < 32

/-- An archive section's choice: a fixed order of at most 4 or 1 to 32 coefficients of at most 16 bits (R439), at most 16
partitions with a parameter each (R440). -/
def SectionChoice.wf (c : SectionChoice) : Bool :=
  (match c.pred with
    | .fixed k => k ≤ 4
    | .linear w sh cs => 1 ≤ w && w ≤ 16 && sh ≤ 15 && 1 ≤ cs.length && cs.length ≤ 32)
  && c.part ≤ 4 && c.rs.length = 2 ^ c.part && c.rs.all (· ≤ 15)

/-- A frame on the wire: at least the addresses and a type, at most jumbo size. -/
def RxFrame.wf (f : RxFrame) : Bool := 14 ≤ f.bytes.length && f.bytes.length ≤ 16384 && f.dir.reads.all SectorRead.wf

/-- A PCM frame of a group's four highways (R373): at most 128 timeslots each. -/
def PcmFrameIn.wf (f : PcmFrameIn) : Bool := f.data.length ≤ 4 && f.data.all fun h => h.length ≤ 128

/-- A decoded Taldy frame (R424): 24 header bits. -/
def ModemRes.wf (r : ModemRes) : Bool := r.header < 2 ^ 24 && r.crc < 65536

/-- One leg's results of a beat: 16-bit samples and the five steps of tone detection (R196). -/
def LegResult.wf (r : LegResult) : Bool := r.audio.all sampleOk && r.out.all sampleOk && (r.steps.length = 0 || r.steps.length = 5)

/-- A job's results: no more than five sub-blocks of echo cancellation (R127). -/
def JobResult.wf (r : JobResult) : Bool := r.legA.wf && r.legB.wf && r.ec.subs.length ≤ 5 && r.corrected.all SramLoc.wf

/-- A command whose operands lie in the ranges that the manual gives them. -/
def Instr.wf : Instr → Bool
  | .registerWrite _ _ bar2 off size _ _ x => offOk bar2 off && sizeOk size && x.wf
  | .rcRead _ _ bar2 off => offOk bar2 off
  | .evtForce _ _ page _ => page < 16384
  | .claim .. => true
  | .withdraw .. => true
  | .release .. => true
  | .ownHeartbeat .. => true
  | .ownHandover .. => true
  | .heartbeatDeadlineExpiry .. => true
  | .functionLevelReset .. => true
  | .perstN .. => true
  | .beatBoundary _ inp => inp.wf
  | .referenceQualify .. => true
  | .referenceDisqualify .. => true
  | .cut .. => true
  | .ingressSeal .. => true
  | .jobDeadline .. => true
  | .beatNowRead .. => true
  | .jobGrant _ pool => pool.wf
  | .stagingComplete _ k core reads => k < 16 && core < 10 && reads.all SectorRead.wf
  | .jobStart _ k core => k < 16 && core < 10
  | .jobHandover _ k core digest => k < 16 && core < 10 && digest < 2 ^ 32
  | .partnerDigest _ chan => chan < 65536
  | .jobCommit _ chan result => chan < 65536 && result.wf
  | .writeBackComplete _ k chan _ => k < 16 && chan < 65536
  | .coreFault _ k core detect loc => k < 16 && core < 10 && detect < 16 && loc.all SramLoc.wf
  | .coreSelfCheckDone _ k core => k < 16 && core < 10
  | .jobOverrun _ k core => k < 16 && core < 10
  | .holdRelease .. => true
  | .traceModeWrite .. => true
  | .traceMark .. => true
  | .traceRdIdx .. => true
  | .traceStoreFull .. => true
  | .traceTriggerStop .. => true
  | .txnOpen .. => true
  | .rwtWrite _ _ off _ => offOk false off && off % 4 = 0
  | .txnCommit .. => true
  | .txnAbort .. => true
  | .chanCmdStage .. => true
  | .standingListWrite .. => true
  | .query .. => true
  | .hostcmdJobDone _ page => page < 256
  | .ecanFreeze .. => true
  | .ecanRun .. => true
  | .ecanLock .. => true
  | .ecanUnlock .. => true
  | .ecanReset .. => true
  | .nlpProfile .. => true
  | .nlpOff .. => true
  | .nlpClip .. => true
  | .nlpComfort .. => true
  | .ecanProfile .. => true
  | .ecanStatChan .. => true
  | .codecStatLeg .. => true
  | .jbufStatLeg .. => true
  | .rateStatLeg .. => true
  | .egsStatFlow .. => true
  | .mdmStatChan .. => true
  | .keyLimit .. => true
  | .oldKeyErase .. => true
  | .toneGenDtmf .. => true
  | .toneGenDesc .. => true
  | .toneGenStop .. => true
  | .relayTimeout .. => true
  | .dcbFreeze .. => true
  | .dcbRun .. => true
  | .clearSat .. => true
  | .frameReceive _ _ frame _ => frame.wf
  | .pktJobDone _ _ dir _ => dir.reads.all SectorRead.wf
  | .reasmTimeout .. => true
  | .overload .. => true
  | .epdInsert .. => true
  | .epdDelete .. => true
  | .epdModify .. => true
  | .epdRead .. => true
  | .epdLookup .. => true
  | .epdCmdDone .. => true
  | .loadCurrent .. => true
  | .loadNext .. => true
  | .srtpErase .. => true
  | .txOpportunity .. => true
  | .frameTxDone .. => true
  | .shaperRefill .. => true
  | .egsAggWrite .. => true
  | .egsAggRead .. => true
  | .shpWrite .. => true
  | .shpRead .. => true
  | .macLaneModeWrite .. => true
  | .macCtrlWrite .. => true
  | .linkUp .. => true
  | .linkDown .. => true
  | .reverted .. => true
  | .lpairWrite .. => true
  | .preemptVerifyDone .. => true
  | .pauseFrame _ _ frame => frame.wf
  | .pauseHoldEnd .. => true
  | .pauseBreak .. => true
  | .holdoffEnd .. => true
  | .flowControlRepeat .. => true
  | .timeFreqWrite .. => true
  | .timeSet .. => true
  | .timeAdjust .. => true
  | .stopSlew .. => true
  | .slewDone .. => true
  | .timeNowRead .. => true
  | .ptimeTsqPop .. => true
  | .pgArm .. => true
  | .pgDisarm .. => true
  | .pgFired .. => true
  | .ppsOutEdge .. => true
  | .ppsIn .. => true
  | .todLine .. => true
  | .gateChange .. => true
  | .gateCancel .. => true
  | .changed .. => true
  | .gateEntry .. => true
  | .pcmFrame _ _ frame => frame.wf
  | .fsLost .. => true
  | .pcmGroupCfgWrite .. => true
  | .pcmHwyCfgWrite .. => true
  | .ringEnable .. => true
  | .ringDisable _ _ _ orphans => orphans ≤ 2048
  | .ringFlush _ _ _ orphans => orphans ≤ 2048
  | .doorbell _ _ _ _ descs => descs.all RingDesc.wf
  | .txDescFetch _ _ bytes => bytes.length ≤ 65536
  | .txCompletion .. => true
  | .mdmTxCmd .. => true
  | .mdmMapWrite .. => true
  | .mdmMapRead .. => true
  | .modemJobDone _ _ res => res.wf
  | .archiveJobDone _ _ c0 c1 reads => c0.wf && c1.wf && reads.all SectorRead.wf
  | .segmentWaitResolve .. => true
  | .arcAppend .. => true
  | .arcQuery .. => true
  | .arcXfer .. => true
  | .arcDecode .. => true
  | .arcCmdDone _ reads => reads.all SectorRead.wf
  | .arcDonePop .. => true
  | .memTrainingDone _ failed => failed.all (· < 4)
  | .memInitDone .. => true
  | .faultRecordWrite .. => true
  | .scrubPass _ reads => reads.all SectorRead.wf
  | .retireSwitchDone .. => true
  | .retireFrameCmd .. => true
  | .retireRead .. => true
  | .memXferToHost .. => true
  | .memXferFromHost _ _ _ data => data.length ≤ 65536
  | .xferDone _ reads => reads.all SectorRead.wf
  | .stripeXlat .. => true
  | .sramRepair _ loc _ => loc.wf
  | .clusterLost _ k detect => k < 16 && detect < 16
  | .wbDrainDone _ k => k < 16
  | .unitFault _ archive k detect => k < (if archive then 16 else 4) && detect < 16
  | .pllSwitch .. => true
  | .pllUnlock _ pll => pll < 6
  | .injectCoreFault .. => true
  | .injectCorrError .. => true
  | .injectUncorrError .. => true
  | .injectClusterLoss .. => true
  | .restore .. => true
  | .porRelease .. => true
  | .porAssert .. => true
  | .libraryLoadDone _ failed => failed.all fun x => x.1 < 16 && x.2 < 10
  | .info .. => true
  | .imgBegin .. => true
  | .imgData .. => true
  | .imgEnd .. => true
  | .activateFirmware .. => true
  | .activateLibrary .. => true
  | .activateDataPackage _ _ clips _ => clips.all fun x => x.1 < 1024 && x.2.wf
  | .commitSvn .. => true
  | .mbxAbort .. => true
  | .board .. => true
  | .mbxCmdDone .. => true
  | .kwakelWatchdog .. => true
  | .kwakelRestart .. => true
  | .rotationStepLoadDone .. => true
  | .sensorSample _ temps volts devTemps _ => temps.length = 12 && volts.length = 8 && devTemps.length = 4 && temps.all tempOk && devTemps.all fun d => -128 ≤ d && d ≤ 127
  | .sensorFail _ volt k _ => k < (if volt then 8 else 12)
  | .flashLogWrite .. => true
  | .mgmtFrameReceive _ frame => frame.length ≤ 9216
  | .logRdSeq .. => true
  | .logNote .. => true
  | .lifeCmd .. => true
  | .directoryCopyDone .. => true
  | .standingConfigWrite .. => true
  | .enterMaint .. => true
  | .leaveMaint .. => true
  | .rotate .. => true
  | .constrainOn .. => true
  | .constrainOff .. => true
  | .powerTrigger .. => true
  | .constrainExit .. => true
  | .sealCmd .. => true
  | .unsealCmd .. => true
  | .wipe .. => true
  | .snapshot .. => true
  | .sealDeadline .. => true
  | .sealHoldExpiry .. => true
  | .sealWiped .. => true
  | .gpioEdge .. => true
  | .vddAonLoss .. => true
  | .vddAonReturn .. => true
  | .firmwareVerified .. => true
  | .lifeChangeReset .. => true
  | .pulseEnd _ k => k.toNat ≤ 4
  | .maintJobDone _ task reads => task < 16 && reads.all SectorRead.wf
  | .powerTriggerEnd .. => true

end Sys2Proof
end

