-- ==== Sys2Proof/Tests/Slice0.lean ====
section
/-! SUPPORT. Tests: the checks of WellFormed, examples of the manual and of its tables worked by hand, and for each statement
with hypotheses a state and operands that meet them. -/

open Sys2Proof Sys2Proof.Machine

namespace Sys2Proof.Tests

/-! ## States to try things on -/

/-- A channel configuration: leg A a packet leg of G.711 µ-law, leg B timeslot 3 of highway 2. -/
def tCfg : ChanCfg :=
  { emergency := false, paired := false, standing := false, record := false, phaseSet := false, phase := 0, ec := .legB,
    detA := false, detB := false, relayA := false, relayB := false, sess := .none, sessSideB := false,
    legA := .packet 0 4 0 false 7 99 5 3 1 20 0 0, legB := .pcm 0 2 3, ring := 0 }

/-- A leg that has done nothing yet. -/
def tLeg : LegRun := LegRun.fresh (CodecRun.fresh 1 2 0) (RateRun.fresh 8000 8000) (SrcRun.fresh none) 20

/-- Channel `n` of life `uid`. -/
def tChan (n uid : Nat) : Chan :=
  { num := n, uid := uid, cfg := tCfg, phase := 0, home := n % 16, openBeat := 0, lastBeat := 0, commit := none, lastJob := none,
    version := 0, costEvery := 0, costFrame := 0, skips := 0, aborts := 0, mismatches := 0, lastTag := 0, session := none,
    stream := none, ctls := [], hostMaps := [], compact := false, leftover := false, vbd := false, vbdQuiet := 0,
    ec := EcRun.fresh, taldy := TaldyRun.fresh, fax := FaxRun.fresh, legA := tLeg, legB := tLeg }

/-- Clusters that serve with nine cores each and the tenth in reserve. -/
def tCluster : Cluster :=
  { Cluster.fresh with cstate := .serving, cores := (List.range 10).map fun i =>
      { Core.fresh with role := if i < 9 then .serving else .reserve } }

/-- A 9340 in SERVICE at beat 5, port A its owner, memory READY, channel 17 open. -/
def tS : State :=
  let on : PortOwn := { PortOwn.fresh with claim := true, deadline := 10 ^ 15, beaten := true }
  { State.reset with
    clk := { now := 40 * beatTicks + 1000, at0 := 40 * beatTicks, n := 5, started := true, t0 := 35 * beatTicks }
    pwr := { vddAon := true, porn := true, trip := false, linkA := true, linkB := true }
    regs := [(Reg.MEM_STATE, 3)]
    own := { Own.fresh with owner := .host .a, epoch := 1, lastCause := 1, pa := on }
    mgmt := { Mgmt.fresh with kstate := .running, boots := true, restoredConfig := true }
    modes := { Modes.fresh with mode := 2, everBringup := true, ended := true, dirCopied := true }
    clusters := List.replicate 16 tCluster, chans := [(17, tChan 17 1)], nextUid := 1, nw := Net.fresh }

/-- The same with a register written. -/
def tW (a : Nat) (w : Word) : State := tS.wr a w

/-- A bank's host-made job. -/
def tJob (id : Nat) : Job := { tS.beatJob (tChan 17 1) 5 false with id := id }

/-- The owner's writes are served in tS. -/
theorem tS_serves : tS.Serves .a := by unfold State.Serves; decide

/-- The state after a command that goes on. -/
def tNext (c : Instr) (s : State) : State :=
  match exec c s with
  | .next u => u
  | _ => s

/-! ## Ownership, the beat, references -/

/-- Port B holds a claim beside the owner. -/
def tSb : State := tS.setPortOwn .b { PortOwn.fresh with claim := true, deadline := 10 ^ 15 }

theorem wit_OwnershipRequests :
    tS.up = true ∧ tS.linked .b = true ∧ tS.mgmt.kstate = .running ∧ tS.ownedBy .b = false ∧ (tS.portOwn .b).claim = false
      ∧ (tSb.ownedBy .b = false ∧ (tSb.portOwn .b).claim = true)
      ∧ (tSb.ownedBy .a = true ∧ (tSb.portOwn .a).claim = true ∧ (tSb.portOwn (otherPort .a)).claim = true
        ∧ tSb.hasOpenTxn .a = false ∧ tSb.linked .a = true ∧ tSb.mgmt.kstate = .running ∧ tSb.up = true) := by decide

/-- Port A's deadline is this very instant. -/
def tDue : State := tS.setPortOwn .a { PortOwn.fresh with claim := true, deadline := tS.clk.now }

theorem wit_Heartbeats : tDue.up = true ∧ (tDue.portOwn .a).claim = true ∧ (tDue.portOwn .a).deadline ≤ (tDue.clk.advance 0).now := by
  decide

theorem wit_FunctionLevelReset : tS.up = true ∧ (tS.setLink .b false).up = true ∧ (tS.setLink .b false).linked .b = false := by
  decide

/-- Before the first boundary. -/
def tBoot : State := { tS with clk := { Clk.zero with now := 77 } }

theorem wit_BeatLength : tS.up = true ∧ tS.clk.started = true := by decide

theorem wit_FirstBoundary :
    (tBoot.up = true ∧ tBoot.clk.started = false ∧ tBoot.mgmt.boots = true)
      ∧ { tBoot with mgmt := Mgmt.fresh }.up = true ∧ { tBoot with mgmt := Mgmt.fresh }.clk.started = false
      ∧ { tBoot with mgmt := Mgmt.fresh }.mgmt.boots = false := by decide

/-- A 9340 that no port owns, with claims asked for. -/
def tAsk (both : Bool) : State :=
  { tS with own := { Own.fresh with epoch := 255, pa := { PortOwn.fresh with claimReq := true },
                                    pb := { PortOwn.fresh with claimReq := both } } }

theorem wit_ClaimGranted (both : Bool) :
    (tAsk both).mgmt.kstate = .running ∧ (tAsk both).own.owner = .none
      ∧ (tAsk both).own.pa = { PortOwn.fresh with claimReq := true } ∧ (tAsk both).own.pb = { PortOwn.fresh with claimReq := both } := by
  cases both <;> decide

/-- The PCM reference is qualified and active. -/
def tRef : State := { tS with refs := { tS.refs with qualPcm := true, active := .pcm } }

/-- The network clock is synchronised. -/
def tSync : State := tS.putB Reg.TIME_CTRL Fd.TIME_CTRL.SYNCED true

theorem wit_ReferenceChanges :
    tS.up = true ∧ (1#2).toNat ≠ 3 ∧ (tSync.up = true ∧ (0#2).toNat = 0 ∧ tSync.netMayQualify = true)
      ∧ tRef.up = true ∧ tRef.refQualified (1#2).toNat = true ∧ tRef.activeRef = (1#2).toNat := by decide

/-- A beat whose seal is late. -/
def tLate : State := { tS with refs := { tS.refs with late := true } }

theorem wit_CutSealAndNow :
    tS.up = true ∧ tS.clk.started = true ∧ tS.nextCut ≤ (tS.clk.advance tS.nextCut).now ∧ tS.refs.late = false
      ∧ tS.framesBefore tS.nextCut = false ∧ tS.linked .a = true ∧ tS.mgmt.kstate ≠ .boot
      ∧ tLate.up = true ∧ tLate.refs.late = true ∧ tLate.framesBefore tLate.lastCut = false := by decide

/-! ## Jobs, faults, the trace -/

/-- The job of channel 17 is ready, and a dispatcher cycle has gone by. -/
def tReady : State :=
  { tS.makeReady (tJob 0) with clk := { tS.clk with now := tS.clk.now + 1000 } }

/-- That job. -/
def tJ (s : State) : Job := s.disp.jobs.headD (tJob 0)

/-- The job granted, staged, running and handed over. -/
def tGrant : State := tNext (.jobGrant 0 (.cluster 1)) tReady
def tStaged : State := tNext (.stagingComplete 0 1 0 []) tGrant
def tRun : State := tNext (.jobStart 0 1 0) tStaged
def tComm : State := tNext (.jobHandover 0 1 0 77) tRun

/-- A job that is held back. -/
def tHeld : State := { tS with disp := { tS.disp with held := [tJob 4] } }

theorem wit_GrantAndRelease :
    tReady.up = true ∧ (tReady.atTick 0).poolGranted (.cluster 1) = false
      ∧ (tReady.atTick 0).firstAsk 1 = some (0, tJ tReady, false) ∧ tReady.job (tJ tReady).id = some (tJ tReady)
      ∧ (tReady.core 1 0).isSome = true
      ∧ tHeld.up = true ∧ tHeld.disp.jobs.length < maxEntries ∧ State.firstHeld tHeld.disp.held = some (tJob 4) := by decide

theorem wit_JobOnCore :
    tGrant.up = true ∧ tGrant.job (tJ tGrant).id = some (tJ tGrant) ∧ tGrant.slotJob 1 0 = some (tJ tGrant)
      ∧ tGrant.nextToStage 1 = some (tJ tGrant)
      ∧ tStaged.up = true ∧ tStaged.slotJob 1 0 = some (tJ tStaged) ∧ tStaged.serves 1 = true ∧ (tJ tStaged).staged = true
      ∧ (∃ c, tStaged.core 1 0 = some c ∧ c.run = none ∧ c.checking = none ∧ c.inject = false)
      ∧ tRun.up = true ∧ tRun.runJob 1 0 = some (tJ tRun) ∧ (tJ tRun).state = .running ∧ (tJ tRun).server = some (.core 1 0)
      ∧ (tRun.atTick 0).elapsed 1 (tJ tRun) < tRun.budget (tJ tRun) := by
  refine ⟨by decide, by decide, by decide, by decide, by decide, by decide, by decide, by decide, ⟨_, rfl, ?_⟩, by decide, by decide,
    by decide, by decide, by decide⟩
  decide

/-- Channel 17 whose state is of beat 4. -/
def tInTurn : State := { tComm with chans := [(17, { tChan 17 1 with lastBeat := 4 })] }

/-- Both sides of a paired job handed over, with digests that agree or not. -/
def tPair (d : Nat) : State :=
  let h := { tJ tComm with paired := true, peer := some d }
  let x := { tJ tComm with id := 90, partner := true, paired := true, flow := flowOf .beat true 17, digest := some d, server := some (.core 9 0) }
  { tInTurn with disp := { tInTurn.disp with jobs := [h, x] } }

/-- The same before the partner's digest has come. -/
def tPeer : State := { tPair 5 with disp := { (tPair 5).disp with jobs := (tPair 5).disp.jobs.map fun j => { j with peer := none } } }

/-- The job flagged by poison. -/
def tFlag : State := { tInTurn with disp := { tInTurn.disp with jobs := [{ tJ tComm with flagged := true }] } }

theorem wit_CommitUnit :
    (tInTurn.up = true ∧ tInTurn.committingJob 17 = some (tJ tInTurn) ∧ tInTurn.wbFull (State.jobCluster (tJ tInTurn)) = false
      ∧ tInTurn.life (tJ tInTurn).uid = some { tChan 17 1 with lastBeat := 4 }
      ∧ (tInTurn.atTick 0).inTurn (tJ tInTurn) { tChan 17 1 with lastBeat := 4 } = true ∧ (tJ tInTurn).flagged = false
      ∧ tInTurn.otherSide (tJ tInTurn) = none)
      ∧ (tComm.committingJob 17 = some (tJ tComm) ∧ tComm.life 1 = some (tChan 17 1)
        ∧ (tComm.atTick 0).inTurn (tJ tComm) (tChan 17 1) = false)
      ∧ (tFlag.committingJob 17 = some (tJ tFlag) ∧ (tFlag.atTick 0).inTurn (tJ tFlag) { tChan 17 1 with lastBeat := 4 } = true
        ∧ (tJ tFlag).flagged = true)
      ∧ ((tPair 5).committingJob 17 = some (tJ (tPair 5)) ∧ ((tPair 5).otherSide (tJ (tPair 5))).isSome = true
        ∧ ((tPair 5).atTick 0).inTurn (tJ (tPair 5)) { tChan 17 1 with lastBeat := 4 } = true
        ∧ (tJ (tPair 5)).paired = true ∧ (tJ (tPair 5)).peer ≠ (tJ (tPair 5)).digest)
      ∧ tPeer.up = true ∧ (tPeer.disp.jobs.find? (fun j => j.kind = .beat && j.partner && j.chan = 17 && j.state = .committing)).isSome = true
        ∧ ((tPeer.disp.jobs.find? (fun j => j.kind = .beat && j.partner && j.chan = 17 && j.state = .committing)).bind
          tPeer.otherSide).isSome = true := by decide

/-- At the deadline of beat 4. -/
def tDead (had : Bool) (last : Option Nat) : State :=
  { tS with disp := { tS.disp with work := [{ beat := 4, had := had, last := last }] } }

/-- A MAINT job that a core runs. -/
def tMaintJob : State :=
  { tS with disp := { tS.disp with jobs := [{ tS.plainJob .maint 3 0 with id := 8, state := .running, server := some (.core 0 0) }] } }

theorem wit_DeadlineAndOverrun :
    tS.up = true ∧ (tDead true none).clk.started = true
      ∧ (tDead true none).clk.prevDeadline ≤ ((tDead true none).clk.advance (tDead true none).clk.prevDeadline).now
      ∧ (tDead true (some 100)).workOf ((tDead true none).clk.n - 1) = some { beat := 4, had := true, last := some 100 }
      ∧ (tDead true none).beatJobs ((tDead true none).clk.n - 1) = [] ∧ (tDead true none).disp.held = []
      ∧ tRun.runJob 1 0 = some (tJ tRun) ∧ (tJ tRun).kind = .beat
      ∧ tRun.budget (tJ tRun) ≤ (tRun.atTick (tRun.clk.at0 + beatTicks - 1)).elapsed 1 (tJ tRun)
      ∧ tMaintJob.up = true ∧ (tMaintJob.coreJob .maint 3).isSome = true := by decide

theorem wit_FaultsAreCharged :
    tS.up = true ∧ tS.cluster 15 = some tCluster ∧ (tS.core 15 9).isSome = true ∧ tS.disp.jobs = []
      ∧ (tS.poolUnits true)[15]? = some PoolUnit.fresh ∧ (tS.poolUnits false)[3]? = some PoolUnit.fresh := by decide

/-- A cluster that is lost. -/
def tLost : State := tS.modCluster 3 fun c => { c with cstate := .lost, lostInjected := true }

/-- A place in the shared SRAM of cluster 4 with a repair due. -/
def tLoc : SramLoc := { shared := true, cluster := 4, core := 0, bank := 2, row := 7, word := 1, bitPos := 3 }
def tSram : State := { tS with spares := { tS.spares with due := [{ loc := tLoc, column := true }] } }

theorem wit_ClusterPllAndRepair :
    tS.up = true ∧ (tS.cluster 15).isSome = true ∧ tLost.cluster 3 = some { tCluster with cstate := .lost, lostInjected := true }
      ∧ tS.spares.onStandby = false ∧ 5 < 6 ∧ (tSram.spares.due.any fun y => State.sameLine { loc := tLoc, column := true } y) = true
      ∧ tSram.repairFree tLoc = true ∧ (tSram.bankUse tLoc).cols < bankSpares := by decide

/-- A word of REL_INJECT for core 8 of cluster 3. -/
def tInj : Word := 0x00380000

theorem wit_InjectedFaults :
    bitsOf tInj 23 20 = 3 ∧ bitsOf tInj 19 16 = 8 ∧ tS.coreServes 3 8 = true ∧ tS.Serves .a
      ∧ { tS with modes := { tS.modes with maint := true } }.modes.maint = true ∧ (tS.cluster 3).isSome = true
      ∧ (tLost.Serves .a) ∧ tLost.cluster 3 = some { tCluster with cstate := .lost, lostInjected := true } := by
  unfold State.Serves; decide

/-- The trace runs in mode 1 with one record. -/
def tTrace (mode : Nat) : State :=
  { tS.put Reg.TRACE_CTRL Fd.TRACE_CTRL.MODE mode with trace := { tS.trace with recs := [{ idx := 0, words := [1, 2, 3, 4] }], count := 8192, post := some 0 } }

theorem wit_TraceCommands :
    bitsOf (4 : Word) 2 0 ≤ 4 ∧ tS.modes.bringup = false ∧ tS.traceMode = 0
      ∧ (tS.put Reg.TRACE_CTRL Fd.TRACE_CTRL.MODE 1).traceOn = true ∧ (tS.put Reg.TRACE_CTRL Fd.TRACE_CTRL.MODE 1).traceMode = 1
      ∧ (tTrace 1).trace.recs.find? (fun r => r.idx = 0) = some { idx := 0, words := [1, 2, 3, 4] }
      ∧ (tTrace 2).up = true ∧ (tTrace 2).traceMode ≠ 0 ∧ (tTrace 2).trace.stopped = false ∧ (tTrace 2).traceFull = true
      ∧ (tTrace 1).tracePosted = true ∧ (tTrace 1).Serves .a ∧ (tS.put Reg.TRACE_CTRL Fd.TRACE_CTRL.MODE 1).Serves .a := by
  unfold State.Serves; decide

/-! ## Transactions and channels -/

/-- Slot 0 with a state and entries. -/
def tSlot (st : SlotState) (es : List Entry) : TxnSlot := { TxnSlot.fresh with state := st, entries := es, target := 9 }

/-- Slot 0 open, staging on, and a target that has not come. -/
def tTxn (st : SlotState) (es : List Entry) : State :=
  { ((tS.put Reg.TXN_CUR Fd.TXN_CUR.EN 1).wr Reg.TXN_TARGET 9) with txns := tSlot st es :: List.replicate 15 TxnSlot.fresh }

theorem wit_TransactionSlots :
    (tTxn .free []).Serves .a ∧ State.slotPort (0#4).toNat = .a ∧ (tTxn .free []).slot 0 = some (tSlot .free [])
      ∧ (tTxn .opened []).Serves .a ∧ (tTxn .opened []).slot 0 = some (tSlot .opened []) ∧ (tSlot .opened []).poisoned = false
      ∧ (tTxn .opened []).reachedBeat ((tTxn .opened []).rd Reg.TXN_TARGET) = false ∧ (tTxn .opened []).wipeBars = false
      ∧ (tTxn .opened []).conflictAt [] = none
      ∧ (tTxn .pending []).Serves .a ∧ (tTxn .pending []).reachedBeat (tSlot .pending []).target = false := by
  unfold State.Serves; decide

/-- A CLOSE of channel 17 in the command buffer. -/
def tClose : State := (tTxn .opened []).wr (Reg.CHAN_CMDBUF 0) (Word.of (3 + 256 + 17 * 2 ^ 32))

theorem wit_Staging :
    (tTxn .opened []).Serves .a ∧ hasAcc Reg.JBUF_TIMES .rwt = true
      ∧ (tTxn .opened []).stagingSlot .a = some (0, tSlot .opened []) ∧ (tSlot .opened []).entries.length < maxTxnEntries
      ∧ fieldsOk (fieldsAt Reg.JBUF_TIMES) [.rw] (tS.rd Reg.JBUF_TIMES) = true
      ∧ fieldsOk (fieldsAt Reg.JBUF_TIMES) [.rwt] (tS.rd Reg.JBUF_TIMES) = true ∧ stagedOk Reg.JBUF_TIMES (tS.rd Reg.JBUF_TIMES) = true
      ∧ State.regEntry Reg.JBUF_TIMES (tSlot .opened []).entries = none
      ∧ State.regEntry Reg.JBUF_TIMES (tSlot .opened [.reg Reg.JBUF_TIMES 0]).entries = some 0
      ∧ (tTxn .opened [.reg Reg.JBUF_TIMES 0]).stagingSlot .a = some (0, tSlot .opened [.reg Reg.JBUF_TIMES 0])
      ∧ tClose.Serves .a ∧ tClose.isBusy Pg.CHAN = false ∧ tClose.stagingSlot .a = some (0, tSlot .opened [])
      ∧ cmdKind tClose.cmdBuf = some .close ∧ stageOk .close (tClose.cmdBuf.take (leAt tClose.cmdBuf 1 1 * 8)) = true
      ∧ tS.stagingSlot .a = none ∧ tS.isBusy Pg.CHAN = false := by
  unfold State.Serves; decide

/-- A transaction whose second entry, a CLOSE of a channel that is not open, fails. -/
def tFail : State := tTxn .pending [.reg Reg.JBUF_TIMES 0x00140028, .cmd .close [3, 1, 0, 0, 99, 0, 0, 0]]

theorem wit_TransactionsAreAtomic :
    0 < 16 ∧ tFail.txns.length = 16 ∧ (tFail.slot 0).isSome = true
      ∧ (match tFail.tryTxn (tSlot .pending [.reg Reg.JBUF_TIMES 0x00140028, .cmd .close [3, 1, 0, 0, 99, 0, 0, 0]]) with
        | .error (e, f) => decide (e = 1 ∧ f.status = .unknownChannel)
        | .ok _ => false) = true := by decide

/-- Kwakel has work on the standing list. -/
def tWork (w : FlashWork) : State := { tS with mgmt := { tS.mgmt with work := [.config, w] } }

theorem wit_StandingList :
    (tWork (.standing 17 [1, 12])).up = true ∧ (tWork (.standing 17 [1, 12])).mgmt.kstate = .running
      ∧ (tWork (.standing 17 [1, 12])).mgmt.work.find? State.isStandingWork = some (.standing 17 [1, 12])
      ∧ ((tWork (.standing 17 [1, 12])).mgmt.flash.standing.filter fun e => e.chan ≠ 17).length < 256
      ∧ (tWork (.unstand 17)).mgmt.work.find? State.isStandingWork = some (.unstand 17) := by decide

/-- A QUERY in the buffer, and a HOSTCMD job of the ECAN page that runs. -/
def tQuery : State := tS.wr (Reg.CHAN_CMDBUF 0) 4
def tHost : State :=
  { tS with disp := { tS.disp with jobs := [{ tS.plainJob .hostcmd Pg.ECAN 0 with id := 3, state := .running, server := some (.core 0 0) }] },
            snaps := [{ page := Pg.ECAN, status := 0, words := [256, 1, 2, 3, 4] }] }

theorem wit_Snapshots :
    tS.Serves .a ∧ tS.isBusy Pg.ECAN = false ∧ tS.isBusy Pg.MDM = false ∧ tS.isBusy Pg.CODEC = false ∧ tS.isBusy Pg.JBUF = false
      ∧ tS.isBusy Pg.RATE = false ∧ tS.isBusy Pg.EGS = false ∧ tQuery.Serves .a ∧ tQuery.isBusy Pg.CHAN = false
      ∧ leAt tQuery.cmdBuf 0 1 = 4 ∧ tHost.up = true ∧ (tHost.coreJob .hostcmd Pg.ECAN).isSome = true
      ∧ (tHost.snaps.find? (fun x => x.page = Pg.ECAN)).isSome = true := by
  unfold State.Serves; decide

theorem wit_CancellerActions :
    tS.Serves .a ∧ tS.isBusy Pg.ECAN = false ∧ tS.chan (17#16).toNat = some (tChan 17 1) ∧ (tChan 17 1).cfg.ec ≠ .off := by
  unfold State.Serves; decide

/-- A relayed event on leg B that has gone on too long. -/
def tRelay : State :=
  { tS with chans := [(17, (tChan 17 1).modLeg true fun x => { x with relayRx := { x.relayRx with
    timedOut := true, evs := [{ code := 5, volume := 10, ts := 0, units := 480, ended := false, wait := 0, played := 480 }] } })] }

/-- TONE_GEN_CMD for channel 17, leg A, NDIG 16 digits. -/
def tGen : Word := Word.of (17 + 15 * 2 ^ 28)

/-- Descriptor 0 can be generated. -/
def tDesc : State := tS.put (Reg.TONE_DSC_CTRL 0) Fd.TONE_DSC_CTRL.GEN 1

theorem wit_LegActions :
    tS.Serves .a ∧ tDesc.Serves .a ∧ (tDesc.toneDesc (fieldOf tGen Fd.TONE_GEN_CMD.DESC)).gen = true ∧ tS.isBusy Pg.RATE = false ∧ tS.chan ((35#17).toNat / 2) = some (tChan 17 1)
      ∧ ((tChan 17 1).cfg.leg true).hasRate = true ∧ ((tChan 17 1).cfg.leg false).hasRate = true
      ∧ tS.chan (fieldOf tGen Fd.TONE_GEN_CMD.CHANNEL) = some (tChan 17 1) ∧ ((tChan 17 1).cfg.leg false).kind ≠ 2
      ∧ tRelay.up = true ∧ (tRelay.chan ((35#17).toNat / 2)).isSome = true
      ∧ tRelay.life 1 = tRelay.chan 17
      ∧ ((tRelay.chan 17).any fun c => (c.leg (decide ((35#17).toNat % 2 = 1))).relayRx.timedOut) = true := by
  unfold State.Serves; decide


/-! ## Packets -/

/-- SRTP_CMD for context 4, direction transmit, suite 1. -/
def tKey : Word := Word.of (4 + 2 ^ 20 + 2 ^ 24)

/-- tS in BRINGUP, and tS during the wipe. -/
def tBring : State := { tS with modes := { tS.modes with mode := 1, bringup := true } }
def tWipe : State := { tS with modes := { tS.modes with phase := .wiping } }

theorem wit_SrtpKeys :
    tS.Serves .a ∧ tS.wipeBars = false ∧ tS.modes.bringup = false ∧ fieldOf tKey Fd.SRTP_CMD.SUITE ≤ 5
      ∧ fieldOf tKey Fd.SRTP_CMD.MKI_LEN ≤ 4 ∧ tBring.Serves .a ∧ tBring.modes.bringup = true ∧ tWipe.Serves .a
      ∧ tWipe.wipeBars = true := by
  unfold State.Serves; decide

/-- A key of suite 0, and a context whose sending direction is at its limit and whose receiving direction switched long ago. -/
def tAKey : SrtpKey := { suite := 0, mkiLen := 0, mki := [], key := List.replicate 16 1, salt := List.replicate 14 2 }
def tCtx (n : Nat) (stop : Bool) : SrtpCtx :=
  { rx := { SrtpDir.fresh with cur := some tAKey, old := some tAKey, switched := BitVec.ofInt 32 (-395) },
    tx := { SrtpDir.fresh with cur := some tAKey, old := some tAKey, switched := 2, pkts := n, stopped := stop } }
def tSrtp (n : Nat) (stop : Bool) : State := { tS with nw := { tS.nw with srtp := [(9, tCtx n stop)] } }

theorem wit_KeyTimers :
    (tSrtp (2 ^ 48) false).up = true ∧ (tSrtp (2 ^ 48) false).nw.srtp = [(9, tCtx (2 ^ 48) false)]
      ∧ State.atLimit (tCtx (2 ^ 48) false).tx = true ∧ (tCtx (2 ^ 48) false).tx.stopped = false
      ∧ (tSrtp (2 ^ 48) true).nw.srtp = [(9, tCtx (2 ^ 48) true)] ∧ (tCtx (2 ^ 48) true).tx.stopped = true
      ∧ State.atLimit (tCtx (2 ^ 48 - 1) false).tx = false := by decide

/-- The key of a UDP endpoint 192.0.2.1:5004 at our 192.0.2.9:6000 in domain 7, and its record for leg 34. -/
def tEndKey : List Byte :=
  leBytes 2 7 ++ [17, 0] ++ mapped [192, 0, 2, 1] ++ mapped [192, 0, 2, 9] ++ beBytes 2 5004 ++ beBytes 2 6000
def tRecBytes : List Byte := tEndKey ++ [0, 3, 0, 0] ++ leBytes 4 34 ++ List.replicate 144 0
def tRec : EpRec := recOf tRecBytes 0

/-- A directory with that record under handle 5 and way entries for it, and a command under way. -/
def tDir (op h : Nat) (d : List Byte) : State :=
  { tS with nw := { tS.nw with epd := { recs := [(5, tRec)], chip := [], ways := [(4 * epdB0 21 (epdHash tEndKey), (epdHash tEndKey, 5))],
                                        cmd := some (op, h, d) } } }

/-- Another record: remote port 5006. -/
def tRecBytes2 : List Byte := tRecBytes.take 36 ++ beBytes 2 5006 ++ tRecBytes.drop 38

theorem wit_DirectoryCommands :
    tS.Serves .a ∧ tS.isBusy Pg.EPD = false ∧ (tS.setBusy Pg.EPD true).Serves .a ∧ (tS.setBusy Pg.EPD true).isBusy Pg.EPD = true
      ∧ (tDir 1 5 tRecBytes2).up = true ∧ (tDir 1 5 tRecBytes2).wiping = false ∧ (tDir 1 5 tRecBytes2).modes.ended = true
      ∧ (tDir 1 5 tRecBytes2).nw.epd.cmd = some (1, 5, tRecBytes2) ∧ keyReserved tRecBytes2 = false
      ∧ 6 < (tDir 1 5 tRecBytes2).epdPositions ∧ recFieldsOk tRecBytes2 (leAt tRecBytes2 2 1) = true
      ∧ (tDir 1 5 tRecBytes2).nw.epd.recs.find? 5 = some tRec ∧ (tDir 1 6 tRecBytes2).nw.epd.recs.find? 6 = none
      ∧ protoOk (leAt tRecBytes2 2 1) = true := by
  unfold State.Serves; decide +kernel

theorem wit_DirectoryInsert :
    (tDir 1 6 tRecBytes2).epdLookup (slice tRecBytes2 0 40) = none
      ∧ (epdPlace 21 (epdHash (slice tRecBytes2 0 40), 6) (tDir 1 6 tRecBytes2).nw.epd.ways).isSome = true
      ∧ (tDir 5 0 tRecBytes).epdLookup (slice tRecBytes 0 40) = some 5 := by decide +kernel

/-- An RTP packet of 8 payload bytes with marker. -/
def tRtp : List Byte := [0x80, 0x80, 0, 9, 0, 0, 0, 80, 1, 2, 3, 4, 0xFF, 0xFF, 0xFF, 0xFF, 0xFF, 0xFF, 0xFF, 0xFF]

/-- An IPv4 header for a protocol and a payload of n bytes, flags and offset as given. -/
def tIp (n ff : Nat) : List Byte :=
  let h := [0x45, 0] ++ beBytes 2 (20 + n) ++ [0, 7] ++ beBytes 2 ff ++ [64, 17, 0, 0, 192, 0, 2, 1, 192, 0, 2, 9]
  h.take 10 ++ beBytes 2 (checksum h) ++ h.drop 12

/-- An Ethernet frame with that packet, one without an IPv4 header, and a fragment of 16 bytes at offset 0. -/
def tEther : List Byte := [2, 0, 0, 0, 0, 1, 2, 0, 0, 0, 0, 2, 8, 0]
def tFrame : List Byte := tEther ++ tIp 28 0 ++ beBytes 2 5004 ++ beBytes 2 6000 ++ beBytes 2 28 ++ [0, 0] ++ tRtp
def tBadFrame : List Byte := tEther ++ List.replicate 46 0
def tFragFrame : List Byte := tEther ++ tIp 16 0x2000 ++ List.replicate 30 0

/-- A frame as the MAC gives it. -/
def tIn (b : List Byte) (late : Bool) : RxFrame :=
  { bytes := b, fcsOk := true, pcsOk := true, sofBack := 0, fifo := [], fecCorr := 0, fecLost := 0,
    mergeErr := false, late := late, dir := { hit := true, reads := [] } }

/-- Port 2 enabled, domain 7, the on-chip directory of BRINGUP with the record above. -/
def tNet : State :=
  let s := (tBring.put (Reg.MAC_CTRL 2) Fd.MAC_CTRL.EN 1).put (Reg.PKT_PORT_DOM 2) Fd.PKT_PORT_DOM.DOMAIN 7
  { s with modes := { s.modes with ended := false }, nw := { s.nw with epd := { s.nw.epd with chip := [(5, tRec)] } } }

theorem wit_FrameReception :
    tNet.up = true ∧ tS.macEn 2 = false ∧ tNet.Accepts 2 (tIn tFrame false) ∧ tNet.Accepts 2 (tIn tFrame true)
      ∧ tNet.Accepts 2 (tIn tBadFrame false)
      ∧ tNet.ingressUsed + (tFrame.length + 4) ≤ tNet.ingressCap ∧ classOf tBadFrame = .error
      ∧ (match classOf tFrame with
        | .lookup d => decide (d.payload = tRtp) && decide (tNet.epdLookup (d.key (domainOf (tNet.get (Reg.PKT_PORT_DOM 2)
            Fd.PKT_PORT_DOM.MODE) (tNet.get (Reg.PKT_PORT_DOM 2) Fd.PKT_PORT_DOM.DOMAIN) (frameTags tFrame))) = some 5)
        | _ => false) = true
      ∧ tNet.epdRecs.find? 5 = some tRec ∧ tRec.meterEn = false ∧ tRec.bindRing = false
      ∧ tNet.chan (tRec.leg / 2) = some (tChan 17 1) ∧ (tCfg.leg (tRec.leg % 2 = 1)).plainCodec = some 0
      ∧ ((tChan 17 1).leg (tRec.leg % 2 = 1)).inbox.length < 64 := by
  unfold State.Accepts; decide +kernel

/-- Packet memory full of fragments of one long datagram. -/
def tFull : State :=
  { tNet with nw := { tNet.nw with
    reasm := [{ key := [1], beat := 5, frags := [], size := 4 * 1048576, total := none, first := none }] } }

theorem wit_MemoryFull :
    tFull.up = true ∧ tFull.Accepts 2 (tIn tFrame false) ∧ tFull.ingressCap < tFull.ingressUsed + (tFrame.length + 4) := by
  unfold State.Accepts; decide +kernel

/-- A cycle of a FIFO. -/
def tCycle (write read rewind : Bool) (k : WordCheck) : FifoCycle :=
  { write := write, read := read, rewind := rewind, release := false, check := k }

/-- A frame of 40 words whose consumer does not read for 34 cycles, and then meets an uncorrectable word. -/
def tJammed : RxFrame :=
  { tIn (List.replicate 2550 0) false with fifo := List.replicate 34 (tCycle true false false .clean) ++ [tCycle false true false .uncorrectable] }

theorem wit_FrameLostInFifo :
    tNet.up = true ∧ tNet.provided 2 = true ∧ tNet.macEn 2 = true ∧ tJammed.mergeErr = false ∧ frameWhole tJammed = false
      ∧ (macPass tJammed).ignored ≠ [] ∧ (macPass tJammed).broken ≠ [] := by decide +kernel

/-- 32 stages: of 34 writes without a read the last two are ignored (R387, R388). -/
theorem test_fifo_full : (macPass tJammed).ignored = [32, 33] ∧ (macPass tJammed).fifo.level = 32 := by decide +kernel

/-- The mark holds its stages until four words are read; a tunnel's frame may be read twice from its mark (R390). -/
theorem test_fifo_mark :
    let fill := List.replicate 33 (tCycle true false false .clean)
    let rd := tCycle false true false .clean
    let pass (tunnel : Bool) (l : List FifoCycle) := fifoPass true tunnel (frameWords (List.replicate 2044 0)) (fill ++ l)
    (pass false [rd, rd, rd, rd]).fifo.level = 32 ∧ (pass false [rd, rd, rd, rd, rd]).fifo.level = 28
      ∧ (pass true [rd, rd, tCycle false true true .clean]).fifo.ahead = 1
      ∧ (pass false [rd, rd, tCycle false true true .clean]).fifo.ahead = 3 := by decide +kernel

/-- Port 2 has a fragment whose PKT job runs, an old datagram, and a frame that has waited 50 µs. -/
def tFragS : State :=
  { tNet with
    disp := { tNet.disp with jobs := [{ tNet.plainJob .pkt 2 0 with id := 3, state := .running, server := some (.core 0 0) }] }
    nw := { tNet.nw with frags := [{ stamp := tNet.clk.now, port := 2, bytes := tFragFrame }],
                         waiting := [{ stamp := tNet.clk.now - usTicks 50, port := 1, bytes := tFrame }, { stamp := tNet.clk.now, port := 1, bytes := tFrame }],
                         reasm := [{ key := [1], beat := 1, frags := [], size := 100, total := none, first := none }] } }

theorem wit_ReassemblyAndOverload :
    tFragS.up = true ∧ (tFragS.coreJob .pkt 2).isSome = true
      ∧ (tFragS.nw.frags.find? fun w => w.port = 2) = some { stamp := tNet.clk.now, port := 2, bytes := tFragFrame }
      ∧ (match classOf tFragFrame with
        | .frag x => decide (x.frag = some ([0, 7], 0, true)) && decide (0 + x.pay.length ≤ 9216)
            && (State.whole (State.Datagram.add { key := [], beat := 5, frags := [], size := 0, total := none, first := none } 2
                  (etherHead tFragFrame x.v6) x 0 true 64)).isNone
        | _ => false) = true
      ∧ (tFragS.nw.reasm.filter fun d => (tFragS.clk.n - d.beat).toNat < 4) = []
      ∧ (tFragS.nw.waiting.filter fun w => w.stamp + usTicks 40 ≤ (tFragS.clk.advance 2).now) ≠ [] := by decide +kernel


/-- Port 2 has link and is enabled; leg 34 has one packet queued by aggregate 3, which leaves by port 2 in class 4, with shaper
settings; aggregate 3's own shaper is on. -/
def tShp : Shaper := { Shaper.fresh with cfg := { en := true, cir := 4, pir := 10, cbs := 2, pbs := 3 }, tc := 99998, tp := 5 }
def tQ : QPacket := { stamp := 40 * beatTicks + 500, train := 0, first := true, epd := 5, rtcpPort := false, payload := tRtp }
def tFlow : FlowRun := { FlowRun.fresh with q := [tQ], tag := 5, place := { agg := 3, cls := 4, weight := 1 }, attached := true, shp := { tShp with tc := 50000, tp := 50000 } }
def tAgg : AggRun :=
  { AggRun.fresh with cfg := { en := true, port := 2, cls := 4, weight := 10 }, eff := { en := true, port := 2, cls := 4, weight := 10 }, shp := { tShp with tc := 50000, tp := 50000 } }
def tTree : State :=
  let s := (tNet.put (Reg.MAC_LINK 2) Fd.MAC_LINK.LINK_UP 1).put (Reg.MAC_LANE_MODE 0) Fd.MAC_LANE_MODE.MODE 1
  { s with nw := { s.nw with flows := [(34, tFlow)], aggs := [(3, tAgg)] } }

/-- SHP registers: CIR 4, PIR 10, CBS 2, PBS 3, EN. -/
def tShpRegs : State :=
  let s := (tTree.put Reg.SHP_CIR Fd.SHP_CIR.CIR 4).put Reg.SHP_CIR Fd.SHP_CIR.EN 1
  ((s.put Reg.SHP_PIR Fd.SHP_PIR.PIR 10).put Reg.SHP_DEPTH Fd.SHP_DEPTH.CBS 2).put Reg.SHP_DEPTH Fd.SHP_DEPTH.PBS 3

theorem wit_Shapers :
    tTree.up = true ∧ tTree.clk.started = true ∧ (tTree.atTick 2).refillsDue = tTree.nw.refills + 1
      ∧ (tTree.flow 34).shp.cfg.en = true ∧ (tTree.flow 34).shp.pend = none ∧ (tTree.agg 3).shp.cfg.en = true
      ∧ (tTree.agg 3).shp.pend = none ∧ tShpRegs.Serves .a ∧ State.shpRange true (3#17).toNat = false
      ∧ State.shpRange false (131071#17).toNat = false ∧ State.shpRange true (2047#17).toNat = false
      ∧ State.shpBad tShpRegs.shpData = false := by
  unfold State.Serves; decide +kernel

/-- EGS_AGG_DATA names port 2, class 4, weight 10, enabled; and the same with class 5. -/
def tAggRegs (c : Nat) : State :=
  (((tTree.put Reg.EGS_AGG_DATA Fd.EGS_AGG_DATA.EN 1).put Reg.EGS_AGG_DATA Fd.EGS_AGG_DATA.PORT 2).put Reg.EGS_AGG_DATA
    Fd.EGS_AGG_DATA.CLASS c).put Reg.EGS_AGG_DATA Fd.EGS_AGG_DATA.WEIGHT 10

theorem wit_Aggregates :
    (tAggRegs 4).Serves .a ∧ (tAggRegs 4).aggData.weight ≠ 0 ∧ (tAggRegs 4).provided (tAggRegs 4).aggData.port = true
      ∧ (tAggRegs 4).aggData.port = ((tAggRegs 4).agg 3).cfg.port ∧ (tAggRegs 4).aggData.cls = ((tAggRegs 4).agg 3).cfg.cls
      ∧ (tAggRegs 4).aggData.en = true ∧ (tAggRegs 5).aggData.cls ≠ ((tAggRegs 5).agg 3).cfg.cls ∧ 0 < (tAggRegs 5).aggFlows 3
      ∧ (tAggRegs 5).aggFlows 4 = 0 ∧ ((tAggRegs 4).put Reg.EGS_AGG_DATA Fd.EGS_AGG_DATA.WEIGHT 0).Serves .a
      ∧ ((tAggRegs 4).put Reg.EGS_AGG_DATA Fd.EGS_AGG_DATA.WEIGHT 0).aggData.weight = 0 := by
  unfold State.Serves; decide +kernel

/-- A host frame; port 2 with it queued in class 6, and with it on the wire since the boundary. -/
def tHostFrame : HostFrame := { ring := 1, gen := 0, count := 7, bytes := tFrame, ts := false }
def tTx (host wire : Bool) (start : Nat) (f : Option HostFrame) : State :=
  let s := if host then tTree.setCls 2 6 { ClassRun.fresh with hostq := [tHostFrame] } else tTree
  let d : RingDesc := { addr := 0, len := 62, ctrl := 2, clean := true }
  let s := s.setRing 1 { Ring.fresh with tx := [{ count := 7, desc := d, done := none }] }
  if wire then s.modMac 2 fun m =>
    { m with wire := some { bytes := tFrame, cls := 4, start := start, frags := 0, sent := 0, sfd := 0, host := f, tsId := 0 } }
  else s

theorem wit_Transmission :
    let a := ((tTx false false 0 none).atTick 2).agePort 2
    let b := ((tTx true false 0 none).atTick 2).agePort 2
    let idle := (((tTx false false 0 none).setFlow 34 { tFlow with q := [] }).atTick 2).agePort 2
    (tTx false false 0 none).up = true ∧ ((tNet.atTick 2).agePort 2).linkIsUp 2 = false
      ∧ a.provided 2 = true ∧ a.macEn 2 = true ∧ a.linkIsUp 2 = true ∧ (a.mac 2).wire = none ∧ (a.mac 2).parked = none
      ∧ a.readyClass 2 (fun _ => true) = some (4, .fresh 3 34) ∧ b.readyClass 2 (fun _ => true) = some (6, .host tHostFrame)
      ∧ idle.readyClass 2 (fun _ => true) = none := by decide +kernel

theorem wit_TransmissionEnds :
    (match ((tTx false true (40 * beatTicks - 100000) none).mac 2).wire with
      | some w => decide ((tTx false true (40 * beatTicks - 100000) none).wireEnd w ≤ ((tTx false true 0 none).clk.advance 2).now ∧ w.frags = 0)
      | none => false) = true
      ∧ ((tTx false true 0 (some tHostFrame)).ringOf tHostFrame.ring).gen = tHostFrame.gen
      ∧ (match ((tTx false true tTree.clk.now none).mac 2).wire with
      | some w => decide (((tTx false true 0 none).clk.advance 2).now < (tTx false true tTree.clk.now none).wireEnd w)
      | none => false) = true := by decide +kernel


/-! ## Ports and time -/

/-- Ports 2 and 3 paired with PRIMARY 2, which is active; port 2 has link, port 3 with `up`. -/
def tLag (act : Nat) (up down : Bool) : State :=
  let s := ((tTree.put (Reg.LPAIR_PAIR 1) Fd.LPAIR_PAIR.EN 1).put (Reg.LPAIR_PAIR 1) Fd.LPAIR_PAIR.PRIMARY 2).put (Reg.LPAIR_PAIR 1)
    Fd.LPAIR_PAIR.SECONDARY 3
  ((s.put (Reg.LPAIR_PAIR 1) Fd.LPAIR_PAIR.REVERT 1).putB (Reg.MAC_LINK 3) Fd.MAC_LINK.LINK_UP up).setPair 1 { active := act, down := down }

/-- MAC_CTRL with EN and FEC 1; LPAIR_PAIR with EN, PRIMARY 2, SECONDARY 3. -/
def tCtrl : Word := 3
def tLagW : Word := Word.of (1 + 2 * 16 + 3 * 256)

theorem wit_PortSettings :
    tS.Serves .a ∧ tTree.Serves .a ∧ fieldOf 3 Fd.MAC_LANE_MODE.MODE ≤ 3 ∧ tS.laneMode ≠ fieldOf 3 Fd.MAC_LANE_MODE.MODE
      ∧ ((State.allPorts.any fun q => tS.macEn q) || (State.allPairs.any fun k => tS.pairEn k)) = false
      ∧ (State.allPorts.any fun q => tTree.macEn q) = true
      ∧ (tTree.provided 2 = true ∧ fecAllowed tTree.laneMode (fieldOf tCtrl Fd.MAC_CTRL.FEC) = true
          ∧ fieldOf tCtrl Fd.MAC_CTRL.PAUSE_MODE ≠ 3)
      ∧ tTree.macEn 2 = true ∧ fieldOf tCtrl Fd.MAC_CTRL.FEC ≠ tTree.get (Reg.MAC_CTRL 2) Fd.MAC_CTRL.FEC ∧ tTree.macEn 3 = false
      ∧ fieldOf tLagW Fd.LPAIR_PAIR.PRIMARY = 2 ∧ fieldOf tLagW Fd.LPAIR_PAIR.SECONDARY = 3 ∧ tTree.provided 3 = true
      ∧ (State.allPairs.any fun k => tTree.pairEn k) = false ∧ (tLag 2 true false).Serves .a
      ∧ (tLag 2 true false).pairEn 1 = true ∧ (tLag 2 true false).primary 1 = 2 ∧ (tLag 2 true false).secondary 1 = 3
      ∧ (tS.put (Reg.MAC_PREEMPT_ST 2) Fd.MAC_PREEMPT_ST.VERIFY 1).up = true
      ∧ (tS.put (Reg.MAC_PREEMPT_ST 2) Fd.MAC_PREEMPT_ST.VERIFY 1).get (Reg.MAC_PREEMPT_ST 2) Fd.MAC_PREEMPT_ST.VERIFY = 1 := by
  unfold State.Serves; decide +kernel

theorem wit_LinkState :
    (tLag 2 true false).up = true ∧ (tLag 2 true false).provided 3 = true ∧ (tLag 2 false true).linkIsUp 3 = false
      ∧ (tLag 2 false true).pairOf 3 = some 1 ∧ (tLag 2 false true).up = true
      ∧ (tLag 2 true false).linkIsUp 2 = true ∧ (tLag 2 true false).pairOf 2 = some 1 ∧ ((tLag 2 true false).pair 1).active = 2
      ∧ (tLag 2 true false).primary 1 ≠ (tLag 2 true false).secondary 1
      ∧ (tLag 2 true false).linkIsUp ((tLag 2 true false).otherMember 1 2) = true
      ∧ (tLag 2 false false).linkIsUp ((tLag 2 false false).otherMember 1 2) = false := by decide +kernel

/-- REVERT_S is 0, so that PRIMARY has held its link long enough. -/
def tRevert : State := (tLag 3 true false).put Reg.LPAIR_REVERT_S Fd.LPAIR_REVERT_S.SECONDS 0

theorem wit_Reverted :
    tRevert.up = true ∧ tRevert.pairEn 1 = true ∧ tRevert.flag (Reg.LPAIR_PAIR 1) Fd.LPAIR_PAIR.REVERT = true
      ∧ (tRevert.pair 1).active ≠ tRevert.primary 1 ∧ tRevert.linkIsUp (tRevert.primary 1) = true
      ∧ (tRevert.mac (tRevert.primary 1)).upSince + secTicks (tRevert.get Reg.LPAIR_REVERT_S Fd.LPAIR_REVERT_S.SECONDS)
          ≤ (tRevert.clk.advance 2).now := by decide +kernel

/-- A pause frame of 100 quanta, and priority flow control of 7 quanta for class 4. -/
def tPauseFrame (q : Nat) : List Byte := State.pauseFrame [2, 0, 0, 0, 0, 9] false 0 q
def tPfcFrame (q : Nat) : List Byte := State.pauseFrame [2, 0, 0, 0, 0, 9] true 16 q

/-- Port 2 in a pause mode with the watchdog at a limit, class 4 held long enough for it, class 5 in hold-off until now. -/
def tHoldBase (mode limit : Nat) : State :=
  let s := (tTree.put (Reg.MAC_CTRL 2) Fd.MAC_CTRL.PAUSE_MODE mode).put (Reg.MAC_PWD 2) Fd.MAC_PWD.LIMIT_MS limit
  let s := ((s.put (Reg.MAC_FC_TX 2) Fd.MAC_FC_TX.TX_EN 1).put (Reg.MAC_FC_TX 2) Fd.MAC_FC_TX.QUANTA 64).modMac 2 fun m => { m with xoff := true, repeatAt := s.clk.now }
  s

/-- The holds of classes 4 and 5. -/
def tPaused (mode limit : Nat) : State :=
  let s := tHoldBase mode limit
  (s.setHold 2 4 { held := true, since := s.clk.now - msTicks 2, stop := s.clk.now - msTicks 1, effect := 0, holdoff := none }).setHold 2 5
    { Hold.none with holdoff := some s.clk.now }

theorem wit_Pause :
    (tHoldBase 1 0).up = true ∧ (tHoldBase 1 0).Accepts 2 (tIn (tPauseFrame 100) false) ∧ (tHoldBase 2 0).Accepts 2 (tIn (tPfcFrame 7) true)
      ∧ (tHoldBase 2 0).Accepts 2 (tIn (tPfcFrame 0) false)
      ∧ (tHoldBase 1 0).ingressUsed + 64 ≤ (tHoldBase 1 0).ingressCap
      ∧ (match classOf (tPauseFrame 100) with
        | .macctl false l => decide (l.filter (fun x => x.1 = 4) = [(4, 100)])
        | _ => false) = true
      ∧ (match classOf (tPfcFrame 7) with
        | .macctl true l => decide (l.filter (fun x => x.1 = 4) = [(4, 7)])
        | _ => false) = true
      ∧ (tHoldBase 1 0).pauseMode 2 = 1 ∧ (tHoldBase 2 0).pauseMode 2 = 2 ∧ (tHoldBase 1 0).get (Reg.MAC_PWD 2) Fd.MAC_PWD.LIMIT_MS = 0
      ∧ ((tHoldBase 1 0).holdOf 2 4).holdoff = none ∧ ((tHoldBase 1 0).mac 2).wire = none
      ∧ ((tPaused 2 1).atTick 2).breakDue 2 4 = some ((tPaused 2 1).clk.now - msTicks 1)
      ∧ ((tPaused 2 1).atTick 2).breakDue 2 5 = none
      ∧ (tHoldBase 1 0).fcOn 2 = true ∧ ((tHoldBase 1 0).mac 2).xoff = true ∧ ((tHoldBase 1 0).mac 2).repeatAt ≤ ((tHoldBase 1 0).clk.advance 2).now
      ∧ (tTree).fcOn 2 = false := by
  unfold State.Accepts; decide +kernel

/-- The clock at 3 s with a slew that is over; offsets below and above the step threshold. -/
def tTime (adj : Nat) : State :=
  let s := (tS.wr Reg.TIME_ADJ_LO (Word.of adj)).wr Reg.TIME_SET_NS (Word.of 999999999)
  { s with net := { s.net with at0 := s.clk.now - 10 ^ 9, base := 3 * 10 ^ 9 * 65536, freq16 := 160000, slewLeft := 65536, slewPpm := 1000 }
           tsq := [[{ ident := 3, stamp := { sec := 2, ns := 5, frac := 1, gen := 4 } }]] }

theorem wit_NetworkClock :
    (tTime 500).Serves .a ∧ asSigned 32 (16000000#32).toNat ≤ 16000000 ∧ -16000000 ≤ asSigned 32 (16000000#32).toNat
      ∧ asSigned 32 (BitVec.ofInt 32 (-16000001)).toNat < -16000000 ∧ 16000000 < asSigned 32 (16000001#32).toNat
      ∧ ((tTime 500).rd Reg.TIME_SET_NS).toNat < nsPerSec
      ∧ nsPerSec ≤ (((tTime 500).wr Reg.TIME_SET_NS (Word.of 1000000000)).rd Reg.TIME_SET_NS).toNat
      ∧ (asSigned 64 (((tTime 500).rd Reg.TIME_ADJ_LO).toNat + ((tTime 500).rd Reg.TIME_ADJ_HI).toNat * 2 ^ 32)).natAbs
          < (tTime 500).get Reg.TIME_STEP_THR Fd.TIME_STEP_THR.US * 1000
      ∧ (tTime (10 ^ 9)).get Reg.TIME_STEP_THR Fd.TIME_STEP_THR.US * 1000
          ≤ (asSigned 64 (((tTime (10 ^ 9)).rd Reg.TIME_ADJ_LO).toNat + ((tTime (10 ^ 9)).rd Reg.TIME_ADJ_HI).toNat * 2 ^ 32)).natAbs
      ∧ (tTime 500).up = true ∧ (tTime 500).net.slewLeft ≠ 0
      ∧ (tTime 500).net.left ((tTime 500).clk.advance 2).now (tTime 500).refs.dco = 0
      ∧ (tTime 500).linked .a = true ∧ (tTime 500).mgmt.kstate ≠ .boot ∧ (tTime 500).ownedBy .b = false
      ∧ (tTime 500).ownedBy .a = true ∧ ((tTime 500).tsq.getD 0 []).isEmpty = false ∧ (tTime 500).tsq.getD 1 [] = [] := by
  unfold State.Serves; decide +kernel

/-- Generator 2 for the user with width 20 and period 100; START at `sec` seconds. -/
def tPg (periodic user : Nat) (sec : Nat) : State :=
  let s := ((((tTime 0).put (Reg.PG_CTRL 2) Fd.PG_CTRL.USER user).put (Reg.PG_CTRL 2) Fd.PG_CTRL.PERIODIC periodic).put (Reg.PG_WIDTH 2)
    Fd.PG_WIDTH.NS 20).put (Reg.PG_PERIOD 2) Fd.PG_PERIOD.NS 100
  s.wr (Reg.PG_START_SEC_LO 2) (Word.of sec)

/-- Generator 2 armed and due, with its pulse before it over; PPS out due; the time-of-day line on. -/
def tFire (st : PgState) : State :=
  let s := (((tPg 0 1 9).put Reg.TIME_CTRL Fd.TIME_CTRL.PPS_OUT_EN 1).put Reg.TIME_CTRL Fd.TIME_CTRL.TOD_EN 1)
  s.setPg 2 { PulseGen.fresh with st := st, period := 100, width := 20, high := true, endAt := 1 }

theorem wit_Pulses :
    (tPg 1 1 9).Serves .a ∧ (tPg 0 0 9).get (Reg.PG_CTRL 2) Fd.PG_CTRL.USER ≠ 1 ∧ (tPg 1 1 9).get (Reg.PG_CTRL 2) Fd.PG_CTRL.USER = 1
      ∧ (tPg 1 1 9).flag (Reg.PG_CTRL 2) Fd.PG_CTRL.PERIODIC = true
      ∧ (tPg 1 1 9).get (Reg.PG_WIDTH 2) Fd.PG_WIDTH.NS < (tPg 1 1 9).get (Reg.PG_PERIOD 2) Fd.PG_PERIOD.NS
      ∧ ((tPg 1 1 9).put (Reg.PG_PERIOD 2) Fd.PG_PERIOD.NS 20).get (Reg.PG_PERIOD 2) Fd.PG_PERIOD.NS
          ≤ ((tPg 1 1 9).put (Reg.PG_PERIOD 2) Fd.PG_PERIOD.NS 20).get (Reg.PG_WIDTH 2) Fd.PG_WIDTH.NS
      ∧ ((tPg 1 1 9).atTick 2).netUnits
          < (tPg 1 1 9).getTime (Reg.PG_START_SEC_LO 2) (Reg.PG_START_SEC_HI 2) (Reg.PG_START_NS 2) * 65536
      ∧ (tPg 1 1 1).getTime (Reg.PG_START_SEC_LO 2) (Reg.PG_START_SEC_HI 2) (Reg.PG_START_NS 2) * 65536 ≤ ((tPg 1 1 1).atTick 2).netUnits
      ∧ (tFire .armed).up = true ∧ ((tFire .armed).atTick 2).pgDue 2 = true ∧ ((tFire .train).atTick 2).pgDue 2 = true
      ∧ ((tFire .armed).pgOf 2).high = true ∧ ((tFire .armed).pgOf 2).endAt ≤ ((tFire .armed).clk.advance 2).now
      ∧ (tFire .armed).flag Reg.TIME_CTRL Fd.TIME_CTRL.PPS_OUT_EN = true
      ∧ ((tFire .armed).pgOf 4).next * 65536 ≤ ((tFire .armed).atTick 2).netUnits
      ∧ (tFire .armed).flag Reg.TIME_CTRL Fd.TIME_CTRL.TOD_EN = true ∧ (tFire .armed).net.todUntil ≤ ((tFire .armed).clk.advance 2).now := by
  unfold State.Serves; decide +kernel

/-- Port 2's admin list: two entries of 600 ns in a cycle of 1,000 ns; its lists as given. -/
def tGate (len : Nat) (g : GateState) : State :=
  let s := ((((tTime 0).put (Reg.GATE_ADMIN_LEN 2) Fd.GATE_ADMIN_LEN.LEN len).put (Reg.GATE_ADMIN_CYCLE 2) Fd.GATE_ADMIN_CYCLE.NS 1000).put
    (Reg.GATE_ADMIN 2 0) Fd.GATE_ADMIN.INTERVAL 600).put (Reg.GATE_ADMIN 2 1) Fd.GATE_ADMIN.INTERVAL 600
  (((s.put (Reg.GATE_ADMIN 2 0) Fd.GATE_ADMIN.GATES 0x81).put (Reg.GATE_ADMIN 2 1) Fd.GATE_ADMIN.GATES 0x7E).put (Reg.GATE_CTRL 2) Fd.GATE_CTRL.EN 1).setGate 2 g

/-- A list that has started. -/
def tList : GateList := { start := 1000, base := 1000, cycle := 1000, entries := [{ gates := 0x81, interval := 600 }, { gates := 0x7E, interval := 600 }] }

theorem wit_Gates :
    (tGate 2 GateState.fresh).Serves .a ∧ (tGate 2 GateState.fresh).get (Reg.GATE_ADMIN_LEN 2) Fd.GATE_ADMIN_LEN.LEN = 2
      ∧ (tGate 2 GateState.fresh).get (Reg.GATE_ADMIN_CYCLE 2) Fd.GATE_ADMIN_CYCLE.NS = 1000
      ∧ (tGate 2 GateState.fresh).get (Reg.GATE_ADMIN 2 0) Fd.GATE_ADMIN.INTERVAL ≠ 0
      ∧ (tGate 2 GateState.fresh).get (Reg.GATE_ADMIN 2 1) Fd.GATE_ADMIN.INTERVAL ≠ 0
      ∧ (tGate 257 GateState.fresh).get (Reg.GATE_ADMIN_LEN 2) Fd.GATE_ADMIN_LEN.LEN = 257
      ∧ ((tGate 2 GateState.fresh).gateOf 2).pend = none ∧ ((tGate 2 { GateState.fresh with pend := some tList }).gateOf 2).pend = some tList
      ∧ (tGate 2 GateState.fresh).up = true ∧ tList.start ≤ ((tGate 2 GateState.fresh).atTick 2).netNs
      ∧ ((tGate 2 { GateState.fresh with oper := some tList }).gateOf 2).oper = some tList := by
  unfold State.Serves; decide +kernel


/-! ## Highways, rings and modems -/

/-- Group 1 with RATE 0, master or not, enabled or not, in a state with 39 regular edges; highway 5 enabled with a leg's output
for the next beat but one on its slot 2. -/
def tPcm (master en : Nat) (st : FsState) : State :=
  let a := Reg.PCM_GROUP_CFG 4
  let s := ((tS.put a Fd.PCM_GROUP_CFG.EN en).put a Fd.PCM_GROUP_CFG.MASTER master).put (Reg.PCM_HWY_CFG 5) Fd.PCM_HWY_CFG.EN 1
  let o : PcmOut := { beat := 3, leg := 1, hwy := 5, slot := 2, samples := List.replicate 40 [7] }
  ({ s with nw := { s.nw with pcmOut := [o] } } : State).setGroup 1
    { st := st, regular := 39, lastEdge := s.clk.now - 500, edges := 4, whole := true }

/-- The 1st edge of the beat that a master group drives after B(n). -/
def tEdge : Nat := 40 * beatTicks + 3072 * cycTicks

/-- A frame of 256 bits, and of 255. -/
def tPcmIn (bits : Nat) : PcmFrameIn :=
  { bits := bits, data := [[], [1, 2, 3]], rxFifo := [], txLost := [], txCorr := [] }

/-- A slave group 1 whose last edge lies 375 µs back. -/
def tSilent : State := (tPcm 0 1 .locked).setGroup 1 { st := .locked, regular := 0, lastEdge := tS.clk.now - usTicks 375, edges := 4, whole := true }

/-- Timeslot 3 of highway 6 has an owner. -/
def tOwned : State := ((tPcm 0 1 .locked).put (Reg.PCM_SLOT_OWNER 6 3) Fd.PCM_SLOT_OWNER.OWNER 36).put (Reg.PCM_HWY_CFG 6) Fd.PCM_HWY_CFG.EN 1

/-- PCM_GROUP_CFG with EN and RATE 1, and RATE 3. -/
def tGroupW : Word := Word.of (2 ^ 31 + 2 ^ 28)
def tGroupBad : Word := Word.of (2 ^ 31 + 3 * 2 ^ 28)

theorem wit_PcmHighways :
    (tPcm 0 0 .off).up = true ∧ (tPcm 0 0 .off).groupEn 1 = false ∧ (tPcm 1 1 .locked).groupEn 1 = true
      ∧ (tPcm 1 1 .locked).groupMaster 1 = true ∧ ((tPcm 1 1 .locked).atTick 2).masterEdge 1 = false
      ∧ ((tPcm 1 1 .locked).atTick tEdge).masterEdge 1 = true ∧ (tPcm 0 1 .locked).groupMaster 1 = false
      ∧ ((tPcm 0 1 .locked).group 1).st = .locked
      ∧ ((tPcm 0 1 .locked).clk.advance 2).now < ((tPcm 0 1 .locked).group 1).lastEdge + usTicks 375
      ∧ (tPcm 0 1 .locked).hwyEn 5 = true ∧ (tPcmIn 255).bits ≠ (tPcm 0 1 .locked).frameBits 1
      ∧ ((tPcm 0 1 .lost).group 1).st = .lost ∧ (tPcmIn 256).bits = (tPcm 0 1 .lost).frameBits 1
      ∧ 39 ≤ ((tPcm 0 1 .lost).group 1).regular
      ∧ (tSilent.group 1).st = .locked ∧ (tSilent.group 1).lastEdge + usTicks 375 ≤ (tSilent.clk.advance 2).now := by decide +kernel

theorem wit_PcmSettings :
    tOwned.Serves .a ∧ ((State.groupHwys ((4#4).toNat / 4)).any fun k => tOwned.hwyOwned k) = true
      ∧ ((State.groupHwys ((4#4).toNat / 4)).any fun k => (tPcm 0 1 .locked).hwyOwned k) = false
      ∧ mergeFields (fieldsAt (Reg.PCM_GROUP_CFG 4)) .rw (tOwned.rd (Reg.PCM_GROUP_CFG 4)) tGroupW ≠ tOwned.rd (Reg.PCM_GROUP_CFG 4)
      ∧ fieldOf tGroupW Fd.PCM_GROUP_CFG.RATE ≠ 3 ∧ fieldOf tGroupW Fd.PCM_GROUP_CFG.FS_PHASE ≤ 3071
      ∧ fieldOf tGroupBad Fd.PCM_GROUP_CFG.RATE = 3 ∧ (tPcm 0 1 .locked).Serves .a
      ∧ (fieldOf (mergeFields (fieldsAt (Reg.PCM_GROUP_CFG 4)) .rw ((tPcm 0 1 .locked).rd (Reg.PCM_GROUP_CFG 4)) 0) Fd.PCM_GROUP_CFG.EN = 0)
      ∧ tOwned.hwyEn 6 = true ∧ tOwned.hwyOwned 6 = true ∧ fieldOf 0 Fd.PCM_HWY_CFG.EN = 0 ∧ tOwned.hwyOwned 5 = false := by
  unfold State.Serves; decide +kernel

/-- Ring 7 with LOG2SIZE `l`, as a transmit ring or not, running or not; a descriptor is available. -/
def tDescr : RingDesc := { addr := 4096, len := 62, ctrl := 2, clean := true }
def tRing (l dir run : Nat) (d : RingDesc) (tx : List TxItem) : State :=
  let s := ((tTree.put (ringReg Reg.RING_CFG 7) Fd.RING_CFG.LOG2SIZE l).put (ringReg Reg.RING_CFG 7) Fd.RING_CFG.DIR dir).put
    (ringReg Reg.RING_STATUS 7) Fd.RING_STATUS.RUNNING run
  s.setRing 7 { Ring.fresh with avail := [d], tx := tx }

theorem wit_HostRings :
    (tRing 6 0 0 tDescr []).Serves .a ∧ ringPort (7#8).toNat = .a ∧ ringPort (135#8).toNat ≠ .a
      ∧ (tRing 6 0 1 tDescr []).ringRuns 7 = true ∧ (tRing 6 0 0 tDescr []).ringRuns 7 = false
      ∧ (tRing 6 0 0 tDescr []).get (ringReg Reg.RING_CFG 7) Fd.RING_CFG.LOG2SIZE = 6
      ∧ (tRing 5 0 0 tDescr []).get (ringReg Reg.RING_CFG 7) Fd.RING_CFG.LOG2SIZE = 5
      ∧ (tRing 17 0 0 tDescr []).get (ringReg Reg.RING_CFG 7) Fd.RING_CFG.LOG2SIZE = 17
      ∧ (64 - (tRing 6 0 1 tDescr []).rd (ringReg Reg.RING_TAIL 7)).toNat ≤ (tRing 6 0 1 tDescr []).ringSize 7
      ∧ (64 - (tRing 6 0 1 tDescr []).rd (ringReg Reg.RING_HEAD 7)).toNat ≤ (tRing 6 0 1 tDescr []).ringSize 7
      ∧ (tRing 6 0 1 tDescr []).ringSize 7 < (65 - (tRing 6 0 1 tDescr []).rd (ringReg Reg.RING_TAIL 7)).toNat
      ∧ (tRing 6 1 1 tDescr []).up = true ∧ (tRing 6 1 1 tDescr []).flag (ringReg Reg.RING_CFG 7) Fd.RING_CFG.DIR = true
      ∧ (tRing 6 1 1 tDescr []).descBad tDescr = false
      ∧ (tRing 6 1 1 { tDescr with clean := false } []).descBad { tDescr with clean := false } = true
      ∧ ((tRing 6 1 1 tDescr []).cls (tDescr.ctrl % 8) ((tRing 6 1 1 tDescr []).descClass tDescr)).hostq.length < 16
      ∧ ((tRing 6 1 1 tDescr [{ count := 0, desc := tDescr, done := some (0, 5) }]).ringOf 7).tx
          = [{ count := 0, desc := tDescr, done := some (0, 5) }] := by
  unfold State.Serves; decide +kernel

/-- Channel 17 with a Taldy link session 9, the send waiting or not, and MDM_TX_LEN for 3 bytes. -/
def tModem (ctls : List (BeatNo × ChanCtl)) : State :=
  let c := { tChan 17 1 with cfg := { tCfg with sess := .taldy }, session := some 9, hostMaps := List.replicate 16 freshMap, ctls := ctls }
  (({ tS with chans := [(17, c)] } : State).put Reg.MDM_TX_LEN Fd.MDM_TX_LEN.LEN 3).put Reg.MDM_TX_LEN Fd.MDM_TX_LEN.TAG 77
def tModemChan (ctls : List (BeatNo × ChanCtl)) : Chan :=
  { tChan 17 1 with cfg := { tCfg with sess := .taldy }, session := some 9, hostMaps := List.replicate 16 freshMap, ctls := ctls }
def tSend : List (BeatNo × ChanCtl) := [(6, .send { tag := 1, map := 0, rate := 0, payload := [1] })]

/-- MDM_TX_CMD of channel 17, map 2, rate 2. -/
def tTxCmd : Word := Word.of (17 + 2 * 2 ^ 16 + 2 * 2 ^ 20)

/-- Trellis unit 2 runs a job of channel 17. -/
def tTrellis : State :=
  let j := { (tModem []).plainJob .modem 17 1 with id := 3, state := .running, server := some (.unit 2), version := 4 }
  { tModem [] with disp := { (tModem []).disp with
      jobs := [j], trellis := (List.range 4).map fun i => { alive := true, run := if i = 2 then some 3 else none, history := [] } } }

theorem wit_TaldyCommands :
    (tModem []).Serves .a ∧ (tModem []).isBusy Pg.MDM = false ∧ (tModem []).chan (fieldOf tTxCmd Fd.MDM_TX_CMD.CHANNEL) = some (tModemChan [])
      ∧ (tModem []).get Reg.MDM_TX_LEN Fd.MDM_TX_LEN.LEN = 3 ∧ fieldOf tTxCmd Fd.MDM_TX_CMD.RATE ≠ 3
      ∧ 24 ≤ mapBits ((tModemChan []).hostMaps.getD (fieldOf tTxCmd Fd.MDM_TX_CMD.MAP) freshMap) (tModem []).notchEn
      ∧ State.sendWaits (tModemChan []) = false ∧ (tModemChan []).taldy.tx = none ∧ State.sendWaits (tModemChan tSend) = true
      ∧ (tModem tSend).chan 17 = some (tModemChan tSend)
      ∧ (tModem []).taldyChan (9#12).toNat = some (17, tModemChan []) ∧ (tModem []).chan 17 = some (tModemChan [])
      ∧ ((tModem []).mapData.any fun e => 6 < e.1 || 60 < e.2) = false
      ∧ (((tModem []).wr (Reg.MDM_MAP_DATA 3) 7).mapData.any fun e => 6 < e.1 || 60 < e.2) = true
      ∧ tTrellis.up = true ∧ (tTrellis.disp.trellis[2]?.map fun x => x.run) = some (some 3) ∧ (tTrellis.job 3).map (·.uid) = some 1
      ∧ tTrellis.life 1 = some (tModemChan []) := by
  unfold State.Serves; decide +kernel


/-! ## Archive and memory -/

/-- A filled segment 3 of stream 2 with 100 bytes, and segment 4 active. -/
def tSeg (filled : Bool) : ArcSeg :=
  { stream := 2, key := 1, seq := 0, bytes := List.replicate 100 5, filled := filled, abandon := false }
def tArcCmd (op : Nat) : ArcCmd :=
  { op := op, seg := 3, off := 16, len := 8, addr := 4096, port := .a, stamp := 7, applied := false, ran := true }
def tArc (cmd : Option ArcCmd) : State :=
  let s := { tS with arc := { ArcRun.empty with fresh := 5, segs := [(3, tSeg true), (4, tSeg false)], cmd := cmd,
                                                done := [{ seg := 3, stream := 2, ended := true, abandon := false, seq := 0, used := 100 }] } }
  (s.put Reg.ARC_ARG_OFFSET Fd.ARC_ARG_OFFSET.BYTES 16).put Reg.ARC_ARG_LEN Fd.ARC_ARG_LEN.BYTES 8

theorem wit_ArchiveCommands :
    tBring.Serves .a ∧ tBring.modes.bringup = true ∧ tWipe.Serves .a ∧ tWipe.wipeBars = true ∧ (tArc none).Serves .a
      ∧ (tArc none).modes.bringup = false ∧ (tArc none).wipeBars = false ∧ (tArc none).arcRefusal 1 4 = some .conflict
      ∧ (tArc none).arcRefusal 1 3 = none ∧ (tArc none).arcRefusal 2 3 = none ∧ (tArc none).arcRefusal 3 3 = none
      ∧ (tArc none).arcRefusal 4 3 = none ∧ (tArc none).arcRefusal 2 20480 = some .badParam
      ∧ (tArc (some (tArcCmd 1))).up = true ∧ (tArcCmd 1).ran = true ∧ (tArcCmd 1).applied = false
      ∧ (tArc (some (tArcCmd 3))).arc.segs.find? 3 = some (tSeg true) ∧ 16 + 8 ≤ (tSeg true).bytes.length
      ∧ (tArc none).linked .b = true ∧ (tArc none).mgmt.kstate ≠ .boot ∧ (tArc none).ownedBy .b = false ∧ (tArc none).ownedBy .a = true
      ∧ (tArc none).arc.done ≠ [] := by
  unfold State.Serves; decide +kernel

/-- A stream that waits for a segment since before the boundary, with its block's bytes; the chain is empty or not. -/
def tStream (live : Bool) : ArcStream :=
  { key := 1, num := 2, chan := 17, uid := 1, emergency := false, dynamic := false, live := live, endAt := none, nextSeq := 1, cur := none, ready := none,
    write := some { rest := List.replicate 60 9, done := 0, marks := [], at_ := none }, waitSince := some (40 * beatTicks - 1), seg := none, segSeq := 0, full := [] }
def tStreams (chain : Bool) (x : ArcStream) : State :=
  let s := { tArc none with arc := { (tArc none).arc with fresh := if chain then 5 else 20480, streams := [x] } }
  s

/-- Lane 3 runs the job of a DECODE (life 0) or of the stream. -/
def tLane (uid : Nat) : State :=
  let b := tStreams true { tStream true with waitSince := none }
  let s := { b with arc := { b.arc with cmd := some { tArcCmd 4 with ran := false } } }
  let j := { s.plainJob .archive 2 uid with id := 6, state := .running, server := some (.lane 3) }
  { s with disp := { s.disp with
      jobs := [j], lanes := (List.range 16).map fun i => { alive := true, run := if i = 3 then some 6 else none, history := [] } } }

theorem wit_ArchiveWork :
    (tLane 0).up = true ∧ (tLane 0).disp.lanes[3]? = some { alive := true, run := some 6, history := [] }
      ∧ ((tLane 0).job 6).map (·.uid) = some 0 ∧ ((tLane 1).job 6).map (·.uid) = some 1 ∧ ((tLane 1).job 6).map (·.id) = some 6
      ∧ (tStreams true (tStream true)).arc.cmd = none ∧ (tStream true).num < 4096 ∧ (tStream true).write.isSome = true
      ∧ (match (tStream true).waitSince with
        | some w => decide (w < (tStreams true (tStream true)).clk.at0)
        | none => false) = true
      ∧ (tStreams true (tStream true)).segmentBefore = true ∧ (tStreams false (tStream true)).segmentBefore = false := by decide +kernel

/-- Memory in a state. -/
def tMemState (n : Nat) : State := tS.put Reg.MEM_STATE Fd.MEM_STATE.STATE n

/-- Kwakel has a core to record and the configuration to write. -/
def tRecord : State := { tS with mgmt := { tS.mgmt with work := [.config, .core 3 4] } }

theorem wit_MemoryStart :
    tS.up = true ∧ (tMemState 1).get Reg.MEM_STATE Fd.MEM_STATE.STATE = 1 ∧ (tMemState 1).mgmt.flash.lostDevices = []
      ∧ (tMemState 1).devicesLost = 0 ∧ (tMemState 2).get Reg.MEM_STATE Fd.MEM_STATE.STATE = 2 ∧ tS.memReady = true
      ∧ (tMemState 2).memReady = false ∧ tS.mgmt.kstate = .running ∧ takeFirst FlashWork.isFault tS.mgmt.work = none
      ∧ takeFirst FlashWork.isFault tRecord.mgmt.work = some (.core 3 4, [.config]) := by decide +kernel

/-- RETIRE_FRAME names frame `f`; an entry for frame 9 under 0; a copy of frame 12 asked for by command, or of frame 11. -/
def tRetire (f : Nat) : State :=
  let s := tS.put Reg.RETIRE_FRAME Fd.RETIRE_FRAME.FRAME f
  { s with mem := { s.mem with table := [(0, { frame := 9, pool := 0, poison := [1, 33] })],
                               copies := [{ frame := 12, pool := 1, poison := [3], byCmd := true, lastFree := true }] } }

theorem wit_Retirement :
    tBring.Serves .a ∧ tBring.modes.bringup = true ∧ (tRetire 11).Serves .a ∧ (tRetire 11).modes.bringup = false
      ∧ ((tRetire 11).setBusy Pg.RETIRE true).isBusy Pg.RETIRE = true ∧ (tRetire 11).isBusy Pg.RETIRE = false
      ∧ (tRetire 11).get Reg.RETIRE_FRAME Fd.RETIRE_FRAME.FRAME = 11 ∧ (tRetire 11).retirable 11 = true
      ∧ (tRetire (5952 * 256)).retirable (5952 * 256) = false ∧ (tRetire 11).retirable 0x168000 = false
      ∧ (∀ c ∈ (tRetire 11).mem.copies, c.frame ≠ 11) ∧ (tRetire 11).lowestSpare = some 2 ∧ (tRetire 11).canRetire 11 = true
      ∧ (tRetire 11).mem.table.find? 1 = none ∧ (tRetire 11).retEntry 12 = none ∧ (tRetire 11).lowestEntry = some 1 := by
  unfold State.Serves; decide +kernel

/-- A transfer of 8 bytes at offset 4. -/
def tXfer (toHost : Bool) : State :=
  { tS with mem := { tS.mem with scratch := [(5, 9)],
                                 xfer := some { toHost := toHost, len := 8, off := 4, addr := 4096, port := .a, data := [1, 2, 3, 0, 5] } } }

theorem wit_ScratchAndStripes :
    (tS.put Reg.MEM_XFER_OFFSET Fd.MEM_XFER_OFFSET.BYTES (128 * 1048576 - 4)).Serves .a ∧ tS.modes.bringup = false ∧ tS.wipeBars = false
      ∧ tS.isBusy Pg.MEM = false ∧ (128 * 1048576 - 4) + 4 ≤ tS.memMap.scratchSize ∧ tS.memMap.scratchSize < (128 * 1048576 - 4) + 8
      ∧ (tXfer true).up = true ∧ (tXfer true).memReady = true ∧ (tXfer true).devicesLost = 0 ∧ Memory.wf (tXfer false).mem.scratch
      ∧ 0x825AA000 < tS.memMap.usable ∧ tS.retEntry (0x825AA000 / 4096) = none
      ∧ tS.memMap.usable ≤ (0x74000000#32).toNat + 1 * 2 ^ 32
      ∧ (tS.put Reg.STRIPE_XLAT_HI Fd.STRIPE_XLAT_HI.ADDR 1).get Reg.STRIPE_XLAT_HI Fd.STRIPE_XLAT_HI.ADDR = 1 := by
  unfold State.Serves; decide +kernel


/-! ## Power, start and Kwakel -/

/-- tS in a power state. -/
def tPower (aon porn : Bool) : State := { tS with pwr := { tS.pwr with vddAon := aon, porn := porn } }

/-- tS with its fuses changed, and a valid image of a kind. -/
def tChanged : State := { tS with mgmt := { tS.mgmt with fuses := { tS.mgmt.fuses with changed := true } } }
def tImage (kind v : Nat) : ImageSlot :=
  { bytes := leBytes 4 0x4B574C31 ++ leBytes 1 kind ++ leBytes 1 3 ++ leBytes 2 1 ++ leBytes 4 v ++ leBytes 4 2 ++ List.replicate 146 0, sigOk := true }

/-- No image in any slot. -/
def tBlank : State :=
  { tS with mgmt := { tS.mgmt with fwA := ImageSlot.empty, fwB := ImageSlot.empty, libA := ImageSlot.empty, libB := ImageSlot.empty } }

theorem wit_PowerAndReset :
    (tPower true false).pwr.vddAon = true ∧ (tPower true false).pwr.porn = false ∧ (tPower false true).pwr.porn = true
      ∧ (tPower false true).pwr.vddAon = false ∧ (tPower false false).pwr.porn = false
      ∧ tChanged.up = true ∧ tChanged.mgmt.kstate = .running ∧ tChanged.mgmt.fuses.changed = true ∧ tS.mgmt.fuses.changed = false
      ∧ pickSlot tBlank.mgmt.flash.fwSel tBlank.fwValid = none
      ∧ pickSlot 0 ({ tBlank with mgmt := { tBlank.mgmt with fwB := tImage 0 7 } } : State).fwValid = some 1
      ∧ ({ tBlank with pwr := (tPower true false).pwr } : State).fwValid 0 = false := by decide +kernel

/-- Kwakel in a state, with a valid library in slot 1, cluster 2 OFF, cluster 3 OFF and recorded as lost. -/
def tBooting (k : KState) (restored : Bool) : State :=
  let off := { tCluster with cstate := .off }
  { tS with
    mgmt := { tBlank.mgmt with kstate := k, libB := tImage 1 9, restoredConfig := restored, flash := { tS.mgmt.flash with lostClusters := [3], retired := [(2, 4)] } }
    clusters := (List.range 16).map fun i => if i = 2 || i = 3 then off else tCluster }

/-- The on-chip directory holds a record and BRINGUP is not over. -/
def tCopying : State := { tNet with modes := { tNet.modes with ended := false, dirCopied := false } }

theorem wit_StartUp :
    (tBooting .boot false).up = true ∧ tS.mgmt.kstate ≠ .boot ∧ (tBooting .boot false).mgmt.kstate = .boot
      ∧ (tBooting .running false).mgmt.kstate = .running ∧ (tBooting .running false).mgmt.restoredConfig = false
      ∧ pickSlot tBlank.mgmt.flash.libSel tBlank.libValid = none
      ∧ pickSlot (tBooting .running true).mgmt.flash.libSel (tBooting .running true).libValid = some 1
      ∧ ((tBooting .running true).cluster 2).map (·.cstate) = some .off ∧ ((tBooting .running true).cluster 1).map (·.cstate) = some .serving
      ∧ (tBooting .running true).mgmt.flash.lostClusters.contains 3 = true
      ∧ (tBooting .running true).mgmt.flash.lostClusters.contains 2 = false
      ∧ tCopying.up = true ∧ tCopying.mgmt.kstate = .running ∧ tCopying.memReady = true ∧ tCopying.epdOnChip = true
      ∧ (tCopying.nw.epd.chip.map Prod.fst).Nodup ∧ tS.epdOnChip = false := by decide +kernel

/-- LIFE_CMD with CONFIRM for a target; a 9340 in SEAL without channels, in a life-cycle state. -/
def tLifeW (target : Nat) : Word := Word.of (0x5A17 * 2 ^ 16 + target)
def tLife (n : Nat) : State :=
  { tS with chans := [], modes := { tS.modes with mode := 6 }, mgmt := { tS.mgmt with fuses := { tS.mgmt.fuses with lifeState := n } } }

theorem wit_FlashAndLifeCycle :
    tRecord.up = true ∧ tRecord.mgmt.kstate = .running ∧ FlashWork.config ∈ tRecord.mgmt.work ∧ FlashWork.config ∉ tS.mgmt.work
      ∧ (tLife 1).up = true ∧ (tLife 1).linked .a = true ∧ (tLife 1).mgmt.kstate = .running ∧ (tLife 1).ownedBy .a = true
      ∧ fieldOf (tLifeW 2) Fd.LIFE_CMD.CONFIRM = 0x5A17 ∧ fieldOf (tLifeW 2) Fd.LIFE_CMD.TARGET = 2
      ∧ State.lifeLegal (tLife 1).mgmt.fuses 2 = true ∧ State.lifeLegal (tLife 2).mgmt.fuses 3 = true
      ∧ State.lifeLegal (tLife 2).mgmt.fuses 1 = false ∧ (tLife 1).modes.mode = 6 ∧ (tLife 1).openChans = []
      ∧ tS.modes.mode ≠ 6 := by decide +kernel

/-- MBX_ARG0 and MBX_ARG1, a session of port A with 4 of `total` bytes, and a command that waits for its end. -/
def tMbx (arg total : Nat) (x : Option Session) : State :=
  let s := (tS.wr (Reg.MBX_ARG 0) (Word.of arg)).wr (Reg.MBX_ARG 1) (Word.of total)
  { s with mgmt := { s.mgmt with session := x, fwA := tImage 0 7, fwB := tImage 0 8, libA := tImage 1 9, libB := tImage 1 10 } }
def tSess (total : Nat) : Session := { port := .a, kind := 2, total := total, bytes := [1, 2, 3, 4], doomed := false }
def tMbxDone : State :=
  { tS with mgmt := { tS.mgmt with mbx := some { op := 4, port := .a, status := Status.checkFail.code, res0 := 5, res1 := 6, restart := false } } }

theorem wit_MailboxImages :
    (tS.setBusy Pg.MGMT true).Serves .a ∧ (tS.setBusy Pg.MGMT true).isBusy Pg.MGMT = true
      ∧ (tMbx 0 100 none).Serves .a ∧ (tMbx 0 100 none).isBusy Pg.MGMT = false ∧ (tMbx 0 100 none).mbxKind = 0
      ∧ (tMbx 3 100 none).mbxKind = 3 ∧ (tMbx 0 100 (some (tSess 8))).mgmt.session.isSome = true ∧ (tMbx 2 100 none).mbxKind = 2
      ∧ ((tMbx 2 100 none).rd (Reg.MBX_ARG 1)).toNat ≤ slotBytes 2
      ∧ slotBytes 0 < ((tMbx 0 (slotBytes 0 + 1) none).rd (Reg.MBX_ARG 1)).toNat
      ∧ (tMbx 0 100 none).sessionOf .a = none ∧ (tMbx 4 100 (some (tSess 8))).sessionOf .a = some (tSess 8)
      ∧ ((tMbx 4 100 (some (tSess 8))).rd (Reg.MBX_ARG 0)).toNat = (tSess 8).bytes.length
      ∧ (tSess 8).bytes.length + (4#12).toNat ≤ (tSess 8).total ∧ (tSess 8).total < (tSess 8).bytes.length + (5#12).toNat
      ∧ (tSess 4).total ≤ (tSess 4).bytes.length
      ∧ tMbxDone.up = true ∧ tMbxDone.mgmt.mbx.isSome = true ∧ tMbxDone.mgmt.session = none ∧ tS.mgmt.mbx = none := by
  unfold State.Serves; decide +kernel

/-- A library of another VERSION in slot 1 while slot 0 runs; of another COMPAT; capacity or none; the life-cycle state. -/
def tAct (slot compat cap life : Nat) : State :=
  let s := tMbx (1 + 16 * slot) 0 none
  let b : ImageSlot := { tImage 1 10 with bytes := (tImage 1 10).bytes.set 6 (BitVec.ofNat 8 compat) }
  { s with mgmt := { s.mgmt with libB := b, fuses := { s.mgmt.fuses with lifeState := life } }
           clusters := List.replicate 16 { tCluster with cores := tCluster.cores.take cap, lib := 9 } }

/-- No core serves, and the channels cost cycles. -/
def tNoRoom : State := (tAct 1 1 0 1).put Reg.BEAT_EVERY_LOAD Fd.BEAT_EVERY_LOAD.CYCLES 100

theorem wit_MailboxActivation :
    (tAct 1 1 10 1).Serves .a ∧ (tAct 1 1 10 1).isBusy Pg.MGMT = false ∧ (tMbx 16 0 none).fwValid (tMbx 16 0 none).mbxSlot = true
      ∧ tBlank.Serves .a ∧ tBlank.isBusy Pg.MGMT = false ∧ tBlank.fwValid tBlank.mbxSlot = false ∧ tBlank.libValid tBlank.mbxSlot = false ∧ (tAct 1 1 10 1).libValid (tAct 1 1 10 1).mbxSlot = true
      ∧ (tAct 1 1 10 1).libraryRuns = true ∧ ({ tAct 1 1 10 1 with clusters := [] } : State).libraryRuns = false
      ∧ ((tAct 1 2 10 1).libImage 1).compat ≠ ((tAct 1 2 10 1).libImage (tAct 1 2 10 1).mgmt.libSlot).compat
      ∧ ((tAct 1 1 10 1).libImage 1).compat = ((tAct 1 1 10 1).libImage (tAct 1 1 10 1).mgmt.libSlot).compat
      ∧ (tAct 1 1 10 1).modes.mode = 2 ∧ tNoRoom.Serves .a ∧ tNoRoom.libraryRuns = true ∧ tNoRoom.rotCapacity = false ∧ (tAct 1 1 10 1).rotCapacity = true ∧ (tAct 1 1 10 1).mgmt.rot = none
      ∧ ((tAct 1 1 10 1).setBusy Pg.MGMT false).mbxKind = 1 ∧ tBring.modes.bringup = true
      ∧ (tImage 2 3).valid 2 0 = true ∧ (tAct 1 1 10 1).mgmt.fuses.lifeState < 2 ∧ 2 ≤ (tAct 1 1 10 2).mgmt.fuses.lifeState
      ∧ (tMbx 2 0 none).mbxKind = 2 ∧ ((tMbx (boardBytes - 4) 0 none).rd (Reg.MBX_ARG 0)).toNat + (4#12).toNat ≤ boardBytes
      ∧ boardBytes < ((tMbx (boardBytes - 4) 0 none).rd (Reg.MBX_ARG 0)).toNat + (5#12).toNat := by
  unfold State.Serves; decide +kernel


/-- Kwakel in a state after expiries; a mailbox command is in progress; the firmware before the activated one is remembered. -/
def tKwakel (k : KState) (boots : Bool) (dogs : List Nat) (prev : Option Nat) : State :=
  let m := (tMbx 0 0 (some (tSess 8))).mgmt
  { tS with mgmt := { m with
      kstate := k, boots := boots, watchdogs := dogs, firstStart := some tS.clk.now, flash := { m.flash with fwPrev := prev }
      mbx := some { op := 4, port := .a, status := 0, res0 := 0, res1 := 0, restart := false } } }

/-- A rotation whose current cluster 2 is in a state. -/
def tRot (st : CState) : State :=
  let r : Rotation := { rest := [3], cur := some 2, loaded := false, slot := 1, stop := false, byActivate := true, wait := false }
  { tS with mgmt := { tS.mgmt with rot := some r, libB := tImage 1 9 }
            clusters := (List.range 16).map fun i => if i = 2 then { tCluster with cstate := st } else tCluster }

theorem wit_KwakelRestarts :
    (tKwakel .running true [] (some 1)).up = true ∧ (tKwakel .running true [] (some 1)).mgmt.kstate = .running
      ∧ (tKwakel .restarting true [] none).mgmt.kstate ≠ .running
      ∧ 3 ≤ ((tKwakel .running true [1, 2] none).mgmt.watchdogs.filter fun x => tS.clk.now < x + secTicks 3600).length + 1
      ∧ (tKwakel .running true [] (some 1)).mgmt.flash.fwPrev = some 1 ∧ tS.clk.now < tS.clk.now + secTicks 60
      ∧ (tKwakel .running true [] none).mgmt.flash.fwPrev = none ∧ (tKwakel .running true [] none).mgmt.mbx.isSome = true
      ∧ pickSlot tBlank.mgmt.flash.fwSel ({ tBlank with mgmt := { tBlank.mgmt with kstate := .restarting } } : State).fwValid = none
      ∧ pickSlot (tKwakel .restarting true [] none).mgmt.flash.fwSel (tKwakel .restarting true [] none).fwValid = some 0
      ∧ (tKwakel .restarting false [] none).mgmt.boots = false ∧ tS.mgmt.rot = none
      ∧ (tRot .evacuated).mgmt.kstate = .running ∧ ((tRot .evacuated).mgmt.rot.bind (·.cur)) = some 2
      ∧ ((tRot .evacuated).cluster 2).map (·.cstate) = some .evacuated ∧ (tRot .evacuated).clusterJobs 2 = []
      ∧ ((tRot .serving).cluster 2).map (·.cstate) = some .serving := by decide +kernel

/-- Log RAM holds records 4 and 5, newest first; one is due for flash. -/
def tRecLog (n : Nat) : LogRec :=
  { seq := Word.of n, beat := 5, stamp := { sec := 1, ns := 2, frac := 0, gen := 3 }, colour := 2, kwakel := false, host := false, page := 0x30, bit := 1,
    rep := 0, data := [] }
def tLog (spare : Nat) : State :=
  { tS with log := { tS.log with ram := [tRecLog 5, tRecLog 4], next := 6, due := [tRecLog 5], spare := spare } }

/-- An ARP request for 192.0.2.5, which is the management port's address. -/
def tArp : List Byte :=
  List.replicate 6 0xFF ++ [2, 0, 0, 0, 0, 7] ++ [8, 6, 0, 1, 8, 0, 6, 4, 0, 1, 2, 0, 0, 0, 0, 7, 192, 0, 2, 9, 0, 0, 0, 0, 0, 0, 192, 0, 2, 5]
def tNetOn : State := (tS.put Reg.MGMT_NET_CTRL Fd.MGMT_NET_CTRL.EN 1).wr Reg.MGMT_NET_IP (Word.of (192 * 2 ^ 24 + 2 * 2 ^ 8 + 5))

/-- GPIO ball 3 belongs to the host, with its edges enabled. -/
def tGpio (user : Nat) : State := (tS.put (Reg.IO_MUX 3) Fd.IO_MUX.USER user).put Reg.IO_GPIO_EDGE_EN Fd.IO_GPIO_EDGE_EN.EN 8

theorem wit_LogAndPins :
    (tLog 2).Serves .a ∧ beatAtOrAfter 6 (tLog 2).log.next = true ∧ beatAtOrAfter 5 (tLog 2).log.next = false
      ∧ ((tLog 2).logStore ((tLog 2).get Reg.LOG_RD_STORE Fd.LOG_RD_STORE.STORE)).find? (fun r => r.seq = 5) = some (tRecLog 5)
      ∧ ((tLog 2).logStore ((tLog 2).get Reg.LOG_RD_STORE Fd.LOG_RD_STORE.STORE)).find? (fun r => r.seq = 3) = none
      ∧ ((tLog 2).logStore ((tLog 2).get Reg.LOG_RD_STORE Fd.LOG_RD_STORE.STORE)).getLast? = some (tRecLog 4)
      ∧ beatAfter (tRecLog 4).seq 3 = true ∧ fieldOf 0 Fd.LOG_NOTE.COLOUR = 0 ∧ fieldOf 3 Fd.LOG_NOTE.COLOUR ≠ 0
      ∧ (tLog 2).up = true ∧ (tLog 2).mgmt.kstate = .running ∧ (tLog 2).log.due = [tRecLog 5] ∧ tS.log.due = [] ∧ (tLog 0).log.spare = 0
      ∧ tNetOn.up = true ∧ tNetOn.mgmt.kstate = .running ∧ tNetOn.flag Reg.MGMT_NET_CTRL Fd.MGMT_NET_CTRL.EN = true
      ∧ State.arpFor tArp (tNetOn.rd Reg.MGMT_NET_IP).toNat = true ∧ State.arpFor tFrame (tNetOn.rd Reg.MGMT_NET_IP).toNat = false
      ∧ (tGpio 1).up = true ∧ (tGpio 1).get (Reg.IO_MUX 3) Fd.IO_MUX.USER = 1
      ∧ ((tGpio 1).get Reg.IO_GPIO_EDGE_EN Fd.IO_GPIO_EDGE_EN.EN).testBit 3 = true
      ∧ ((tGpio 1).get Reg.IO_GPIO_IN Fd.IO_GPIO_IN.IN).testBit 3 = false
      ∧ ((tGpio 1).get Reg.IO_GPIO_EDGE Fd.IO_GPIO_EDGE.EDGE).testBit 3 = false ∧ (tGpio 2).get (Reg.IO_MUX 3) Fd.IO_MUX.USER ≠ 1 := by
  unfold State.Serves; decide +kernel

/-- Thermal site 0 with its WARN flag as given. -/
def tWarm (w : Bool) : State := tS.putB (Reg.SENSOR_TEMP 0) Fd.SENSOR_TEMP.WARN w

theorem wit_Sensing :
    tS.up = true ∧ tS.trips [2000] = true ∧ tS.trips [] = false ∧ (tKwakel .restarting true [] none).mgmt.kstate ≠ .running
      ∧ tS.trips [1600] = false ∧ tS.mgmt.kstate = .running ∧ State.pairDead tS.sens.tempFail 0 = false
      ∧ tS.sens.tempFail[3]? = some (false, false) ∧ tS.sens.voltFail[7]? = some (false, false)
      ∧ State.failPair (false, false) false ≠ (false, false) ∧ State.failPair (true, false) false = (true, false)
      ∧ ({ tS with sens := { tS.sens with tempFail := tS.sens.tempFail.set 3 (true, false) } } : State).sens.tempFail[3]? = some (true, false) := by decide +kernel

/-- Modes of tS changed. -/
def tMode (f : Modes → Modes) : State := { tS with modes := f tS.modes }

theorem wit_ModeCommands :
    tBring.Serves .a ∧ tBring.modes.bringup = true ∧ tS.Serves .a ∧ tS.modes.bringup = false ∧ tS.modes.sealOn = false
      ∧ (tMode fun m => { m with sealOn := true, phase := .draining }).Serves .a
      ∧ (tMode fun m => { m with sealOn := true, phase := .drained }).Serves .a
      ∧ (tRot .serving).Serves .a ∧ (tRot .serving).mgmt.rot.isSome = true ∧ tS.mgmt.rot = none ∧ tS.modes.mode ≠ 4
      ∧ ({ tRot .serving with modes := { tS.modes with mode := 4 } } : State).Serves .a ∧ (tMode fun m => { m with mode := 4 }).Serves .a
      ∧ tS.anyTrigger = false ∧ (tMode fun m => { m with power := true }).anyTrigger = true
      ∧ (tMode fun m => { m with power := true }).Serves .a ∧ tS.modes.phase ≠ .draining ∧ tS.modes.phase ≠ .drained := by
  unfold State.Serves; decide +kernel

/-- DRAINING with its deadline at a beat; DRAINED with HOLD_S 0; WIPING. -/
def tDrain (d : Nat) : State := (tMode fun m => { m with sealOn := true, phase := .draining }).wr Reg.MODE_SEAL_DEADLINE (Word.of d)
def tDrained : State := (tMode fun m => { m with sealOn := true, phase := .drained }).put Reg.MODE_SEAL_CFG Fd.MODE_SEAL_CFG.HOLD_S 0

theorem wit_ModeTimers :
    tS.up = true ∧ (tKwakel .restarting true [] none).mgmt.kstate ≠ .running ∧ tS.mgmt.kstate = .running
      ∧ (tMode fun m => { m with power := true }).anyTrigger = true ∧ tS.anyTrigger = false
      ∧ (tMode fun m => { m with constrain := true, quietDone := true }).modes.constrain = true
      ∧ (tMode fun m => { m with constrain := true, quietDone := true }).anyTrigger = false
      ∧ (tDrain 4).modes.phase = .draining ∧ (tDrain 4).modes.bringup = false
      ∧ beatAtOrAfter (tDrain 4).clk.n ((tDrain 4).rd Reg.MODE_SEAL_DEADLINE) = true
      ∧ beatAtOrAfter (tDrain 6).clk.n ((tDrain 6).rd Reg.MODE_SEAL_DEADLINE) = false
      ∧ (∀ c ∈ ({ tDrain 4 with chans := [] } : State).openChans, c.cfg.emergency = true)
      ∧ tDrained.modes.phase = .drained
      ∧ tDrained.modes.drainedAt + secTicks (tDrained.get Reg.MODE_SEAL_CFG Fd.MODE_SEAL_CFG.HOLD_S) ≤ (tDrained.clk.advance 2).now
      ∧ tWipe.modes.phase = .wiping ∧ tWipe.get Reg.MEM_STATE Fd.MEM_STATE.STATE ≠ 2 := by decide +kernel

theorem wit_UnmappedPages :
    tS.up = true ∧ tS.linked .a = true ∧ tS.linked .b = true ∧ (0x21000 + 3) < 2 ^ 26 ∧ 2 ^ 26 - 8 < 2 ^ 26
      ∧ mappedPages.contains ((2 ^ 26 - 8) / 0x1000) = false ∧ mappedPages.contains (0x3FFF008 / 0x1000) = false
      ∧ tS.mgmt.kstate ≠ .boot ∧ tS.mgmt.kstate = .running ∧ tS.ownedBy .b = false ∧ tS.modes.phase ≠ .sealed := by decide +kernel

/-- A write or read without anything beside it. -/
def tPlain : WriteIn := { descs := [], orphans := 0, data := [], clips := [], verified := false, fits := true }

theorem wit_RegisterAccesses :
    tS.Serves .a ∧ Reg.IO_GPIO_OUT / 0x1000 = Pg.IO ∧ 0x40 ≤ Reg.IO_GPIO_OUT % 0x1000
      ∧ fieldsAt Reg.IO_GPIO_OUT ≠ [] ∧ hasAcc Reg.IO_GPIO_OUT .rwt = false ∧ fieldsOk (fieldsAt Reg.IO_GPIO_OUT) [.rw] 5 = true
      ∧ fieldsAt Reg.IO_CTRL ≠ [] ∧ hasAcc Reg.IO_CTRL .rwt = false ∧ fieldsOk (fieldsAt Reg.IO_CTRL) [.rw] 11 = false
      ∧ mappedPages.contains Pg.ECAN = true ∧ tS.absentMac Pg.ECAN = false ∧ tS.recent.at0 ≠ (tS.clk.advance 2).now
      ∧ Reg.EVT_ROUTE Pg.ECAN % 4 = 0 ∧ Pg.ECAN ≠ Pg.OWN ∧ tS.linked .b = true ∧ tS.ownedBy .b = false
      ∧ Reg.IO_GPIO_OUT ≠ Reg.OWN_CLAIM ∧ Reg.IO_GPIO_OUT ≠ Reg.OWN_HEARTBEAT ∧ (tS.msix .b).table[2]?.isSome = true
      ∧ hasAcc Reg.IO_GPIO_OUT .rc = false ∧ Pg.ECAN ≠ Pg.LOG := by
  unfold State.Serves; decide +kernel

/-! ## Witnesses for the statements about every command -/

/-- A queue of two commands. -/
def tQueue : State := { tS with pending := [.cut 50, .traceMark 60 .a 7] }

theorem wit_StepRunsFront :
    tQueue.pending = .cut 50 :: [.traceMark 60 .a 7] ∧ tS.pending = [] ∧ (match step tQueue with | .next u => decide (u.pending = [.traceMark 60 .a 7]) | _ => false) = true
      ∧ (match step tS with | .next u => decide (u = tS) | _ => false) = true := by decide +kernel

theorem wit_TimeGoesForward :
    (tQueue.clk.at0 ≤ tQueue.clk.now ∧ tQueue.clk.now < tQueue.clk.at0 + beatTicks)
      ∧ (match step tQueue with | .next u => decide (u.clk.n = 5) | _ => false) = true
      ∧ (match exec (.beatBoundary (41 * beatTicks) { phaseNs := 0, pcmPpb := 0, tenPpb := 0, vcoreMv := 900, orphans := [] }) tS with
        | .next u => decide (u.clk.n = 6) | _ => false) = true
      ∧ (match exec (.porAssert 9) tS with | .next u => !u.clk.started | _ => false) = true := by decide +kernel

theorem wit_EveryCommandCompletes :
    tS.pwr.vddAon = true ∧ State.reset.up = false
      ∧ ({ tS with pwr := { tS.pwr with vddAon := false } } : State).pwr.porn = true
      ∧ (match step tQueue with | .next u => decide (u.pending = [.traceMark 60 .a 7]) | _ => false) = true := by decide +kernel

/-! ## Well-formed commands: an ill-formed term for each check -/

/-- A received frame of `n` bytes. -/
def tRxLen (n : Nat) (reads : List SectorRead) : RxFrame :=
  { bytes := List.replicate n 0, fcsOk := true, pcsOk := true, sofBack := 0, fifo := [],
    fecCorr := 0, fecLost := 0, mergeErr := false, late := false, dir := { hit := true, reads := reads } }

/-- A sector read. -/
def tSector (a n : Nat) : SectorRead := { addr := a, retries := n, edcFail := false, checkFail := false, srcFail := false }

/-- A place in memory. -/
def tSramAt (k i b : Nat) : SramLoc := { shared := false, cluster := k, core := i, bank := b, row := 0, word := 0, bitPos := 0 }

/-- A section with parameters. -/
def tSection (p : Predictor) (part : Nat) (rs : List Nat) : SectionChoice := { pred := p, part := part, rs := rs, lens := [] }

/-- The results of a leg. -/
def tLegRes (audio : List Int) : LegResult :=
  { parses := [], audio := audio, raw := [], tsa := ⟨0, false, false⟩, steps := [], out := [], tx := ⟨false, false, 0, [], 0⟩, xr := ⟨0, 0, []⟩ }

/-- A boundary's measurements. -/
def tBound (l : List (Nat × Nat)) : BoundaryInput := { phaseNs := 0, pcmPpb := 0, tenPpb := 0, vcoreMv := 900, orphans := l }

/-- The operands of WriteIn. -/
def tWrite (f : WriteIn → WriteIn) : WriteIn :=
  f { verified := false, fits := true, clips := [], data := [], orphans := 0, descs := [] }

theorem test_wf_registers :
    Instr.wf (.registerWrite 0 .a false 0x3FFFFFC 4 0xF 0 (tWrite id)) = true
      ∧ Instr.wf (.registerWrite 0 .a false 0x4000000 4 0xF 0 (tWrite id)) = false
      ∧ Instr.wf (.registerWrite 0 .a true 0x100000 4 0xF 0 (tWrite id)) = false
      ∧ Instr.wf (.registerWrite 0 .a false 0x40 3 0xF 0 (tWrite id)) = false
      ∧ Instr.wf (.registerWrite 0 .a false 0x40 4 0xF 0 (tWrite fun x => { x with clips := [(1024, ⟨8, 1, 0, 0⟩)] })) = false
      ∧ Instr.wf (.registerWrite 0 .a false 0x40 4 0xF 0 (tWrite fun x => { x with clips := [(3, ⟨9, 1, 0, 0⟩)] })) = false
      ∧ Instr.wf (.registerWrite 0 .a false 0x40 4 0xF 0 (tWrite fun x => { x with orphans := 2049 })) = false
      ∧ Instr.wf (.registerWrite 0 .a false 0x40 4 0xF 0 (tWrite fun x => { x with descs := [⟨0, 65536, 0, true⟩] })) = false
      ∧ Instr.wf (.rcRead 0 .b true 0x100000) = false ∧ Instr.wf (.evtForce 0 .a 16384 0) = false
      ∧ Instr.wf (.rwtWrite 0 .a 0x8042 0) = false ∧ Instr.wf (.rwtWrite 0 .a 0x8040 0) = true
      ∧ Instr.wf (.doorbell 0 .a 0 0 [⟨2 ^ 64, 0, 0, true⟩]) = false ∧ Instr.wf (.ringFlush 0 .a 0 2049) = false
      ∧ Instr.wf (.memXferFromHost 0 .a 4 (List.replicate 65537 0)) = false
      ∧ Instr.wf (.activateDataPackage 0 .a [(0, ⟨8, 0, 0, 0⟩)] true) = false := by decide +kernel

theorem test_wf_jobs :
    Instr.wf (.jobGrant 0 (.cluster 16)) = false ∧ Instr.wf (.jobGrant 0 .trellis) = true
      ∧ Instr.wf (.stagingComplete 0 16 0 []) = false ∧ Instr.wf (.stagingComplete 0 0 10 []) = false
      ∧ Instr.wf (.stagingComplete 0 0 0 [tSector 65 0]) = false ∧ Instr.wf (.stagingComplete 0 0 0 [tSector 64 5]) = false
      ∧ Instr.wf (.jobStart 0 15 10) = false ∧ Instr.wf (.jobHandover 0 3 2 (2 ^ 32)) = false
      ∧ Instr.wf (.partnerDigest 0 65536) = false ∧ Instr.wf (.writeBackComplete 0 0 65536 none) = false
      ∧ Instr.wf (.coreFault 0 0 0 16 none) = false ∧ Instr.wf (.coreFault 0 0 0 2 (some (tSramAt 0 0 32))) = false
      ∧ Instr.wf (.sramRepair 0 (tSramAt 16 0 0) false) = false ∧ Instr.wf (.sramRepair 0 (tSramAt 0 10 0) false) = false
      ∧ Instr.wf (.coreSelfCheckDone 0 0 10) = false ∧ Instr.wf (.jobOverrun 0 16 0) = false
      ∧ Instr.wf (.hostcmdJobDone 0 256) = false ∧ Instr.wf (.clusterLost 0 16 5) = false ∧ Instr.wf (.wbDrainDone 0 16) = false
      ∧ Instr.wf (.unitFault 0 false 4 14) = false ∧ Instr.wf (.unitFault 0 true 15 14) = true
      ∧ Instr.wf (.maintJobDone 0 16 []) = false ∧ Instr.wf (.pllUnlock 0 6) = false
      ∧ (tLegRes [32768]).wf = false ∧ (tLegRes [-32768]).wf = true
      ∧ JobResult.wf ⟨tLegRes [], { tLegRes [] with steps := [⟨none, [], false, false, false, false, false, false, false⟩] },
          ⟨[], []⟩, ⟨[], []⟩, ⟨none, [], [], [], 0, false⟩, [], false, []⟩ = false := by decide +kernel

theorem test_wf_rest :
    Instr.wf (.beatBoundary 0 (tBound [(256, 0)])) = false ∧ Instr.wf (.beatBoundary 0 (tBound [(255, 2049)])) = false
      ∧ Instr.wf (.beatBoundary 0 (tBound [(255, 3)])) = true
      ∧ Instr.wf (.frameReceive 0 0 (tRxLen 13 []) ⟨[], []⟩) = false ∧ Instr.wf (.frameReceive 0 0 (tRxLen 60 []) ⟨[], []⟩) = true
      ∧ Instr.wf (.pauseFrame 0 0 (tRxLen 16385 [])) = false ∧ Instr.wf (.frameReceive 0 0 (tRxLen 60 [tSector 1 0]) ⟨[], []⟩) = false
      ∧ Instr.wf (.pcmFrame 0 0 ⟨2048, List.replicate 5 [], [], [], []⟩) = false
      ∧ Instr.wf (.pcmFrame 0 0 ⟨2048, [List.replicate 129 0], [], [], []⟩) = false
      ∧ Instr.wf (.modemJobDone 0 0 ⟨2 ^ 24, [], 0, 0, 0⟩) = false ∧ Instr.wf (.modemJobDone 0 0 ⟨0, [], 65536, 0, 0⟩) = false
      ∧ Instr.wf (.archiveJobDone 0 0 (tSection (.fixed 5) 0 [0]) (tSection (.fixed 4) 0 [0]) []) = false
      ∧ Instr.wf (.archiveJobDone 0 0 (tSection (.fixed 4) 1 [0]) (tSection (.fixed 4) 0 [0]) []) = false
      ∧ Instr.wf (.archiveJobDone 0 0 (tSection (.fixed 4) 0 [16]) (tSection (.fixed 4) 0 [0]) []) = false
      ∧ Instr.wf (.archiveJobDone 0 0 (tSection (.linear 17 0 [1]) 0 [0]) (tSection (.fixed 4) 0 [0]) []) = false
      ∧ Instr.wf (.archiveJobDone 0 0 (tSection (.linear 16 0 []) 0 [0]) (tSection (.fixed 4) 0 [0]) []) = false
      ∧ Instr.wf (.txDescFetch 0 0 (List.replicate 65537 0)) = false ∧ Instr.wf (.memTrainingDone 0 [4]) = false
      ∧ Instr.wf (.libraryLoadDone 0 [(16, 0)]) = false ∧ Instr.wf (.sensorSample 0 (List.replicate 12 2048) (List.replicate 8 0) [0, 0, 0, 0] 0) = false
      ∧ Instr.wf (.sensorSample 0 (List.replicate 11 0) (List.replicate 8 0) [0, 0, 0, 0] 0) = false
      ∧ Instr.wf (.sensorSample 0 (List.replicate 12 0) (List.replicate 8 0) [0, 0, 0, 128] 0) = false
      ∧ Instr.wf (.sensorFail 0 true 8 false) = false ∧ Instr.wf (.mgmtFrameReceive 0 (List.replicate 9217 0)) = false
      ∧ Instr.wf (.pulseEnd 0 5) = false := by decide +kernel

/-! ## Worked examples of the manual -/

/-- The decoder names no command for any word: the table gives the rows no bits. -/
theorem test_no_word_spells (n w : Nat) : decodeTableWord n w = none := rfl

/-- External Memory, "A device fails under a lift call": the slot of channel 4,821 with 16 Gb devices (R461). -/
theorem test_stripe_example :
    0x80000000 + 4821 * 0x2000 = 0x825AA000 ∧ stripeOf 0x825AA000 = { dev := 1, par := 2, daddr := 728992256 }
      ∧ (List.range 3).map (fun u => (stripeOf (2847627 * 768 + 256 * u)).dev) = [0, 1, 2] ∧ (stripeOf (2847627 * 768)).par = 3 := by
  decide +kernel

/-- Scope, "Channel 4,821": home cluster 5 (R11); and Management Core, "Rotating the right card": while cluster 5 is away, entry
(301 mod 15) = 1 of the serving clusters. -/
theorem test_home_example :
    tS.homeFor 4821 5 false = 5
      ∧ ({ tS with clusters := tS.clusters.set 5 { tCluster with cstate := .lost } } : State).homeFor 4821 5 false = 1 := by decide +kernel

/-- Channels and Legs, the three channels costed under R101 and R102, with the lift channel paired. -/
theorem test_cost_example :
    let ref : ChanCfg := { tCfg with ec := .legB, detA := true, detB := true, legA := .packet 0 4 0 false 7 99 5 3 1 20 0 0, legB := .pcm 0 2 3 }
    let trans : ChanCfg := { ref with legA := .packet 6 4 96 false 7 99 5 3 1 20 0 0, legB := .packet 0 4 8 false 7 99 5 3 1 20 0 0 }
    let lift : ChanCfg := { ref with emergency := true, paired := true, ec := .legA, sess := .taldy, legA := .pcm 0 3 17,
                                     legB := .packet 6 4 96 false 7 99 5 3 1 20 0 0 }
    ref.costEvery = 14500 ∧ ref.costFrame = 0 ∧ trans.costEvery = 20000 ∧ trans.costFrame = 136000
      ∧ lift.everyOnce = 29000 ∧ lift.costEvery = 58000 ∧ lift.costFrame = 272000 := by decide +kernel

/-- n refills of a shaper at an instant. -/
def tRefills (q : Nat) : Nat → Shaper → Shaper
  | 0, x => x
  | n + 1, x => tRefills q n (x.refill q)

/-- The shaper of leg 9,643 after its train of two, and after 375 refills with the new rates waiting. -/
def tDebt : Shaper := ({ cfg := ⟨true, 50, 100, 1, 2⟩, tc := 50000, tp := 100000, pend := none } : Shaper)
def tDebt2 : Shaper := { tRefills 10 375 ((tDebt.take false).take false) with pend := some (20, ⟨true, 200, 400, 1, 2⟩) }

/-- Egress Scheduling, "Debt across a rate change" (R312 to R314), buckets in thousandths of a packet. -/
theorem test_debt_example :
    tDebt.state = 1 ∧ ((tDebt.take false).take false).tc = -50000 ∧ ((tDebt.take false).take false).state = 3
      ∧ (milliOf tDebt2.tc, milliOf tDebt2.tp) = (-625, 750)
      ∧ (milliOf (tDebt2.refill 30).tc, milliOf (tDebt2.refill 30).tp) = (-621, 758)
      ∧ milliOf (tRefills 30 32 tDebt2).tp = 1006 ∧ (tRefills 30 32 tDebt2).state = 2
      ∧ milliOf (tRefills 30 157 tDebt2).tp = 2000 ∧ (tRefills 30 406 tDebt2).state = 2 ∧ (tRefills 30 407 tDebt2).state = 1 := by
  decide +kernel

/-- Egress Scheduling, "Fair shares after a pause": at equal tags the lower leg goes first (R310). -/
theorem test_tie_example :
    (pickChild [⟨200, 10500, false⟩, ⟨201, 11000, false⟩, ⟨202, 10500, false⟩]).map (·.num) = some 200
      ∧ (pickChild [⟨200, 10750, false⟩, ⟨201, 11000, false⟩, ⟨202, 10500, false⟩]).map (·.num) = some 202
      ∧ (pickChild [⟨201, 11000, true⟩, ⟨202, 12000, false⟩]).map (·.num) = some 202 := by decide +kernel

/-- Telemetry Modem, "A lift phone in motor hum": 24 bytes at rate 2/3 take 7 symbols and 100 bytes at rate 1/2 take 35, with
map 0 at reset, E = 48 (R415). -/
theorem test_symbols_example : mapBits freshMap false = 48 ∧ payloadSyms 24 1 48 = 7 ∧ payloadSyms 100 0 48 = 35 := by decide +kernel

/-- The Beat: B(n+1) lies 122,880 timebase cycles after B(n), and the refill instants of R312 fall 250 times in it. -/
theorem test_beat_example : beatTicks = 122880 * cycTicks ∧ refillAt 250 = beatTicks ∧ refillAt 1 = 491 * cycTicks := by decide +kernel

/-- The worked example of R415: a frame of 40 bytes with map 0 has 19, 15 or 14 symbols; its header passes its CRC-8 and gives
48 coded bits. -/
theorem test_frame_example :
    let q (rate : Nat) : TxReq := { tag := 0, map := 0, rate := rate, payload := List.replicate 40 0x5A }
    (List.range 3).map (fun r => (frameSyms (q r) freshMap false []).length) = [19, 15, 14]
      ∧ (List.range 3).map (fun r => (payloadCoded (q r).payload r).length) = [684, 513, 456]
      ∧ taldyHeaderOk (((headerBits 40 5 2).zip (List.range 24)).foldl (fun n p => if p.1 then n + 2 ^ p.2 else n) 0) = true
      ∧ (headerCoded 40 5 2).length = 48 := by decide +kernel

end Sys2Proof.Tests
end

section
/-! PROOFS. The beat boundary as a command: what it leaves of the clock and the queue (R6, R60). -/

namespace Sys2Proof.Machine

/-- Once the timebase runs, the instant of a boundary is one beat after the boundary before it, whatever instant is asked for
(R6). -/
theorem Clk.boundary_of_started (c : Clk) (t : Nat) (h : c.started = true) :
    c.boundary t = { c with now := c.at0 + beatTicks, at0 := c.at0 + beatTicks, n := c.n + 1 } := if_pos h

/-- A boundary that takes place moves the clock on by `Clk.boundary` and keeps the queue, whatever the work of R60 does. -/
theorem exec_beatBoundary_clk (s : State) (t : Nat) (inp : BoundaryInput) (hup : s.up = true)
    (hrun : s.clk.started = true ∨ s.mgmt.boots = true) :
    ∃ u, exec (.beatBoundary t inp) s = .next u ∧ u.clk = s.clk.boundary t ∧ u.pending = s.pending :=
  ⟨_, if_pos (by simpa [hup] using hrun), rfl, rfl⟩

/-- Settles O5: BEAT_BOUNDARY completes with the clock of `Clk.boundary`, which a running timebase puts at exactly one beat after
the boundary before. -/
theorem beatLength : Obligations.BeatLength := by
  unfold Obligations.BeatLength
  intro s t inp hup hstarted
  obtain ⟨u, hexec, hclk, hpending⟩ := exec_beatBoundary_clk s t inp hup (.inl hstarted)
  rw [Clk.boundary_of_started _ _ hstarted] at hclk
  have hn : u.clk.n = s.clk.n + 1 := by rw [hclk]
  have hat0 : u.clk.at0 = s.clk.at0 + 122880 * cycTicks := by rw [hclk, beatTicks]
  have hnow : u.clk.now = u.clk.at0 := by rw [hclk]
  have hstarted' : u.clk.started = true := by rw [hclk]; exact hstarted
  have ht0 : u.clk.t0 = s.clk.t0 := by rw [hclk]
  exact ⟨u, hexec, hn, hat0, hnow, hstarted', ht0, hpending⟩

end Sys2Proof.Machine
end

section
/-! PROOFS. Accesses to pages that the page map does not list: what they read and what their writes leave (R21). -/

namespace Sys2Proof.Machine

/-! ## The page map and the registers of a page outside it -/

/-- A page of an entry of the page map is mapped. -/
theorem mapped_of_mem_pages {i : Nat} {e : PageSpec} (he : e ∈ pages) (hlo : e.first ≤ i) (hhi : i < e.first + e.count) :
    mappedPages.contains i = true := by
  simp only [mappedPages, List.contains_iff_mem, List.mem_flatten, List.mem_map, exists_exists_and_eq_and, List.mem_range]
  exact ⟨e, he, i - e.first, by omega, by omega⟩

/-- An unmapped page differs from every mapped one. -/
theorem ne_of_unmapped {i q : Nat} (h : mappedPages.contains i = false) (hq : mappedPages.contains q = true) : i ≠ q := by
  rintro rfl
  rw [h] at hq
  cases hq

/-- An unmapped page lies outside every range of pages that one entry of the page map covers. -/
theorem outside_of_unmapped {i lo hi : Nat} (h : mappedPages.contains i = false)
    (hcover : ∃ e ∈ pages, e.first ≤ lo ∧ hi ≤ e.first + e.count) : (decide (lo ≤ i) && decide (i < hi)) = false := by
  obtain ⟨e, he, hlo, hhi⟩ := hcover
  by_contra hin
  simp only [Bool.not_eq_false, Bool.and_eq_true, decide_eq_true_eq] at hin
  exact ne_of_unmapped h (mapped_of_mem_pages he (hlo.trans hin.1) (hin.2.trans_le hhi)) rfl

theorem findPage_of_unmapped {i : Nat} (h : mappedPages.contains i = false) : findPage i = none := by
  have hnone : pages.find? (fun e => e.first ≤ i && i < e.first + e.count) = none := by
    rw [List.find?_eq_none]
    intro e he hin
    simp only [Bool.and_eq_true, decide_eq_true_eq] at hin
    exact ne_of_unmapped h (mapped_of_mem_pages he hin.1 hin.2) rfl
  rw [findPage, hnone]

theorem findReg_of_unmapped {a : Nat} (h : mappedPages.contains (a / 0x1000) = false) : findReg a = none := by
  rw [findReg, findPage_of_unmapped h]

theorem hasAcc_of_unmapped {a : Nat} (acc : Access) (h : mappedPages.contains (a / 0x1000) = false) : hasAcc a acc = false := by
  rw [hasAcc, fieldsAt, findReg_of_unmapped h]
  rfl

/-- An address of an unmapped page differs from every address of a mapped one. -/
theorem addr_ne_of_unmapped {a r : Nat} (h : mappedPages.contains (a / 0x1000) = false)
    (hr : mappedPages.contains (r / 0x1000) = true) : a ≠ r :=
  fun e => ne_of_unmapped h hr (congrArg (· / 0x1000) e)

namespace State

/-! ## Reads (R21, R31) -/

/-- No view stands on an unmapped page below 0x60. -/
theorem viewLow_of_unmapped (s : State) {page : Nat} (off : Nat) (h : mappedPages.contains page = false) :
    s.viewLow page off = none := by
  simp (disch := decide) only [viewLow, ne_of_unmapped h, outside_of_unmapped h, if_false, Bool.false_eq_true]

/-- No view stands on an unmapped page from 0x60 on. -/
theorem viewHigh_of_unmapped (s : State) (p : Port) {page : Nat} (off : Nat) (h : mappedPages.contains page = false) :
    s.viewHigh p page off = none := by
  simp (disch := decide) only [viewHigh, ne_of_unmapped h, outside_of_unmapped h, if_false, Bool.false_eq_true]

/-- Every offset of an unmapped page reads 0, its common header included (R21). -/
theorem regWord_of_unmapped (s : State) (p : Port) {a : Nat} (h : mappedPages.contains (a / 0x1000) = false) :
    s.regWord p a = 0 := by
  have hview : s.view p a = if a % 0x1000 < 0x40 then some 0 else none := by
    simp only [view, viewHeader, findPage_of_unmapped h, viewLow_of_unmapped s _ h, viewHigh_of_unmapped s p _ h, ite_self]
  unfold regWord
  rw [hview, findReg_of_unmapped h]
  split_ifs <;> rfl

/-- A read of an unmapped page latches, pops and clears nothing: it only draws a free value. -/
theorem readWord_of_unmapped (s : State) (p : Port) {a : Nat} (h : mappedPages.contains (a / 0x1000) = false) :
    s.readWord p a = (0, { s with freeCtr := s.freeCtr + 1 }) := by
  have hbeat : a ≠ Reg.BEAT_NOW := addr_ne_of_unmapped h (by decide)
  have htime : a ≠ Reg.TIME_NOW_SEC_LO := addr_ne_of_unmapped h (by decide)
  have harc : a ≠ Reg.ARC_DONE0 := addr_ne_of_unmapped h (by decide)
  have htsq : (List.range 8).find? (fun i => a = Reg.PTIME_TSQ0 i) = none := by
    have hmapped : ∀ i ∈ List.range 8, mappedPages.contains (Reg.PTIME_TSQ0 i / 0x1000) = true := by decide
    rw [List.find?_eq_none]
    intro i hi
    simpa using addr_ne_of_unmapped h (hmapped i hi)
  simp only [readWord, regWord_of_unmapped s p h, hasAcc_of_unmapped .rc h, hbeat, htime, harc, htsq, if_false, Bool.and_false,
    Bool.false_eq_true]

/-- Once the firmware has started, a read over a link that runs is answered (R537, R568). -/
theorem hostRead_started (s : State) (p : Port) (f : State → Word × State) (hl : s.linked p = true)
    (hk : s.mgmt.kstate ≠ .boot) : s.hostRead p f = { (f s).2 with lastRead := (f s).1 } := by
  unfold hostRead
  rw [hl]
  cases hb : s.mgmt.kstate
  case boot => exact absurd hb hk
  all_goals rfl

/-! ## Dropped writes (R20, R21, R581) -/

@[simp] theorem linked_atTick (s : State) (t : Nat) (p : Port) : (s.atTick t).linked p = s.linked p := by cases p <;> rfl

/-- The counter's value after a count up: it saturates. -/
theorem get_inc_same (s : State) (a : Nat) (f : Fd) (d : Nat) (h : f.lo ≤ f.hi) (h2 : f.hi < 32) :
    (s.inc a f d).get a f = min (s.get a f + d) (2 ^ (f.hi + 1 - f.lo) - 1) := by
  rw [inc, get_put_same _ _ _ _ h h2, Nat.mod_eq_of_lt]
  have := Nat.two_pow_pos (f.hi + 1 - f.lo)
  omega

theorem badAccess_onlyEvents (s : State) (p : Port) (off : Nat) :
    s.OnlyEvents (s.badAccess p off) [Reg.DEV_BADACC, Reg.DEV_BADACC_CNT] :=
  ((wr_onlyEvents s _ _).trans (inc_onlyEvents _ _ _ _)).trans (event_onlyEvents _ _ _)

/-- DEV_BADACC after a dropped access. -/
theorem badAccess_rd (s : State) (p : Port) (off : Nat) :
    (s.badAccess p off).rd Reg.DEV_BADACC = withBits (withBits 0 29 29 (if p = .b then 1 else 0)) 25 0 off := by
  rw [badAccess, rd_event _ _ _ (by decide), rd_inc_ne _ _ _ (by decide), rd_wr_same]

theorem badAccess_offset (s : State) (p : Port) {off : Nat} (h : off < 2 ^ 26) :
    (s.badAccess p off).get Reg.DEV_BADACC Fd.DEV_BADACC.OFFSET = off := by
  rw [get, badAccess_rd, bitsOf_withBits _ _ _ _ (by decide) (by decide)]
  exact Nat.mod_eq_of_lt h

theorem badAccess_port (s : State) (p : Port) (off : Nat) :
    (s.badAccess p off).get Reg.DEV_BADACC Fd.DEV_BADACC.PORT = if p = .b then 1 else 0 := by
  rw [get, badAccess_rd, bitsOf_withBits_ne _ _ _ _ _ _ (by decide) (by decide) (by decide) (by decide),
    bitsOf_withBits _ _ _ _ (by decide) (by decide)]
  cases p <;> rfl

theorem badAccess_count (s : State) (p : Port) (off : Nat) :
    (s.badAccess p off).get Reg.DEV_BADACC_CNT Fd.DEV_BADACC_CNT.COUNT
      = min (s.get Reg.DEV_BADACC_CNT Fd.DEV_BADACC_CNT.COUNT + 1) (2 ^ 32 - 1) := by
  rw [badAccess, get_event _ _ _ _ (by decide), get_inc_same _ _ _ _ (by decide) (by decide), get,
    rd_wr_ne _ _ (by decide), get]
  rfl

theorem badAccess_latched (s : State) (p : Port) (off : Nat) : (s.badAccess p off).Latched Pg.DEV Ev.DEV.BAD_ACCESS :=
  event_latched _ _ _ (by decide)

/-- A dropped write from the port is recorded: its link and Kwakel run, and SEALED does not hide it (R537, R568, R581). -/
def RecordsDrop (s : State) (p : Port) : Prop :=
  s.linked p = true ∧ (s.mgmt.kstate = .running ∨ s.mgmt.kstate = .restarting)
    ∧ (s.ownedBy p = false ∨ s.modes.phase ≠ .sealed)

theorem droppedWrite_records {s : State} {p : Port} (a : Nat) (h : s.RecordsDrop p) : s.droppedWrite p a = s.badAccess p a := by
  obtain ⟨hl, hk, ho⟩ := h
  have hsealed : (s.ownedBy p && decide (s.modes.phase = .sealed)) = false := by
    rw [Bool.and_eq_false_iff, decide_eq_false_iff_not]
    exact ho
  unfold droppedWrite
  rcases hk with hk | hk <;> simp [hl, hk, hsealed]

/-- A write that is recorded leaves the next one recorded. -/
theorem RecordsDrop.badAccess {s : State} {p : Port} (h : s.RecordsDrop p) (off : Nat) : (s.badAccess p off).RecordsDrop p := by
  have hev := badAccess_onlyEvents s p off
  have hl : (s.badAccess p off).linked p = s.linked p := by cases p <;> simp only [linked, hev.pwr]
  unfold RecordsDrop
  rw [hl, ownedBy, hev.own, hev.mgmt, hev.modes]
  exact h

/-- One word written to an unmapped page is dropped and recorded (R21). -/
theorem writeWord_of_unmapped {s : State} {p : Port} {a : Nat} (v : Word) (x : WriteIn)
    (h : mappedPages.contains (a / 0x1000) = false) (hs : s.RecordsDrop p) : s.writeWord p a v x = s.badAccess p a := by
  rw [writeWord, h, if_neg (by decide), droppedWrite_records a hs]

/-- A write of an unmapped page, of any size and alignment: an aligned 64-bit write is two dropped words, every other one is one
dropped access (R20, R21). -/
theorem bar0Write_of_unmapped {s : State} {p : Port} {a : Nat} (size : Nat) (be : BitVec 8) (v : BitVec 64) (x : WriteIn)
    (h : mappedPages.contains (a / 0x1000) = false) (hs : s.RecordsDrop p) :
    s.bar0Write p a size be v x
      = if size = 8 ∧ a % 8 = 0 ∧ be = 0xFF then (s.badAccess p a).badAccess p (a + 4) else s.badAccess p a := by
  unfold bar0Write
  by_cases htwo : size = 8 ∧ a % 8 = 0 ∧ be = 0xFF
  · have hpage : (a + 4) / 0x1000 = a / 0x1000 := by omega
    rw [if_pos htwo, if_pos (by simpa [and_assoc] using htwo), writeWord_of_unmapped _ _ h hs,
      writeWord_of_unmapped _ _ (by rw [hpage]; exact h) (hs.badAccess a)]
  · rw [if_neg htwo, if_neg (by simpa [and_assoc] using htwo), writeWord_of_unmapped _ _ h hs, droppedWrite_records a hs, ite_self]

/-- A command whose effect at its instant is `u`, with the clock of that instant and the queue as it was, gives `u`. -/
theorem act_of_eq {s u : State} {t : Nat} (f : State → State) (h : s.up = true) (hu : f (s.atTick t) = u)
    (hc : u.clk = s.clk.advance t) (hp : u.pending = s.pending) : s.act t f = .next u := by
  subst hu
  exact act_eq s t f h hc hp

end State

/-! ## The commands -/

/-- RC_READ of an unmapped page answers 0 (R21). -/
theorem exec_rcRead_of_unmapped (s : State) (t : Nat) (p : Port) {a : Nat} (hup : s.up = true) (hl : s.linked p = true)
    (h : mappedPages.contains (a / 0x1000) = false) (hk : s.mgmt.kstate ≠ .boot) :
    exec (.rcRead t p false a) s = .next { s.atTick t with lastRead := 0, freeCtr := s.freeCtr + 1 } := by
  have hword : a / 4 * 4 / 0x1000 = a / 0x1000 := by omega
  have hread : (s.atTick t).hostRead p (fun s => s.readWord p (a / 4 * 4))
      = { s.atTick t with lastRead := 0, freeCtr := s.freeCtr + 1 } := by
    rw [State.hostRead_started (s.atTick t) _ _ (by simpa using hl) hk, State.readWord_of_unmapped _ p (by rw [hword]; exact h)]
    rfl
  exact State.act_of_eq (fun s => s.hostRead p fun s => s.readWord p (a / 4 * 4)) hup hread rfl rfl

/-- REGISTER_WRITE to BAR0 answers the state that the write leaves, where that write touches only registers and what events do. -/
theorem exec_registerWrite_bar0 {s u : State} {t : Nat} {p : Port} {a size : Nat} {be : BitVec 8} {v : BitVec 64} {x : WriteIn}
    {rs : List Nat} (hup : s.up = true) (hu : (s.atTick t).bar0Write p a size be v x = u) (hev : (s.atTick t).OnlyEvents u rs) :
    exec (.registerWrite t p false a size be v x) s = .next u :=
  State.act_of_eq (fun s => s.bar0Write p a size be v x) hup hu hev.clk hev.pending

/-- Settles O57: a read of an unmapped page draws a free value and answers 0; a write is one dropped access, or two when it is an
aligned 64-bit write, of which DEV_BADACC holds the second. -/
theorem unmappedPages : Obligations.UnmappedPages := by
  unfold Obligations.UnmappedPages
  intro s t p a hup hl ha hpage
  refine ⟨fun hk => ⟨_, exec_rcRead_of_unmapped s t p hup hl hpage hk, rfl, rfl⟩, ?_⟩
  intro size be v x hk ho two
  have hs : (s.atTick t).RecordsDrop p := ⟨by simpa using hl, hk, ho⟩
  have hw := State.bar0Write_of_unmapped size be v x hpage hs
  have hev := (s.atTick t).badAccess_onlyEvents p a
  by_cases htwo : two
  · rw [if_pos htwo] at hw
    have hev2 := (hev.trans (State.badAccess_onlyEvents _ p (a + 4))).mono
      (r' := [Reg.DEV_BADACC, Reg.DEV_BADACC_CNT]) (by simp)
    have ha4 : a + 4 < 2 ^ 26 := by have := htwo.2.1; omega
    refine ⟨_, exec_registerWrite_bar0 hup hw hev2, ?_, State.badAccess_port _ _ _, ?_,
      State.badAccess_latched _ _ _, hev2⟩
    · rw [if_pos htwo, State.badAccess_offset _ _ ha4]
    · rw [if_pos htwo, State.badAccess_count, State.badAccess_count, State.get_atTick]
      omega
  · rw [if_neg htwo] at hw
    refine ⟨_, exec_registerWrite_bar0 hup hw hev, ?_, State.badAccess_port _ _ _, ?_,
      State.badAccess_latched _ _ _, hev⟩
    · rw [if_neg htwo, State.badAccess_offset _ _ ha]
    · rw [if_neg htwo, State.badAccess_count, State.get_atTick]

end Sys2Proof.Machine
end

section
/-! PROOFS. The shapes that a command's meaning can have, and what follows for the clock, the queue and a 9340 without power or in
reset (R6, R51, R534, R562). -/

namespace Sys2Proof.Machine

/-! ## The shapes of a command's meaning -/

/-- What a command means: an effect at an instant, or one of the commands of power, reset and the boundary. -/
inductive ExecShape (s : State) : Instr → Prop
  | timed {c : Instr} (h : ∃ t f, exec c s = s.act t f) : ExecShape s c
  | link (t : Nat) (p : Port) (high : Bool) (h : ∃ f, exec (.perstN t p high) s = (s.setLink p high).act t f) :
      ExecShape s (.perstN t p high)
  | trip {c : Instr} (t : Nat) (hup : s.up = true) (h : exec c s = .next (s.atTick t).thermTrip) : ExecShape s c
  | boundary (t : Nat) (inp : BoundaryInput) : ExecShape s (.beatBoundary t inp)
  | porRelease (t : Nat) (x : BitVec 5) : ExecShape s (.porRelease t x)
  | porAssert (t : Nat) : ExecShape s (.porAssert t)
  | aonLoss (t : Nat) : ExecShape s (.vddAonLoss t)
  | aonReturn (t : Nat) : ExecShape s (.vddAonReturn t)
  | lifeReset (t : Nat) : ExecShape s (.lifeChangeReset t)

theorem execShape (c : Instr) (s : State) : ExecShape s c := by
  cases c with
  | perstN t p high =>
    refine .link t p high ?_
    dsimp only [exec, execPerstN]
    exact ⟨_, rfl⟩
  | beatBoundary t inp => exact .boundary t inp
  | porRelease t x => exact .porRelease t x
  | porAssert t => exact .porAssert t
  | vddAonLoss t => exact .aonLoss t
  | vddAonReturn t => exact .aonReturn t
  | lifeChangeReset t => exact .lifeReset t
  | sensorSample t temps volts devTemps locks =>
    by_cases h : ((s.atTick t).up && s.trips temps) = true
    · exact .trip t (Bool.and_eq_true _ _ ▸ h).1 (if_pos h)
    · exact .timed ⟨t, _, if_neg h⟩
  | _ =>
    refine .timed ?_
    dsimp only [exec]
    exact ⟨_, _, rfl⟩

namespace State

@[simp] theorem setLink_clk (s : State) (p : Port) (high : Bool) : (s.setLink p high).clk = s.clk := by cases p <;> rfl
@[simp] theorem setLink_pending (s : State) (p : Port) (high : Bool) : (s.setLink p high).pending = s.pending := by cases p <;> rfl
@[simp] theorem setLink_up (s : State) (p : Port) (high : Bool) : (s.setLink p high).up = s.up := by cases p <;> rfl

/-! ## What a reset leaves of the clock and the queue -/

/-- The 9340 is in reset or starts again from it. -/
def FromReset (u : State) : Prop :=
  u.clk.started = false ∧ u.clk.n = 0 ∧ u.chans = [] ∧ u.own = Own.fresh ∧ u.modes = Modes.fresh

theorem cleared_fromReset (s : State) : s.cleared.FromReset := ⟨rfl, rfl, rfl, rfl, rfl⟩

theorem startUp_fromReset (s : State) (x : Nat) : (s.startUp x).FromReset := by
  unfold startUp bootRom
  dsimp only
  split <;> exact ⟨rfl, rfl, rfl, rfl, rfl⟩

@[simp] theorem startUp_pending (s : State) (x : Nat) : (s.startUp x).pending = s.pending := by
  unfold startUp bootRom
  dsimp only
  split <;> rfl

@[simp] theorem cleared_pending (s : State) : s.cleared.pending = s.pending := rfl

theorem porRelease_pending (s : State) (x : Nat) : (s.porRelease x).pending = s.pending := by
  unfold porRelease
  split <;> simp

theorem porAssert_pending (s : State) : s.porAssert.pending = s.pending := by
  unfold porAssert
  split <;> rfl

theorem aonLoss_pending (s : State) : s.aonLoss.pending = s.pending := by
  unfold aonLoss
  split <;> rfl

theorem lifeReset_pending (s : State) : s.lifeReset.pending = s.pending := by
  unfold lifeReset
  split <;> simp

/-- Kwakel's record of its own changes only the log and what events do. -/
theorem kwakelLog_onlyEvents (s : State) (k : KwakelKind) (detail : Nat) : s.OnlyEvents (s.kwakelLog k detail) [] := by
  unfold kwakelLog
  dsimp only
  have h : ∀ r u b, s.storeRec r = (u, b) → s.OnlyEvents u [] := fun r u b e => by
    simpa [e] using storeRec_onlyEvents s r
  split
  · rename_i u e
    exact h _ _ _ e
  · rename_i u e
    have hinc : u.OnlyEvents (u.inc Reg.LOG_LOST_CNT Fd.LOG_LOST_CNT.COUNT) [] := by
      refine ⟨rfl, fun a _ he => rd_wr_ne u _ ?_⟩
      rintro rfl
      simp [evtReg] at he
    exact ((h _ _ _ e).trans hinc).trans (event_onlyEvents _ _ _)

theorem thermTrip_pending (s : State) : s.thermTrip.pending = s.pending :=
  (kwakelLog_onlyEvents s .trip 0).pending

end State

/-! ## The clock -/

theorem Clk.le_advance {c : Clk} (t : Nat) (h : c.Sound) : c.now ≤ (c.advance t).now := by
  unfold advance
  dsimp only
  split
  · rename_i hs
    have hb := h hs
    omega
  · omega

/-- What a command can do to the clock: advance it to an instant of the same beat, pass the boundary, or start it again. -/
theorem exec_clk (c : Instr) {s u : State} (h : exec c s = .next u) :
    u.clk = s.clk ∨ (∃ t, u.clk = s.clk.advance t) ∨ (∃ t inp, c = .beatBoundary t inp ∧ u.clk = s.clk.boundary t)
      ∨ u.FromReset := by
  cases execShape c s with
  | timed hf =>
    obtain ⟨t, f, hf⟩ := hf
    exact .inr (.inl ⟨t, s.act_clk t f (hf.symm.trans h)⟩)
  | link t p high hf =>
    obtain ⟨f, hf⟩ := hf
    exact .inr (.inl ⟨t, by simpa using State.act_clk _ t f (hf.symm.trans h)⟩)
  | trip t _ hf =>
    rw [hf] at h
    cases h
    exact .inr (.inr (.inr (State.cleared_fromReset _)))
  | boundary t inp =>
    simp only [exec, execBeatBoundary] at h
    split at h <;> cases h
    · exact .inr (.inr (.inl ⟨t, inp, rfl, rfl⟩))
    · exact .inr (.inl ⟨t, rfl⟩)
  | porRelease t x =>
    simp only [exec, execPorRelease, State.porRelease] at h
    split at h <;> cases h
    · exact .inr (.inr (.inr (State.startUp_fromReset _ _)))
    · exact .inl rfl
  | porAssert t =>
    simp only [exec, execPorAssert, State.porAssert] at h
    split at h <;> cases h
    · exact .inr (.inr (.inr (State.cleared_fromReset _)))
    · exact .inr (.inl ⟨t, rfl⟩)
  | aonLoss t =>
    simp only [exec, execVddAonLoss, State.aonLoss] at h
    split at h <;> cases h
    · exact .inr (.inr (.inr ⟨rfl, rfl, rfl, rfl, rfl⟩))
    · exact .inr (.inl ⟨t, rfl⟩)
  | aonReturn t =>
    simp only [exec, execVddAonReturn] at h
    split at h
    · cases h; exact .inr (.inl ⟨t, rfl⟩)
    · split at h <;> cases h
      exact .inr (.inl ⟨t, rfl⟩)
  | lifeReset t =>
    simp only [exec, execLifeChangeReset, State.lifeReset] at h
    split at h <;> cases h
    · exact .inr (.inr (.inr (State.startUp_fromReset _ _)))
    · exact .inr (.inl ⟨t, rfl⟩)

/-- A command that goes on keeps the clock sound. -/
theorem exec_sound (c : Instr) {s u : State} (hs : s.clk.Sound) (h : exec c s = .next u) : u.clk.Sound := by
  obtain hc | ⟨t, hc⟩ | ⟨t, _, _, hc⟩ | ⟨hstop, _⟩ := exec_clk c h
  · rwa [hc]
  · rw [hc]; exact s.clk.sound_advance t hs
  · rw [hc]; exact s.clk.sound_boundary t hs
  · intro hstart
    rw [hstop] at hstart
    cases hstart

/-- Settles O59: by the four things a command can do to the clock. -/
theorem timeGoesForward : Obligations.TimeGoesForward := by
  unfold Obligations.TimeGoesForward
  refine ⟨fun s u hs h => ?_, fun c s u h => ?_⟩
  · unfold step at h
    split at h
    · cases h; exact hs
    · exact exec_sound _ (by exact hs) h
  · obtain hc | ⟨t, hc⟩ | ⟨t, inp, rfl, hc⟩ | hreset := exec_clk c h
    · exact .inl (by simp [hc])
    · exact .inl ⟨by rw [hc]; rfl, by rw [hc]; rfl, by rw [hc]; rfl, by rw [hc]; rfl, fun hs => by rw [hc]; exact Clk.le_advance t hs⟩
    · refine .inr (.inl ⟨t, inp, rfl, ?_⟩)
      rw [hc]
      by_cases hrun : s.clk.started = true
      · rw [Clk.boundary_of_started _ _ hrun]
        exact ⟨hrun, fun h0 => by simp [hrun] at h0, fun _ => ⟨rfl, rfl⟩⟩
      · simp [Clk.boundary, hrun]
    · exact .inr (.inr hreset)

/-! ## Every command completes -/

/-- The commands of the supplies and of the reset pins, which act in OFF and RESET too. -/
def PowerCommand (c : Instr) : Prop :=
  (∃ t x, c = .porRelease t x) ∨ (∃ t, c = .porAssert t) ∨ (∃ t, c = .vddAonLoss t) ∨ (∃ t, c = .vddAonReturn t)
    ∨ ∃ t p h, c = .perstN t p h

/-- Outside the one stop of R562 a command goes on with the queue as it was, and in OFF and RESET only the commands of the supplies
and reset pins do more than let time pass. -/
theorem exec_completes (c : Instr) (s : State) (hrated : ∀ t, c = .vddAonReturn t → s.pwr.vddAon = true ∨ s.pwr.porn = false) :
    ∃ u, exec c s = .next u ∧ u.pending = s.pending ∧ (s.up = false → ¬PowerCommand c → ∃ t, u = s.atTick t) := by
  cases execShape c s with
  | timed hf =>
    obtain ⟨t, f, hf⟩ := hf
    obtain ⟨u, hu⟩ := s.act_completes t f
    refine ⟨u, hf.trans hu, s.act_pending t f hu, fun hdown _ => ⟨t, ?_⟩⟩
    rw [s.act_down t f hdown] at hu
    cases hu
    rfl
  | link t p high hf =>
    obtain ⟨f, hf⟩ := hf
    obtain ⟨u, hu⟩ := (s.setLink p high).act_completes t f
    refine ⟨u, hf.trans hu, by simpa using State.act_pending _ t f hu, fun _ hno => absurd ?_ hno⟩
    exact .inr (.inr (.inr (.inr ⟨t, p, high, rfl⟩)))
  | trip t hup hf =>
    refine ⟨_, hf, State.thermTrip_pending _, fun hdown _ => ?_⟩
    rw [hup] at hdown
    cases hdown
  | boundary t inp =>
    by_cases hrun : (s.up && (s.clk.started || s.mgmt.boots)) = true
    · refine ⟨_, if_pos hrun, rfl, fun hdown _ => ?_⟩
      rw [hdown] at hrun
      cases hrun
    · exact ⟨_, if_neg hrun, rfl, fun _ _ => ⟨t, rfl⟩⟩
  | porRelease t x => exact ⟨_, rfl, s.porRelease_pending _, fun _ hno => absurd (.inl ⟨t, x, rfl⟩) hno⟩
  | porAssert t => exact ⟨_, rfl, (s.atTick t).porAssert_pending, fun _ hno => absurd (.inr (.inl ⟨t, rfl⟩)) hno⟩
  | aonLoss t => exact ⟨_, rfl, (s.atTick t).aonLoss_pending, fun _ hno => absurd (.inr (.inr (.inl ⟨t, rfl⟩))) hno⟩
  | aonReturn t =>
    have hno : ∀ u : State, s.up = false → ¬PowerCommand (.vddAonReturn t) → ∃ t, u = s.atTick t :=
      fun _ _ hno => absurd (.inr (.inr (.inr (.inl ⟨t, rfl⟩)))) hno
    simp only [exec, execVddAonReturn]
    split
    · exact ⟨_, rfl, rfl, hno _⟩
    · rename_i hoff
      have hlow : s.pwr.porn = false := (hrated t rfl).resolve_left hoff
      rw [if_neg (by simp [hlow])]
      exact ⟨_, rfl, rfl, hno _⟩
  | lifeReset t =>
    refine ⟨_, rfl, (s.atTick t).lifeReset_pending, fun hdown _ => ⟨t, ?_⟩⟩
    simp [State.lifeReset, hdown]

/-- Settles O60: each shape of a meaning completes with the queue as it was, but for the one stop of R562. -/
theorem everyCommandCompletes : Obligations.EveryCommandCompletes := by
  unfold Obligations.EveryCommandCompletes
  refine ⟨exec_completes, fun t s hoff hhigh => ?_, fun c rest s u hq h => ?_⟩
  · simp [exec, execVddAonReturn, hoff, hhigh]
  · simp only [step, hq] at h
    by_cases hrated : ∀ t, c = .vddAonReturn t → s.pwr.vddAon = true ∨ s.pwr.porn = false
    · obtain ⟨v, hv, hp, _⟩ := exec_completes c { s with pending := rest } hrated
      rw [h] at hv
      cases hv
      exact hp
    · push Not at hrated
      obtain ⟨t, rfl, hoff, hhigh⟩ := hrated
      simp [exec, execVddAonReturn, hoff, hhigh] at h

end Sys2Proof.Machine
end

section
/-! PROOFS. Frames that follow a chain of operations: what only registers and events change, step by step, and faults that are
recorded on the way (R23, R483, R499). -/

namespace Sys2Proof.Machine.State

variable {s u v : State} {r : List Nat}

/-! ## Chains of operations -/

theorem OnlyEvents.same : s.OnlyEvents s r := ⟨rfl, fun _ _ _ => rfl⟩

theorem OnlyEvents.weaken (h : s.OnlyEvents u []) : s.OnlyEvents u r := h.mono (by simp)

/-- One change after another, where both keep to the same registers. -/
theorem OnlyEvents.andThen (h : s.OnlyEvents u r) (h' : u.OnlyEvents v r) : s.OnlyEvents v r := (h.trans h').mono (by simp)

theorem OnlyEvents.wr (h : s.OnlyEvents u r) {a : Nat} (w : Word) (ha : a ∈ r) : s.OnlyEvents (u.wr a w) r :=
  h.andThen ((wr_onlyEvents u a w).mono (by simpa using ha))

theorem OnlyEvents.put (h : s.OnlyEvents u r) {a : Nat} (f : Fd) (n : Nat) (ha : a ∈ r) : s.OnlyEvents (u.put a f n) r := h.wr _ ha

theorem OnlyEvents.putB (h : s.OnlyEvents u r) {a : Nat} (f : Fd) (b : Bool) (ha : a ∈ r) : s.OnlyEvents (u.putB a f b) r := h.wr _ ha

theorem OnlyEvents.inc (h : s.OnlyEvents u r) {a : Nat} (f : Fd) (d : Nat) (ha : a ∈ r) : s.OnlyEvents (u.inc a f d) r := h.wr _ ha

theorem OnlyEvents.incWrap (h : s.OnlyEvents u r) {a : Nat} (f : Fd) (d : Nat) (ha : a ∈ r) : s.OnlyEvents (u.incWrap a f d) r := h.wr _ ha

theorem OnlyEvents.status (h : s.OnlyEvents u r) {page : Nat} (st : Status) (ha : Reg.PAGE_STATUS page ∈ r) :
    s.OnlyEvents (u.status page st) r := h.wr _ ha

theorem OnlyEvents.setBusy (h : s.OnlyEvents u r) {page : Nat} (b : Bool) (ha : Reg.PAGE_STATUS page ∈ r) :
    s.OnlyEvents (u.setBusy page b) r := h.wr _ ha

theorem OnlyEvents.emit (h : s.OnlyEvents u r) (o : Output) : s.OnlyEvents (u.emit o) r := h.andThen (emit_onlyEvents u o).weaken

theorem OnlyEvents.event (h : s.OnlyEvents u r) (page b : Nat) : s.OnlyEvents (u.event page b) r :=
  h.andThen (event_onlyEvents u page b).weaken

theorem OnlyEvents.eventIf (h : s.OnlyEvents u r) (c : Bool) (page b : Nat) : s.OnlyEvents (u.eventIf c page b) r :=
  h.andThen (eventIf_onlyEvents u c page b).weaken

theorem OnlyEvents.ite (c : Prop) [Decidable c] (h : s.OnlyEvents u r) (h' : s.OnlyEvents v r) :
    s.OnlyEvents (if c then u else v) r := by
  split
  · exact h
  · exact h'

/-- The same change seen past an update `g` of parts that neither registers nor events hold. -/
theorem OnlyEvents.under (g : State → State) (h : s.OnlyEvents u r) (hregs : ∀ z, (g z).regs = z.regs := by intros; rfl)
    (hcomm : ∀ (z : State) (a : Assoc Word) (b c : Msix) (d : List Output) (e : LogState) (f : Recent),
      { g z with regs := a, msixA := b, msixB := c, out := d, log := e, recent := f }
        = g { z with regs := a, msixA := b, msixB := c, out := d, log := e, recent := f } := by intros; rfl) :
    (g s).OnlyEvents (g u) r := by
  refine ⟨?_, fun a ha he => ?_⟩
  · have hs := congrArg g h.1
    rw [← hcomm] at hs
    have e : ∀ z : State, g z = { g z with
        regs := (g z).regs, msixA := (g z).msixA, msixB := (g z).msixB, out := (g z).out, log := (g z).log, recent := (g z).recent } :=
      fun _ => rfl
    have hlift := hcomm s s.regs s.msixA s.msixB s.out s.log s.recent
    rw [show ({ s with regs := s.regs, msixA := s.msixA, msixB := s.msixB, out := s.out, log := s.log, recent := s.recent } : State) = s
      from rfl] at hlift
    rw [← hlift]
    exact hs.trans hlift.symm
  · have hrd : ∀ z : State, (g z).rd a = z.rd a := fun z => by rw [rd, rd, hregs]
    rw [hrd, hrd]
    exact h.2 a ha he

/-! ## Registers only -/

theorem OnlyRegs.same : s.OnlyRegs s r := ⟨rfl, fun _ _ => rfl⟩

theorem OnlyRegs.wr (h : s.OnlyRegs u r) {a : Nat} (w : Word) (ha : a ∈ r) : s.OnlyRegs (u.wr a w) r :=
  ⟨h.1, fun b hb => (rd_wr_ne u w (by rintro rfl; exact hb ha)).trans (h.2 b hb)⟩

theorem OnlyRegs.put (h : s.OnlyRegs u r) {a : Nat} (f : Fd) (n : Nat) (ha : a ∈ r) : s.OnlyRegs (u.put a f n) r := h.wr _ ha

theorem OnlyRegs.putB (h : s.OnlyRegs u r) {a : Nat} (f : Fd) (b : Bool) (ha : a ∈ r) : s.OnlyRegs (u.putB a f b) r := h.wr _ ha

theorem OnlyRegs.status (h : s.OnlyRegs u r) {page : Nat} (st : Status) (ha : Reg.PAGE_STATUS page ∈ r) :
    s.OnlyRegs (u.status page st) r := h.wr _ ha

/-! ## Fields -/

theorem get_wr_ne (s : State) {a b : Nat} (w : Word) (f : Fd) (h : b ≠ a) : (s.wr a w).get b f = s.get b f := by
  rw [get, rd_wr_ne s w h, get]

theorem get_wr_same (s : State) (a : Nat) (w : Word) (f : Fd) : (s.wr a w).get a f = bitsOf w f.hi f.lo := by
  rw [get, rd_wr_same]

theorem get_status_ne (s : State) {page a : Nat} (st : Status) (f : Fd) (h : a ≠ Reg.PAGE_STATUS page) :
    (s.status page st).get a f = s.get a f := get_wr_ne s _ f h

/-- LAST_STATUS after a status. -/
theorem reports_status (s : State) (page : Nat) (st : Status) : (s.status page st).Reports page st := get_status s page st

/-! ## Latches -/

theorem eventIf_keeps (s : State) (c : Bool) (page b : Nat) {p b' : Nat} (hb : b < 32) (h : s.Latched p b') :
    (s.eventIf c page b).Latched p b' := by
  unfold eventIf
  split
  · exact event_keeps s page b p b' hb h
  · exact h

/-- A write of a register that is no latch register keeps every latch. -/
theorem Latched.wr {p b a : Nat} (h : s.Latched p b) (w : Word) (ha : Reg.EVT_LATCH p ≠ a) : (s.wr a w).Latched p b := by
  unfold Latched
  rw [rd_wr_ne s w ha]
  exact h

/-- A status keeps every latch. -/
theorem Latched.status {p b page : Nat} (h : s.Latched p b) (st : Status) : (s.status page st).Latched p b :=
  h.wr _ (by unfold Reg.EVT_LATCH Reg.PAGE_STATUS; omega)

theorem Latched.of_rd {p b : Nat} (h : s.Latched p b) (he : u.rd (Reg.EVT_LATCH p) = s.rd (Reg.EVT_LATCH p)) : u.Latched p b := by
  unfold Latched
  rw [he]
  exact h

/-! ## Faults -/

/-- The tolerance check changes nothing but spares and what its event does. -/
theorem OnlyEvents.relCheck (h : s.OnlyEvents u r) : OnlyEvents { s with spares := u.relCheck.spares } u.relCheck r := by
  have hnote : ({ u with spares := u.relCheck.spares } : State) = { u with spares := { u.spares with notol := u.notolBits } } := by
    rw [(relCheck_only u).spares]
  have hcheck : OnlyEvents { u with spares := u.relCheck.spares } u.relCheck r := hnote ▸ (relCheck_only u).weaken
  exact (h.under fun z => { z with spares := u.relCheck.spares }).andThen hcheck

/-- A fault that is recorded changes nothing but its registers, spares and what events do (R499). -/
theorem OnlyEvents.recordFault (h : s.OnlyEvents u r) (cls cluster index detect : Nat) (inj : Bool)
    (hr : ∀ a ∈ [Reg.REL_FAULT_CNT cls, Reg.REL_LAST_FAULT, Reg.REL_LAST_BEAT], a ∈ r) :
    OnlyEvents { s with spares := (u.recordFault cls cluster index detect inj).spares } (u.recordFault cls cluster index detect inj) r := by
  have hnote : ({ u with spares := (u.recordFault cls cluster index detect inj).spares } : State)
      = { u with spares := { u.spares with notol := (u.recordFault cls cluster index detect inj).spares.notol } } :=
    congrArg (fun x => { u with spares := x }) (recordFault_only u cls cluster index detect inj).spares
  have hfault : OnlyEvents { u with spares := (u.recordFault cls cluster index detect inj).spares }
      (u.recordFault cls cluster index detect inj) r := hnote ▸ (recordFault_only u cls cluster index detect inj).mono hr
  exact (h.under fun z => { z with spares := (u.recordFault cls cluster index detect inj).spares }).andThen hfault

theorem relCheck_rd (s : State) {a : Nat} (h : evtReg a = false) : s.relCheck.rd a = s.rd a := (relCheck_only s).2 a (by simp) h

theorem relCheck_keeps (s : State) {p b : Nat} (h : s.Latched p b) : s.relCheck.Latched p b :=
  eventIf_keeps _ _ _ _ (by decide) h

/-- REL_LAST_FAULT after a fault (R499). -/
theorem recordFault_rd (s : State) (cls cluster index detect : Nat) (inj : Bool) (hcls : Reg.REL_FAULT_CNT cls ≠ Reg.REL_LAST_FAULT) :
    (s.recordFault cls cluster index detect inj).rd Reg.REL_LAST_FAULT
      = withBits (withBits (withBits (withBits (withBits 0 31 31 (b2n inj)) 28 24 cls) 23 20 cluster) 19 16 index) 7 0 detect := by
  unfold recordFault
  dsimp only
  rw [relCheck_rd _ (by decide), rd_event _ _ _ (by decide), rd_inc_ne _ _ _ hcls.symm, rd_wr_ne _ _ (by decide), rd_wr_same]

/-- The fields of REL_LAST_FAULT after a fault, and its latch (R499). -/
theorem recordFault_lastFault (s : State) (cls cluster index detect : Nat) (inj : Bool) (hcls : cls < 32)
    (hreg : Reg.REL_FAULT_CNT cls ≠ Reg.REL_LAST_FAULT) :
    (s.recordFault cls cluster index detect inj).LastFault cls cluster index detect inj := by
  have hinj : b2n inj % 2 = b2n inj := by cases inj <;> rfl
  have hflag : decide (b2n inj = 1) = inj := by cases inj <;> rfl
  unfold LastFault flag get
  rw [recordFault_rd _ _ _ _ _ _ hreg]
  simp (disch := decide) only [bitsOf_withBits_ne, bitsOf_withBits]
  refine ⟨Nat.mod_eq_of_lt hcls, ?_, ?_, rfl, ?_⟩
  · trivial
  · trivial
  · simpa [hinj] using hflag

theorem recordFault_latched (s : State) (cls cluster index detect : Nat) (inj : Bool) :
    (s.recordFault cls cluster index detect inj).Latched Pg.REL Ev.REL.FAULT :=
  relCheck_keeps _ (event_latched _ _ _ (by decide))

end Sys2Proof.Machine.State
end

section
/-! PROOFS. The queue, reset, the first boundary, and ownership: requests, function level reset and the processing of claims
(R6, R33 to R46, R51, R534, R568). -/

namespace Sys2Proof.Machine

/-- Settles O1: by the equation of `step` for each shape of the queue. -/
theorem stepRunsFront : Obligations.StepRunsFront := by
  unfold Obligations.StepRunsFront
  refine ⟨fun c rest s h => ?_, fun s h => ?_⟩
  · simp only [step, h]
  · simp only [step, h]

/-- RUNNING of every ring is 0 at reset. -/
theorem resetWord_ringStatus : ∀ g < 256, bitsOf (resetWord (ringReg Reg.RING_STATUS g)) 8 8 = 0 := by decide +kernel

/-- Settles O2: each part as `State.reset` lists it; the rings by the reset value of their status register. -/
theorem resetState : Obligations.ResetState := by
  unfold Obligations.ResetState
  have hsound : State.reset.clk.Sound := fun h => by cases h
  have hclaim : ∀ p, (State.reset.portOwn p).claim = false := fun p => by cases p <;> rfl
  have hfree : ∀ x ∈ State.reset.txns, x.state = .free := fun x hx => by
    rw [List.eq_of_mem_replicate hx]
    rfl
  have hstopped : ∀ g, g < 256 → State.reset.ringRuns g = false := fun g hg => by
    have h : State.reset.get (ringReg Reg.RING_STATUS g) Fd.RING_STATUS.RUNNING = 0 := resetWord_ringStatus g hg
    simp [State.ringRuns, State.flag, h]
  exact ⟨rfl, rfl, hsound, rfl, rfl, hclaim, rfl, hfree, rfl, rfl, hstopped, rfl, rfl, fun _ => rfl⟩

/-- Settles O6: the clock of `Clk.boundary` where the timebase has not started. -/
theorem firstBoundary : Obligations.FirstBoundary := by
  unfold Obligations.FirstBoundary
  intro s t inp hup hstopped
  refine ⟨fun hboots => ?_, fun hboots => if_neg (by simp [hstopped, hboots])⟩
  obtain ⟨u, hexec, hclk, hpending⟩ := exec_beatBoundary_clk s t inp hup (.inr hboots)
  have hfirst : s.clk.boundary t = { now := max s.clk.now t, at0 := max s.clk.now t, n := 0, started := true, t0 := max s.clk.now t } :=
    if_neg (by simp [hstopped])
  rw [hfirst] at hclk
  exact ⟨u, hexec, by rw [hclk], by rw [hclk], by rw [hclk], by rw [hclk], hpending⟩

namespace State

/-! ## Writes that ask for ownership -/

@[simp] theorem hasOpenTxn_atTick (s : State) (t : Nat) (p : Port) : (s.atTick t).hasOpenTxn p = s.hasOpenTxn p := rfl

/-- A command whose write asks for ownership, with the state that the write leaves. -/
theorem act_asks {s : State} {p : Port} {off t : Nat} {f : State → State} {u : State} (hup : s.up = true) (hl : s.linked p = true)
    (hk : s.mgmt.kstate = .running)
    (h : s.ownedBy p = true ∧ sealedServes off = true ∨ s.ownedBy p = false ∧ (off = Reg.OWN_CLAIM ∨ off = Reg.OWN_HEARTBEAT))
    (hu : f (s.atTick t) = u) (hc : u.clk = s.clk.advance t) (hp : u.pending = s.pending) :
    (s.act t fun s => s.hostWrite p off f) = .next u :=
  act_of_eq _ hup ((hostWrite_run s p t off f hl hk h).trans hu) hc hp

/-! ## Operations of ownership on state -/

/-- The age of a heartbeat is not the loss time. -/
theorem ownerLoss_wr_age (s : State) (p : Port) (w : Word) : (s.wr (ageReg p) w).ownerLoss = s.ownerLoss := by
  unfold ownerLoss
  rw [get_wr_ne s w _ (by cases p <;> decide)]

@[simp] theorem ownerLoss_atTick (s : State) (t : Nat) : (s.atTick t).ownerLoss = s.ownerLoss := rfl

@[simp] theorem ownResult_rd (s : State) (p : Port) (st : Status) :
    (s.ownResult p st).rd (resultReg p) = withBits (withBits 0 15 8 s.own.epoch.toNat) 7 0 st.code := rd_wr_same _ _ _

theorem ownMessage_onlyEvents (s : State) : s.OnlyEvents s.ownMessage [] :=
  (sendMsix_onlyEvents s .a 0).trans (sendMsix_onlyEvents _ .b 0)

end State

/-- Settles O3: each write is served, and each request is one branch of its operation. -/
theorem ownershipRequests : Obligations.OwnershipRequests := by
  unfold Obligations.OwnershipRequests
  refine ⟨fun s t p hup hl hk => ⟨fun ho hc => ?_, fun ho hc => ?_, fun ho hc => ?_, fun ho hc hq hx => ?_⟩, fun s t p hup => ⟨fun hl hk => ?_, fun hc hd => ?_⟩⟩
  · refine State.act_asks hup hl hk (.inr ⟨ho, .inl rfl⟩) ?_ (by simp) (by simp)
    simp [State.claimWrite, State.claimBit, ho, hc]
  · refine State.act_asks hup hl hk (.inr ⟨ho, .inl rfl⟩) ?_ (by simp) (by simp)
    simp [State.claimWrite, State.withdrawBit, ho, hc]
  · refine State.act_asks hup hl hk (.inl ⟨ho, by decide⟩) ?_ (by simp) (by simp)
    simp [State.claimWrite, State.releaseBit, ho, hc, b2n]
  · cases p with
    | a =>
      refine State.act_asks hup hl hk (.inl ⟨ho, by decide⟩) ?_ (by simp) (by simp)
      simp [State.handoverWrite, State.handoverTarget, otherPort, hc, hx, show (s.portOwn .b).claim = true from hq]
    | b =>
      refine State.act_asks hup hl hk (.inl ⟨ho, by decide⟩) ?_ (by simp) (by simp)
      simp [State.handoverWrite, State.handoverTarget, otherPort, hc, hx, show (s.portOwn .a).claim = true from hq]
  · have hserved : s.ownedBy p = true ∧ State.sealedServes Reg.OWN_HEARTBEAT = true
        ∨ s.ownedBy p = false ∧ (Reg.OWN_HEARTBEAT = Reg.OWN_CLAIM ∨ Reg.OWN_HEARTBEAT = Reg.OWN_HEARTBEAT) := by
      cases s.ownedBy p
      · exact .inr ⟨rfl, .inr rfl⟩
      · exact .inl ⟨rfl, by decide⟩
    refine State.act_asks hup hl hk hserved ?_ (by simp) (by simp)
    simp [State.heartbeat, State.ownerLoss_wr_age, and_assoc]
  · refine State.act_of_eq _ hup ?_ (by simp) (by simp)
    simp [hc, hd]

namespace State

/-! ## Function level reset -/

/-- A port's part in ownership after a function level reset (R46). -/
def resetOwn (s : State) (p : Port) : PortOwn :=
  { s.portOwn p with claim := false, claimReq := false, withdrawReq := false, releaseReq := false, handoverReq := none,
                     flr := s.ownedBy p }

theorem setPortOwn_only (s : State) (p : Port) (o : PortOwn) (r : List Nat) :
    OnlyEvents { s with own := (s.setPortOwn p o).own } (s.setPortOwn p o) r := by
  cases p <;> exact .same

/-- A function level reset replaces the port's part in ownership; the rest of its effect is OWN_RESULT, a message and the tolerance
check. -/
theorem functionReset_frame (s : State) (p : Port) :
    OnlyEvents { s with own := (s.setPortOwn p (s.resetOwn p)).own, spares := (s.functionReset p).spares } (s.functionReset p)
      [resultReg p] := by
  have hown := setPortOwn_only s p (s.resetOwn p) [resultReg p]
  have hresult (st : Status) := hown.wr (withBits (withBits 0 15 8 (s.setPortOwn p (s.resetOwn p)).own.epoch.toNat) 7 0 st.code)
    (a := resultReg p) (by simp)
  unfold functionReset
  dsimp only
  refine OnlyEvents.relCheck (s := { s with own := (s.setPortOwn p (s.resetOwn p)).own }) ?_
  refine OnlyEvents.ite _ (OnlyEvents.andThen ?_ (ownMessage_onlyEvents _).weaken) ?_ <;>
    exact OnlyEvents.ite _ (hresult _) hown

theorem functionReset_own (s : State) (p : Port) : (s.functionReset p).own = (s.setPortOwn p (s.resetOwn p)).own :=
  (functionReset_frame s p).own

/-- What a function level reset leaves of ownership: the port's claim and requests end, everything else of it stays. -/
theorem functionReset_portOwn (s : State) (p : Port) :
    (s.functionReset p).portOwn p = s.resetOwn p ∧ (s.functionReset p).portOwn (otherPort p) = s.portOwn (otherPort p)
      ∧ (s.functionReset p).own.owner = s.own.owner ∧ (s.functionReset p).own.epoch = s.own.epoch := by
  cases p <;> simp only [portOwn, functionReset_own, otherPort] <;> exact ⟨rfl, rfl, rfl, rfl⟩

theorem linked_setLink (s : State) (p : Port) (high : Bool) :
    (s.setLink p high).linked p = high ∧ (s.setLink p high).linked (otherPort p) = s.linked (otherPort p) := by
  cases p <;> exact ⟨rfl, rfl⟩

end State

/-- Settles O4: a function level reset at its instant; PERST_N low is the same one over a link that is held down. -/
theorem functionLevelReset : Obligations.FunctionLevelReset := by
  unfold Obligations.FunctionLevelReset
  intro s t p hup
  have key (x : State) := State.functionReset_frame (x.atTick t) p
  have hown (x : State) := State.functionReset_portOwn (x.atTick t) p
  have hlow : exec (.perstN t p false) s = .next (((s.setLink p false).atTick t).functionReset p) := by
    refine State.act_of_eq (s := s.setLink p false) (fun x => x.functionReset p) (by simpa using hup) rfl ?_ ?_
    · exact (key (s.setLink p false)).clk
    · simpa using (key (s.setLink p false)).pending
  have hhigh (hl : s.linked p = false) : exec (.perstN t p true) s = .next (((s.setLink p true).atTick t).emit (.train p)) := by
    refine State.act_of_eq (s := s.setLink p true) (fun x => if s.linked p then x else x.emit (.train p)) (by simpa using hup) ?_ ?_ ?_
    · simp [hl]
    · rfl
    · simp
  refine ⟨⟨_, State.act_of_eq (fun x => x.functionReset p) hup rfl (key s).clk (key s).pending, ?_⟩, ⟨_, hlow, ?_⟩, hhigh⟩
  · obtain ⟨h1, h2, h3, h4⟩ := hown s
    refine ⟨by simpa [State.resetOwn] using h1, by simpa using h2, h3, h4, ?_⟩
    rw [State.functionReset_own]
    exact key s
  · obtain ⟨h1, h2, h3, h4⟩ := hown (s.setLink p false)
    have hpwr := (key (s.setLink p false)).pwr
    have hlink (q : Port) : ((s.setLink p false).atTick t |>.functionReset p).linked q = (s.setLink p false).linked q := by
      cases q <;> simp only [State.linked, hpwr] <;> rfl
    refine ⟨?_, ?_, ?_, ?_, ?_, ?_, ?_⟩
    · simpa [(State.linked_setLink s p false).1] using hlink p
    · simpa [(State.linked_setLink s p false).2] using hlink (otherPort p)
    · rw [h1]
      cases p <;> rfl
    · rw [h2]
      cases p <;> rfl
    · rw [h3]
      cases p <;> rfl
    · rw [h4]
      cases p <;> rfl
    · rw [hpwr, State.functionReset_own]
      have h := key (s.setLink p false)
      cases p <;> exact h

namespace State

/-! ## Claims at a boundary (R37) -/

/-- A port's part in ownership once its claim is granted. -/
def grantedOwn (s : State) (p : Port) : PortOwn :=
  { s.portOwn p with claim := true, claimReq := false, expired := false, deadline := s.clk.at0 + s.ownerLoss }

/-- A claim is granted while nobody owns: the port becomes owner (R37, R38). -/
theorem grantClaim_unowned (s : State) (p : Port) (hreq : (s.portOwn p).claimReq = true) (hfree : s.own.owner = .none) :
    s.grantClaim p = (({ s.setPortOwn p (s.grantedOwn p) with
      own := { (s.setPortOwn p (s.grantedOwn p)).own with owner := .host p, epoch := s.own.epoch + 1, lastCause := 1 } }).event
        Pg.OWN Ev.OWN.OWNER_CHANGED).ownResult p .ok := by
  unfold grantClaim
  rw [if_pos hreq]
  cases p <;> simp only [setPortOwn, changeOwner, hfree] <;> rfl

/-- A claim is granted while a port owns: the asking port becomes an observer with a claim. -/
theorem grantClaim_owned (s : State) (p q : Port) (hreq : (s.portOwn p).claimReq = true) (howned : s.own.owner = .host q) :
    s.grantClaim p = (s.setPortOwn p (s.grantedOwn p)).ownResult p .ok := by
  unfold grantClaim
  rw [if_pos hreq]
  cases p <;> simp only [setPortOwn, howned] <;> rfl

theorem grantClaim_none (s : State) (p : Port) (hreq : (s.portOwn p).claimReq = false) : s.grantClaim p = s := by
  simp [grantClaim, hreq]

/-- The state after the grant of a claim, as an update of ownership before the event, has this ownership. -/
theorem grantClaim_unowned_own (s : State) (hreq : s.own.pa.claimReq = true) (hfree : s.own.owner = .none) :
    (s.grantClaim .a).own = { s.own with owner := .host .a, epoch := s.own.epoch + 1, lastCause := 1, pa := s.grantedOwn .a } := by
  rw [grantClaim_unowned s .a hreq hfree]
  exact (event_onlyEvents _ _ _).own

/-- Both claims of a beat processed in an unowned 9340. -/
def grantBoth (s : State) : State := (((s.grantClaim .a).grantClaim .b).clearFlr .a).clearFlr .b

section Grants

variable {s : State} {both : Bool} (hfree : s.own.owner = .none) (ha : s.own.pa = { PortOwn.fresh with claimReq := true })
  (hb : s.own.pb = { PortOwn.fresh with claimReq := both })
include hfree ha hb

/-- Port B's part: nothing, or an observer's claim. -/
theorem grantClaim_second :
    (s.grantClaim .a).grantClaim .b
      = if both then ((s.grantClaim .a).setPortOwn .b ((s.grantClaim .a).grantedOwn .b)).ownResult .b .ok else s.grantClaim .a := by
  have hown := grantClaim_unowned_own s (by simp [ha]) hfree
  cases both with
  | false => exact grantClaim_none _ _ (by simp [portOwn, hown, hb, PortOwn.fresh])
  | true => exact grantClaim_owned _ _ .a (by simp [portOwn, hown, hb]) (by simp [hown])

/-- Ownership after the claims: port A owns and holds the claim, port B holds one if it asked. -/
theorem grantBoth_own :
    s.grantBoth.own.owner = .host .a ∧ s.grantBoth.own.epoch = s.own.epoch + 1 ∧ s.grantBoth.own.lastCause = 1
      ∧ s.grantBoth.own.pa.claim = true ∧ s.grantBoth.own.pb.claim = both
      ∧ s.grantBoth.own.pa.deadline = s.clk.at0 + s.ownerLoss := by
  have hown := grantClaim_unowned_own s (by simp [ha]) hfree
  unfold grantBoth
  rw [grantClaim_second hfree ha hb]
  cases both <;> simp [clearFlr, setPortOwn, ownResult, portOwn, hown, grantedOwn, hb, PortOwn.fresh]

/-- OWN_RESULT of port A and the event after the claims (R38, R45). -/
theorem grantBoth_result :
    s.grantBoth.Latched Pg.OWN Ev.OWN.OWNER_CHANGED
      ∧ s.grantBoth.rd Reg.OWN_RESULT_A = withBits (withBits 0 15 8 (s.own.epoch + 1).toNat) 7 0 Status.ok.code := by
  have hgrant := grantClaim_unowned s .a (by simp [portOwn, ha]) hfree
  have hlatch : (s.grantClaim .a).Latched Pg.OWN Ev.OWN.OWNER_CHANGED := by
    rw [hgrant]
    exact (event_latched _ _ _ (by decide)).wr _ (by decide)
  have hresult : (s.grantClaim .a).rd Reg.OWN_RESULT_A = withBits (withBits 0 15 8 (s.own.epoch + 1).toNat) 7 0 Status.ok.code := by
    rw [hgrant]
    refine (ownResult_rd _ .a _).trans ?_
    rw [(event_onlyEvents _ _ _).own]
  unfold grantBoth clearFlr Latched
  simp only [rd_setPortOwn]
  rw [grantClaim_second hfree ha hb]
  cases both with
  | false => exact ⟨hlatch, hresult⟩
  | true =>
    simp only [if_true, ownResult, resultReg]
    rw [rd_wr_ne _ _ (by decide), rd_wr_ne _ _ (by decide), rd_setPortOwn, rd_setPortOwn]
    exact ⟨hlatch, hresult⟩

/-- Ownership processing of an unowned 9340 in which no port holds a claim: the claims written in the beat are granted, port A's
first, and the change of owner is told. -/
theorem ownBoundary_unowned (hk : s.mgmt.kstate = .running) : s.ownBoundary = s.grantBoth.ownMessage := by
  have hsame : (s.ageHeartbeat .a).ageHeartbeat .b = s := by simp [ageHeartbeat, portOwn, ha, hb, PortOwn.fresh]
  have hlapse : (s.lapse .a).lapse .b = s := by simp [lapse, portOwn, ha, hb, PortOwn.fresh]
  have hwithdraw : (s.applyWithdraw .a).applyWithdraw .b = s := by simp [applyWithdraw, portOwn, ha, hb, PortOwn.fresh]
  have howner (f : State → Port → State) : s.forOwner f = s := by simp [forOwner, hfree]
  have hhost := (grantBoth_own hfree ha hb).1
  unfold grantBoth at hhost ⊢
  unfold ownBoundary
  simp only [hsame, hk, if_true, hlapse, hwithdraw, howner, hhost, hfree]
  simp

end Grants

end State

/-- Settles O7: the processing of R37 for an unowned 9340 is the grant of the claims of the beat, and its message changes neither
ownership nor a register. -/
theorem claimGranted : Obligations.ClaimGranted := by
  unfold Obligations.ClaimGranted
  intro s both hk hfree ha hb
  obtain ⟨howner, hepoch, hcause, hclaimA, hclaimB, hdeadline⟩ := State.grantBoth_own hfree ha hb
  obtain ⟨hlatch, hresult⟩ := State.grantBoth_result hfree ha hb
  have hown : s.ownBoundary.own = s.grantBoth.own := by
    rw [State.ownBoundary_unowned hfree ha hb hk]
    exact (State.ownMessage_onlyEvents _).own
  have hrd (a : Nat) : s.ownBoundary.rd a = s.grantBoth.rd a := by
    rw [State.ownBoundary_unowned hfree ha hb hk, State.ownMessage, State.rd_sendMsix, State.rd_sendMsix]
  rw [hown]
  refine ⟨howner, hepoch, hcause, hclaimA, hclaimB, hdeadline, hlatch.of_rd (hrd _), ?_, ?_⟩
  · rw [State.get, hrd, hresult, bitsOf_withBits _ _ _ _ (by decide) (by decide)]
    rfl
  · rw [State.get, hrd, hresult, bitsOf_withBits_ne _ _ _ _ _ _ (by decide) (by decide) (by decide) (by decide),
      bitsOf_withBits _ _ _ _ (by decide) (by decide)]
    exact Nat.mod_eq_of_lt (s.own.epoch + 1).isLt

end Sys2Proof.Machine
end

section
/-! PROOFS. The beat's references, the cut and the seal, and the snapshot of BEAT_NOW (R49, R56, R57, R71, R497). -/

namespace Sys2Proof.Machine

namespace State

/-! ## References -/

/-- References with the bit of one of them set or cleared. -/
def refsWith (s : State) (ref : Nat) (on : Bool) : Refs :=
  if ref = 0 then { s.refs with qualNet := on } else if ref = 1 then { s.refs with qualPcm := on }
  else if ref = 2 then { s.refs with qualTen := on } else s.refs

/-- The qualification of a reference changes the references and BEAT_REF_STATUS. -/
theorem setQual_frame (s : State) (ref : Nat) (on : Bool) {r : List Nat} (hr : Reg.BEAT_REF_STATUS ∈ r) :
    OnlyEvents { s with refs := s.refsWith ref on } (s.setQual ref on) r :=
  ((((((OnlyEvents.same.putB _ _ hr).putB _ _ hr).putB _ _ hr).putB _ _ hr).putB _ _ hr).putB _ _ hr).put _ _ hr

/-- What of the references is read off `refs` alone. -/
theorem refQualified_congr {s u : State} (h : u.refs = s.refs) (r : Nat) : u.refQualified r = s.refQualified r := by
  unfold refQualified
  rw [h]

/-- One reference's bit changes, and the active reference does not. -/
theorem refsWith_bits {s u : State} {ref : Nat} {on : Bool} (href : ref < 3) (h : u.refs = s.refsWith ref on) :
    u.refQualified ref = on ∧ (∀ r, r ≠ ref → u.refQualified r = s.refQualified r) ∧ u.refs.active = s.refs.active := by
  unfold refsWith at h
  unfold refQualified
  rw [h]
  interval_cases ref <;> refine ⟨rfl, fun r hr => ?_, rfl⟩ <;> simp [hr]

/-- A qualified reference is one of the three. -/
theorem lt_of_refQualified {s : State} {ref : Nat} (h : s.refQualified ref = true) : ref < 3 := by
  unfold refQualified at h
  split_ifs at h <;> omega

section Qualification

variable {s : State} {ref : Nat}

/-- REFERENCE_QUALIFY of a reference that may serve (R49). -/
theorem qualify_frame (href : ref ≠ 3) (hnet : ref = 0 → s.netMayQualify = true) :
    ∃ x, OnlyEvents { s with refs := s.refsWith ref true, spares := x } (s.qualify ref) [Reg.BEAT_REF_STATUS] := by
  have heq : s.qualify ref = (s.setQual ref true).relCheck := by
    refine if_neg ?_
    simp only [Bool.or_eq_true, decide_eq_true_eq, Bool.and_eq_true, Bool.not_eq_true', not_or, not_and, Bool.not_eq_false]
    exact ⟨href, hnet⟩
  rw [heq]
  have hset := setQual_frame s ref true (r := [Reg.BEAT_REF_STATUS]) (by simp)
  generalize s.setQual ref true = v at hset ⊢
  exact ⟨_, hset.relCheck⟩

/-- REFERENCE_DISQUALIFY of a qualified reference: the loss of the active one is a fault of class 13 (R49, R497). -/
theorem disqualify_frame (hq : s.refQualified ref = true) :
    (∃ x, OnlyEvents { s with refs := s.refsWith ref false, spares := x } (s.disqualify ref)
      [Reg.BEAT_REF_STATUS, Reg.REL_LAST_FAULT, Reg.REL_LAST_BEAT, Reg.REL_FAULT_CNT 13])
    ∧ (s.activeRef = ref → (s.disqualify ref).LastFault 13 0 0 11 false ∧ (s.disqualify ref).Latched Pg.REL Ev.REL.FAULT) := by
  have heq : s.disqualify ref
      = if s.activeRef = ref then (s.setQual ref false).recordFault 13 0 0 11 false else (s.setQual ref false).relCheck := by
    simp [disqualify, hq]
  have hset := setQual_frame s ref false (r := [Reg.BEAT_REF_STATUS, Reg.REL_LAST_FAULT, Reg.REL_LAST_BEAT, Reg.REL_FAULT_CNT 13]) (by simp)
  rw [heq]
  generalize s.setQual ref false = v at hset ⊢
  refine ⟨?_, fun hlost => ?_⟩
  · split
    · exact ⟨_, hset.recordFault 13 0 0 11 false (by simp)⟩
    · exact ⟨_, hset.relCheck⟩
  · rw [if_pos hlost]
    exact ⟨recordFault_lastFault _ _ _ _ _ _ (by decide) (by decide), recordFault_latched _ _ _ _ _ _⟩

end Qualification

end State

/-- Settles O8: by what the two operations do to the references, the tolerance check and the record of a fault. -/
theorem referenceChanges : Obligations.ReferenceChanges := by
  unfold Obligations.ReferenceChanges
  intro s t ref hup
  have hlt := ref.isLt
  refine ⟨fun h3 hnet => ?_, fun hq => ?_⟩
  · obtain ⟨x, hframe⟩ := State.qualify_frame (s := s.atTick t) h3 hnet
    refine ⟨_, State.act_of_eq (fun s => s.qualify ref.toNat) hup rfl hframe.clk hframe.pending, ?_⟩
    generalize (s.atTick t).qualify ref.toNat = u at hframe ⊢
    obtain ⟨hthis, hothers, hactive⟩ := State.refsWith_bits (s := s.atTick t) (by omega) hframe.refs
    refine ⟨hthis, hothers, hactive, ?_⟩
    rw [hframe.refs, hframe.spares]
    exact hframe
  · obtain ⟨⟨x, hframe⟩, hfault⟩ := State.disqualify_frame (s := s.atTick t) hq
    refine ⟨_, State.act_of_eq (fun s => s.disqualify ref.toNat) hup rfl hframe.clk hframe.pending, ?_⟩
    generalize (s.atTick t).disqualify ref.toNat = u at hframe hfault ⊢
    obtain ⟨hthis, hothers, hactive⟩ := State.refsWith_bits (s := s.atTick t) (State.lt_of_refQualified hq) hframe.refs
    refine ⟨hthis, hothers, hactive, hfault, ?_⟩
    rw [hframe.refs, hframe.spares]
    exact hframe

namespace State

/-! ## The cut, the seal and BEAT_NOW -/

theorem cutNext_due (s : State) (h : s.clk.started = true) (hdue : s.nextCut ≤ s.clk.now) :
    s.cutNext = s.setRefs { s.refs with sealWait := true } := by
  simp [cutNext, h, hdue]

theorem ingressSeal_early (s : State) (hlate : s.refs.late = false) (hplaced : s.framesBefore s.nextCut = false) :
    s.ingressSeal = s.setRefs { s.refs with sealWait := false } := by
  simp [ingressSeal, hlate, hplaced]

theorem ingressSeal_late (s : State) (hlate : s.refs.late = true) (hplaced : s.framesBefore s.lastCut = false) :
    s.ingressSeal = (((s.setRefs { s.refs with late := false }).inc Reg.BEAT_SEAL_LATE Fd.BEAT_SEAL_LATE.COUNT).event
      Pg.BEAT Ev.BEAT.SEAL_LATE).readyBeat := by
  simp [ingressSeal, lateSeal, hlate, hplaced]

/-- The registers that a read of BEAT_NOW latches, but for the nanoseconds; `hi` is the word of BEAT_STAMP_SEC_HI. -/
def latchBeat (s : State) (hi : Word) : State :=
  ((s.put Reg.BEAT_CYCLE Fd.BEAT_CYCLE.CYC (if s.clk.started then s.clk.cycle else 0)).wr Reg.BEAT_STAMP_SEC_LO
    (Word.of s.refs.stamp.sec)).wr Reg.BEAT_STAMP_SEC_HI hi

theorem beatNow_eq (s : State) :
    ∃ hi, s.beatNow = ((s.latchBeat hi).clk.n, (s.latchBeat hi).wr Reg.BEAT_STAMP_NS (Word.of s.refs.stamp.ns)) :=
  ⟨Word.of (s.refs.stamp.gen * 2 ^ 24 + s.refs.stamp.sec / 2 ^ 32 % 65536), rfl⟩

/-- A read of BEAT_NOW answers the beat number and latches the cycle and the stamp of the boundary (R71). -/
theorem beatNow_latches (s : State) :
    ∃ w, s.beatNow = (s.clk.n, w) ∧ (s.clk.started = true → w.get Reg.BEAT_CYCLE Fd.BEAT_CYCLE.CYC = s.clk.cycle % 2 ^ 17)
      ∧ w.rd Reg.BEAT_STAMP_NS = Word.of s.refs.stamp.ns ∧ w.rd Reg.BEAT_STAMP_SEC_LO = Word.of s.refs.stamp.sec
      ∧ s.OnlyEvents w [Reg.BEAT_CYCLE, Reg.BEAT_STAMP_SEC_LO, Reg.BEAT_STAMP_SEC_HI, Reg.BEAT_STAMP_NS] := by
  obtain ⟨hi, heq⟩ := s.beatNow_eq
  refine ⟨_, heq, fun h => ?_, rd_wr_same _ _ _, ?_, ?_⟩
  · rw [get_wr_ne _ _ _ (by decide), latchBeat, get_wr_ne _ _ _ (by decide), get_wr_ne _ _ _ (by decide),
      get_put_same _ _ _ _ (by decide) (by decide), if_pos h]
    rfl
  · rw [rd_wr_ne _ _ (by decide), latchBeat, rd_wr_ne _ _ (by decide), rd_wr_same]
  · exact (((OnlyEvents.same.put _ _ (by simp)).wr _ (by simp)).wr _ (by simp)).wr _ (by simp)

/-- A read that is served, with the value and the state that it answers (R537, R568). -/
theorem hostRead_answers {s w : State} {p : Port} {f : State → Word × State} {v : Word} (hl : s.linked p = true)
    (hk : s.mgmt.kstate ≠ .boot) (hf : f s = (v, w)) : s.hostRead p f = { w with lastRead := v } := by
  rw [hostRead_started s p f hl hk, hf]

end State

/-- Settles O9: each of CUT and INGRESS_SEAL is one branch of its operation; a read of BEAT_NOW is served once the firmware has
started. -/
theorem cutSealAndNow : Obligations.CutSealAndNow := by
  unfold Obligations.CutSealAndNow
  intro s t p hup
  refine ⟨fun hrun hdue => ?_, fun hlate hplaced => ?_, fun hlate hplaced => ?_, fun hl hk => ?_⟩
  · exact State.act_of_eq State.cutNext hup ((s.atTick t).cutNext_due hrun hdue) rfl rfl
  · exact State.act_of_eq State.ingressSeal hup ((s.atTick t).ingressSeal_early hlate hplaced) rfl rfl
  · refine (State.act_up s t State.ingressSeal hup).trans ?_
    rw [(s.atTick t).ingressSeal_late hlate hplaced]
    rfl
  · obtain ⟨w, hw, hcycle, hns, hsec, hframe⟩ := State.beatNow_latches (s.atTick t)
    have hread := State.hostRead_answers (s := s.atTick t) (p := p) (f := fun s => s.beatNow) (by simpa using hl) hk hw
    refine ⟨_, State.act_of_eq (fun s => s.hostRead p fun s => s.beatNow) hup hread hframe.clk hframe.pending, rfl, hcycle, hns, hsec, ?_⟩
    exact hframe.under fun z => { z with lastRead := s.clk.n }

end Sys2Proof.Machine
end

section
/-! PROOFS. The dispatcher: what the decision trace can change, jobs and cores after a change, grants, staging, start and hand-over
of a job, the commit unit, the deadline of a beat, and overruns (R60 to R77, R239 to R268). -/

namespace Sys2Proof.Machine

namespace State

/-! ## The decision trace (R266 to R268) -/

/-- `u` is `s` but for the trace, its index registers and what events do. -/
def OnlyTrace (s u : State) : Prop :=
  ∃ x, OnlyEvents { s with trace := x } u [Reg.TRACE_WR_IDX, Reg.TRACE_OLDEST, Reg.TRACE_LOST]

theorem OnlyTrace.refl (s : State) : s.OnlyTrace s := ⟨s.trace, .same⟩

theorem OnlyTrace.trans {s u v : State} (h : s.OnlyTrace u) (h' : u.OnlyTrace v) : s.OnlyTrace v := by
  obtain ⟨x, hx⟩ := h
  obtain ⟨y, hy⟩ := h'
  exact ⟨y, (hx.under fun z => { z with trace := y }).andThen hy⟩

theorem traceDrain_onlyTrace (s : State) : s.OnlyTrace s.traceDrain := ⟨_, .same⟩

theorem traceStore_onlyTrace (s : State) (ws : List Word) : s.OnlyTrace (s.traceStore ws) := by
  unfold traceStore
  dsimp only
  split
  · exact ⟨_, (OnlyEvents.same.wr _ (by simp)).wr _ (by simp)⟩
  · exact ⟨_, OnlyEvents.same.wr _ (by simp)⟩

theorem traceTry_onlyTrace (s : State) (ws : List Word) : s.OnlyTrace (s.traceTry ws) := by
  unfold traceTry
  split
  · exact ⟨_, (OnlyEvents.same.inc _ _ (by simp)).event _ _⟩
  · exact traceStore_onlyTrace s ws

theorem traceLoss_onlyTrace (s : State) : s.OnlyTrace s.traceLoss := by
  unfold traceLoss
  dsimp only
  split
  · exact .refl s
  · exact (traceStore_onlyTrace s _).trans ⟨_, .same⟩

theorem traceWrite_onlyTrace (s : State) (ws : List Word) : s.OnlyTrace (s.traceWrite ws) := by
  have hdrain : s.OnlyTrace ((if 3 ≤ s.traceMode then s.traceDrain else s).traceLoss) := by
    refine OnlyTrace.trans ?_ (traceLoss_onlyTrace _)
    split
    · exact traceDrain_onlyTrace s
    · exact .refl s
  unfold traceWrite
  split
  · exact .refl s
  · dsimp only
    generalize (if 3 ≤ s.traceMode then s.traceDrain else s).traceLoss = v at hdrain ⊢
    split
    · exact hdrain.trans (traceTry_onlyTrace v ws)
    · exact hdrain

theorem traceJob_onlyTrace (s : State) (event : Nat) (j : Job) (server : Option Server) (flags : Nat) :
    s.OnlyTrace (s.traceJob event j server flags) := by
  unfold traceJob
  split
  · exact traceWrite_onlyTrace s _
  · exact .refl s

/-! ## Jobs and cores -/

/-- The job of an id after a change of one job that keeps ids. -/
theorem job_modJob {s : State} {j : Job} (f : Job → Job) (hf : ∀ x, (f x).id = x.id) (h : s.job j.id = some j) :
    (s.modJob j.id f).job j.id = some (f j) := by
  have hkey : (fun x : Job => decide (x.id = j.id)) ∘ (fun x => if x.id = j.id then f x else x) = fun x => decide (x.id = j.id) := by
    funext x
    simp only [Function.comp]
    split <;> simp [hf]
  unfold job modJob at *
  rw [List.find?_map, hkey, h]
  simp

/-- A job that is found under an id has it. -/
theorem id_of_job {s : State} {id : Nat} {j : Job} (h : s.job id = some j) : j.id = id := by
  simpa using List.find?_some h

theorem core_modCore {s : State} {k i : Nat} {c : Core} (f : Core → Core) (h : s.core k i = some c) :
    (s.modCore k i f).core k i = some (f c) := by
  obtain ⟨cl, hcl, hc⟩ := Option.bind_eq_some_iff.mp h
  have hcluster : (s.modCore k i f).cluster k = some { cl with cores := cl.cores.modify i f } := by
    unfold modCore modCluster cluster at *
    simp [hcl]
  rw [core, hcluster, Option.bind_some, List.getElem?_modify_eq, hc]
  rfl

theorem job_congr {s u : State} (h : u.disp = s.disp) (id : Nat) : u.job id = s.job id := by
  rw [job, h, job]

theorem core_congr {s u : State} (h : u.clusters = s.clusters) (k i : Nat) : u.core k i = s.core k i := by
  rw [core, cluster, h, core, cluster]

@[simp] theorem job_modCore (s : State) (k i : Nat) (f : Core → Core) (id : Nat) : (s.modCore k i f).job id = s.job id := rfl
@[simp] theorem core_modJob (s : State) (id : Nat) (f : Job → Job) (k i : Nat) : (s.modJob id f).core k i = s.core k i := rfl

/-- A change after which the trace may write records. -/
theorem OnlyTrace.after {s v u : State} {r : List Nat} (h' : v.OnlyTrace u) (h : s.OnlyEvents v r)
    (hr : ∀ a ∈ [Reg.TRACE_WR_IDX, Reg.TRACE_OLDEST, Reg.TRACE_LOST], a ∈ r) : ∃ x, OnlyEvents { s with trace := x } u r := by
  obtain ⟨x, hx⟩ := h'
  exact ⟨x, (h.under fun z => { z with trace := x }).andThen (hx.mono hr)⟩

/-- A change of what `act` runs, where another reading of it gives the same state. -/
theorem act_after {s : State} {t : Nat} (f : State → State) {g : State → State} (hup : s.up = true) (h : f (s.atTick t) = g (s.atTick t)) :
    s.act t f = .next (s.after t g) := by
  rw [act_up s t f hup, h]
  rfl

/-! ## Grants (R257, R258, R261) -/

/-- The job as a grant to a core leaves it. -/
def grantedJob (s : State) (k i : Nat) (j : Job) : Job :=
  { j with state := .staging, server := some (.core k i), staged := false, grantAt := s.clk.now }

/-- The registers that count grants, and those of the trace. -/
def grantRegs : List Nat :=
  [Reg.DSP_GRANT_CNT, Reg.DSP_AFF_CNT, Reg.DSP_STEAL_CNT, Reg.DSP_OLDER_CNT, Reg.TRACE_WR_IDX, Reg.TRACE_OLDEST, Reg.TRACE_LOST]

/-- A grant to a core but for its counts and the trace: the job is STAGING there and the core's slot holds it. -/
def placed (s : State) (k i : Nat) (j : Job) : State :=
  ((s.modJob j.id fun x => { x with state := .staging, server := some (.core k i), staged := false, grantAt := s.clk.now }).modCore k i
    fun c => { c with slot := some j.id }).notePool (.cluster k)

theorem job_notePool (s : State) (p : Pool) (id : Nat) : (s.notePool p).job id = s.job id := rfl
theorem core_notePool (s : State) (p : Pool) (k i : Nat) : (s.notePool p).core k i = s.core k i := rfl

theorem placed_job {s : State} {k i : Nat} {j : Job} (hj : s.job j.id = some j) :
    (s.placed k i j).job j.id = some (s.grantedJob k i j) := by
  rw [placed, job_notePool, job_modCore]
  exact job_modJob _ (fun _ => rfl) hj

theorem placed_core {s : State} {k i : Nat} {c : Core} (j : Job) (hc : s.core k i = some c) :
    (s.placed k i j).core k i = some { c with slot := some j.id } := by
  rw [placed, core_notePool]
  exact core_modCore (fun c => { c with slot := some j.id }) hc

theorem placed_only (s : State) (k i : Nat) (j : Job) :
    { s with disp := (s.placed k i j).disp, clusters := (s.placed k i j).clusters } = s.placed k i j := rfl

theorem grantCore_frame (s : State) (k i : Nat) (j : Job) (older : Bool) :
    ∃ x, OnlyEvents { s.placed k i j with trace := x } (s.grantCore k i j older) grantRegs := by
  have hgrant : OnlyEvents (s.placed k i j)
      ((((s.modJob j.id fun x => { x with state := .staging, server := some (.core k i), staged := false, grantAt := s.clk.now }).modCore k i
        fun c => { c with slot := some j.id }).incWrap Reg.DSP_GRANT_CNT Fd.DSP_GRANT_CNT.COUNT).notePool (.cluster k)) grantRegs :=
    (OnlyEvents.same.incWrap _ _ (by simp [grantRegs])).under fun z => z.notePool (.cluster k)
  have haff := OnlyEvents.ite (s.lastHere k i j = true) (hgrant.incWrap Fd.DSP_AFF_CNT.COUNT 1 (a := Reg.DSP_AFF_CNT) (by simp [grantRegs])) hgrant
  have hsteal := OnlyEvents.ite ((match j.list with
    | .cluster c => c != k
    | _ => false) = true) (haff.inc Fd.DSP_STEAL_CNT.COUNT 1 (a := Reg.DSP_STEAL_CNT) (by simp [grantRegs])) haff
  have holder := OnlyEvents.ite (older = true) (hsteal.inc Fd.DSP_OLDER_CNT.COUNT 1 (a := Reg.DSP_OLDER_CNT) (by simp [grantRegs])) hsteal
  exact (traceJob_onlyTrace _ _ _ _ _).after holder (by simp [grantRegs])

theorem grantCore_spec {s : State} {k i : Nat} {j : Job} {c : Core} (older : Bool) (hj : s.job j.id = some j)
    (hc : s.core k i = some c) :
    (s.grantCore k i j older).job j.id = some (s.grantedJob k i j)
      ∧ (s.grantCore k i j older).core k i = some { c with slot := some j.id }
      ∧ OnlyEvents { s with disp := (s.grantCore k i j older).disp, clusters := (s.grantCore k i j older).clusters,
                            trace := (s.grantCore k i j older).trace } (s.grantCore k i j older) grantRegs := by
  obtain ⟨x, hx⟩ := grantCore_frame s k i j older
  have hbase := placed_only s k i j
  have hjob := placed_job (k := k) (i := i) hj
  have hcore := placed_core j hc
  generalize s.grantCore k i j older = u at hx ⊢
  generalize s.placed k i j = v at hx hbase hjob hcore
  rw [← hbase] at hx
  refine ⟨(job_congr hx.disp _).trans hjob, (core_congr hx.clusters k i).trans hcore, ?_⟩
  rw [hx.disp, hx.clusters, hx.trace]
  exact hx

end State

/-- Settles O10: a grant is `grantCore_spec`, and a release is the branch of the first held job. -/
theorem grantAndRelease : Obligations.GrantAndRelease := by
  unfold Obligations.GrantAndRelease
  refine ⟨fun s t k i j o c hup hpool hask hj hc => ?_, fun s t j hup hroom hheld => ?_⟩
  · obtain ⟨hjob, hcore, hframe⟩ := State.grantCore_spec (s := s.atTick t) o hj hc
    have hgrant : (s.atTick t).grant (.cluster k) = (s.atTick t).grantCore k i j o := by
      unfold State.grant
      simp only [hpool, hask]
      rfl
    generalize (s.atTick t).grantCore k i j o = u at hjob hcore hframe hgrant
    exact ⟨u, State.act_of_eq (fun s => s.grant (.cluster k)) hup hgrant hframe.clk hframe.pending, hjob, hcore, hframe⟩
  · refine State.act_after State.holdRelease hup ?_
    have hroom' : (s.atTick t).disp.jobs.length < maxEntries := hroom
    have hheld' : State.firstHeld (s.atTick t).disp.held = some j := hheld
    unfold State.holdRelease
    rw [if_pos hroom', hheld']

namespace State
/-! ## A job on a core (R239 to R241, R244) -/

/-- A job as the stager leaves it, with nothing read from GDDR-6. -/
def stagedJob (s : State) (j x : Job) : Job :=
  { x with staged := true
           flagged := x.flagged || false || (j.kind = .beat && !s.memReady && (s.life j.uid).any fun c => !c.compact)
           version := ((s.life j.uid).map fun (c : Chan) => c.version).getD 0 }

/-- The stager's copy of a job whose turn it is. -/
theorem stage_eq {s : State} {k i : Nat} {j : Job} (hslot : s.slotJob k i = some j) (hnext : s.nextToStage k = some j) :
    s.stage k i [] = s.modJob j.id (s.stagedJob j) := by
  have hread : (if j.kind = .beat then s.readSectors [] else (s, false)) = (s, false) := ite_self _
  unfold stage
  rw [hslot]
  dsimp only
  rw [hread, if_pos (by rw [hnext]; rfl)]
  rfl

theorem stagedJob_self (s : State) (j : Job) :
    s.stagedJob j j = { j with
      staged := true
      flagged := j.flagged || (j.kind = .beat && !s.memReady && (s.life j.uid).any fun c => !c.compact)
      version := ((s.life j.uid).map fun (c : Chan) => c.version).getD 0 } := by
  rw [stagedJob, Bool.or_false]

/-- A start but for the trace: the job runs on its core, which becomes the last of its flow. -/
def started (s : State) (k i : Nat) (j : Job) : State :=
  let s := s.modJob j.id fun j => { j with state := .running, startAt := s.clk.now, acc := s.clk.now }
  let s := s.modCore k i fun c => { c with slot := none, run := some j.id, inject := false, sat := false }
  { s with disp := { s.disp with lastCore := s.disp.lastCore.insert j.flow (k, i) } }

theorem startJob_eq {s : State} {k i : Nat} {j : Job} {c : Core} (hc : s.core k i = some c) (hslot : s.slotJob k i = some j)
    (hserves : s.serves k = true) (hrun : c.run = none) (hcheck : c.checking = none) (hstaged : j.staged = true)
    (hinj : c.inject = false) : s.startJob k i = (s.started k i j).traceJob 3 j j.server 0 := by
  unfold startJob
  rw [hc, hslot]
  simp only [hserves, hrun, hcheck, hstaged, hinj]
  rfl

theorem started_job {s : State} {k i : Nat} {j : Job} (hj : s.job j.id = some j) :
    (s.started k i j).job j.id = some { j with state := .running, startAt := s.clk.now, acc := s.clk.now } :=
  job_modJob (fun j => { j with state := .running, startAt := s.clk.now, acc := s.clk.now }) (fun _ => rfl) hj

theorem started_core {s : State} {k i : Nat} {c : Core} (j : Job) (hc : s.core k i = some c) :
    (s.started k i j).core k i = some { c with slot := none, run := some j.id, inject := false, sat := false } :=
  core_modCore (fun c => { c with slot := none, run := some j.id, inject := false, sat := false }) hc

theorem started_lastCore (s : State) (k i : Nat) (j : Job) : (s.started k i j).disp.lastCore.find? j.flow = some (k, i) := by
  simp [started, Assoc.find?_insert]

/-- The job a core runs has the id that the core holds. -/
theorem run_of_runJob {s : State} {k i : Nat} {j : Job} {c : Core} (hc : s.core k i = some c) (h : s.runJob k i = some j) :
    c.run = some j.id := by
  rw [runJob, hc, Option.bind_some] at h
  obtain ⟨id, hid, hj⟩ := Option.bind_eq_some_iff.mp h
  rw [hid, id_of_job hj]

/-- A hand-over: the core is free and the job waits for the commit unit with its digest. -/
theorem handover_spec {s : State} {k i : Nat} {j : Job} {c : Core} (d : Nat) (hj : s.job j.id = some j) (hc : s.core k i = some c)
    (hrun : s.runJob k i = some j) (hstate : j.state = .running) (hserver : j.server = some (.core k i))
    (hbudget : j.kind = .beat → s.elapsed k j < s.budget j) :
    (s.handover k i d).job j.id = some { j with state := .committing, digest := some d, startAt := s.clk.now }
      ∧ (s.handover k i d).core k i = some { c with slot := if c.slot = some j.id then none else c.slot, run := none }
      ∧ OnlyEvents { s with disp := (s.handover k i d).disp, clusters := (s.handover k i d).clusters } (s.handover k i d)
          [Reg.CLU_STAGE_WAIT_CNT k] := by
  have hcond : (decide (j.state = .running) && !(decide (j.kind = .beat) && decide (s.budget j ≤ s.elapsed k j))) = true := by
    simpa [hstate, imp_iff_not_or] using hbudget
  have hdrop : Core.drop j.id c = { c with slot := if c.slot = some j.id then none else c.slot, run := none } := by
    rw [Core.drop, if_pos (run_of_runJob hc hrun)]
  have heq : s.handover k i d
      = ((if s.stageWaits k i j then s.inc (Reg.CLU_STAGE_WAIT_CNT k) Fd.CLU_STAGE_WAIT_CNT.COUNT else s).modCore k i (Core.drop j.id)).modJob
          j.id fun j => { j with state := .committing, digest := some d, startAt := s.clk.now } := by
    unfold handover
    rw [hrun]
    dsimp only
    rw [if_pos hcond, leaveServer, hserver]
  have hwait : OnlyEvents s (if s.stageWaits k i j then s.inc (Reg.CLU_STAGE_WAIT_CNT k) Fd.CLU_STAGE_WAIT_CNT.COUNT else s)
      [Reg.CLU_STAGE_WAIT_CNT k] := OnlyEvents.ite _ (OnlyEvents.same.inc _ _ (by simp)) .same
  rw [heq]
  generalize (if s.stageWaits k i j then s.inc (Reg.CLU_STAGE_WAIT_CNT k) Fd.CLU_STAGE_WAIT_CNT.COUNT else s) = v at hwait
  refine ⟨?_, ?_, ?_⟩
  · refine job_modJob (fun j => { j with state := .committing, digest := some d, startAt := s.clk.now }) (fun _ => rfl) ?_
    rw [job_modCore, job_congr hwait.disp, hj]
  · rw [core_modJob, ← hdrop]
    exact core_modCore _ ((core_congr hwait.clusters k i).trans hc)
  · exact hwait.under fun z =>
      { z with disp := ((v.modCore k i (Core.drop j.id)).modJob j.id fun j =>
                  { j with state := .committing, digest := some d, startAt := s.clk.now }).disp
               clusters := (v.modCore k i (Core.drop j.id)).clusters }

end State

/-- Settles O11: staging is `stage_eq`, a start is `startJob_eq` with its trace, a hand-over is `handover_spec`. -/
theorem jobOnCore : Obligations.JobOnCore := by
  unfold Obligations.JobOnCore
  intro s t k i j hup hj
  refine ⟨fun hslot hnext => ?_, fun c hc hslot hserves hrun hcheck hstaged hinj => ?_,
    fun c d hc hrun hstate hserver hbudget => ?_⟩
  · have hjob := State.job_modJob (s := s.atTick t) (State.stagedJob (s.atTick t) j) (fun _ => rfl) hj
    rw [State.stagedJob_self] at hjob
    exact ⟨_, State.act_of_eq (fun s => s.stage k i []) hup (State.stage_eq (s := s.atTick t) hslot hnext) rfl rfl, hjob, rfl⟩
  · have heq := State.startJob_eq (s := s.atTick t) hc hslot hserves hrun hcheck hstaged hinj
    obtain ⟨x, hx⟩ := State.traceJob_onlyTrace ((s.atTick t).started k i j) 3 j j.server 0
    generalize ((s.atTick t).started k i j).traceJob 3 j j.server 0 = u at hx heq
    refine ⟨u, State.act_of_eq (fun s => s.startJob k i) hup heq hx.clk hx.pending, ?_, ?_, ?_, ?_⟩
    · rw [State.job_congr hx.disp]
      exact State.started_job (s := s.atTick t) hj
    · rw [State.core_congr hx.clusters]
      exact State.started_core (s := s.atTick t) j hc
    · rw [hx.disp]
      exact State.started_lastCore (s.atTick t) k i j
    · rw [hx.disp, hx.clusters, hx.trace]
      exact hx
  · obtain ⟨hjob, hcore, hframe⟩ := State.handover_spec (s := s.atTick t) d hj hc hrun hstate hserver hbudget
    generalize hu : (s.atTick t).handover k i d = u at hjob hcore hframe
    exact ⟨u, State.act_of_eq (fun s => s.handover k i d) hup hu hframe.clk hframe.pending, hjob, hcore, hframe⟩

namespace State
/-! ## The commit unit (R75, R76, R243, R466, R488) -/

section
variable {s : State} {chan : Nat} {j : Job} {c : Chan} (r : JobResult) (hj : s.committingJob chan = some j)
  (hwb : s.wbFull (jobCluster j) = false) (hc : s.life j.uid = some c)
include hj hwb hc

theorem commitJob_outOfTurn (hturn : s.inTurn j c = false) : s.commitJob chan r = s.abortJob j 1 false := by
  unfold commitJob
  simp only [hj, hwb, hc, hturn]
  rfl

theorem commitJob_flagged (hturn : s.inTurn j c = true) (hflag : j.flagged = true) : s.commitJob chan r = s.poisonJob j := by
  unfold commitJob
  simp only [hj, hwb, hc, hturn, hflag]
  rfl

theorem commitJob_alone (hturn : s.inTurn j c = true) (hflag : j.flagged = false) (hside : s.otherSide j = none) :
    s.commitJob chan r = s.acceptJob j c r := by
  unfold commitJob
  simp only [hj, hwb, hc, hturn, hflag, hside]
  rfl

theorem commitJob_pair {x : Job} (hturn : s.inTurn j c = true) (hflag : j.flagged = false) (hside : s.otherSide j = some x)
    (hx : x.flagged = false) :
    s.commitJob chan r = if j.paired && j.peer != j.digest then s.mismatch j x else s.acceptJob j c r := by
  unfold commitJob
  simp only [hj, hwb, hc, hturn, hflag, hside, hx]
  rfl

end

/-- The partner's digest reaches the home job. -/
theorem partnerDigest_eq {s : State} {chan k i : Nat} {x h : Job}
    (hx : s.disp.jobs.find? (fun j => j.kind = .beat && j.partner && j.chan = chan && j.state = .committing) = some x)
    (hh : s.otherSide x = some h) (hpeer : h.peer = none) (hserver : x.server = some (.core k i)) :
    s.partnerDigest chan = (s.inc (Reg.CLU_PARTNER_CNT k) Fd.CLU_PARTNER_CNT.COUNT).modJob h.id fun h => { h with peer := x.digest } := by
  unfold partnerDigest
  simp only [hx, hh, hpeer, hserver]
  rfl

end State

/-- Settles O12: each clause is one branch of the commit unit's judgement. -/
theorem commitUnit : Obligations.CommitUnit := by
  unfold Obligations.CommitUnit
  refine ⟨fun s t chan r j c hup hj hwb hc => ?_, fun s t chan k i x h hup hx hh hpeer hserver => ?_, fun s t k chan hup => ?_⟩
  · refine ⟨fun hturn hflag hside => ?_,
      fun hturn => State.act_after (fun s => s.commitJob chan r) hup (State.commitJob_outOfTurn r hj hwb hc hturn),
      fun hturn hflag => State.act_after (fun s => s.commitJob chan r) hup (State.commitJob_flagged r hj hwb hc hturn hflag),
      fun x hturn hx hflag hxflag hpair hpeer => ?_⟩
    · have haccept : (s.atTick t).commitJob chan r = (s.atTick t).acceptJob j c r := by
        cases hx : s.otherSide j with
        | none => exact State.commitJob_alone r hj hwb hc hturn hflag hx
        | some x =>
          obtain ⟨hxflag, hpeer⟩ := hside x hx
          rw [State.commitJob_pair (s := s.atTick t) r hj hwb hc hturn hflag hx hxflag, if_neg (by simpa using hpeer)]
      exact State.act_after (fun s => s.commitJob chan r) hup haccept
    · have hmismatch : (s.atTick t).commitJob chan r = (s.atTick t).mismatch j x := by
        rw [State.commitJob_pair (s := s.atTick t) r hj hwb hc hturn hflag hx hxflag, if_pos (by simp [hpair, hpeer])]
      exact State.act_after (fun s => s.commitJob chan r) hup hmismatch
  · exact State.act_of_eq (fun s => s.partnerDigest chan) hup (State.partnerDigest_eq (s := s.atTick t) hx hh hpeer hserver) rfl rfl
  · exact State.act_of_eq (fun s => s.writtenBack k chan none) hup rfl rfl rfl

namespace State
/-! ## The deadline of a beat (R61 to R63, R71) -/

/-- What BEAT_DONE_LAST shows of a beat's work (R71). -/
def doneUs (w : BeatWork) (start : Nat) : Nat :=
  if !w.had then 0 else match w.last with
    | some t => (t - start) / usTicks 1
    | none => 9900

/-- The registers of a deadline. -/
def deadlineRegs : List Nat := [Reg.DSP_HOLD, Reg.BEAT_DONE_LAST, Reg.BEAT_DONE_HWM, Reg.BEAT_RECOV_CNT]

/-- The commit within the time of recovery counts (R63). -/
def recovered (s : State) (w : BeatWork) (start : Nat) : State :=
  match w.last with
  | some t =>
    if start + beatTicks ≤ t then (s.inc Reg.BEAT_RECOV_CNT Fd.BEAT_RECOV_CNT.COUNT).event Pg.BEAT Ev.BEAT.RECOVERY_USED else s
  | none => s

theorem recovered_onlyEvents (s : State) (w : BeatWork) (start : Nat) : s.OnlyEvents (s.recovered w start) [Reg.BEAT_RECOV_CNT] := by
  unfold recovered
  split
  · exact OnlyEvents.ite _ ((OnlyEvents.same.inc _ _ (by simp)).event _ _) .same
  · exact .same

theorem closeWindow_eq {s : State} {n : BeatNo} {w : BeatWork} (start : Nat) (hw : s.workOf n = some w) :
    s.closeWindow n start
      = ((({ s with disp := { s.disp with work := s.disp.work.filter fun x => x.beat ≠ n } }.put Reg.BEAT_DONE_LAST
          Fd.BEAT_DONE_LAST.US (doneUs w start)).raise Reg.BEAT_DONE_HWM Fd.BEAT_DONE_HWM.US (doneUs w start)).recovered w start) := by
  unfold closeWindow
  rw [hw]
  rfl

/-- A window that closes: its record goes, and BEAT_DONE_LAST shows its end. -/
theorem closeWindow_spec {s : State} {n : BeatNo} {w : BeatWork} (start : Nat) (hw : s.workOf n = some w) :
    OnlyEvents { s with disp := { s.disp with work := s.disp.work.filter fun x => x.beat ≠ n } } (s.closeWindow n start) deadlineRegs
      ∧ (s.closeWindow n start).get Reg.BEAT_DONE_LAST Fd.BEAT_DONE_LAST.US
          = doneUs w start % 2 ^ (Fd.BEAT_DONE_LAST.US.hi + 1 - Fd.BEAT_DONE_LAST.US.lo) := by
  rw [closeWindow_eq start hw]
  generalize ({ s with disp := { s.disp with work := s.disp.work.filter fun x => x.beat ≠ n } } : State) = v
  generalize doneUs w start = us
  have hrecov := recovered_onlyEvents ((v.put Reg.BEAT_DONE_LAST Fd.BEAT_DONE_LAST.US us).raise Reg.BEAT_DONE_HWM Fd.BEAT_DONE_HWM.US us) w start
  refine ⟨?_, ?_⟩
  · exact ((OnlyEvents.same.put _ _ (by simp [deadlineRegs])).put _ _ (by simp [deadlineRegs])).andThen
      (hrecov.mono (by simp [deadlineRegs]))
  · rw [get, hrecov.2 _ (by decide) (by decide), ← get, raise, get_put_ne _ _ _ _ (by decide), get_put_same _ _ _ _ (by decide) (by decide)]

theorem workOf_filter (s : State) (n : BeatNo) :
    ({ s with disp := { s.disp with work := s.disp.work.filter fun x => x.beat ≠ n } } : State).workOf n = none := by
  simp [workOf]

/-- No held job is skipped where none is held. -/
theorem skipHeld_none {s : State} (n : BeatNo) (h : s.disp.held = []) : OnlyEvents s (s.skipHeld n) [Reg.DSP_HOLD] := by
  have heq : s.skipHeld n = { s with disp := { s.disp with held := [] } }.showHolds := by
    unfold skipHeld
    rw [h]
    rfl
  have hdisp : ({ s with disp := { s.disp with held := [] } } : State) = s := by rw [← h]
  rw [heq, hdisp]
  exact OnlyEvents.same.put _ _ (by simp)

/-- The deadline of a beat whose jobs are all done. -/
theorem deadline_eq {s : State} {w : BeatWork} (hstart : s.clk.started = true) (hdue : s.clk.prevDeadline ≤ s.clk.now)
    (hw : s.workOf (s.clk.n - 1) = some w) (hjobs : s.beatJobs (s.clk.n - 1) = []) :
    s.deadline = (s.skipHeld (s.clk.n - 1)).closeWindow (s.clk.n - 1) (s.clk.at0 - beatTicks) := by
  unfold deadline
  simp only [hstart, hdue, hw, hjobs]
  rfl

end State

/-- Settles O13: the deadline of a beat without jobs closes its window, and the two other clauses are branches. -/
theorem deadlineAndOverrun : Obligations.DeadlineAndOverrun := by
  unfold Obligations.DeadlineAndOverrun
  refine ⟨fun s t w hup hstart hdue hw hjobs hheld => ?_, fun s t k i j hup hrun hkind hstate hbudget => State.act_after (fun s => s.overrun k i) hup ?_,
    fun s t task j hup hj => State.act_after (fun s => s.maintDone task []) hup ?_⟩
  · have heq := State.deadline_eq (s := s.atTick t) hstart hdue hw hjobs
    have hskip := State.skipHeld_none (s := s.atTick t) (s.clk.n - 1) hheld
    have hwork : ((s.atTick t).skipHeld (s.clk.n - 1)).workOf (s.clk.n - 1) = some w := by
      rw [State.workOf, hskip.disp]
      exact hw
    obtain ⟨hframe, hus⟩ := State.closeWindow_spec (s.clk.at0 - beatTicks) hwork
    change (s.atTick t).deadline = ((s.atTick t).skipHeld (s.clk.n - 1)).closeWindow (s.clk.n - 1) (s.clk.at0 - beatTicks) at heq
    generalize (s.atTick t).skipHeld (s.clk.n - 1) = v at heq hskip hwork hframe hus
    generalize v.closeWindow (s.clk.n - 1) (s.clk.at0 - beatTicks) = u at heq hframe hus
    have hall : State.OnlyEvents { s.atTick t with disp := u.disp } u State.deadlineRegs := by
      rw [hframe.disp]
      refine State.OnlyEvents.andThen ?_ hframe
      have := (hskip.under fun z => { z with disp := { v.disp with work := v.disp.work.filter fun x => x.beat ≠ s.clk.n - 1 } })
      exact this.mono (by simp [State.deadlineRegs])
    refine ⟨u, State.act_of_eq State.deadline hup heq hall.clk hall.pending, ?_, ?_, hall⟩
    · rw [State.workOf, hframe.disp]
      exact State.workOf_filter v _
    · rw [hus, State.doneUs]
      cases w.had <;> rfl
  · have hrun' : (s.atTick t).runJob k i = some j := hrun
    have hbudget' : (s.atTick t).budget j ≤ (s.atTick t).elapsed k j := hbudget
    unfold State.overrun
    rw [hrun']
    simp only [hkind, hstate, hbudget']
    rfl
  · have hj' : (s.atTick t).coreJob .maint task = some j := hj
    unfold State.maintDone
    rw [hj']
    rfl

end Sys2Proof.Machine
end

section
/-! PROOFS. Faults of cores, units, clusters and PLLs, repairs, and injected faults (R485 to R499, R518). -/

namespace Sys2Proof.Machine

namespace State

/-! ## A fault that is recorded -/

theorem recordFault_lastBeat (s : State) (cls cluster index detect : Nat) (inj : Bool)
    (hcls : Reg.REL_FAULT_CNT cls ≠ Reg.REL_LAST_BEAT) :
    (s.recordFault cls cluster index detect inj).rd Reg.REL_LAST_BEAT = s.clk.n := by
  unfold recordFault
  dsimp only
  rw [relCheck_rd _ (by decide), rd_event _ _ _ (by decide), rd_inc_ne _ _ _ hcls.symm, rd_wr_same]

theorem recordFault_keeps {s : State} {p b : Nat} (cls cluster index detect : Nat) (inj : Bool)
    (hcls : Reg.EVT_LATCH p ≠ Reg.REL_FAULT_CNT cls) (h : s.Latched p b) :
    (s.recordFault cls cluster index detect inj).Latched p b := by
  have hlast : Reg.EVT_LATCH p ≠ Reg.REL_LAST_FAULT := by unfold Reg.EVT_LATCH Reg.REL_LAST_FAULT; omega
  have hbeat : Reg.EVT_LATCH p ≠ Reg.REL_LAST_BEAT := by unfold Reg.EVT_LATCH Reg.REL_LAST_BEAT; omega
  exact relCheck_keeps _ (event_keeps _ _ _ _ _ (by decide) (((h.wr _ hlast).wr _ hbeat).wr _ hcls))

/-- REL_LAST_FAULT is read off one register. -/
theorem LastFault.of_rd {s u : State} {cls cluster index detect : Nat} {inj : Bool} (h : s.LastFault cls cluster index detect inj)
    (he : u.rd Reg.REL_LAST_FAULT = s.rd Reg.REL_LAST_FAULT) : u.LastFault cls cluster index detect inj := by
  unfold LastFault flag get at *
  rw [he]
  exact h

/-! ## Core faults (R485, R486) -/

/-- No job aborts where a core holds none. -/
theorem haltCore_idle {s : State} {k i : Nat} {c : Core} (hc : s.core k i = some c) (hrun : c.run = none) (hslot : c.slot = none)
    (hjobs : ∀ j ∈ s.disp.jobs, j.server ≠ some (.core k i)) :
    s.haltCore k i = s.modCore k i fun c => { c with checking := some s.clk.now } := by
  have hlate : (s.disp.jobs.filter fun j =>
      j.state = .committing && j.kind = .beat && j.server = some (.core k i) && s.clk.now ≤ j.startAt + usTicks 1) = [] := by
    refine List.filter_eq_nil_iff.mpr fun j hj => ?_
    simp [hjobs j hj]
  unfold haltCore
  rw [hc]
  dsimp only
  rw [hlate, hrun, hslot]
  rfl

/-- A core after a fault charged to it (R486). -/
def chargedCore (n : BeatNo) (c : Core) : Core :=
  { c with history := recentFaults n c.history ++ [n], total := sat16 (c.total + 1), lastFault := n
           retire := c.retire || 3 ≤ (recentFaults n c.history ++ [n]).length }

/-- The charge itself, before it is recorded. -/
def charged (s : State) (k i : Nat) : State :=
  (s.modCore k i (chargedCore s.clk.n)).modCluster k fun c =>
    { c with charged := if c.charged.contains i then c.charged else i :: c.charged }

theorem cluster_modCluster {s : State} {k : Nat} {cl : Cluster} (f : Cluster → Cluster) (h : s.cluster k = some cl) :
    (s.modCluster k f).cluster k = some (f cl) := by
  unfold modCluster cluster at *
  simp [h]

theorem cluster_modCore {s : State} {k : Nat} {cl : Cluster} (i : Nat) (f : Core → Core) (h : s.cluster k = some cl) :
    (s.modCore k i f).cluster k = some { cl with cores := cl.cores.modify i f } := cluster_modCluster _ h

theorem charged_core {s : State} {k i : Nat} {c : Core} (hc : s.core k i = some c) :
    (s.charged k i).core k i = some (chargedCore s.clk.n c) := by
  obtain ⟨cl, hcl, -⟩ := Option.bind_eq_some_iff.mp hc
  have hmod := core_modCore (chargedCore s.clk.n) hc
  rw [core, cluster_modCore i _ hcl] at hmod
  rw [charged, core, cluster_modCluster _ (cluster_modCore i _ hcl)]
  exact hmod

/-- A charge that leaves the cluster with fewer than three charged cores is recorded, and no more. -/
theorem chargeCore_eq {s : State} {k i : Nat} {cl : Cluster} (d : Nat) (hcl : s.cluster k = some cl)
    (hfew : (if cl.charged.contains i then cl.charged else i :: cl.charged).length < 3) :
    s.chargeCore k i d = (s.charged k i).recordFault 0 k i d false := by
  have heq : s.chargeCore k i d = match ((s.charged k i).recordFault 0 k i d false).cluster k with
      | some c => if 3 ≤ c.charged.length then ((s.charged k i).recordFault 0 k i d false).loseCluster k d false
          else (s.charged k i).recordFault 0 k i d false
      | none => (s.charged k i).recordFault 0 k i d false := rfl
  have hcluster : ((s.charged k i).recordFault 0 k i d false).cluster k
      = some { cl with cores := cl.cores.modify i (chargedCore s.clk.n)
                       charged := if cl.charged.contains i then cl.charged else i :: cl.charged } := by
    rw [cluster, (recordFault_only (s.charged k i) 0 k i d false).clusters]
    exact cluster_modCluster _ (cluster_modCore i _ hcl)
  generalize (s.charged k i).recordFault 0 k i d false = v at heq hcluster ⊢
  rw [heq, hcluster]
  exact if_neg (by simpa using hfew)

/-- An idle core that begins its self-check (R485). -/
def selfChecking (s : State) (k i : Nat) : State := s.modCore k i fun c => { c with checking := some s.clk.now }

/-- A fault on an idle core is a charge that is recorded. -/
theorem coreFault_eq {s : State} {k i : Nat} {cl : Cluster} {c : Core} (d : Nat) (hcl : s.cluster k = some cl) (hc : s.core k i = some c)
    (hrun : c.run = none) (hslot : c.slot = none) (hjobs : ∀ j ∈ s.disp.jobs, j.server ≠ some (.core k i))
    (hfew : (if cl.charged.contains i then cl.charged else i :: cl.charged).length < 3) :
    s.coreFault k i d none = ((s.selfChecking k i).charged k i).recordFault 0 k i d false := by
  rw [coreFault, haltCore_idle hc hrun hslot hjobs]
  exact chargeCore_eq d (cluster_modCore i (fun c => { c with checking := some s.clk.now }) hcl) hfew

/-- The registers of a fault of a class. -/
def faultRegs (cls : Nat) : List Nat := [Reg.REL_LAST_FAULT, Reg.REL_LAST_BEAT, Reg.REL_FAULT_CNT cls]

/-- A fault that is recorded, with what changed before it. -/
theorem recordFault_frame (s : State) (cls cluster index detect : Nat) (inj : Bool) :
    OnlyEvents { s with spares := (s.recordFault cls cluster index detect inj).spares } (s.recordFault cls cluster index detect inj)
      (faultRegs cls) :=
  OnlyEvents.same.recordFault _ _ _ _ _ (by simp [faultRegs])

/-! ## Units (R495) -/

theorem getElem?_poolUnits_setUnits {s : State} {lane : Bool} {i : Nat} {x : PoolUnit} (f : PoolUnit → PoolUnit)
    (h : (s.poolUnits lane)[i]? = some x) : ((s.setUnits lane ((s.poolUnits lane).modify i f)).poolUnits lane)[i]? = some (f x) := by
  cases lane <;> simp_all [poolUnits, setUnits]

theorem poolUnits_congr {s u : State} (h : u.disp = s.disp) (lane : Bool) : u.poolUnits lane = s.poolUnits lane := by
  unfold poolUnits
  rw [h]

/-- A unit with a new fault history: it leaves service at the third fault (R495). -/
def withHistory (h : List BeatNo) (x : PoolUnit) : PoolUnit := { x with history := h, alive := !decide (3 ≤ h.length) }

/-- A fault of an idle unit in service, before it is recorded. -/
def unitFaulted (s : State) (lane : Bool) (i : Nat) (h : List BeatNo) : State :=
  if 3 ≤ h.length then
    ((s.setUnits lane ((s.poolUnits lane).modify i (withHistory h))).addWork (if lane then .lane i else .unit i)).event Pg.REL Ev.REL.CORE_RETIRED
  else s.setUnits lane ((s.poolUnits lane).modify i (withHistory h))

theorem unitFaulted_spec {s : State} {lane : Bool} {i : Nat} {x : PoolUnit} (h : List BeatNo) (hx : (s.poolUnits lane)[i]? = some x) :
    ((s.unitFaulted lane i h).poolUnits lane)[i]? = some (withHistory h x) ∧ (s.unitFaulted lane i h).clk = s.clk
      ∧ (s.unitFaulted lane i h).pending = s.pending := by
  have hset := getElem?_poolUnits_setUnits (withHistory h) hx
  have hkeep : ∀ us, (s.setUnits lane us).clk = s.clk ∧ (s.setUnits lane us).pending = s.pending := fun us => by
    cases lane <;> exact ⟨rfl, rfl⟩
  obtain ⟨hclk, hpend⟩ := hkeep ((s.poolUnits lane).modify i (withHistory h))
  unfold unitFaulted
  generalize s.setUnits lane ((s.poolUnits lane).modify i (withHistory h)) = v at hset hclk hpend
  split
  · have hev := event_onlyEvents (v.addWork (if lane then .lane i else .unit i)) Pg.REL Ev.REL.CORE_RETIRED
    exact ⟨(congrArg (·[i]?) (poolUnits_congr hev.disp lane)).trans hset, hev.clk.trans hclk, hev.pending.trans hpend⟩
  · exact ⟨hset, hclk, hpend⟩

theorem unitFault_eq {s : State} {lane : Bool} {i : Nat} {x : PoolUnit} (d : Nat) (hx : (s.poolUnits lane)[i]? = some x)
    (halive : x.alive = true) (hrun : x.run = none) :
    s.unitFault lane i d
      = (s.unitFaulted lane i (recentFaults s.clk.n x.history ++ [s.clk.n])).recordFault (if lane then 7 else 6) 0 i d false := by
  unfold unitFault
  rw [hx]
  simp only [halive, hrun]
  rfl

end State

/-- Settles O14: the charge and its record are `chargeCore_eq`, a unit's fault is `unitFault_eq`. -/
theorem faultsAreCharged : Obligations.FaultsAreCharged := by
  unfold Obligations.FaultsAreCharged
  refine ⟨fun s t k i d cl c hup hcl hc hrun hslot hjobs hfew => ?_, fun s t k i hup => ?_,
    fun s t i d lane x hup hx halive hrun => ?_⟩
  · have heq := State.coreFault_eq (s := s.atTick t) d hcl hc hrun hslot hjobs hfew
    have hcharged := State.charged_core (State.core_modCore (s := s.atTick t) (fun c => { c with checking := some (s.clk.advance t).now }) hc)
    have hbase : ∀ x, ({ ((s.atTick t).selfChecking k i).charged k i with spares := x } : State)
        = { s.atTick t with clusters := (((s.atTick t).selfChecking k i).charged k i).clusters, spares := x } := fun _ => rfl
    have hn : (((s.atTick t).selfChecking k i).charged k i).clk.n = s.clk.n := rfl
    change (((s.atTick t).selfChecking k i).charged k i).core k i = _ at hcharged
    generalize ((s.atTick t).selfChecking k i).charged k i = v at heq hbase hcharged hn
    have hframe := State.recordFault_frame v 0 k i d false
    have hlast := State.recordFault_lastFault v 0 k i d false (by decide) (by decide)
    have hbeat := State.recordFault_lastBeat v 0 k i d false (by decide)
    have hlatch := State.recordFault_latched v 0 k i d false
    generalize v.recordFault 0 k i d false = u at heq hframe hlast hbeat hlatch
    have hclusters := hframe.clusters
    rw [hbase, ← hclusters] at hframe
    refine ⟨u, State.act_of_eq (fun s => s.coreFault k i d none) hup heq hframe.clk hframe.pending, ?_, hlast, hbeat.trans hn, hlatch, hframe⟩
    rw [State.core_congr hclusters]
    exact hcharged
  · exact State.act_of_eq (fun s => s.selfChecked k i) hup rfl rfl rfl
  · have heq := State.unitFault_eq (s := s.atTick t) d hx halive hrun
    have hspec := State.unitFaulted_spec (s := s.atTick t) (State.recentFaults s.clk.n x.history ++ [s.clk.n]) hx
    change (s.atTick t).unitFault lane i d = ((s.atTick t).unitFaulted lane i (State.recentFaults s.clk.n x.history ++ [s.clk.n])).recordFault
      (if lane then 7 else 6) 0 i d false at heq
    generalize (s.atTick t).unitFaulted lane i (State.recentFaults s.clk.n x.history ++ [s.clk.n]) = v at heq hspec
    obtain ⟨hunit, hclk, hpend⟩ := hspec
    have hframe := State.recordFault_frame v (if lane then 7 else 6) 0 i d false
    have hlast := State.recordFault_lastFault v (if lane then 7 else 6) 0 i d false (by cases lane <;> decide) (by cases lane <;> decide)
    have hbeat := State.recordFault_lastBeat v (if lane then 7 else 6) 0 i d false (by cases lane <;> decide)
    generalize v.recordFault (if lane then 7 else 6) 0 i d false = u at heq hframe hlast hbeat
    refine ⟨u, State.act_of_eq (fun s => s.unitFault lane i d) hup heq (hframe.clk.trans hclk) (hframe.pending.trans hpend), ?_, hlast, ?_⟩
    · have hunits : u.poolUnits lane = v.poolUnits lane := State.poolUnits_congr hframe.disp lane
      rw [hunits, hunit, State.withHistory, ← decide_not]
      simp only [Nat.not_le]
    · rw [hbeat, hclk]
      rfl

namespace State
/-! ## Clusters and PLLs (R492, R493, R496, R518) -/

/-- The loss of a cluster that is not LOST is recorded last, but for its latch (R492). -/
theorem loseCluster_eq {s : State} {k : Nat} {c : Cluster} (d : Nat) (inj : Bool) (hc : s.cluster k = some c) (hstate : c.cstate ≠ .lost) :
    ∃ v : State, s.loseCluster k d inj = (v.recordFault 5 k 0 d inj).event Pg.REL Ev.REL.CLUSTER_LOST := by
  unfold loseCluster
  rw [hc]
  dsimp only
  rw [if_neg hstate]
  exact ⟨_, rfl⟩

theorem loseCluster_recorded {s : State} {k : Nat} {c : Cluster} (d : Nat) (inj : Bool) (hc : s.cluster k = some c)
    (hstate : c.cstate ≠ .lost) : (s.loseCluster k d inj).LastFault 5 k 0 d inj ∧ (s.loseCluster k d inj).Latched Pg.REL Ev.REL.CLUSTER_LOST := by
  obtain ⟨v, hv⟩ := loseCluster_eq d inj hc hstate
  rw [hv]
  exact ⟨(recordFault_lastFault v 5 k 0 d inj (by decide) (by decide)).of_rd (rd_event _ _ _ (by decide)), event_latched _ _ _ (by decide)⟩

theorem wbDrained_lost {s : State} {k : Nat} {c : Cluster} (hc : s.cluster k = some c) (hstate : c.cstate = .lost) :
    s.wbDrained k = s.modCluster k fun c => { c with wb := [] } := by
  unfold wbDrained
  rw [hc]
  exact if_pos hstate

/-- The core clock's move to the standby PLL (R496). -/
theorem pllSwitch_spec {s : State} (h : s.spares.onStandby = false) :
    s.pllSwitch.spares.onStandby = true ∧ s.pllSwitch.LastFault 12 0 0 10 false ∧ s.pllSwitch.Latched Pg.REL Ev.REL.PLL_SWITCH
      ∧ OnlyEvents { s with spares := s.pllSwitch.spares } s.pllSwitch (faultRegs 12) := by
  have heq : s.pllSwitch
      = ({ s with spares := { s.spares with onStandby := true } }.event Pg.REL Ev.REL.PLL_SWITCH).recordFault 12 0 0 10 false := by
    unfold pllSwitch
    rw [h]
    rfl
  have hev := event_onlyEvents { s with spares := { s.spares with onStandby := true } } Pg.REL Ev.REL.PLL_SWITCH
  have hlatch := event_latched { s with spares := { s.spares with onStandby := true } } Pg.REL Ev.REL.PLL_SWITCH (by decide)
  rw [heq]
  generalize ({ s with spares := { s.spares with onStandby := true } } : State).event Pg.REL Ev.REL.PLL_SWITCH = v at hev hlatch
  have hlast := recordFault_lastFault v 12 0 0 10 false (by decide) (by decide)
  have hkeep := recordFault_keeps 12 0 0 10 false (by decide) hlatch
  have honly := recordFault_only v 12 0 0 10 false
  have hframe := OnlyEvents.recordFault (hev.weaken (r := faultRegs 12)) 12 0 0 10 false (by simp [faultRegs])
  generalize v.recordFault 12 0 0 10 false = u at hlast hkeep honly hframe
  refine ⟨?_, hlast, hkeep, hframe⟩
  rw [honly.spares]
  exact congrArg Spares.onStandby hev.spares

/-- Bit `k` of a field of 6 bits after it is set. -/
theorem testBit_setBit (x : Nat) {k : Nat} (h : k < 6) : ((x ||| 2 ^ k) % 2 ^ 6).testBit k = true := by
  rw [Nat.testBit_mod_two_pow]
  simp [h, Nat.testBit_two_pow_self]

/-- Bit `k` of a field of 6 bits after it is cleared. -/
theorem testBit_clearBit (x : Nat) {k : Nat} (h : k < 6) : ((x &&& (63 - 2 ^ k)) % 2 ^ 6).testBit k = false := by
  have hmask : ∀ k, k < 6 → (63 - 2 ^ k).testBit k = false := by decide
  rw [Nat.testBit_mod_two_pow]
  simp [hmask k h]

/-- SENSOR_PLL after the loss of a lock, and the spare PLL's part in it. -/
def unlocked (s : State) (pll : Nat) : State :=
  let r := Reg.SENSOR_PLL
  let s := s.put r Fd.SENSOR_PLL.FAULT (s.get r Fd.SENSOR_PLL.FAULT ||| 2 ^ pll)
  let s := s.put r Fd.SENSOR_PLL.LOCK (s.get r Fd.SENSOR_PLL.LOCK &&& (63 - 2 ^ pll))
  if pll = 1 then { s with spares := { s.spares with standbyLocked := false } } else s

theorem unlocked_spec (s : State) {pll : Nat} (h : pll < 6) :
    ((s.unlocked pll).get Reg.SENSOR_PLL Fd.SENSOR_PLL.FAULT).testBit pll = true
      ∧ ((s.unlocked pll).get Reg.SENSOR_PLL Fd.SENSOR_PLL.LOCK).testBit pll = false
      ∧ (pll = 1 → (s.unlocked pll).spares.standbyLocked = false)
      ∧ OnlyEvents { s with spares := (s.unlocked pll).spares } (s.unlocked pll) [Reg.SENSOR_PLL] := by
  have hget : ∀ f, (s.unlocked pll).get Reg.SENSOR_PLL f
      = ((s.put Reg.SENSOR_PLL Fd.SENSOR_PLL.FAULT (s.get Reg.SENSOR_PLL Fd.SENSOR_PLL.FAULT ||| 2 ^ pll)).put Reg.SENSOR_PLL
          Fd.SENSOR_PLL.LOCK ((s.put Reg.SENSOR_PLL Fd.SENSOR_PLL.FAULT (s.get Reg.SENSOR_PLL Fd.SENSOR_PLL.FAULT ||| 2 ^ pll)).get
            Reg.SENSOR_PLL Fd.SENSOR_PLL.LOCK &&& (63 - 2 ^ pll))).get Reg.SENSOR_PLL f := fun f => by
    unfold unlocked
    dsimp only
    split <;> rfl
  refine ⟨?_, ?_, fun hone => ?_, ?_⟩
  · rw [hget, get_put_other _ _ _ _ _ (by decide) (by decide) (by decide) (by decide), get_put_same _ _ _ _ (by decide) (by decide)]
    exact testBit_setBit _ h
  · rw [hget, get_put_same _ _ _ _ (by decide) (by decide)]
    exact testBit_clearBit _ h
  · subst hone
    rfl
  · by_cases hone : pll = 1
    · subst hone
      exact ((OnlyEvents.same.put _ _ (by simp)).put _ _ (by simp)).under fun z => { z with spares := { s.spares with standbyLocked := false } }
    · unfold unlocked
      rw [if_neg hone]
      exact (OnlyEvents.same.put _ _ (by simp)).put _ _ (by simp)

theorem pllUnlock_eq (s : State) {pll : Nat} (h : pll < 6) :
    s.pllUnlock pll = ((s.unlocked pll).event Pg.SENSOR Ev.SENSOR.PLL_UNLOCK).relCheck := by
  unfold pllUnlock
  rw [if_neg (by omega)]
  rfl

theorem pllUnlock_spec (s : State) {pll : Nat} (h : pll < 6) :
    ((s.pllUnlock pll).get Reg.SENSOR_PLL Fd.SENSOR_PLL.FAULT).testBit pll = true
      ∧ ((s.pllUnlock pll).get Reg.SENSOR_PLL Fd.SENSOR_PLL.LOCK).testBit pll = false
      ∧ (pll = 1 → (s.pllUnlock pll).spares.standbyLocked = false)
      ∧ (s.pllUnlock pll).Latched Pg.SENSOR Ev.SENSOR.PLL_UNLOCK
      ∧ OnlyEvents { s with spares := (s.pllUnlock pll).spares } (s.pllUnlock pll) [Reg.SENSOR_PLL] := by
  obtain ⟨hfault, hlock, hspare, hframe⟩ := unlocked_spec s h
  rw [pllUnlock_eq s h]
  generalize s.unlocked pll = v at hfault hlock hspare hframe
  have hev := event_onlyEvents v Pg.SENSOR Ev.SENSOR.PLL_UNLOCK
  have hlatch := event_latched v Pg.SENSOR Ev.SENSOR.PLL_UNLOCK (by decide)
  have hboth := hframe.event Pg.SENSOR Ev.SENSOR.PLL_UNLOCK
  generalize v.event Pg.SENSOR Ev.SENSOR.PLL_UNLOCK = w at hev hlatch hboth
  have hkeep := relCheck_keeps w hlatch
  have honly := relCheck_only w
  have hall := hboth.relCheck
  generalize w.relCheck = u at hkeep honly hall
  have hrd : u.rd Reg.SENSOR_PLL = v.rd Reg.SENSOR_PLL := (honly.2 _ (by simp) (by decide)).trans (hev.2 _ (by simp) (by decide))
  refine ⟨?_, ?_, fun hone => ?_, hkeep, hall⟩
  · rw [get, hrd]
    exact hfault
  · rw [get, hrd]
    exact hlock
  · rw [honly.spares]
    exact (congrArg Spares.standbyLocked hev.spares).trans (hspare hone)

/-! ## Repairs (R489) -/

theorem sameBank_bankUse (s : State) (l : SramLoc) : sameBank (s.bankUse l) l = true := by
  unfold bankUse
  cases h : s.spares.banks.find? fun b => sameBank b l with
  | none => simp [sameBank]
  | some b => exact List.find?_some (p := fun b => sameBank b l) h

/-- A bank's use after a spare row or column is spent. -/
def spend (col : Bool) (b : BankUse) : BankUse := if col then { b with cols := b.cols + 1 } else { b with rows := b.rows + 1 }

theorem sameBank_spend (col : Bool) (b : BankUse) (l : SramLoc) : sameBank (spend col b) l = sameBank b l := by cases col <;> rfl

theorem bankUse_congr {s u : State} (h : u.spares.banks = s.spares.banks) (l : SramLoc) : u.bankUse l = s.bankUse l := by
  unfold bankUse
  rw [h]

/-- Spares after a repair. -/
def repairedSpares (s : State) (l : SramLoc) (col : Bool) : Spares :=
  { (s.clearCorrections { loc := l, column := col }).spares with
    banks := spend col (s.bankUse l) :: s.spares.banks.filter fun y => !sameBank y l }

theorem bankUse_repaired {s u : State} {l : SramLoc} {col : Bool} (h : u.spares.banks = (s.repairedSpares l col).banks) :
    u.bankUse l = spend col (s.bankUse l) := by
  have hsame : sameBank (spend col (s.bankUse l)) l = true := (sameBank_spend _ _ _).trans (sameBank_bankUse s l)
  have hfind : u.spares.banks.find? (fun b => sameBank b l) = some (spend col (s.bankUse l)) := by
    rw [h]
    exact List.find?_cons_of_pos (p := fun b => sameBank b l) hsame
  rw [bankUse, hfind]
  rfl

/-- A repair that is due, on a free core in a bank with a spare left. -/
theorem sramRepair_eq {s : State} {l : SramLoc} {col : Bool}
    (hdue : (s.spares.due.any fun y => sameLine { loc := l, column := col } y) = true) (hfree : s.repairFree l = true)
    (hspare : (if col then (s.bankUse l).cols else (s.bankUse l).rows) < bankSpares) :
    ∃ w, s.sramRepair { loc := l, column := col }
      = (({ s with spares := s.repairedSpares l col }.addWork w).event Pg.REL Ev.REL.SRAM_REPAIR).relCheck := by
  have hspare' : (if col then ((s.clearCorrections { loc := l, column := col }).bankUse l).cols
      else ((s.clearCorrections { loc := l, column := col }).bankUse l).rows) < bankSpares := hspare
  unfold sramRepair
  rw [hdue, hfree]
  refine ⟨.repair (repairRegion l) l.bank (if col then 65536 + l.bitPos else l.row), ?_⟩
  rw [Bool.and_self, if_pos rfl]
  dsimp only
  rw [if_pos hspare']
  rfl

theorem sramRepair_spec {s : State} {l : SramLoc} {col : Bool}
    (hdue : (s.spares.due.any fun y => sameLine { loc := l, column := col } y) = true) (hfree : s.repairFree l = true)
    (hspare : (if col then (s.bankUse l).cols else (s.bankUse l).rows) < bankSpares) :
    ∃ u, s.sramRepair { loc := l, column := col } = u ∧ u.bankUse l = spend col (s.bankUse l)
      ∧ u.spares.due = s.spares.due.filter (fun y => !sameLine { loc := l, column := col } y) ∧ u.Latched Pg.REL Ev.REL.SRAM_REPAIR
      ∧ OnlyEvents { s with spares := u.spares, mgmt := u.mgmt } u [] := by
  obtain ⟨w, hw⟩ := sramRepair_eq hdue hfree hspare
  have hev := event_onlyEvents ({ s with spares := s.repairedSpares l col }.addWork w) Pg.REL Ev.REL.SRAM_REPAIR
  have hlatch := event_latched ({ s with spares := s.repairedSpares l col }.addWork w) Pg.REL Ev.REL.SRAM_REPAIR (by decide)
  have hbase : ∀ x m, ({ ({ s with spares := s.repairedSpares l col }.addWork w) with spares := x, mgmt := m } : State)
      = { s with spares := x, mgmt := m } := fun _ _ => rfl
  have hspares : ({ s with spares := s.repairedSpares l col }.addWork w).spares = s.repairedSpares l col := rfl
  generalize ({ s with spares := s.repairedSpares l col } : State).addWork w = v at hw hev hlatch hbase hspares
  generalize v.event Pg.REL Ev.REL.SRAM_REPAIR = z at hw hev hlatch
  have hall := hev.relCheck
  have hkeep := relCheck_keeps z hlatch
  have honly := relCheck_only z
  generalize z.relCheck = u at hw hall hkeep honly
  have hz : z.spares = s.repairedSpares l col := hev.spares.trans hspares
  refine ⟨u, hw, bankUse_repaired ?_, ?_, hkeep, ?_⟩
  · rw [honly.spares]
    have hbanks := congrArg Spares.banks hz
    exact hbanks
  · rw [honly.spares]
    have hlines := congrArg Spares.due hz
    exact hlines
  · rw [← hbase, hall.mgmt]
    exact hall

end State

/-- Settles O15: a lost cluster is `loseCluster_recorded`, the PLLs are `pllSwitch_spec` and `pllUnlock_spec`, a repair is
`sramRepair_spec`. -/
theorem clusterPllAndRepair : Obligations.ClusterPllAndRepair := by
  unfold Obligations.ClusterPllAndRepair
  refine ⟨fun s t k d c hup hc => ⟨fun hstate => ?_, fun hstate => ?_⟩, fun s t hup hoff => ?_, fun s t pll hup hpll => ?_,
    fun s t l col hup hdue hfree hspare => ?_⟩
  · obtain ⟨hlast, hlatch⟩ := State.loseCluster_recorded (s := s.atTick t) d false hc hstate
    exact ⟨_, State.act_up s t (fun s => s.loseCluster k d false) hup, hlast, hlatch⟩
  · exact State.act_of_eq (fun s => s.wbDrained k) hup (State.wbDrained_lost (s := s.atTick t) hc hstate) rfl rfl
  · obtain ⟨hon, hlast, hlatch, hframe⟩ := State.pllSwitch_spec (s := s.atTick t) hoff
    generalize hu : (s.atTick t).pllSwitch = u at hon hlast hlatch hframe
    exact ⟨u, State.act_of_eq State.pllSwitch hup hu hframe.clk hframe.pending, hon, hlast, hlatch, hframe⟩
  · obtain ⟨hfault, hlock, hspare, hlatch, hframe⟩ := State.pllUnlock_spec (s.atTick t) hpll
    generalize hu : (s.atTick t).pllUnlock pll = u at hfault hlock hspare hlatch hframe
    exact ⟨u, State.act_of_eq (fun s => s.pllUnlock pll) hup hu hframe.clk hframe.pending, hfault, hlock, hspare, hlatch, hframe⟩
  · obtain ⟨u, hu, hbank, hline, hlatch, hframe⟩ := State.sramRepair_spec (s := s.atTick t) hdue hfree hspare
    refine ⟨u, State.act_of_eq (fun s => s.sramRepair { loc := l, column := col }) hup hu hframe.clk hframe.pending, ?_, ?_, hline, hlatch,
      hframe⟩
    · rw [hbank]
      cases col <;> rfl
    · rw [hbank]
      cases col <;> rfl

namespace State
/-! ## Injected faults (R498) -/

/-- A served write whose effect is `u`. -/
theorem serves_of_eq {s : State} {p : Port} {off t : Nat} (f : State → State) {u : State} (h : s.Serves p) (hu : f (s.atTick t) = u)
    (hc : u.clk = s.clk.advance t) (hp : u.pending = s.pending) : (s.act t fun s => s.hostWrite p off f) = .next u := by
  subst hu
  exact act_serves_eq s p off t f h hc hp

/-- A served write whose effect is `u`, but for the clock and the queue. -/
theorem serves_with {s : State} {p : Port} {off t : Nat} (f : State → State) {u : State} (h : s.Serves p) (hu : f (s.atTick t) = u) :
    (s.act t fun s => s.hostWrite p off f) = .next { u with clk := s.clk.advance t, pending := s.pending } := by
  subst hu
  exact act_serves s p off t f h

section
variable {s : State} {v : Word} {k i : Nat} (hk : bitsOf v 23 20 = k) (hi : bitsOf v 19 16 = i) (hi9 : i ≤ 9)
include hk hi hi9

theorem inject_core (hserves : s.coreServes k i = true) :
    s.inject (withBits v 31 28 1) = (s.status Pg.REL .ok).modCore k i fun c => { c with inject := true } := by
  unfold inject
  simp (disch := decide) [bitsOf_withBits, bitsOf_withBits_ne, hk, hi, hserves]
  omega

theorem inject_corr : s.inject (withBits v 31 28 2) = (s.status Pg.REL .ok).inc (Reg.CLU_ECC_CORR_CNT k) Fd.CLU_ECC_CORR_CNT.COUNT := by
  unfold inject
  simp (disch := decide) [bitsOf_withBits, bitsOf_withBits_ne, hk, hi]
  omega

theorem inject_uncorr : s.inject (withBits v 31 28 3) = ((s.status Pg.REL .ok).haltCore k i).recordFault 1 k i 2 true := by
  unfold inject
  simp (disch := decide) [bitsOf_withBits, bitsOf_withBits_ne, hk, hi]
  omega

omit hi9 in
theorem inject_loss (hmaint : s.modes.maint = true) : s.inject (withBits v 31 28 4) = (s.status Pg.REL .ok).loseCluster k 5 true := by
  unfold inject
  simp (disch := decide) [bitsOf_withBits, bitsOf_withBits_ne, hk, hi, hmaint]

omit hi9 in
theorem inject_restore {c : Cluster} (hc : s.cluster k = some c) (hlost : c.cstate = .lost) (hinj : c.lostInjected = true) :
    s.inject (withBits v 31 28 5) = (s.status Pg.REL .ok).modCluster k fun c => { c with restoring := true } := by
  unfold inject
  simp (disch := decide) [bitsOf_withBits, bitsOf_withBits_ne, hk, hi, hc, hlost, hinj]

end
end State

/-- Settles O16: each clause is the branch of REL_INJECT that its CODE names. -/
theorem injectedFaults : Obligations.InjectedFaults := by
  unfold Obligations.InjectedFaults
  intro s t k i p v hs hk hi hi9
  have hinj : ∀ code u, (s.atTick t).inject (withBits v 31 28 code) = u →
      (s.act t fun s => s.injectCmd p code v) = .next { u with clk := s.clk.advance t, pending := s.pending } := fun code _ hu =>
    State.serves_with (fun s => s.inject (withBits v 31 28 code)) hs hu
  refine ⟨fun hserves => ?_, ?_, ?_, fun c hmaint hc hstate => ?_, fun c hc hlost hl => ?_⟩
  · exact hinj 1 _ (State.inject_core (s := s.atTick t) hk hi hi9 hserves)
  · exact hinj 2 _ (State.inject_corr (s := s.atTick t) hk hi hi9)
  · exact ⟨_, hinj 3 _ (State.inject_uncorr (s := s.atTick t) hk hi hi9), State.recordFault_lastFault _ 1 k i 2 true (by decide) (by decide)⟩
  · have hlose := State.loseCluster_recorded (s := (s.atTick t).status Pg.REL .ok) 5 true hc hstate
    exact ⟨_, hinj 4 _ (State.inject_loss (s := s.atTick t) hk hi hmaint), hlose⟩
  · exact hinj 5 _ (State.inject_restore (s := s.atTick t) hk hi hc hlost hl)

end Sys2Proof.Machine
end

section
/-! PROOFS. The trace commands, transaction slots, staging, transactions that fail, and the standing list (R79 to R91, R109, R110,
R121, R266 to R269, R539). -/

namespace Sys2Proof.Machine

namespace State

/-! ## The trace (R266 to R269) -/

/-- The word that a write of TRACE_CTRL stores. -/
def traceCtrlWord (v : Word) : Word := withBits (withBits (withBits 0 28 16 (bitsOf v 28 16)) 3 3 (bitsOf v 3 3)) 2 0 (bitsOf v 2 0)

theorem bitsOf_lt (w : Word) (hi lo : Nat) : bitsOf w hi lo < 2 ^ (hi + 1 - lo) := Nat.mod_lt _ (Nat.two_pow_pos _)

theorem traceCtrlWord_mode (v : Word) : bitsOf (traceCtrlWord v) 2 0 = bitsOf v 2 0 := by
  rw [traceCtrlWord, bitsOf_withBits _ _ _ _ (by decide) (by decide)]
  exact Nat.mod_eq_of_lt (bitsOf_lt v 2 0)

/-- The mode is stored, and LAST_STATUS is OK. -/
def traceModed (s : State) (v : Word) : State := (s.wr Reg.TRACE_CTRL (traceCtrlWord v)).status Pg.TRACE .ok

/-- An accepted write of TRACE_CTRL (R267). -/
theorem traceCtrl_eq {s : State} {v : Word} (hmode : bitsOf v 2 0 ≤ 4) (hbring : s.modes.bringup = true → bitsOf v 2 0 ≤ 2) :
    s.traceCtrl v = if s.traceMode = 0 && bitsOf v 2 0 != 0 then
        { s.traceModed v with trace := { s.trace with stopped := false, count := 0, post := none, queued := 0, drainAt := s.clk.now,
                                                       lostRun := 0, recs := [] } }.wr Reg.TRACE_OLDEST ((s.traceModed v).rd Reg.TRACE_WR_IDX)
      else s.traceModed v := by
  have hserve : ¬ (s.modes.bringup && (decide (bitsOf v 2 0 = 3) || decide (bitsOf v 2 0 = 4))) = true := by
    cases hb : s.modes.bringup with
    | false => simp
    | true =>
      have := hbring hb
      simp only [Bool.true_and, Bool.or_eq_true, decide_eq_true_eq]
      omega
  unfold traceCtrl
  dsimp only
  rw [if_neg hserve, if_neg (by omega)]
  rfl

theorem traceModed_spec (s : State) (v : Word) :
    (s.traceModed v).traceMode = bitsOf v 2 0 ∧ (s.traceModed v).Reports Pg.TRACE .ok
      ∧ OnlyEvents s (s.traceModed v) [Reg.TRACE_CTRL, Reg.PAGE_STATUS Pg.TRACE, Reg.TRACE_OLDEST] := by
  refine ⟨?_, reports_status _ _ _, (OnlyEvents.same.wr _ (by simp)).status _ (by simp)⟩
  rw [traceMode, traceModed, get_status_ne _ _ _ (by decide), get_wr_same]
  exact traceCtrlWord_mode v

theorem traceCtrl_spec {s : State} {v : Word} (hmode : bitsOf v 2 0 ≤ 4) (hbring : s.modes.bringup = true → bitsOf v 2 0 ≤ 2) :
    (s.traceCtrl v).traceMode = bitsOf v 2 0 ∧ (s.traceCtrl v).Reports Pg.TRACE .ok
      ∧ (s.traceMode = 0 → bitsOf v 2 0 ≠ 0 →
        (s.traceCtrl v).trace.recs = [] ∧ (s.traceCtrl v).trace.stopped = false
          ∧ (s.traceCtrl v).rd Reg.TRACE_OLDEST = s.rd Reg.TRACE_WR_IDX)
      ∧ OnlyEvents { s with trace := (s.traceCtrl v).trace } (s.traceCtrl v)
          [Reg.TRACE_CTRL, Reg.PAGE_STATUS Pg.TRACE, Reg.TRACE_OLDEST] := by
  obtain ⟨hm, hst, hframe⟩ := traceModed_spec s v
  have hidx : (s.traceModed v).rd Reg.TRACE_WR_IDX = s.rd Reg.TRACE_WR_IDX := hframe.2 _ (by decide) (by decide)
  rw [traceCtrl_eq hmode hbring]
  generalize s.traceModed v = u at hm hst hframe hidx
  by_cases hnew : s.traceMode = 0 ∧ bitsOf v 2 0 ≠ 0
  · rw [if_pos (by simpa using hnew)]
    refine ⟨?_, ?_, fun _ _ => ⟨rfl, rfl, ?_⟩, ?_⟩
    · rw [traceMode, get_wr_ne _ _ _ (by decide)]
      exact hm
    · rw [Reports, get_wr_ne _ _ _ (by decide)]
      exact hst
    · rw [rd_wr_same, hidx]
    · exact (hframe.under fun z => { z with trace := { s.trace with
        stopped := false, count := 0, post := none, queued := 0, drainAt := s.clk.now, lostRun := 0, recs := [] } }).wr _ (by simp)
  · rw [if_neg (by simpa using hnew), hframe.trace]
    exact ⟨hm, hst, fun h0 h1 => absurd ⟨h0, h1⟩ hnew, hframe⟩

/-- A record enters a store while capture runs in mode 1 with no loss pending (R267). -/
theorem traceWrite_mode1 {s : State} (ws : List Word) (hon : s.traceOn = true) (hmode : s.traceMode = 1) (hloss : s.trace.lostRun = 0) :
    s.traceWrite ws = s.traceStore ws := by
  have hl : s.traceLoss = s := by simp [traceLoss, hloss]
  simp [traceWrite, traceTry, hon, hmode, hl]

/-- A record that enters the store comes first, under TRACE_WR_IDX, which goes up by one. -/
theorem traceStore_spec {s : State} (ws : List Word) :
    (s.traceStore ws).trace.recs.head? = some { idx := s.rd Reg.TRACE_WR_IDX, words := ws }
      ∧ (s.traceStore ws).rd Reg.TRACE_WR_IDX = s.rd Reg.TRACE_WR_IDX + 1
      ∧ OnlyEvents { s with trace := (s.traceStore ws).trace } (s.traceStore ws)
          [Reg.TRACE_WR_IDX, Reg.TRACE_OLDEST, Reg.PAGE_STATUS Pg.TRACE] := by
  have hcap : traceCap s.traceMode ≠ 0 := by
    unfold traceCap
    split <;> decide
  obtain ⟨n, hn⟩ := Nat.exists_eq_succ_of_ne_zero hcap
  unfold traceStore
  dsimp only
  rw [hn]
  split
  · refine ⟨rfl, ?_, (OnlyEvents.same.wr _ (by simp)).wr _ (by simp)⟩
    rw [rd_wr_ne _ _ (by decide), rd_wr_same]
  · exact ⟨rfl, rd_wr_same _ _ _, OnlyEvents.same.wr _ (by simp)⟩

theorem traceMark_spec {s : State} (v : Word) (hon : s.traceOn = true) (hmode : s.traceMode = 1) (hloss : s.trace.lostRun = 0) :
    (s.traceMark v).trace.recs.head? = some { idx := s.rd Reg.TRACE_WR_IDX, words := s.traceWords 14 0 (bitsOf v 19 0) 0 768 0 }
      ∧ (s.traceMark v).rd Reg.TRACE_WR_IDX = s.rd Reg.TRACE_WR_IDX + 1 ∧ (s.traceMark v).Reports Pg.TRACE .ok
      ∧ OnlyEvents { s with trace := (s.traceMark v).trace } (s.traceMark v)
          [Reg.TRACE_WR_IDX, Reg.TRACE_OLDEST, Reg.PAGE_STATUS Pg.TRACE] := by
  have heq : s.traceMark v = (s.traceStore (s.traceWords 14 0 (bitsOf v 19 0) 0 768 0)).status Pg.TRACE .ok := by
    rw [traceMark, traceWrite_mode1 _ hon hmode hloss]
  obtain ⟨hhead, hidx, hframe⟩ := traceStore_spec (s := s) (s.traceWords 14 0 (bitsOf v 19 0) 0 768 0)
  rw [heq]
  generalize s.traceStore (s.traceWords 14 0 (bitsOf v 19 0) 0 768 0) = u at hhead hidx hframe
  refine ⟨hhead, ?_, reports_status _ _ _, hframe.status _ (by simp)⟩
  rw [rd_status_ne _ _ (by decide), hidx]

/-- The four data words of a record that is read. -/
def traceData (s : State) (ws : List Word) : State :=
  (((s.wr (Reg.TRACE_RD_DATA 0) (ws.getD 0 0)).wr (Reg.TRACE_RD_DATA 1) (ws.getD 1 0)).wr (Reg.TRACE_RD_DATA 2) (ws.getD 2 0)).wr
    (Reg.TRACE_RD_DATA 3) (ws.getD 3 0)

theorem traceFetch_eq {s : State} {idx : Word} {r : TraceRec} (h : s.trace.recs.find? (fun r => r.idx = idx) = some r) :
    s.traceFetch idx = (s.traceData r.words).status Pg.TRACE .ok := by
  unfold traceFetch
  rw [h]
  rfl

theorem traceData_rd (s : State) (ws : List Word) {k : Nat} (hk : k < 4) : (s.traceData ws).rd (Reg.TRACE_RD_DATA k) = ws.getD k 0 := by
  unfold traceData
  interval_cases k
  · rw [rd_wr_ne _ _ (by decide), rd_wr_ne _ _ (by decide), rd_wr_ne _ _ (by decide), rd_wr_same]
  · rw [rd_wr_ne _ _ (by decide), rd_wr_ne _ _ (by decide), rd_wr_same]
  · rw [rd_wr_ne _ _ (by decide), rd_wr_same]
  · rw [rd_wr_same]

/-- Capture stops, and STOPPED latches. -/
theorem traceStop_spec {s : State} (h : s.trace.stopped = false) :
    s.traceStop.Latched Pg.TRACE Ev.TRACE.STOPPED ∧ OnlyEvents { s with trace := { s.trace with stopped := true } } s.traceStop [] := by
  rw [traceStop, h]
  exact ⟨event_latched _ _ _ (by decide), OnlyEvents.same.event _ _⟩

end State

/-- Settles O17: `traceCtrl_spec`, `traceMark_spec`, the words of a record, and `traceStop_spec` for both ends of capture. -/
theorem traceCommands : Obligations.TraceCommands := by
  unfold Obligations.TraceCommands
  refine ⟨fun s t p v hs hmode hbring => ?_, fun s t p v hs hon hmode hloss => ?_, fun s t p v r hs hr => ?_,
    fun s t hup hmode hstop => ⟨fun hfull => ?_, fun hpost => ?_⟩⟩
  · obtain ⟨hm, hst, hnew, hframe⟩ := State.traceCtrl_spec (s := s.atTick t) hmode hbring
    generalize hu : (s.atTick t).traceCtrl v = u at hm hst hnew hframe
    exact ⟨u, State.serves_of_eq (fun s => s.traceCtrl v) hs hu hframe.clk hframe.pending, hm, hst, hnew, hframe⟩
  · obtain ⟨hhead, hidx, hst, hframe⟩ := State.traceMark_spec (s := s.atTick t) v hon hmode hloss
    generalize hu : (s.atTick t).traceMark v = u at hhead hidx hst hframe
    exact ⟨u, State.serves_of_eq (fun s => s.traceMark v) hs hu hframe.clk hframe.pending, hhead, hidx, hst, hframe⟩
  · refine ⟨_, State.serves_of_eq (fun s => s.traceFetch v) hs (State.traceFetch_eq (s := s.atTick t) hr) rfl rfl, fun k hk => ?_,
      State.reports_status _ _ _, ?_⟩
    · rw [State.rd_status_ne _ _ (by interval_cases k <;> decide), State.traceData_rd _ _ hk]
    · exact ((((State.OnlyRegs.same.wr _ (by simp)).wr _ (by simp)).wr _ (by simp)).wr _ (by simp)).status _ (by simp)
  · obtain ⟨hlatch, hframe⟩ := State.traceStop_spec (s := s.atTick t) hstop
    have heq : (if (s.atTick t).traceMode != 0 && (s.atTick t).traceFull then (s.atTick t).traceStop else s.atTick t) = (s.atTick t).traceStop :=
      if_pos (by simpa using ⟨hmode, hfull⟩)
    generalize hu : (s.atTick t).traceStop = u at hlatch hframe
    exact ⟨u, State.act_of_eq (fun s => if s.traceMode != 0 && s.traceFull then s.traceStop else s) hup (heq.trans hu) hframe.clk hframe.pending,
      hlatch, hframe⟩
  · obtain ⟨hlatch, hframe⟩ := State.traceStop_spec (s := s.atTick t) hstop
    have heq : (if (s.atTick t).traceMode != 0 && (s.atTick t).tracePosted then (s.atTick t).traceStop else s.atTick t)
        = (s.atTick t).traceStop := if_pos (by simpa using ⟨hmode, hpost⟩)
    generalize hu : (s.atTick t).traceStop = u at hlatch hframe
    exact ⟨u, State.act_of_eq (fun s => if s.traceMode != 0 && s.tracePosted then s.traceStop else s) hup (heq.trans hu) hframe.clk hframe.pending,
      hlatch, hframe⟩

namespace State
/-! ## Transaction slots (R79, R84 to R87) -/

theorem slot_lt {s : State} {i : Nat} {x : TxnSlot} (h : s.slot i = some x) : i < s.txns.length :=
  (List.getElem?_eq_some_iff.mp h).1

theorem slot_setSlot_self {s : State} {i : Nat} {x : TxnSlot} (y : TxnSlot) (h : s.slot i = some x) : (s.setSlot i y).slot i = some y := by
  rw [slot_setSlot _ _ _ _ (slot_lt h), if_pos rfl]

theorem slot_setSlot_ne {s : State} {i j : Nat} {x : TxnSlot} (y : TxnSlot) (h : s.slot i = some x) (hj : j ≠ i) :
    (s.setSlot i y).slot j = s.slot j := by
  rw [slot_setSlot _ _ _ _ (slot_lt h), if_neg hj]

theorem slot_congr {s u : State} (h : u.txns = s.txns) (i : Nat) : u.slot i = s.slot i := by
  rw [slot, h, slot]

/-- A slot whose transaction has ended. -/
def endedSlot (x : TxnSlot) (st : Nat) (fail : Option Nat) (reached : Bool) : TxnSlot :=
  match fail with
  | some e => { x with state := .free, done := true, status := st, reached := reached, failValid := true, failEntry := e }
  | none => { x with state := .free, done := true, status := st, reached := reached }

theorem endTxn_eq {s : State} {i : Nat} {x : TxnSlot} (st : Nat) (fail : Option Nat) (reached : Bool) (h : s.slot i = some x) :
    s.endTxn i st fail reached
      = ((s.setSlot i (endedSlot x st fail reached)).event Pg.TXN i).eventIf (st != 0) Pg.TXN Ev.TXN.FAILED := by
  unfold endTxn
  rw [h]
  cases fail <;> rfl

/-- A transaction that ends: its slot, the others, its latch, and nothing else. -/
theorem endTxn_spec {s : State} {i : Nat} {x : TxnSlot} (st : Nat) (fail : Option Nat) (reached : Bool) (h : s.slot i = some x)
    (hi : i < 16) :
    (s.endTxn i st fail reached).slot i = some (endedSlot x st fail reached)
      ∧ (∀ j, j ≠ i → (s.endTxn i st fail reached).slot j = s.slot j) ∧ (s.endTxn i st fail reached).Latched Pg.TXN i
      ∧ OnlyEvents { s with txns := (s.endTxn i st fail reached).txns } (s.endTxn i st fail reached) [] := by
  have hself := slot_setSlot_self (endedSlot x st fail reached) h
  have hne := fun j hj => slot_setSlot_ne (j := j) (endedSlot x st fail reached) h hj
  have hbase : ∀ y, ({ s.setSlot i (endedSlot x st fail reached) with txns := y } : State) = { s with txns := y } := fun _ => rfl
  rw [endTxn_eq st fail reached h]
  generalize s.setSlot i (endedSlot x st fail reached) = v at hself hne hbase
  have hlatch := eventIf_keeps (v.event Pg.TXN i) (st != 0) Pg.TXN Ev.TXN.FAILED (by decide) (event_latched v Pg.TXN i (by omega))
  have hframe := ((OnlyEvents.same (s := v) (r := [])).event Pg.TXN i).eventIf (st != 0) Pg.TXN Ev.TXN.FAILED
  generalize (v.event Pg.TXN i).eventIf (st != 0) Pg.TXN Ev.TXN.FAILED = u at hlatch hframe
  refine ⟨(slot_congr hframe.txns i).trans hself, fun j hj => (slot_congr hframe.txns j).trans (hne j hj), hlatch, ?_⟩
  rw [← hbase, hframe.txns]
  exact hframe

/-- An accepted TXN_OPEN (R79). -/
theorem txnOpen_free {s : State} {p : Port} {i : Nat} {x : TxnSlot} (hx : s.slot i = some x) (hp : slotPort i = p) (hfree : x.state = .free) :
    s.txnOpen p i = (s.setSlot i { x with
      state := .opened, done := false, poisoned := false, entries := [], failValid := false, failEntry := 0, reached := false }).status
        Pg.TXN .ok := by
  simp [txnOpen, hx, hp, hfree]

/-- An accepted commit (R84 to R86). -/
theorem txnCommit_ok {s : State} {p : Port} {i : Nat} {x : TxnSlot} {next : Bool} (hx : s.slot i = some x) (hp : slotPort i = p)
    (hopen : x.state = .opened) (hpoison : x.poisoned = false) (hlate : next = false → s.reachedBeat (s.rd Reg.TXN_TARGET) = false)
    (hwipe : s.wipeBars = true → x.entries = []) (hconf : s.conflictAt x.entries = none) :
    s.txnCommit p i next
      = ((s.put Reg.TXN_SEQ Fd.TXN_SEQ.SEQ (nextSeq (s.get Reg.TXN_SEQ Fd.TXN_SEQ.SEQ))).setSlot i { x with
          state := .pending
          target := if next then s.nextBeat else s.rd Reg.TXN_TARGET
          tag := Word.of (nextSeq (s.get Reg.TXN_SEQ Fd.TXN_SEQ.SEQ) * 16 + i)
          order := (s.txns.map fun (y : TxnSlot) => y.order).foldl max 0 + 1 }).status Pg.TXN .ok := by
  have hserve : ¬ (slotPort i != p || x.state != .opened) = true := by simp [hp, hopen]
  have hcome : ¬ (!next && s.reachedBeat (if next then s.nextBeat else s.rd Reg.TXN_TARGET)) = true := by
    cases next with
    | true => simp
    | false => simpa using hlate rfl
  have hbar : ¬ (s.wipeBars && !x.entries.isEmpty) = true := by
    simpa using hwipe
  unfold txnCommit
  rw [hx]
  dsimp only
  rw [if_neg hserve, if_neg (by simp [hpoison]), if_neg hcome, if_neg hbar, hconf]

/-- An accepted abort (R87). -/
theorem txnAbort_ok {s : State} {p : Port} {i : Nat} {x : TxnSlot} (hx : s.slot i = some x) (hp : slotPort i = p)
    (hstate : x.state = .opened ∨ x.state = .pending ∧ s.reachedBeat x.target = false) :
    s.txnAbort p i = (s.endTxn i Status.aborted.code none false).status Pg.TXN .ok := by
  obtain hopen | ⟨hpend, htarget⟩ := hstate
  · simp [txnAbort, hx, hp, hopen]
  · simp [txnAbort, hx, hp, hpend, htarget]

end State

/-- Settles O18: `txnOpen_free`, `txnCommit_ok`, and `txnAbort_ok` with the end of a transaction. -/
theorem transactionSlots : Obligations.TransactionSlots := by
  unfold Obligations.TransactionSlots
  intro s t p id x hs hp hx
  have hx' : (s.atTick t).slot id.toNat = some x := hx
  refine ⟨fun hfree => ?_, fun next hopen hpoison hlate hwipe hconf => ?_, fun hstate => ?_⟩
  · exact State.serves_of_eq (fun s => s.txnOpen p id.toNat) hs (State.txnOpen_free hx' hp hfree) rfl rfl
  · have heq := State.txnCommit_ok (s := s.atTick t) hx' hp hopen hpoison hlate hwipe hconf
    refine ⟨_, State.serves_of_eq (fun s => s.txnCommit p id.toNat next) hs heq rfl rfl, State.reports_status _ _ _,
      State.slot_setSlot_self (s := s.atTick t) _ hx', fun j hj => State.slot_setSlot_ne (s := s.atTick t) _ hx' hj, ?_⟩
    exact (((State.OnlyEvents.same.put _ _ (by simp)).under fun z => { z with txns := _ }).status _ (by simp))
  · have heq := State.txnAbort_ok (s := s.atTick t) hx' hp hstate
    obtain ⟨hself, hne, hlatch, hframe⟩ := State.endTxn_spec (s := s.atTick t) Status.aborted.code none false hx' id.isLt
    generalize (s.atTick t).endTxn id.toNat Status.aborted.code none false = v at heq hself hne hlatch hframe
    have hall := (hframe.weaken (r := [Reg.PAGE_STATUS Pg.TXN])).status (page := Pg.TXN) .ok (by simp)
    refine ⟨_, State.serves_of_eq (fun s => s.txnAbort p id.toNat) hs heq hall.clk hall.pending, State.reports_status _ _ _, hself, hne,
      hlatch.status _, hall⟩

namespace State
/-! ## Staging (R80 to R83, R109, R110) -/

theorem stagingSlot_wr {s : State} {a : Nat} (p : Port) (w : Word) (h : a ≠ Reg.TXN_CUR) : (s.wr a w).stagingSlot p = s.stagingSlot p := by
  unfold stagingSlot flag
  rw [get_wr_ne _ _ _ h.symm, get_wr_ne _ _ _ h.symm]
  rfl

theorem ne_txnCur_of_rwt {a : Nat} (h : hasAcc a .rwt = true) : a ≠ Reg.TXN_CUR := by
  rintro rfl
  exact absurd h (by decide +kernel)

/-- A staged register takes the place of its entry, or a place of its own. -/
def stagedEntries (a : Nat) (w : Word) (es : List Entry) : List Entry :=
  match regEntry a es with
  | some k => es.set k (.reg a w)
  | none => es ++ [.reg a w]

theorem regEntry_lt {a : Nat} {es : List Entry} {k : Nat} (h : regEntry a es = some k) : k < es.length :=
  (List.findIdx?_eq_some_iff_getElem.mp h).1

/-- An accepted write of RWT fields (R80 to R83). -/
theorem stageReg_ok {s : State} {p : Port} {a i : Nat} {v : Word} {x : TxnSlot} (hslot : s.stagingSlot p = some (i, x))
    (hpoison : x.poisoned = false) (hroom : x.entries.length < maxTxnEntries) (hfields : fieldsOk (fieldsAt a) [.rwt] v = true)
    (hok : stagedOk a v = true) :
    s.stageReg p a v = s.setSlot i { x with entries := stagedEntries a (mergeFields (fieldsAt a) .rwt 0 v) x.entries } := by
  have hbad : ¬ (!fieldsOk (fieldsAt a) [.rwt] v || !stagedOk a v) = true := by simp [hfields, hok]
  unfold stageReg stagedEntries
  rw [hslot]
  dsimp only
  rw [if_neg (by simp [hpoison])]
  cases hk : regEntry a x.entries with
  | none =>
    rw [Option.getD_none, if_neg (by omega), if_neg hbad, if_neg (by omega)]
  | some k =>
    have hlt := regEntry_lt hk
    rw [Option.getD_some, if_neg (by omega), if_neg hbad, if_pos hlt]

theorem rwtWrite_ok {s : State} {p : Port} {a i : Nat} {v : Word} {x : TxnSlot} (hacc : hasAcc a .rwt = true)
    (hslot : s.stagingSlot p = some (i, x)) (hpoison : x.poisoned = false) (hroom : x.entries.length < maxTxnEntries)
    (hrw : fieldsOk (fieldsAt a) [.rw] v = true) (hfields : fieldsOk (fieldsAt a) [.rwt] v = true) (hok : stagedOk a v = true) :
    s.rwtWrite p a v = (s.wr a (mergeFields (fieldsAt a) .rw (s.rd a) v)).setSlot i
      { x with entries := stagedEntries a (mergeFields (fieldsAt a) .rwt 0 v) x.entries } := by
  unfold rwtWrite
  dsimp only
  rw [if_pos hrw, if_pos hacc, stageReg_ok ((stagingSlot_wr p _ (ne_txnCur_of_rwt hacc)).trans hslot) hpoison hroom hfields hok]

/-- An accepted GO that stages (R109, R110). -/
theorem stageGo_ok {s : State} {p : Port} {i : Nat} {x : TxnSlot} {op : CmdOp} (hbusy : s.isBusy Pg.CHAN = false)
    (hslot : s.stagingSlot p = some (i, x)) (hpoison : x.poisoned = false) (hroom : x.entries.length < maxTxnEntries)
    (hkind : cmdKind s.cmdBuf = some op) (hok : stageOk op (s.cmdBuf.take (leAt s.cmdBuf 1 1 * 8)) = true) :
    s.stageGo p = (s.setSlot i { x with entries := x.entries ++ [.cmd op (s.cmdBuf.take (leAt s.cmdBuf 1 1 * 8))] }).status Pg.CHAN .ok := by
  unfold stageGo stageCmd
  rw [if_neg (by simp [hbusy]), hslot]
  dsimp only
  rw [if_neg (by simp [hpoison]), if_neg (by omega), hkind]
  exact if_pos hok

theorem stageGo_stray {s : State} {p : Port} (hbusy : s.isBusy Pg.CHAN = false) (hslot : s.stagingSlot p = none) :
    s.stageGo p = s.strayWrite Reg.CHAN_CMD_GO := by
  unfold stageGo stageCmd
  rw [if_neg (by simp [hbusy]), hslot]

/-- A stray write of CHAN_CMD_GO (R81). -/
theorem strayGo_spec (s : State) :
    (s.strayWrite Reg.CHAN_CMD_GO).Reports Pg.CHAN .aborted ∧ (s.strayWrite Reg.CHAN_CMD_GO).Latched Pg.TXN Ev.TXN.STRAY
      ∧ OnlyEvents s (s.strayWrite Reg.CHAN_CMD_GO) [Reg.PAGE_STATUS Pg.CHAN, Reg.TXN_STRAY_CNT, Reg.TXN_STRAY] := by
  have heq : s.strayWrite Reg.CHAN_CMD_GO
      = (((s.status Pg.CHAN .aborted).inc Reg.TXN_STRAY_CNT Fd.TXN_STRAY_CNT.COUNT).put Reg.TXN_STRAY Fd.TXN_STRAY.OFFSET
          Reg.CHAN_CMD_GO).event Pg.TXN Ev.TXN.STRAY := rfl
  rw [heq]
  refine ⟨?_, event_latched _ _ _ (by decide), (((OnlyEvents.same.status _ (by simp)).inc _ _ (by simp)).put _ _ (by simp)).event _ _⟩
  rw [Reports, get_event _ _ _ _ (by decide), get_put_ne _ _ _ _ (by decide), inc, get_put_ne _ _ _ _ (by decide)]
  exact reports_status _ _ _

end State

/-- Settles O19: `rwtWrite_ok`, `stageGo_ok`, and the stray write. -/
theorem staging : Obligations.Staging := by
  unfold Obligations.Staging
  intro s t p hs
  refine ⟨fun a i v x hacc hslot hpoison hroom hrw hfields hok => ?_, fun i x op hbusy hslot hpoison hroom hkind hok => ?_,
    fun hslot hbusy => ?_⟩
  · have hwrite := State.rwtWrite_ok (s := s.atTick t) hacc hslot hpoison hroom hrw hfields hok
    have hexec : exec (.rwtWrite t p a v) s = s.act t fun s => s.hostWrite p a fun s => s.rwtWrite p a v := by
      change (s.act t fun s => if hasAcc a .rwt then s.hostWrite p a fun s => s.rwtWrite p a v else s) = _
      simp only [hacc, if_true]
    have hnext := State.serves_of_eq (fun s => s.rwtWrite p a v) (off := a) hs hwrite rfl rfl
    rw [hexec, hnext]
    exact ⟨fun hnone => by rw [State.stagedEntries, hnone]; rfl, fun k hk => by rw [State.stagedEntries, hk]; rfl⟩
  · exact State.serves_of_eq (fun s => s.stageGo p) hs (State.stageGo_ok (s := s.atTick t) hbusy hslot hpoison hroom hkind hok) rfl rfl
  · obtain ⟨hst, hlatch, hframe⟩ := State.strayGo_spec (s.atTick t)
    have heq := State.stageGo_stray (s := s.atTick t) hbusy hslot
    generalize (s.atTick t).strayWrite Reg.CHAN_CMD_GO = u at hst hlatch hframe heq
    exact ⟨u, State.serves_of_eq (fun s => s.stageGo p) hs heq hframe.clk hframe.pending, hst, hlatch, hframe⟩

namespace State
/-! ## A transaction that fails (R88, R89, R107) -/

/-- The registers that a failure of a transaction writes. -/
def failRegs : List Nat := [Reg.CHAN_NOCAP_CNT, Reg.CHAN_NOCAP_CHAN, Reg.CHAN_NOCAP_INFO, Reg.TXN_CONFLICT_CNT]

theorem noteFail_onlyEvents (s : State) (f : Fail) : OnlyEvents s (s.noteFail f) failRegs := by
  unfold noteFail
  split
  · exact .same
  · exact (((OnlyEvents.same.inc _ _ (by simp [failRegs])).put _ _ (by simp [failRegs])).put _ _ (by simp [failRegs])).event _ _

/-- A failing transaction counts and notes its failure, and its slot ends; the state its entries reached is dropped. -/
theorem applyTxn_error {s : State} {i : Nat} {x : TxnSlot} {e : Nat} {f : Fail} (hx : s.slot i = some x) (hf : s.tryTxn x = .error (e, f)) :
    s.applyTxn i = (if f.status = .conflict then (s.noteFail f).inc Reg.TXN_CONFLICT_CNT Fd.TXN_CONFLICT_CNT.COUNT
      else s.noteFail f).endTxn i f.status.code (some e) true := by
  unfold applyTxn
  rw [hx]
  dsimp only
  rw [hf]

end State

/-- Settles O20: `applyTxn_error` with the end of a transaction. -/
theorem transactionsAreAtomic : Obligations.TransactionsAreAtomic := by
  unfold Obligations.TransactionsAreAtomic
  intro s i x hi hlen hx e f hf
  have hnote := State.noteFail_onlyEvents s f
  have hcount := State.OnlyEvents.ite (f.status = .conflict)
    (hnote.inc (a := Reg.TXN_CONFLICT_CNT) Fd.TXN_CONFLICT_CNT.COUNT 1 (by simp [State.failRegs])) hnote
  rw [State.applyTxn_error hx hf]
  generalize (if f.status = .conflict then (s.noteFail f).inc Reg.TXN_CONFLICT_CNT Fd.TXN_CONFLICT_CNT.COUNT else s.noteFail f) = v
    at hcount
  obtain ⟨hself, -, -, hframe⟩ := State.endTxn_spec f.status.code (some e) true ((State.slot_congr hcount.txns i).trans hx) hi
  generalize v.endTxn i f.status.code (some e) true = u at hself hframe
  exact ⟨hself, (hcount.under fun z => { z with txns := u.txns }).andThen hframe.weaken⟩

/-- Settles O21: Kwakel's oldest work on the standing list is done. -/
theorem standingList : Obligations.StandingList := by
  unfold Obligations.StandingList
  intro s t num hup hk
  have hk' : (s.atTick t).mgmt.kstate = .running := hk
  refine ⟨fun cmd hwork hroom => ?_, fun hwork => ?_⟩
  · have hwork' : (s.atTick t).mgmt.work.find? State.isStandingWork = some (.standing num cmd) := hwork
    have heq : (s.atTick t).standingWrite
        = ({ s.atTick t with mgmt := { s.mgmt with work := State.dropFirst State.isStandingWork s.mgmt.work } }).setStanding
            ((s.mgmt.flash.standing.filter fun (e : StandingEntry) => e.chan ≠ num) ++ [s.standingEntry num cmd]) := by
      unfold State.standingWrite
      rw [if_pos hk', hwork']
      exact if_pos hroom
    exact ⟨_, State.act_of_eq State.standingWrite hup heq rfl rfl, rfl, rfl, rfl⟩
  · have hwork' : (s.atTick t).mgmt.work.find? State.isStandingWork = some (.unstand num) := hwork
    have heq : (s.atTick t).standingWrite
        = ({ s.atTick t with mgmt := { s.mgmt with work := State.dropFirst State.isStandingWork s.mgmt.work } }).setStanding
            (s.mgmt.flash.standing.filter fun e => e.chan ≠ num) := by
      unfold State.standingWrite
      rw [if_pos hk', hwork']
      rfl
    exact ⟨_, State.act_of_eq State.standingWrite hup heq rfl rfl, rfl, rfl, rfl⟩

end Sys2Proof.Machine
end

section
/-! PROOFS. What the dispatcher does with a job that is made ready or completes, seen from the rest of the state; QUERY and the status
snapshots; actions on channels and legs; SRTP keys (R116, R136, R137, R142, R207, R211, R225, R251, R255, R292). -/

namespace Sys2Proof.Machine

namespace State

/-- A served write, where another reading of its effect gives the same state. -/
theorem serves_after {s : State} {p : Port} {off t : Nat} (f : State → State) {g : State → State} (hs : s.Serves p)
    (h : f (s.atTick t) = g (s.atTick t)) : (s.act t fun s => s.hostWrite p off f) = .next (s.after t g) := by
  rw [act_serves s p off t f hs, h]
  rfl

/-! ## BUSY and LAST_STATUS -/

theorem isBusy_setBusy (s : State) (page : Nat) (b : Bool) : (s.setBusy page b).isBusy page = b := by
  unfold isBusy flag setBusy putB
  rw [get_put_same _ _ _ _ (by decide) (by decide)]
  cases b <;> rfl

theorem isBusy_congr {s u : State} {page : Nat} (h : u.rd (Reg.PAGE_STATUS page) = s.rd (Reg.PAGE_STATUS page)) :
    u.isBusy page = s.isBusy page := by
  unfold isBusy flag get
  rw [h]

theorem Reports.congr {s u : State} {page : Nat} {st : Status} (h : s.Reports page st)
    (he : u.rd (Reg.PAGE_STATUS page) = s.rd (Reg.PAGE_STATUS page)) : u.Reports page st := by
  unfold Reports get at *
  rw [he]
  exact h

/-- A status leaves BUSY as it is. -/
theorem isBusy_status (s : State) (page : Nat) (st : Status) : (s.status page st).isBusy page = s.isBusy page := by
  unfold isBusy flag status
  rw [get_put_other _ _ _ _ _ (by decide) (by decide) (by decide) (by decide)]

theorem evtReg_pageStatus (page : Nat) : evtReg (Reg.PAGE_STATUS page) = false := by
  simp only [evtReg, Reg.PAGE_STATUS, Reg.LOG_LOST_CNT, Reg.MGMT_NET_DROP, Bool.or_eq_false_iff, decide_eq_false_iff_not]
  omega

/-! ## Jobs seen from outside the dispatcher -/

/-- The registers that follow a job which is made ready, starts, or completes on cluster `k`. -/
def jobRegs (k : Nat) : List Nat :=
  [Reg.CLU_STAGE_WAIT_CNT k, Reg.DSP_HOLD, Reg.DSP_HOLD_CNT, Reg.DSP_PEND, Reg.DSP_PEND_HWM, Reg.TRACE_WR_IDX, Reg.TRACE_OLDEST,
   Reg.TRACE_LOST]

/-- `u` is `s` but for the dispatcher, the cores, the trace, and what follows them. -/
def OnlyJobs (k : Nat) (s u : State) : Prop :=
  ∃ d cl x, OnlyEvents { s with disp := d, clusters := cl, trace := x } u (jobRegs k)

theorem OnlyJobs.refl (k : Nat) (s : State) : OnlyJobs k s s := ⟨s.disp, s.clusters, s.trace, .same⟩

theorem OnlyJobs.of_onlyEvents {k : Nat} {s u : State} (h : OnlyEvents s u (jobRegs k)) : OnlyJobs k s u :=
  ⟨s.disp, s.clusters, s.trace, h⟩

theorem OnlyJobs.trans {k : Nat} {s u v : State} (h : OnlyJobs k s u) (h' : OnlyJobs k u v) : OnlyJobs k s v := by
  obtain ⟨d, cl, x, h⟩ := h
  obtain ⟨d', cl', x', h'⟩ := h'
  exact ⟨d', cl', x', (h.under fun z => { z with disp := d', clusters := cl', trace := x' }).andThen h'⟩

/-- A change of the dispatcher's own part. -/
theorem OnlyJobs.disp (k : Nat) (s : State) (d : Disp) : OnlyJobs k s { s with disp := d } := ⟨d, s.clusters, s.trace, .same⟩

theorem OnlyJobs.clusters (k : Nat) (s : State) (cl : List Cluster) : OnlyJobs k s { s with clusters := cl } := ⟨s.disp, cl, s.trace, .same⟩

theorem OnlyTrace.onlyJobs {s u : State} (h : s.OnlyTrace u) (k : Nat) : OnlyJobs k s u := by
  obtain ⟨x, hx⟩ := h
  exact ⟨s.disp, s.clusters, x, hx.mono (by simp [jobRegs])⟩

theorem pendChanged_onlyJobs (k : Nat) (s : State) : OnlyJobs k s s.pendChanged :=
  .of_onlyEvents (((OnlyEvents.same.put _ _ (by simp [jobRegs])).put _ _ (by simp [jobRegs])).eventIf _ _ _)

theorem enlist_onlyJobs (k : Nat) (s : State) (j : Job) : OnlyJobs k s (s.enlist j) :=
  (OnlyJobs.disp k s _).trans ((traceJob_onlyTrace _ _ _ _ _).onlyJobs k)

theorem enterJob_onlyJobs (k : Nat) (s : State) (j : Job) : OnlyJobs k s (s.enterJob j) :=
  ((OnlyJobs.disp k s _).trans (enlist_onlyJobs k _ _)).trans (pendChanged_onlyJobs k _)

/-- A job that finds no entry is held back, and that counts (R255). -/
def holdBack (s : State) (j : Job) : State :=
  (({ s with disp := { s.disp with held := s.disp.held ++ [j] } }.showHolds.inc Reg.DSP_HOLD_CNT Fd.DSP_HOLD_CNT.COUNT).event Pg.DSP
    Ev.DSP.HOLD).traceJob 7 j none 0

theorem holdBack_onlyJobs (k : Nat) (s : State) (j : Job) : OnlyJobs k s (s.holdBack j) := by
  have hheld := OnlyJobs.disp k s { s.disp with held := s.disp.held ++ [j] }
  unfold holdBack
  generalize ({ s with disp := { s.disp with held := s.disp.held ++ [j] } } : State) = v at hheld ⊢
  have hcount : OnlyJobs k v ((v.showHolds.inc Reg.DSP_HOLD_CNT Fd.DSP_HOLD_CNT.COUNT).event Pg.DSP Ev.DSP.HOLD) :=
    .of_onlyEvents (((OnlyEvents.same.put _ _ (by simp [jobRegs])).inc _ _ (by simp [jobRegs])).event _ _)
  exact (hheld.trans hcount).trans ((traceJob_onlyTrace _ _ _ _ _).onlyJobs k)

theorem makeReady_onlyJobs (k : Nat) (s : State) (j : Job) : OnlyJobs k s (s.makeReady j) := by
  have heq : s.makeReady j = if (s.disp.held.any fun x => x.kind = j.kind) = true then { s with disp := { s.disp with held := s.disp.held ++ [j] } }
      else if s.disp.jobs.length < maxEntries then s.enterJob j else s.holdBack j := rfl
  rw [heq]
  split
  · exact OnlyJobs.disp k s _
  · split
    · exact enterJob_onlyJobs k s j
    · exact holdBack_onlyJobs k s j

theorem chargeCycles_onlyJobs (k : Nat) (s : State) (j : Job) : OnlyJobs k s (s.chargeCycles j) := by
  unfold chargeCycles
  split
  · split
    · exact (OnlyJobs.clusters k s _).trans (OnlyJobs.disp k _ _)
    · exact .refl k s
  · exact .refl k s

/-- The cluster of a job's server. -/
def serverCluster (j : Job) : Nat :=
  match j.server with
  | some (.core k _) => k
  | _ => 0

theorem leaveServer_onlyJobs (s : State) (j : Job) : OnlyJobs (serverCluster j) s (s.leaveServer j) := by
  unfold leaveServer serverCluster
  rcases j.server with _ | ⟨k, i⟩ | u | l
  · exact .refl _ s
  · have hwait : OnlyJobs k s (if s.stageWaits k i j then s.inc (Reg.CLU_STAGE_WAIT_CNT k) Fd.CLU_STAGE_WAIT_CNT.COUNT else s) :=
      .of_onlyEvents (.ite _ (OnlyEvents.same.inc _ _ (by simp [jobRegs])) .same)
    dsimp only
    generalize (if s.stageWaits k i j then s.inc (Reg.CLU_STAGE_WAIT_CNT k) Fd.CLU_STAGE_WAIT_CNT.COUNT else s) = v at hwait ⊢
    exact hwait.trans (OnlyJobs.clusters k _ _)
  · exact OnlyJobs.disp _ s _
  · exact OnlyJobs.disp _ s _

theorem completeJob_onlyJobs (s : State) (j : Job) : OnlyJobs (serverCluster j) s (s.completeJob j) :=
  ((((chargeCycles_onlyJobs _ s j).trans (leaveServer_onlyJobs _ j)).trans ((traceJob_onlyTrace _ _ _ _ _).onlyJobs _)).trans
    (OnlyJobs.disp _ _ _)).trans (pendChanged_onlyJobs _ _)

/-- No part but the dispatcher, the cores, the trace and what events hold has changed. -/
theorem OnlyJobs.frame {k : Nat} {s u : State} (h : OnlyJobs k s u) :
    OnlyEvents { s with disp := u.disp, clusters := u.clusters, trace := u.trace } u (jobRegs k) := by
  obtain ⟨d, cl, x, h⟩ := h
  rw [h.disp, h.clusters, h.trace]
  exact h

/-- A register outside the dispatcher's keeps its value. -/
theorem OnlyJobs.rd {k a : Nat} {s u : State} (h : OnlyJobs k s u) (ha : a ∉ jobRegs k) (he : evtReg a = false) : u.rd a = s.rd a :=
  h.frame.2 a ha he

theorem pageStatus_notMem_jobRegs (page k : Nat) : Reg.PAGE_STATUS page ∉ jobRegs k := by
  simp only [jobRegs, Reg.PAGE_STATUS, Reg.CLU_STAGE_WAIT_CNT, Reg.DSP_HOLD, Reg.DSP_HOLD_CNT, Reg.DSP_PEND, Reg.DSP_PEND_HWM,
    Reg.TRACE_WR_IDX, Reg.TRACE_OLDEST, Reg.TRACE_LOST, List.mem_cons, List.not_mem_nil, or_false]
  omega

theorem OnlyJobs.isBusy {k : Nat} {s u : State} (h : OnlyJobs k s u) (page : Nat) : u.isBusy page = s.isBusy page :=
  isBusy_congr (h.rd (pageStatus_notMem_jobRegs page k) (evtReg_pageStatus page))

/-! ## Snapshots (R116, R142, R251) -/

/-- What a page captures (R116). -/
def captured (page : Nat) (ws : List Word) : Snapshot :=
  { page := page, status := (if (ws.headD 0).getLsbD 8 then 0 else Status.unknownChannel.code), words := ws }

/-- A capture, before its HOSTCMD job is made ready. -/
def capture (s : State) (page : Nat) (ws : List Word) : State :=
  ({ s with snaps := captured page ws :: s.snaps.filter fun y => y.page ≠ page }.setBusy page true).put (Reg.PAGE_STATUS page)
    Fd.PAGE_STATUS.LAST_STATUS (captured page ws).status

theorem isBusy_capture (s : State) (page : Nat) (ws : List Word) : (s.capture page ws).isBusy page = true := by
  rw [capture, isBusy, flag, get_put_other _ _ _ _ _ (by decide) (by decide) (by decide) (by decide)]
  exact isBusy_setBusy _ page true

theorem snapshot_eq {s : State} {page : Nat} (ws : List Word) (h : s.isBusy page = false) :
    ∃ j, s.snapshot page ws = (s.capture page ws).makeReady j := by
  rw [snapshot, h]
  exact ⟨_, rfl⟩

/-- A page that is not BUSY captures the words, and is BUSY. -/
theorem snapshot_spec {s : State} {page : Nat} (ws : List Word) (h : s.isBusy page = false) :
    (s.snapshot page ws).snaps.head? = some (captured page ws) ∧ (s.snapshot page ws).isBusy page = true := by
  obtain ⟨j, hj⟩ := snapshot_eq ws h
  have hbusy := isBusy_capture s page ws
  have hhead : (s.capture page ws).snaps.head? = some (captured page ws) := rfl
  have hjobs := makeReady_onlyJobs 0 (s.capture page ws) j
  rw [hj]
  generalize s.capture page ws = v at hbusy hhead hjobs
  generalize v.makeReady j = u at hjobs
  refine ⟨?_, (hjobs.isBusy page).trans hbusy⟩
  rw [hjobs.frame.snaps]
  exact hhead

theorem putWords_snaps (s : State) (a : Nat) (ws : List Word) : (s.putWords a ws).snaps = s.snaps := by
  induction ws generalizing s a with
  | nil => rfl
  | cons w ws ih => exact ih _ _

/-- A delivery ends BUSY of its page and latches the page's source. -/
theorem deliver_spec (s : State) (x : Snapshot) :
    (s.deliver x).isBusy x.page = false ∧ (s.deliver x).Latched x.page (snapEvent x.page) ∧ (s.deliver x).snaps = s.snaps := by
  have hwords : ∃ v : State, s.deliver x = (v.setBusy x.page false).event x.page (snapEvent x.page) ∧ v.snaps = s.snaps := by
    unfold deliver
    refine ⟨_, rfl, ?_⟩
    split
    · exact putWords_snaps _ _ _
    · exact putWords_snaps _ _ _
  have hbit : snapEvent x.page < 32 := by
    unfold snapEvent
    split_ifs <;> decide
  obtain ⟨v, hv, hsnaps⟩ := hwords
  have hev := event_onlyEvents (v.setBusy x.page false) x.page (snapEvent x.page)
  rw [hv]
  refine ⟨?_, event_latched _ _ _ hbit, hev.snaps.trans hsnaps⟩
  rw [isBusy_congr (hev.2 _ (by simp) (evtReg_pageStatus _))]
  exact isBusy_setBusy _ _ _

theorem hostcmdDone_spec {s : State} {page : Nat} {j : Job} {x : Snapshot} (hj : s.coreJob .hostcmd page = some j)
    (hx : s.snaps.find? (fun x => x.page = page) = some x) :
    (s.hostcmdDone page).isBusy page = false ∧ (s.hostcmdDone page).Latched page (snapEvent page)
      ∧ (s.hostcmdDone page).snaps = s.snaps.filter fun y => y.page ≠ page := by
  have hpage : x.page = page := by simpa using List.find?_some hx
  have heq : s.hostcmdDone page = ({ s with snaps := s.snaps.filter fun y => y.page ≠ page }.completeJob j).deliver x := by
    unfold hostcmdDone
    rw [hj, hx]
  have hdone := completeJob_onlyJobs { s with snaps := s.snaps.filter fun y => y.page ≠ page } j
  rw [heq]
  generalize ({ s with snaps := s.snaps.filter fun y => y.page ≠ page } : State).completeJob j = v at hdone
  obtain ⟨hbusy, hlatch, hsnaps⟩ := deliver_spec v x
  rw [hpage] at hbusy hlatch
  exact ⟨hbusy, hlatch, hsnaps.trans hdone.frame.snaps⟩

end State

/-- Settles O22: the captures are branches of `statWrite` and `queryGo`, and the rest is `snapshot_spec` and `hostcmdDone_spec`. -/
theorem snapshots : Obligations.Snapshots := by
  unfold Obligations.Snapshots
  refine ⟨fun s t p ch leg hs => ?_, fun s page ws h => State.snapshot_spec ws h, fun s t page j x hup hj hx => ?_⟩
  · refine ⟨fun _ => ?_, fun _ => ?_, fun _ => ?_, fun _ => ?_, fun _ => ?_, fun _ => ?_, fun hbusy hop => ?_⟩
    · exact State.serves_after (fun s => s.statWrite Pg.ECAN ch.toNat) hs rfl
    · exact State.serves_after (fun s => s.statWrite Pg.MDM ch.toNat) hs rfl
    · exact State.serves_after (fun s => s.statWrite Pg.CODEC leg.toNat) hs rfl
    · exact State.serves_after (fun s => s.statWrite Pg.JBUF leg.toNat) hs rfl
    · exact State.serves_after (fun s => s.statWrite Pg.RATE leg.toNat) hs rfl
    · exact State.serves_after (fun s => s.statWrite Pg.EGS leg.toNat) hs rfl
    · have hop' : leAt (s.atTick t).cmdBuf 0 1 = 4 := hop
      refine State.serves_after State.queryGo hs ?_
      unfold State.queryGo
      dsimp only
      rw [if_neg (by simpa using hbusy), if_neg (by simpa using hop')]
  · have hdone := State.hostcmdDone_spec (s := s.atTick t) hj hx
    exact ⟨_, State.act_up s t (fun s => s.hostcmdDone page) hup, hdone⟩

end Sys2Proof.Machine
end

section
/-! PROOFS. Actions on channels and legs that wait for the next beat, relay timeouts, and SRTP keys (R136, R137, R207, R211, R225,
R292). -/

namespace Sys2Proof.Machine

namespace State

/-! ## Actions that wait (R137) -/

/-- A change of one life, reported OK, gives its channel the actions it leaves. -/
theorem givesCtls_of_modLife {s : State} {page num : Nat} {c : Chan} {f : Chan → Chan} {ctls : List (BeatNo × ChanCtl)}
    (hc : s.chan num = some c) (hf : f c = { c with ctls := ctls }) :
    s.GivesCtls ((s.modLife c.uid f).status page .ok) page num c ctls := by
  refine ⟨?_, fun m d hm hd => chan_modLife_ne s c.uid m f hm hd, reports_status _ _ _, OnlyEvents.same.status _ (by simp)⟩
  change (s.modLife c.uid f).chan num = _
  rw [chan_modLife, hc, Option.map_some, if_pos rfl, hf]

/-- One change of a life after another. -/
theorem modLife_modLife (s : State) (uid : Nat) (f g : Chan → Chan) (hf : ∀ c, (f c).uid = c.uid) :
    (s.modLife uid f).modLife uid g = s.modLife uid fun c => g (f c) := by
  unfold modLife
  simp only [List.map_map]
  congr 1
  · refine List.map_congr_left fun p _ => ?_
    by_cases h : p.2.uid = uid <;> simp [h, hf]
  · refine List.map_congr_left fun c _ => ?_
    by_cases h : c.uid = uid <;> simp [h, hf]

/-- An action for an open channel. -/
theorem addCtl_eq {s : State} {num : Nat} {c : Chan} (x : ChanCtl) (hc : s.chan num = some c) :
    s.addCtl num x = s.modLife c.uid fun c => { c with ctls := c.ctls ++ [(s.clk.n + 1, x)] } := by
  rw [addCtl, hc]

theorem givesCtls_addCtl {s : State} {page num : Nat} {c : Chan} (x : ChanCtl) (hc : s.chan num = some c) :
    s.GivesCtls ((s.addCtl num x).status page .ok) page num c (c.ctls ++ [(s.clk.n + 1, x)]) := by
  rw [addCtl_eq x hc]
  exact givesCtls_of_modLife hc rfl

/-- A request for a leg in place of one for the same beat (R211). -/
theorem givesCtls_addGen {s : State} {page num : Nat} {c : Chan} (b : Bool) (q : GenReq) (hc : s.chan num = some c) :
    s.GivesCtls ((s.addGen num c b q).status page .ok) page num c
      (c.ctls.filter (fun k => !genWaits (s.clk.n + 1) b k) ++ [(s.clk.n + 1, .gen b q)]) := by
  have hfilter : (s.modLife c.uid fun c => { c with ctls := c.ctls.filter fun k => !genWaits (s.clk.n + 1) b k }).chan num
      = some { c with ctls := c.ctls.filter fun k => !genWaits (s.clk.n + 1) b k } := by
    rw [chan_modLife, hc, Option.map_some, if_pos rfl]
  have heq : s.addGen num c b q = s.modLife c.uid fun c =>
      { c with ctls := c.ctls.filter (fun k => !genWaits (s.clk.n + 1) b k) ++ [(s.clk.n + 1, .gen b q)] } := by
    rw [addGen, addCtl_eq _ hfilter]
    exact modLife_modLife s c.uid _ _ fun _ => rfl
  rw [heq]
  exact givesCtls_of_modLife hc rfl

/-- The frame of an action keeps clock and queue. -/
theorem GivesCtls.keeps {s u : State} {page num : Nat} {c : Chan} {ctls : List (BeatNo × ChanCtl)} (h : s.GivesCtls u page num c ctls) :
    u.clk = s.clk ∧ u.pending = s.pending := ⟨h.2.2.2.clk, h.2.2.2.pending⟩

/-- A served write that gives a channel its actions. -/
theorem serves_gives {s v : State} {p : Port} {off t page num : Nat} {c : Chan} {ctls : List (BeatNo × ChanCtl)} (f : State → State)
    (hs : s.Serves p) (hf : f (s.atTick t) = v) (hv : (s.atTick t).GivesCtls v page num c ctls) :
    ∃ u, (s.act t fun s => s.hostWrite p off f) = .next u ∧ (s.atTick t).GivesCtls u page num c ctls :=
  ⟨v, serves_of_eq f hs hf hv.keeps.1 hv.keeps.2, hv⟩

/-- An accepted write of ECAN_CH_CMD (R136). -/
theorem ecanCmd_ok {s : State} {num action profile : Nat} {c : Chan} {x : EcCtl} (hbusy : s.isBusy Pg.ECAN = false)
    (hc : s.chan num = some c) (hec : c.cfg.ec ≠ .off) (hx : ecAction action profile = some x) :
    s.ecanCmd num action profile = (s.addCtl num (.ec x)).status Pg.ECAN .ok := by
  simp [ecanCmd, hbusy, hc, hec, hx]

/-- An accepted write of RATE_LEG_CMD (R225). -/
theorem rateCmd_ok {s : State} {leg action : Nat} {c : Chan} {x : RateCtl} (hbusy : s.isBusy Pg.RATE = false)
    (hc : s.chan (leg / 2) = some c) (hx : rateAction action = some x)
    (hleg : x.freeze.isSome = true → (c.cfg.leg (leg % 2 = 1)).hasRate = true) :
    s.rateCmd leg action = (s.addCtl (leg / 2) (.rate (leg % 2 = 1) x)).status Pg.RATE .ok := by
  have hserve : ¬ (x.freeze.isSome && !(c.cfg.leg (leg % 2 = 1)).hasRate) = true := by simpa using hleg
  unfold rateCmd legChan
  rw [if_neg (by simp [hbusy]), hc]
  dsimp only [Option.map_some]
  rw [hx]
  exact if_neg hserve

/-- An accepted write of TONE_GEN_CMD (R211). -/
theorem toneGenCmd_ok {s : State} {v : Word} {c : Chan} {q : GenReq} (hc : s.chan (fieldOf v Fd.TONE_GEN_CMD.CHANNEL) = some c)
    (hkind : (c.cfg.leg (fieldOf v Fd.TONE_GEN_CMD.DIR = 1)).kind ≠ 2) (hq : s.genRequest v = some q) :
    s.toneGenCmd v
      = (s.addGen (fieldOf v Fd.TONE_GEN_CMD.CHANNEL) c (fieldOf v Fd.TONE_GEN_CMD.DIR = 1) q).status Pg.TONE .ok := by
  unfold toneGenCmd
  dsimp only
  rw [hc]
  dsimp only
  rw [if_neg hkind, hq]

/-- The word of a tone command with its action set, and every other field as it was. -/
def withAction (v : Word) (n : Nat) : Word := withBits v Fd.TONE_GEN_CMD.ACTION.hi Fd.TONE_GEN_CMD.ACTION.lo n

theorem fieldOf_withAction (v : Word) (n : Nat) {f : Fd} (h : Fd.TONE_GEN_CMD.ACTION.hi < f.lo ∨ f.hi < Fd.TONE_GEN_CMD.ACTION.lo)
    (h2 : f.lo ≤ f.hi) : fieldOf (withAction v n) f = fieldOf v f :=
  bitsOf_withBits_ne _ _ _ _ _ _ (by decide) (by decide) h h2

theorem action_withAction (v : Word) {n : Nat} (h : n < 4) : fieldOf (withAction v n) Fd.TONE_GEN_CMD.ACTION = n := by
  rw [fieldOf, withAction, bitsOf_withBits _ _ _ _ (by decide) (by decide)]
  exact Nat.mod_eq_of_lt h

theorem genRequest_dtmf (s : State) (v : Word) :
    s.genRequest (withAction v 1) = some (.dtmf (s.genDigits (fieldOf v Fd.TONE_GEN_CMD.NDIG + 1))) := by
  simp only [genRequest, action_withAction v (n := 1) (by decide), fieldOf_withAction v 1 (f := Fd.TONE_GEN_CMD.NDIG) (by decide) (by decide)]

theorem genRequest_desc {s : State} {v : Word} (h : (s.toneDesc (fieldOf v Fd.TONE_GEN_CMD.DESC)).gen = true) :
    s.genRequest (withAction v 2) = some (.desc (fieldOf v Fd.TONE_GEN_CMD.DESC)) := by
  simp only [genRequest, action_withAction v (n := 2) (by decide), fieldOf_withAction v 2 (f := Fd.TONE_GEN_CMD.DESC) (by decide) (by decide)]
  exact if_pos h

theorem genRequest_stop (s : State) (v : Word) : s.genRequest (withAction v 3) = some .stop := by
  simp only [genRequest, action_withAction v (n := 3) (by decide)]

/-- A served tone command with its action. -/
theorem toneGenCmd_gives {s : State} {v : Word} {c : Chan} {q : GenReq} {n : Nat}
    (hc : s.chan (fieldOf v Fd.TONE_GEN_CMD.CHANNEL) = some c) (hkind : (c.cfg.leg (fieldOf v Fd.TONE_GEN_CMD.DIR = 1)).kind ≠ 2)
    (hq : s.genRequest (withAction v n) = some q) :
    s.toneGenCmd (withAction v n)
      = (s.addGen (fieldOf v Fd.TONE_GEN_CMD.CHANNEL) c (fieldOf v Fd.TONE_GEN_CMD.DIR = 1) q).status Pg.TONE .ok := by
  have hchan := fieldOf_withAction v n (f := Fd.TONE_GEN_CMD.CHANNEL) (by decide) (by decide)
  have hdir := fieldOf_withAction v n (f := Fd.TONE_GEN_CMD.DIR) (by decide) (by decide)
  have h := toneGenCmd_ok (v := withAction v n) (by rw [hchan]; exact hc) (by rw [hdir]; exact hkind) hq
  rw [h, hchan, hdir]

end State

/-- Settles O23: each action is `ecanCmd_ok` with what it adds. -/
theorem cancellerActions : Obligations.CancellerActions := by
  unfold Obligations.CancellerActions
  intro s t p ch c hs hbusy hc hec
  have hgives : ∀ action profile x, ecAction action profile = some x →
      ∃ u, (s.act t fun s => s.hostWrite p Reg.ECAN_CH_CMD fun s => s.ecanCmd ch.toNat action profile) = .next u
        ∧ (s.atTick t).GivesCtls u Pg.ECAN ch.toNat c (c.ctls ++ [(s.clk.n + 1, .ec x)]) := fun action profile x hx =>
    State.serves_gives (fun s => s.ecanCmd ch.toNat action profile) hs (State.ecanCmd_ok (s := s.atTick t) hbusy hc hec hx)
      (State.givesCtls_addCtl (s := s.atTick t) (.ec x) hc)
  exact ⟨hgives 1 0 _ rfl, hgives 2 0 _ rfl, hgives 3 0 _ rfl, hgives 4 0 _ rfl, hgives 5 0 _ rfl, hgives 6 0 _ rfl, hgives 7 0 _ rfl,
    hgives 8 0 _ rfl, hgives 9 0 _ rfl, fun prof => hgives 10 prof.toNat _ rfl⟩

namespace State

/-- The relayed event on a leg of one life ends (R207). -/
def endRelay (s : State) (uid : Nat) (b : Bool) : State :=
  s.modLife uid fun c => c.modLeg b fun x => { x with relayRx := x.relayRx.finish 0 }

/-- A relayed event that timed out ends on its leg, and that counts. -/
theorem relayTimeout_eq {s : State} {uid : Nat} {b : Bool} {c : Chan} (hc : s.life uid = some c) (h : (c.leg b).relayRx.timedOut = true) :
    s.relayTimeout uid b
      = ((s.endRelay uid b).inc Reg.TONE_RELAY_TIMEOUT_CNT Fd.TONE_RELAY_TIMEOUT_CNT.COUNT).event Pg.TONE Ev.TONE.RELAY_TIMEOUT := by
  unfold relayTimeout
  rw [hc]
  exact if_pos h

theorem endRelay_only (s : State) (uid : Nat) (b : Bool) :
    ({ s with chans := (s.endRelay uid b).chans, closing := (s.endRelay uid b).closing } : State) = s.endRelay uid b := rfl

theorem chan_congr {s u : State} (h : u.chans = s.chans) (num : Nat) : u.chan num = s.chan num := by
  rw [chan, h, chan]

theorem relayTimeout_spec {s : State} {num : Nat} {b : Bool} {c : Chan} (hc : s.chan num = some c) (hlife : s.life c.uid = some c)
    (h : (c.leg b).relayRx.timedOut = true) :
    (s.relayTimeout c.uid b).chan num = some (c.modLeg b fun x => { x with relayRx := x.relayRx.finish 0 })
      ∧ (∀ m d, s.chan m = some d → d.uid ≠ c.uid → (s.relayTimeout c.uid b).chan m = some d)
      ∧ (s.relayTimeout c.uid b).get Reg.TONE_RELAY_TIMEOUT_CNT Fd.TONE_RELAY_TIMEOUT_CNT.COUNT
          = min (s.get Reg.TONE_RELAY_TIMEOUT_CNT Fd.TONE_RELAY_TIMEOUT_CNT.COUNT + 1) (2 ^ 32 - 1)
      ∧ (s.relayTimeout c.uid b).Latched Pg.TONE Ev.TONE.RELAY_TIMEOUT
      ∧ OnlyEvents { s with chans := (s.relayTimeout c.uid b).chans, closing := (s.relayTimeout c.uid b).closing } (s.relayTimeout c.uid b)
          [Reg.TONE_RELAY_TIMEOUT_CNT] := by
  have hself : (s.endRelay c.uid b).chan num = some (c.modLeg b fun x => { x with relayRx := x.relayRx.finish 0 }) := by
    rw [endRelay, chan_modLife, hc, Option.map_some, if_pos rfl]
  have hother : ∀ m d, s.chan m = some d → d.uid ≠ c.uid → (s.endRelay c.uid b).chan m = some d := fun m d hm hd =>
    chan_modLife_ne s c.uid m _ hm hd
  have hcount : (s.endRelay c.uid b).get Reg.TONE_RELAY_TIMEOUT_CNT Fd.TONE_RELAY_TIMEOUT_CNT.COUNT
      = s.get Reg.TONE_RELAY_TIMEOUT_CNT Fd.TONE_RELAY_TIMEOUT_CNT.COUNT := rfl
  have honly := endRelay_only s c.uid b
  rw [relayTimeout_eq hlife h]
  generalize s.endRelay c.uid b = v at hself hother hcount honly
  have hframe := ((OnlyEvents.same (s := v) (r := [Reg.TONE_RELAY_TIMEOUT_CNT])).inc (a := Reg.TONE_RELAY_TIMEOUT_CNT)
    Fd.TONE_RELAY_TIMEOUT_CNT.COUNT 1 (by simp)).event Pg.TONE Ev.TONE.RELAY_TIMEOUT
  have hlatch := event_latched (v.inc Reg.TONE_RELAY_TIMEOUT_CNT Fd.TONE_RELAY_TIMEOUT_CNT.COUNT) Pg.TONE Ev.TONE.RELAY_TIMEOUT (by decide)
  have hget : ((v.inc Reg.TONE_RELAY_TIMEOUT_CNT Fd.TONE_RELAY_TIMEOUT_CNT.COUNT).event Pg.TONE Ev.TONE.RELAY_TIMEOUT).get
      Reg.TONE_RELAY_TIMEOUT_CNT Fd.TONE_RELAY_TIMEOUT_CNT.COUNT
      = min (s.get Reg.TONE_RELAY_TIMEOUT_CNT Fd.TONE_RELAY_TIMEOUT_CNT.COUNT + 1) (2 ^ 32 - 1) := by
    rw [get_event _ _ _ _ (by decide), get_inc_same _ _ _ _ (by decide) (by decide), hcount]
    rfl
  generalize (v.inc Reg.TONE_RELAY_TIMEOUT_CNT Fd.TONE_RELAY_TIMEOUT_CNT.COUNT).event Pg.TONE Ev.TONE.RELAY_TIMEOUT = u
    at hframe hlatch hget
  refine ⟨(chan_congr hframe.chans num).trans hself, fun m d hm hd => (chan_congr hframe.chans m).trans (hother m d hm hd), hget, hlatch, ?_⟩
  rw [hframe.chans, hframe.closing, honly]
  exact hframe

/-- A leg of an open channel. -/
theorem legChan_eq {s : State} {leg : Nat} {c : Chan} (hc : s.chan (leg / 2) = some c) : s.legChan leg = some (c, decide (leg % 2 = 1)) := by
  rw [legChan, hc]
  rfl

end State

/-- Settles O24: `rateCmd_ok`, `toneGenCmd_gives`, and the end of a relayed event. -/
theorem legActions : Obligations.LegActions := by
  unfold Obligations.LegActions
  refine ⟨fun s t p hs => ⟨fun leg c hbusy hc => ?_, fun v c hc => ?_⟩, fun s t leg c hup hc hlife hout => ?_⟩
  · have hgives : ∀ action x, State.rateAction action = some x →
        (x.freeze.isSome = true → (c.cfg.leg (leg.toNat % 2 = 1)).hasRate = true) →
        ∃ u, (s.act t fun s => s.hostWrite p Reg.RATE_LEG_CMD fun s => s.rateCmd leg.toNat action) = .next u
          ∧ (s.atTick t).GivesCtls u Pg.RATE (leg.toNat / 2) c (c.ctls ++ [(s.clk.n + 1, .rate (leg.toNat % 2 = 1) x)]) :=
      fun action x hx hleg => State.serves_gives (fun s => s.rateCmd leg.toNat action) hs
        (State.rateCmd_ok (s := s.atTick t) hbusy hc hx hleg) (State.givesCtls_addCtl (s := s.atTick t) (.rate (leg.toNat % 2 = 1) x) hc)
    exact ⟨fun h => hgives 1 _ rfl fun _ => h, fun h => hgives 2 _ rfl fun _ => h, hgives 3 _ rfl fun h => absurd h (by decide)⟩
  · intro b Gives hkind
    have hgives : ∀ n q, (s.atTick t).genRequest (State.withAction v n) = some q →
        ∃ u, (s.act t fun s => s.hostWrite p Reg.TONE_GEN_CMD fun s => s.toneGenCmd (State.withAction v n)) = .next u
          ∧ (s.atTick t).GivesCtls u Pg.TONE (fieldOf v Fd.TONE_GEN_CMD.CHANNEL) c
              (c.ctls.filter (fun k => !State.genWaits (s.clk.n + 1) b k) ++ [(s.clk.n + 1, .gen b q)]) := fun n q hq =>
      State.serves_gives (fun s => s.toneGenCmd (State.withAction v n)) hs (State.toneGenCmd_gives (s := s.atTick t) hc hkind hq)
        (State.givesCtls_addGen (s := s.atTick t) b q hc)
    exact ⟨hgives 1 _ (State.genRequest_dtmf (s.atTick t) v), fun h => hgives 2 _ (State.genRequest_desc (s := s.atTick t) h),
      hgives 3 _ (State.genRequest_stop (s.atTick t) v)⟩
  · have hspec := State.relayTimeout_spec (s := s.atTick t) (b := leg.toNat % 2 = 1) hc hlife hout
    have hleg := State.legChan_eq (s := s.atTick t) (leg := leg.toNat) hc
    generalize hu : (s.atTick t).relayTimeout c.uid (leg.toNat % 2 = 1) = u at hspec
    obtain ⟨hself, hother, hcount, hlatch, hframe⟩ := hspec
    refine ⟨u, State.act_of_eq (fun s => match s.legChan leg.toNat with
      | some (c, b) => s.relayTimeout c.uid b
      | none => s) hup ?_ hframe.clk hframe.pending, hself, hother, hcount, hlatch, hframe⟩
    rw [hleg]
    exact hu

namespace State
/-! ## SRTP keys (R165, R292) -/

theorem srtpCtx_setSrtp (s : State) (c j : Nat) (x : SrtpCtx) : (s.setSrtp c x).srtpCtx j = if j = c then x else s.srtpCtx j :=
  Assoc.get_set (fun _ => ({ rx := SrtpDir.fresh, tx := SrtpDir.fresh } : SrtpCtx)) s.nw.srtp c j x

theorem srtpCtx_congr {s u : State} (h : u.nw = s.nw) (c : Nat) : u.srtpCtx c = s.srtpCtx c := by
  rw [srtpCtx, h, srtpCtx]

theorem rd_foldl_wr_ne (s : State) {a : Nat} (f : Nat → Nat) (l : List Nat) (h : ∀ k ∈ l, a ≠ f k) :
    (l.foldl (fun s k => s.wr (f k) 0) s).rd a = s.rd a := by
  induction l generalizing s with
  | nil => rfl
  | cons k l ih =>
    rw [List.foldl_cons, ih _ fun j hj => h j (List.mem_cons_of_mem _ hj), rd_wr_ne _ _ (h k List.mem_cons_self)]

/-- A run of registers that are cleared reads 0. -/
theorem rd_foldl_clear (s : State) (f : Nat → Nat) (l : List Nat) (hf : ∀ i j, f i = f j → i = j) {k : Nat} (hk : k ∈ l) :
    (l.foldl (fun s k => s.wr (f k) 0) s).rd (f k) = 0 := by
  induction l generalizing s with
  | nil => exact absurd hk (List.not_mem_nil)
  | cons j l ih =>
    rw [List.foldl_cons]
    by_cases hl : k ∈ l
    · exact ih _ hl
    · obtain rfl : k = j := (List.mem_cons.mp hk).resolve_right hl
      rw [rd_foldl_wr_ne _ f l fun i hi he => hl (by rw [hf k i he]; exact hi), rd_wr_same]

/-- The key registers read 0 once they are cleared. -/
theorem clearKeyRegs_rd (s : State) :
    (∀ k, k < 8 → s.clearKeyRegs.rd (Reg.SRTP_KEY k) = 0) ∧ (∀ k, k < 4 → s.clearKeyRegs.rd (Reg.SRTP_SALT k) = 0)
      ∧ s.clearKeyRegs.rd Reg.SRTP_MKI = 0 := by
  unfold clearKeyRegs
  refine ⟨fun k hk => ?_, fun k hk => ?_, rd_wr_same _ _ _⟩
  · rw [rd_wr_ne _ _ (by unfold Reg.SRTP_KEY Reg.SRTP_MKI; omega),
      rd_foldl_wr_ne _ Reg.SRTP_SALT _ fun j hj => by have := List.mem_range.mp hj; unfold Reg.SRTP_KEY Reg.SRTP_SALT; omega]
    exact rd_foldl_clear s Reg.SRTP_KEY _ (fun i j h => by unfold Reg.SRTP_KEY at h; omega) (List.mem_range.mpr hk)
  · rw [rd_wr_ne _ _ (by unfold Reg.SRTP_SALT Reg.SRTP_MKI; omega)]
    exact rd_foldl_clear _ Reg.SRTP_SALT _ (fun i j h => by unfold Reg.SRTP_SALT at h; omega) (List.mem_range.mpr hk)

theorem foldl_wr_regs (s : State) (f : Nat → Nat) (l : List Nat) :
    ({ l.foldl (fun s k => s.wr (f k) 0) s with regs := s.regs } : State) = s := by
  induction l generalizing s with
  | nil => rfl
  | cons k l ih =>
    have h := congrArg (fun z : State => ({ z with regs := s.regs } : State)) (ih (s.wr (f k) 0))
    exact h

theorem clearKeyRegs_only (s : State) : ({ s.clearKeyRegs with regs := s.regs } : State) = s := by
  have hkey := foldl_wr_regs s Reg.SRTP_KEY (List.range 8)
  have hsalt := foldl_wr_regs ((List.range 8).foldl (fun s k => s.wr (Reg.SRTP_KEY k) 0) s) Reg.SRTP_SALT (List.range 4)
  unfold clearKeyRegs
  generalize (List.range 8).foldl (fun s k => s.wr (Reg.SRTP_KEY k) 0) s = v at hkey hsalt ⊢
  have h := congrArg (fun z : State => ({ z with regs := s.regs } : State)) hsalt
  exact h.trans hkey

/-- The context that an SRTP command leaves. -/
def srtpAfter (s : State) (action : Nat) (v : Word) : SrtpCtx :=
  let x := s.srtpCtx (fieldOf v Fd.SRTP_CMD.CONTEXT)
  let k := s.keyRegs (fieldOf v Fd.SRTP_CMD.SUITE) (fieldOf v Fd.SRTP_CMD.MKI_LEN)
  if fieldOf v Fd.SRTP_CMD.DIR = 1 then { x with tx := dirAfter x.tx action k } else { x with rx := dirAfter x.rx action k }

/-- An accepted SRTP command (R292). -/
theorem srtpCmd_ok {s : State} {action : Nat} {v : Word} (hwipe : s.wipeBars = false)
    (hbring : action ≠ 3 → s.modes.bringup = false) (haction : 1 ≤ action ∧ action ≤ 3)
    (hfields : action ≠ 3 → fieldOf v Fd.SRTP_CMD.SUITE ≤ 5 ∧ fieldOf v Fd.SRTP_CMD.MKI_LEN ≤ 4) :
    s.srtpCmd action v
      = ((s.setSrtp (fieldOf v Fd.SRTP_CMD.CONTEXT) (s.srtpAfter action v)).clearKeyRegs).status Pg.SRTP .ok := by
  have hmode : ¬ (s.wipeBars || (s.modes.bringup && (decide (action = 1) || decide (action = 2)))) = true := by
    by_cases h3 : action = 3
    · simp [hwipe, h3]
    · simp [hwipe, hbring h3]
  have hbad : ¬ (decide (action = 0) || decide (3 < action) || (action != 3 && (decide (5 < fieldOf v Fd.SRTP_CMD.SUITE)
      || decide (4 < fieldOf v Fd.SRTP_CMD.MKI_LEN)))) = true := by
    by_cases h3 : action = 3
    · simp [h3]
    · obtain ⟨hsuite, hlen⟩ := hfields h3
      simp only [Bool.or_eq_true, decide_eq_true_eq, Bool.and_eq_true, bne_iff_ne]
      omega
  unfold srtpCmd
  dsimp only
  rw [if_neg hmode, if_neg hbad]
  rfl

/-- A refused SRTP command (R543, R553). -/
theorem srtpCmd_barred {s : State} {action : Nat} {v : Word}
    (h : s.wipeBars = true ∨ s.modes.bringup = true ∧ (action = 1 ∨ action = 2)) : s.srtpCmd action v = s.status Pg.SRTP .notInMode :=
  if_pos (by simpa using h)

theorem setSrtp_only (s : State) (ctx : Nat) (x : SrtpCtx) :
    ({ s.setSrtp ctx x with regs := s.regs, nw := { (s.setSrtp ctx x).nw with srtp := s.nw.srtp } } : State) = s := rfl

/-- What an accepted command leaves of contexts, key registers and everything else. -/
theorem srtpCmd_spec {s u : State} {ctx : Nat} {x : SrtpCtx} (hu : u = (s.setSrtp ctx x).clearKeyRegs.status Pg.SRTP .ok) :
    u.srtpCtx ctx = x ∧ (∀ c, c ≠ ctx → u.srtpCtx c = s.srtpCtx c) ∧ u.Reports Pg.SRTP .ok
      ∧ (∀ k, k < 8 → u.rd (Reg.SRTP_KEY k) = 0) ∧ (∀ k, k < 4 → u.rd (Reg.SRTP_SALT k) = 0) ∧ u.rd Reg.SRTP_MKI = 0
      ∧ { u with regs := s.regs, nw := { u.nw with srtp := s.nw.srtp } } = s := by
  obtain ⟨hkey, hsalt, hmki⟩ := clearKeyRegs_rd (s.setSrtp ctx x)
  have honly := clearKeyRegs_only (s.setSrtp ctx x)
  have hctx := fun c => srtpCtx_setSrtp s ctx c x
  have hback := setSrtp_only s ctx x
  generalize s.setSrtp ctx x = v at hu honly hctx hkey hsalt hmki hback
  generalize v.clearKeyRegs = z at hu honly hkey hsalt hmki
  have hznw := congrArg State.nw honly
  have hnw : u.nw = v.nw := (congrArg State.nw hu).trans hznw
  have hall := congrArg (fun y : State => ({ y with regs := s.regs, nw := { y.nw with srtp := s.nw.srtp } } : State)) honly
  refine ⟨?_, fun c hc => ?_, ?_, fun k hk => ?_, fun k hk => ?_, ?_, ?_⟩
  · rw [srtpCtx_congr hnw, hctx, if_pos rfl]
  · rw [srtpCtx_congr hnw, hctx, if_neg hc]
  · rw [hu]
    exact reports_status _ _ _
  · rw [hu, rd_status_ne _ _ (by unfold Reg.SRTP_KEY; simp only [Reg.PAGE_STATUS, Pg.SRTP]; omega), hkey k hk]
  · rw [hu, rd_status_ne _ _ (by unfold Reg.SRTP_SALT; simp only [Reg.PAGE_STATUS, Pg.SRTP]; omega), hsalt k hk]
  · rw [hu, rd_status_ne _ _ (by decide), hmki]
  · rw [hu]
    exact hall.trans hback

end State

/-- Settles O25: an accepted command is `srtpCmd_ok` with `srtpCmd_spec`, a refused one is `srtpCmd_barred`. -/
theorem srtpKeys : Obligations.SrtpKeys := by
  unfold Obligations.SrtpKeys
  intro s t p v hs ctx tx suite len dir other Gives d key
  have hgives : ∀ action e, (s.atTick t).srtpCmd action v
        = (((s.atTick t).setSrtp ctx ((s.atTick t).srtpAfter action v)).clearKeyRegs).status Pg.SRTP .ok →
      dir ((s.atTick t).srtpAfter action v) = e → other ((s.atTick t).srtpAfter action v) = other (s.srtpCtx ctx) →
      ∃ u, (s.act t fun s => s.hostWrite p Reg.SRTP_CMD fun s => s.srtpCmd action v) = .next u ∧ dir (u.srtpCtx ctx) = e
        ∧ other (u.srtpCtx ctx) = other (s.srtpCtx ctx) ∧ (∀ c, c ≠ ctx → u.srtpCtx c = s.srtpCtx c) ∧ u.Reports Pg.SRTP .ok
        ∧ (∀ k, k < 8 → u.rd (Reg.SRTP_KEY k) = 0) ∧ (∀ k, k < 4 → u.rd (Reg.SRTP_SALT k) = 0) ∧ u.rd Reg.SRTP_MKI = 0
        ∧ { u with regs := s.regs, nw := { u.nw with srtp := s.nw.srtp } } = s.atTick t := by
    intro action e heq hdir hother
    obtain ⟨hctx, hrest, hst, hkey, hsalt, hmki, honly⟩ := State.srtpCmd_spec heq
    have hclk := congrArg State.clk honly
    have hpend := congrArg State.pending honly
    generalize hu : (s.atTick t).srtpCmd action v = u at hctx hrest hst hkey hsalt hmki honly hclk hpend
    refine ⟨u, State.serves_of_eq (fun s => s.srtpCmd action v) hs hu hclk hpend, ?_, ?_, hrest, hst, hkey, hsalt, hmki, honly⟩
    · rw [hctx, hdir]
    · rw [hctx, hother]
  have hdir : ∀ action, dir ((s.atTick t).srtpAfter action v) = State.dirAfter d action key := fun action => by
    by_cases h : fieldOf v Fd.SRTP_CMD.DIR = 1 <;> simp only [dir, d, tx, State.srtpAfter, h] <;> rfl
  have hother : ∀ action, other ((s.atTick t).srtpAfter action v) = other (s.srtpCtx ctx) := fun action => by
    by_cases h : fieldOf v Fd.SRTP_CMD.DIR = 1 <;> simp only [other, tx, State.srtpAfter, h] <;> rfl
  refine ⟨fun hwipe hbring hsuite hlen => ⟨?_, ?_⟩, fun hwipe => ?_, fun hbar => ⟨?_, ?_⟩, fun hwipe => ?_⟩
  · exact hgives 1 _ (State.srtpCmd_ok (s := s.atTick t) hwipe (fun _ => hbring) (by decide) fun _ => ⟨hsuite, hlen⟩) (hdir 1) (hother 1)
  · exact hgives 2 _ (State.srtpCmd_ok (s := s.atTick t) hwipe (fun _ => hbring) (by decide) fun _ => ⟨hsuite, hlen⟩) (hdir 2) (hother 2)
  · exact hgives 3 _ (State.srtpCmd_ok (s := s.atTick t) hwipe (fun h => absurd rfl h) (by decide) fun h => absurd rfl h) (hdir 3) (hother 3)
  · exact State.serves_of_eq (fun s => s.srtpCmd 1 v) hs (State.srtpCmd_barred (s := s.atTick t) (hbar.symm.imp_right fun h => ⟨h, by decide⟩))
      rfl rfl
  · exact State.serves_of_eq (fun s => s.srtpCmd 2 v) hs (State.srtpCmd_barred (s := s.atTick t) (hbar.symm.imp_right fun h => ⟨h, by decide⟩))
      rfl rfl
  · exact State.serves_of_eq (fun s => s.srtpCmd 3 v) hs (State.srtpCmd_barred (s := s.atTick t) (.inl hwipe)) rfl rfl

end Sys2Proof.Machine
end

section
/-! PROOFS. The endpoint directory: commands that start, and what a completed one leaves (R279 to R284). -/

namespace Sys2Proof.Machine

namespace State

/-! ## Starting (R282) -/

theorem epdStart_busy {s : State} (op handle : Nat) (h : s.isBusy Pg.EPD = true) : s.epdStart op handle = s.status Pg.EPD .busy := by
  rw [epdStart, h]
  rfl

theorem epdStart_idle {s : State} {op : Nat} (handle : Nat) (h : s.isBusy Pg.EPD = false) (hop : 1 ≤ op ∧ op ≤ 5) :
    s.epdStart op handle = { s with nw := { s.nw with epd := { s.nw.epd with cmd := some (op, handle, s.epdData) } } }.setBusy Pg.EPD true := by
  have hserve : ¬ (decide (op = 0) || decide (5 < op)) = true := by
    simp only [Bool.or_eq_true, decide_eq_true_eq]
    omega
  rw [epdStart, h, if_neg (by simp), if_neg hserve]

/-! ## Results (R282) -/

/-- The end of a command: its results, and nothing of the directory. -/
theorem epdResult_spec (s : State) (st : Status) (found : Bool) (handle : Nat) :
    (s.epdResult st found handle).Reports Pg.EPD st ∧ (s.epdResult st found handle).flag Reg.EPD_RESULT Fd.EPD_RESULT.FOUND = found
      ∧ (s.epdResult st found handle).get Reg.EPD_RESULT Fd.EPD_RESULT.HANDLE = handle % 2 ^ 23
      ∧ (s.epdResult st found handle).isBusy Pg.EPD = false ∧ (s.epdResult st found handle).Latched Pg.EPD Ev.EPD.CMD_DONE
      ∧ OnlyEvents s (s.epdResult st found handle) [Reg.EPD_RESULT, Reg.PAGE_STATUS Pg.EPD] := by
  unfold epdResult
  dsimp only
  have hst : ∀ f, ((((s.putB Reg.EPD_RESULT Fd.EPD_RESULT.FOUND found).put Reg.EPD_RESULT Fd.EPD_RESULT.HANDLE handle).setBusy Pg.EPD
      false).status Pg.EPD st).get Reg.EPD_RESULT f
      = ((s.putB Reg.EPD_RESULT Fd.EPD_RESULT.FOUND found).put Reg.EPD_RESULT Fd.EPD_RESULT.HANDLE handle).get Reg.EPD_RESULT f := fun f => by
    rw [get_status_ne _ _ _ (by decide), setBusy, putB, get_put_ne _ _ _ _ (by decide)]
  refine ⟨?_, ?_, ?_, ?_, event_latched _ _ _ (by decide),
    (((((OnlyEvents.same.putB _ _ (by simp)).put _ _ (by simp)).setBusy _ (by simp)).status _ (by simp)).event _ _)⟩
  · exact (reports_status _ _ _).congr (rd_event _ _ _ (by decide))
  · rw [flag, get_event _ _ _ _ (by decide), hst, get_put_other _ _ _ _ _ (by decide) (by decide) (by decide) (by decide), putB,
      get_put_same _ _ _ _ (by decide) (by decide)]
    cases found <;> rfl
  · rw [get_event _ _ _ _ (by decide), hst, get_put_same _ _ _ _ (by decide) (by decide)]
    rfl
  · rw [isBusy_congr (rd_event _ _ _ (by decide)), isBusy_status, isBusy_setBusy]

/-! ## Completion (R283) -/

/-- The state from which a command in progress completes. -/
def epdTaken (s : State) : State := { s with nw := { s.nw with epd := { s.nw.epd with cmd := none } } }

/-- The records of the directory in GDDR-6, with the ways. -/
def withRecs (s : State) (recs : Assoc EpRec) (ways : Assoc (Nat × Nat)) : State :=
  { s with nw := { s.nw with epd := { s.nw.epd with recs := recs, ways := ways } } }.put Reg.EPD_COUNT Fd.EPD_COUNT.COUNT recs.length

section
variable {s : State} (hended : s.modes.ended = true)
include hended

theorem epdOnChip_of_ended : s.epdOnChip = false := by simp [epdOnChip, hended]

theorem epdRecs_of_ended : s.epdRecs = s.nw.epd.recs := by rw [epdRecs, epdOnChip_of_ended hended]; rfl

theorem copyAgain_of_ended : s.copyAgain = s := by rw [copyAgain, epdOnChip_of_ended hended]; rfl

theorem setEpdRecs_of_ended (m : Assoc EpRec) : s.setEpdRecs m = s.withRecs m s.nw.epd.ways := by
  have hkeep : ∀ e : Epd, ({ s with nw := { s.nw with epd := e } }.put Reg.EPD_COUNT Fd.EPD_COUNT.COUNT m.length).epdOnChip = s.epdOnChip :=
    fun _ => rfl
  unfold setEpdRecs
  dsimp only
  rw [hkeep, epdOnChip_of_ended hended]
  rfl

theorem epdInsert_held {h : Nat} {d : List Byte} {x : EpRec} (hkey : keyReserved d = false) (hpos : h < s.epdPositions)
    (hfields : recFieldsOk d (leAt d 2 1) = true) (hx : s.nw.epd.recs.find? h = some x) :
    s.epdInsert h d = s.epdResult .conflict false h := by
  unfold epdInsert
  rw [if_neg (by simp [hkey, hfields, hpos]), epdRecs_of_ended hended, if_pos (by simp [hx])]

theorem epdAdd_placed {h n : Nat} {r : EpRec} {ways : Assoc (Nat × Nat)}
    (hplace : epdPlace s.epdWidth (epdHash r.key, h) s.nw.epd.ways = some (ways, n)) :
    s.epdAdd h r = some (s.withRecs (s.nw.epd.recs.insert h r) ways, n) := by
  unfold epdAdd
  rw [epdOnChip_of_ended hended, hplace]
  have hset := setEpdRecs_of_ended (s := { s with nw := { s.nw with epd := { s.nw.epd with ways := ways } } }) hended (s.nw.epd.recs.insert h r)
  simp only [Bool.false_eq_true, if_false]
  rw [hset]
  rfl

theorem epdInsert_new {h n : Nat} {d : List Byte} {ways : Assoc (Nat × Nat)} (hkey : keyReserved d = false) (hpos : h < s.epdPositions)
    (hfields : recFieldsOk d (leAt d 2 1) = true) (hfree : s.nw.epd.recs.find? h = none) (hnew : s.epdLookup (slice d 0 40) = none)
    (hplace : epdPlace s.epdWidth (epdHash (slice d 0 40), h) s.nw.epd.ways = some (ways, n)) :
    s.epdInsert h d = (((s.withRecs (s.nw.epd.recs.insert h (recOf d s.clk.cycles)) ways).put Reg.EPD_DISP Fd.EPD_DISP.DISP n).raise
      Reg.EPD_MAXDISP Fd.EPD_MAXDISP.DISP n).epdResult .ok false h := by
  unfold epdInsert
  rw [if_neg (by simp [hkey, hfields, hpos]), epdRecs_of_ended hended, if_neg (by simp [hfree]), hnew]
  dsimp only
  have hadd := epdAdd_placed (r := recOf d s.clk.cycles) hended hplace
  rw [hadd]

theorem epdDelete_free {h : Nat} (hx : s.nw.epd.recs.find? h = none) : s.epdDelete h = s.epdResult .badParam false h := by
  unfold epdDelete
  rw [epdRecs_of_ended hended, if_pos (by simp [hx])]

theorem epdDelete_held {h : Nat} {x : EpRec} (hx : s.nw.epd.recs.find? h = some x) :
    s.epdDelete h
      = (s.withRecs (s.nw.epd.recs.erase h) (s.nw.epd.ways.filter fun p => p.2.2 ≠ h)).epdResult .ok false h := by
  have hended' : (s.withRecs (s.nw.epd.recs.erase h) s.nw.epd.ways).modes.ended = true := hended
  unfold epdDelete
  rw [epdRecs_of_ended hended, if_neg (by simp [hx]), setEpdRecs_of_ended hended]
  dsimp only
  rw [copyAgain_of_ended hended', epdOnChip_of_ended hended']
  rfl

theorem epdModify_held {h : Nat} {d : List Byte} {x : EpRec} (hx : s.nw.epd.recs.find? h = some x)
    (hfields : recFieldsOk d (leAt x.key 2 1) = true) :
    s.epdModify h d = (s.withRecs (s.nw.epd.recs.insert h (x.modify d)) s.nw.epd.ways).epdResult .ok false h := by
  have hended' : (s.withRecs (s.nw.epd.recs.insert h (x.modify d)) s.nw.epd.ways).modes.ended = true := hended
  unfold epdModify
  rw [epdRecs_of_ended hended, hx]
  dsimp only
  rw [if_neg (by simp [hfields]), setEpdRecs_of_ended hended, copyAgain_of_ended hended']

theorem epdRead_held {h : Nat} {x : EpRec} (hx : s.nw.epd.recs.find? h = some x) :
    s.epdRead h = (s.putEpdData (bytesWords 48 x.bytes) 0).epdResult .ok false h := by
  unfold epdRead
  rw [epdRecs_of_ended hended, hx]

end

theorem epdSearch_eq {s : State} (h : Nat) {d : List Byte} (hkey : keyReserved d = false) (hproto : protoOk (leAt d 2 1) = true) :
    s.epdSearch h d = s.epdResult .ok (s.epdLookup (slice d 0 40)).isSome ((s.epdLookup (slice d 0 40)).getD 0) := by
  unfold epdSearch
  rw [if_neg (by simp [hkey, hproto])]
  cases s.epdLookup (slice d 0 40) <;> rfl

/-- Words of EPD_DATA, one after another. -/
theorem putEpdData_rd (s : State) (ws : List Word) (i k : Nat) :
    (s.putEpdData ws i).rd (Reg.EPD_DATA k) = if i ≤ k ∧ k < i + ws.length then ws.getD (k - i) 0 else s.rd (Reg.EPD_DATA k) := by
  induction ws generalizing s i with
  | nil => simp [putEpdData]
  | cons w ws ih =>
    rw [putEpdData, ih]
    by_cases hk : k = i
    · subst hk
      rw [if_neg (by omega), rd_wr_same, if_pos (by simp)]
      simp
    · rw [rd_wr_ne _ _ (by unfold Reg.EPD_DATA; omega)]
      by_cases hin : i + 1 ≤ k ∧ k < i + 1 + ws.length
      · obtain ⟨m, rfl⟩ : ∃ m, k = i + 1 + m := ⟨k - (i + 1), by omega⟩
        rw [if_pos hin, if_pos (by simp only [List.length_cons]; omega)]
        rw [show i + 1 + m - i = m + 1 by omega, show i + 1 + m - (i + 1) = m by omega]
        rfl
      · rw [if_neg hin, if_neg (by simp only [List.length_cons]; omega)]

theorem putEpdData_frame (s : State) (ws : List Word) (i : Nat) : ({ s.putEpdData ws i with regs := s.regs } : State) = s := by
  induction ws generalizing s i with
  | nil => rfl
  | cons w ws ih =>
    have h := congrArg (fun z : State => ({ z with regs := s.regs } : State)) (ih (s.wr (Reg.EPD_DATA i) w) (i + 1))
    exact h

theorem length_bytesWords (k : Nat) (bs : List Byte) : (bytesWords k bs).length = k := by
  induction k generalizing bs with
  | zero => rfl
  | succ k ih => rw [bytesWords, List.length_cons, ih]

/-- The completion of an operation. -/
def epdRun (s : State) (op h : Nat) (d : List Byte) : State :=
  match op with
  | 1 => s.epdInsert h d
  | 2 => s.epdDelete h
  | 3 => s.epdModify h d
  | 4 => s.epdRead h
  | _ => s.epdSearch h d

/-- A command in progress completes by its operation, outside the wipe (R283). -/
theorem epdDone_eq {s : State} {op h : Nat} {d : List Byte} (hcmd : s.nw.epd.cmd = some (op, h, d)) (hwipe : s.wiping = false) :
    s.epdDone = s.epdTaken.epdRun op h d := by
  have hserve : ¬ (s.epdTaken.wiping && (decide (op = 1) || decide (op = 3))) = true := by
    have hwipe' : s.epdTaken.wiping = false := hwipe
    simp [hwipe']
  unfold epdDone
  rw [hcmd]
  exact if_neg hserve

/-- A completion whose last step gives the results. -/
theorem epdDone_ends {s v : State} {t : Nat} {st : Status} {found : Bool} {handle : Nat} (hup : s.up = true)
    (hv : (s.atTick t).epdDone = v.epdResult st found handle) (hcmd : v.nw.epd.cmd = none) (hclk : v.clk = s.clk.advance t)
    (hpend : v.pending = s.pending) :
    ∃ u, (exec (.epdCmdDone t) s = .next u ∧ u.Reports Pg.EPD st ∧ u.flag Reg.EPD_RESULT Fd.EPD_RESULT.FOUND = found
        ∧ u.get Reg.EPD_RESULT Fd.EPD_RESULT.HANDLE = handle % 2 ^ 23 ∧ u.isBusy Pg.EPD = false ∧ u.nw.epd.cmd = none
        ∧ u.Latched Pg.EPD Ev.EPD.CMD_DONE)
      ∧ u.nw = v.nw ∧ ∀ a, a ∉ [Reg.EPD_RESULT, Reg.PAGE_STATUS Pg.EPD] → evtReg a = false → u.rd a = v.rd a := by
  obtain ⟨hst, hfound, hhandle, hbusy, hlatch, hframe⟩ := epdResult_spec v st found handle
  generalize v.epdResult st found handle = u at hv hst hfound hhandle hbusy hlatch hframe
  refine ⟨u, ⟨act_of_eq (fun s => s.epdDone) hup hv (hframe.clk.trans hclk) (hframe.pending.trans hpend), hst, hfound, hhandle, hbusy, ?_,
    hlatch⟩, hframe.nw, hframe.2⟩
  rw [hframe.nw]
  exact hcmd

end State

/-- Settles O27: the starts are `epdStart_idle` and `epdStart_busy`, and each completion is the branch of its operation. -/
theorem directoryCommands : Obligations.DirectoryCommands := by
  unfold Obligations.DirectoryCommands
  refine ⟨fun s t p h hs => ?_, fun s t op h d hup hwipe hended hcmd => ?_⟩
  · have hstart : ∀ op, 1 ≤ op ∧ op ≤ 5 →
        (s.isBusy Pg.EPD = false → (s.act t fun s => s.hostWrite p Reg.EPD_CMD fun s => s.epdStart op h.toNat)
          = .next (State.setBusy { s.atTick t with nw := { s.nw with epd := { s.nw.epd with cmd := some (op, h.toNat, s.epdData) } } }
              Pg.EPD true))
        ∧ (s.isBusy Pg.EPD = true → (s.act t fun s => s.hostWrite p Reg.EPD_CMD fun s => s.epdStart op h.toNat)
          = .next ((s.atTick t).status Pg.EPD .busy)) := fun op hop =>
      ⟨fun hbusy => State.serves_of_eq (fun s => s.epdStart op h.toNat) hs (State.epdStart_idle (s := s.atTick t) h.toNat hbusy hop) rfl rfl,
       fun hbusy => State.serves_of_eq (fun s => s.epdStart op h.toNat) hs (State.epdStart_busy (s := s.atTick t) op h.toNat hbusy) rfl rfl⟩
    exact ⟨hstart 1 (by decide), hstart 2 (by decide), hstart 3 (by decide), hstart 4 (by decide), hstart 5 (by decide)⟩
  · intro Ends
    have hdone := State.epdDone_eq (s := s.atTick t) hcmd hwipe
    have hended' : (s.atTick t).epdTaken.modes.ended = true := hended
    refine ⟨?_, ?_, ?_, ?_, ?_⟩
    · rintro rfl hkey hpos hfields
      refine ⟨fun x hx => ?_, fun ways n hfree hnew hplace => ?_⟩
      · obtain ⟨u, hu, hnw, -⟩ := State.epdDone_ends hup (hdone.trans (State.epdInsert_held hended' hkey hpos hfields hx)) rfl rfl rfl
        exact ⟨u, hu, by rw [hnw]; rfl⟩
      · obtain ⟨u, hu, hnw, -⟩ := State.epdDone_ends hup
          (hdone.trans (State.epdInsert_new hended' hkey hpos hfields hfree hnew hplace)) rfl rfl rfl
        refine ⟨u, hu, ?_, by rw [hnw]; rfl, fun h' hne => ?_⟩
        · rw [hnw]
          exact (Assoc.find?_insert _ _ _ _).trans (if_pos rfl)
        · rw [hnw]
          exact (Assoc.find?_insert _ _ _ _).trans (if_neg hne)
    · rintro rfl
      refine ⟨fun hx => ?_, fun x hx => ?_⟩
      · obtain ⟨u, hu, hnw, -⟩ := State.epdDone_ends hup (hdone.trans (State.epdDelete_free hended' hx)) rfl rfl rfl
        exact ⟨u, hu, by rw [hnw]; rfl⟩
      · obtain ⟨u, hu, hnw, -⟩ := State.epdDone_ends hup (hdone.trans (State.epdDelete_held hended' hx)) rfl rfl rfl
        exact ⟨u, hu, by rw [hnw]; rfl, by rw [hnw]; rfl⟩
    · rintro rfl x hx hfields
      obtain ⟨u, hu, hnw, -⟩ := State.epdDone_ends hup (hdone.trans (State.epdModify_held hended' hx hfields)) rfl rfl rfl
      refine ⟨u, hu, ?_, fun h' hne => ?_⟩
      · rw [hnw]
        exact (Assoc.find?_insert _ _ _ _).trans (if_pos rfl)
      · rw [hnw]
        exact (Assoc.find?_insert _ _ _ _).trans (if_neg hne)
    · rintro rfl x hx
      have hframe := State.putEpdData_frame (s.atTick t).epdTaken (bytesWords 48 x.bytes) 0
      have hdata := State.putEpdData_rd (s.atTick t).epdTaken (bytesWords 48 x.bytes) 0
      have heq := hdone.trans (State.epdRead_held hended' hx)
      generalize (s.atTick t).epdTaken.putEpdData (bytesWords 48 x.bytes) 0 = v at hframe hdata heq
      have hnw := congrArg State.nw hframe
      have hclk := congrArg State.clk hframe
      have hpend := congrArg State.pending hframe
      obtain ⟨u, hu, hunw, hrd⟩ := State.epdDone_ends hup heq (congrArg (fun y : Net => y.epd.cmd) hnw) hclk hpend
      refine ⟨u, hu, ?_, fun k hk => ?_⟩
      · have hrecs := congrArg (fun y : Net => y.epd.recs) hnw
        rw [hunw]
        exact hrecs
      · rw [hrd _ (by simp [Reg.EPD_DATA, Reg.EPD_RESULT, Reg.PAGE_STATUS, Pg.EPD]; omega)
          (by simp [evtReg, Reg.EPD_DATA, Reg.LOG_LOST_CNT, Reg.MGMT_NET_DROP]; omega), hdata,
          State.length_bytesWords, if_pos (by omega)]
        rfl
    · rintro rfl hkey hproto
      obtain ⟨u, hu, hnw, -⟩ := State.epdDone_ends hup (hdone.trans (State.epdSearch_eq h hkey hproto)) rfl rfl rfl
      exact ⟨u, hu, by rw [hnw]; rfl, by rw [hnw]; rfl⟩

end Sys2Proof.Machine
end

section
/-! PROOFS. Received frames, fragments and overload (R274 to R290, R331, R388, R391). -/

namespace Sys2Proof.Machine

namespace State

/-! ## Chains that follow the level of shared packet memory -/

variable {s u v : State} {r r' : List Nat}

theorem OnlyMem.same : s.OnlyMem s r := ⟨rfl, fun _ => rfl, fun _ _ _ _ _ => rfl⟩

theorem OnlyMem.mono (h : s.OnlyMem u r) (hr : ∀ a ∈ r, a ∈ r') : s.OnlyMem u r' :=
  ⟨h.1, h.2.1, fun a ha => h.2.2 a fun hin => ha (hr a hin)⟩

theorem OnlyMem.weaken (h : s.OnlyMem u []) : s.OnlyMem u r := h.mono (by simp)

theorem OnlyMem.andThen (h : s.OnlyMem u r) (h' : u.OnlyMem v r) : s.OnlyMem v r := (h.trans h').mono (by simp)

theorem OnlyMem.events (h : s.OnlyMem u r) (h' : u.OnlyEvents v r) : s.OnlyMem v r := h.andThen h'.onlyMem

theorem OnlyMem.wr (h : s.OnlyMem u r) {a : Nat} (w : Word) (ha : a ∈ r) : s.OnlyMem (u.wr a w) r := h.events (OnlyEvents.same.wr w ha)

theorem OnlyMem.inc (h : s.OnlyMem u r) {a : Nat} (f : Fd) (d : Nat) (ha : a ∈ r) : s.OnlyMem (u.inc a f d) r := h.wr _ ha

theorem OnlyMem.incWrap (h : s.OnlyMem u r) {a : Nat} (f : Fd) (d : Nat) (ha : a ∈ r) : s.OnlyMem (u.incWrap a f d) r := h.wr _ ha

theorem OnlyMem.event (h : s.OnlyMem u r) (page b : Nat) : s.OnlyMem (u.event page b) r := h.events (OnlyEvents.same.event page b)

theorem OnlyMem.eventIf (h : s.OnlyMem u r) (c : Bool) (page b : Nat) : s.OnlyMem (u.eventIf c page b) r :=
  h.events (OnlyEvents.same.eventIf c page b)

theorem macReg_macCnt {p i : Nat} (hp : p < 8) (hi : i < 32) : macReg (Reg.MAC_CNT p i) = true := by
  simp only [macReg, Reg.MAC_CNT, Bool.and_eq_true, decide_eq_true_eq]
  omega

theorem macReg_notice {p : Nat} (hp : p < 8) : macReg (Reg.MAC_CNT_NOTICE p) = true := by
  simp only [macReg, Reg.MAC_CNT_NOTICE, Bool.and_eq_true, decide_eq_true_eq]
  omega

theorem OnlyMem.macCount (h : s.OnlyMem u r) {p i : Nat} (n : Nat) (hp : p < 8) (hi : i < 32) : s.OnlyMem (u.macCount p i n) r :=
  h.andThen (macCount_onlyMem u p i n (macReg_macCnt hp hi) (macReg_notice hp)).weaken

theorem OnlyMem.noteMem (h : s.OnlyMem u r) (more : Nat) : s.OnlyMem (u.noteMem more) r := h.andThen (noteMem_onlyMem u more).weaken

theorem OnlyMem.ite (c : Prop) [Decidable c] (h : s.OnlyMem u r) (h' : s.OnlyMem v r) : s.OnlyMem (if c then u else v) r := by
  split
  · exact h
  · exact h'

/-- A field of the state that the level of memory does not touch. -/
theorem OnlyMem.part {α : Type} (h : s.OnlyMem u r) (f : State → α)
    (hf : ∀ (z : State) a b c d e g m, f { z with regs := a, msixA := b, msixB := c, out := d, log := e, recent := g, nw := { z.nw with macs := m } }
      = f z := by intros; rfl) : f u = f s := (hf u _ _ _ _ _ _ _).symm.trans (congrArg f h.1)

theorem OnlyMem.rd (h : s.OnlyMem u r) {a : Nat} (ha : a ∉ r) (he : evtReg a = false) (hw : a ≠ Reg.PKT_MEM_HWM) (hm : macReg a = false) :
    u.rd a = s.rd a := h.2.2 a ha he hw hm

/-- The same change seen past an update `g` of parts that neither registers, events nor the ports' flow control hold. -/
theorem OnlyMem.under (g : State → State) (h : s.OnlyMem u r) (hregs : ∀ z, (g z).regs = z.regs := by intros; rfl)
    (hmacs : ∀ z, (g z).nw.macs = z.nw.macs := by intros; rfl)
    (hcomm : ∀ (z : State) a b c d e f m,
      ({ g z with regs := a, msixA := b, msixB := c, out := d, log := e, recent := f, nw := { (g z).nw with macs := m } } : State)
        = g { z with regs := a, msixA := b, msixB := c, out := d, log := e, recent := f, nw := { z.nw with macs := m } } := by intros; rfl) :
    (g s).OnlyMem (g u) r := by
  have hparts := hcomm s s.regs s.msixA s.msixB s.out s.log s.recent s.nw.macs
  have hmac : ∀ z p, (g z).mac p = z.mac p := fun z p => by rw [mac, hmacs, mac]
  have hrd : ∀ z a, (g z).rd a = z.rd a := fun z a => by rw [State.rd, hregs, State.rd]
  refine ⟨?_, fun p => ?_, fun a ha he hw hm => ?_⟩
  · have hs := congrArg g h.1
    rw [← hcomm] at hs
    rw [← hparts]
    exact hs.trans hparts.symm
  · rw [hmac, hmac]
    exact h.2.1 p
  · rw [hrd, hrd]
    exact h.2.2 a ha he hw hm

/-! ## Counts -/

theorem get_incWrap_same (s : State) (a : Nat) (f : Fd) (d : Nat) (h : f.lo ≤ f.hi) (h2 : f.hi < 32) :
    (s.incWrap a f d).get a f = (s.get a f + d) % 2 ^ (f.hi + 1 - f.lo) := by
  rw [incWrap, get_put_same _ _ _ _ h h2]

/-- A field is read off its register. -/
theorem get_congr {s u : State} {a : Nat} (h : u.rd a = s.rd a) (f : Fd) : u.get a f = s.get a f := by
  rw [get, h, get]

theorem OnlyMem.get (h : s.OnlyMem u r) {a : Nat} (f : Fd) (ha : a ∉ r) (he : evtReg a = false) (hw : a ≠ Reg.PKT_MEM_HWM)
    (hm : macReg a = false) : u.get a f = s.get a f := get_congr (h.rd ha he hw hm) f

/-- A register of an Ethernet port that is no counter and no notice keeps its value as the port counts. -/
theorem macCount_rd (s : State) (p i n : Nat) {a : Nat} (ha : a ≠ Reg.MAC_CNT p i) (hn : a ≠ Reg.MAC_CNT_NOTICE p) (he : evtReg a = false) :
    (s.macCount p i n).rd a = s.rd a := by
  unfold macCount
  dsimp only
  split
  · rfl
  · split
    · rw [(eventIf_onlyEvents _ _ _ _).2 a (by simp) he, rd_wr_ne _ _ hn]
      exact rd_wr_ne s _ ha
    · exact rd_wr_ne s _ ha

theorem evtReg_maxframe {p : Nat} (hp : p < 8) : evtReg (Reg.MAC_MAXFRAME p) = false := by
  interval_cases p <;> decide

theorem macCount_maxframe (s : State) {p : Nat} (hp : p < 8) {i : Nat} (hi : i < 32) (n : Nat) :
    (s.macCount p i n).rd (Reg.MAC_MAXFRAME p) = s.rd (Reg.MAC_MAXFRAME p) :=
  macCount_rd s p i n (by unfold Reg.MAC_MAXFRAME Reg.MAC_CNT; omega) (by unfold Reg.MAC_MAXFRAME Reg.MAC_CNT_NOTICE; omega) (evtReg_maxframe hp)

/-! ## The way through the ingress FIFO and the MAC (R331, R388, R391) -/

/-- The corrections of code blocks that come before the FIFO. -/
def fecStep (s : State) (p : Nat) (f : RxFrame) : State := (s.macCount p 20 f.fecCorr).macCount p 21 f.fecLost

theorem fecStep_spec (s : State) {p : Nat} (hp : p < 8) (f : RxFrame) :
    s.OnlyMem (s.fecStep p f) [] ∧ (s.fecStep p f).rd (Reg.MAC_MAXFRAME p) = s.rd (Reg.MAC_MAXFRAME p) :=
  ⟨(OnlyMem.same.macCount _ hp (by decide)).macCount _ hp (by decide),
   (macCount_maxframe _ hp (by decide) _).trans (macCount_maxframe s hp (by decide) _)⟩

/-- What the FIFO's register and its event show of a frame. -/
def fifoShown (s : State) (p : Nat) (f : RxFrame) : State :=
  let a := Reg.RING_MACFIFO p
  let ovr := !(macPass f).ignored.isEmpty
  let bad := !(macPass f).broken.isEmpty
  let v := s.inc a Fd.RING_MACFIFO.CORR (macPass f).corr
  let v := if ovr then v.putB a Fd.RING_MACFIFO.OVR true else v
  let v := if bad then v.putB a Fd.RING_MACFIFO.UNCORR true else v
  v.eventIf ((ovr && !s.flag a Fd.RING_MACFIFO.OVR) || (bad && !s.flag a Fd.RING_MACFIFO.UNCORR)) Pg.RING Ev.RING.FIFO_ERR

theorem fifoStep_eq (s : State) (p : Nat) (f : RxFrame) :
    s.fifoStep p f = if frameWhole f then (s.fifoShown p f, true)
      else ((s.fifoShown p f).inc Reg.RING_FIFO_DROP_CNT Fd.RING_FIFO_DROP_CNT.COUNT, false) := rfl

theorem evtReg_macfifo {p : Nat} (hp : p < 8) : evtReg (Reg.RING_MACFIFO p) = false := by
  interval_cases p <;> decide

theorem fifoShown_onlyEvents (s : State) (p : Nat) (f : RxFrame) : s.OnlyEvents (s.fifoShown p f) [Reg.RING_MACFIFO p] := by
  have hcorr := (OnlyEvents.same (s := s) (r := [Reg.RING_MACFIFO p])).inc (a := Reg.RING_MACFIFO p) Fd.RING_MACFIFO.CORR (macPass f).corr (by simp)
  have hovr := OnlyEvents.ite ((!(macPass f).ignored.isEmpty) = true) (hcorr.putB (a := Reg.RING_MACFIFO p) Fd.RING_MACFIFO.OVR true (by simp)) hcorr
  have hbad := OnlyEvents.ite ((!(macPass f).broken.isEmpty) = true) (hovr.putB (a := Reg.RING_MACFIFO p) Fd.RING_MACFIFO.UNCORR true (by simp)) hovr
  exact hbad.eventIf _ _ _

/-- OVR and UNCORR of a FIFO that ignored words or could not correct them (R388, R391). -/
theorem fifoShown_flags (s : State) {p : Nat} (hp : p < 8) (f : RxFrame) :
    ((macPass f).ignored ≠ [] → (s.fifoShown p f).flag (Reg.RING_MACFIFO p) Fd.RING_MACFIFO.OVR = true)
      ∧ ((macPass f).broken ≠ [] → (s.fifoShown p f).flag (Reg.RING_MACFIFO p) Fd.RING_MACFIFO.UNCORR = true) := by
  have hset : ∀ (v : State) (g : Fd), g = Fd.RING_MACFIFO.OVR ∨ g = Fd.RING_MACFIFO.UNCORR →
      (v.putB (Reg.RING_MACFIFO p) g true).flag (Reg.RING_MACFIFO p) g = true := by
    rintro v g (rfl | rfl) <;> rw [flag, putB, get_put_same _ _ _ _ (by decide) (by decide)] <;> rfl
  have hkeep : ∀ v : State, (v.putB (Reg.RING_MACFIFO p) Fd.RING_MACFIFO.UNCORR true).flag (Reg.RING_MACFIFO p) Fd.RING_MACFIFO.OVR
      = v.flag (Reg.RING_MACFIFO p) Fd.RING_MACFIFO.OVR := fun v => by
    rw [flag, putB, get_put_other _ _ _ _ _ (by decide) (by decide) (by decide) (by decide), flag]
  have hev : ∀ (v : State) c g, (v.eventIf c Pg.RING Ev.RING.FIFO_ERR).flag (Reg.RING_MACFIFO p) g = v.flag (Reg.RING_MACFIFO p) g :=
    fun v c g => by rw [flag, get_congr ((eventIf_onlyEvents v c _ _).2 _ (by simp) (evtReg_macfifo hp)), flag]
  unfold fifoShown
  dsimp only
  refine ⟨fun h => ?_, fun h => ?_⟩
  · have hovr : (!(macPass f).ignored.isEmpty) = true := by simpa using h
    rw [hev, hovr, if_pos rfl]
    split
    · rw [hkeep, hset _ _ (.inl rfl)]
    · exact hset _ _ (.inl rfl)
  · have hbad : (!(macPass f).broken.isEmpty) = true := by simpa using h
    rw [hev, hbad, if_pos rfl]
    exact hset _ _ (.inr rfl)

theorem fifoShown_maxframe (s : State) {p : Nat} (hp : p < 8) (f : RxFrame) :
    (s.fifoShown p f).rd (Reg.MAC_MAXFRAME p) = s.rd (Reg.MAC_MAXFRAME p) :=
  (fifoShown_onlyEvents s p f).2 _ (by simp only [List.mem_singleton, Reg.MAC_MAXFRAME, Reg.RING_MACFIFO]; omega) (evtReg_maxframe hp)

/-- The counter of a frame's size and faults. -/
def sizeCounter (s : State) (p : Nat) (f : RxFrame) : Nat :=
  if f.bytes.length + 4 < 64 then (if f.fcsOk then 8 else 10)
  else if s.get (Reg.MAC_MAXFRAME p) Fd.MAC_MAXFRAME.BYTES < f.bytes.length + 4 then (if f.fcsOk then 9 else 11)
  else sizeBucket (f.bytes.length + 4)

theorem sizeCounter_lt (s : State) (p : Nat) (f : RxFrame) : s.sizeCounter p f < 32 := by
  unfold sizeCounter sizeBucket
  split_ifs <;> decide

/-- The MAC's size step counts, and nothing else. -/
theorem sizeStep_onlyMem (s : State) {p : Nat} (hp : p < 8) (f : RxFrame) : s.OnlyMem (s.sizeStep p f).1 [] := by
  have hfirst : s.OnlyMem (s.macCount p (s.sizeCounter p f) 1) [] := OnlyMem.same.macCount _ hp (sizeCounter_lt s p f)
  unfold sizeStep
  dsimp only
  change s.OnlyMem (if f.pcsOk = true then _ else _) []
  exact OnlyMem.ite _ (OnlyMem.ite _ (hfirst.macCount _ hp (by decide)) hfirst)
    ((OnlyMem.ite _ (hfirst.macCount _ hp (by decide)) hfirst).macCount _ hp (by decide))

theorem sizeStep_accepts {s : State} {p : Nat} {f : RxFrame} (hmin : 64 ≤ f.bytes.length + 4)
    (hmax : f.bytes.length + 4 ≤ s.get (Reg.MAC_MAXFRAME p) Fd.MAC_MAXFRAME.BYTES) (hfcs : f.fcsOk = true) (hpcs : f.pcsOk = true) :
    (s.sizeStep p f).2 = true := by
  have h1 : ¬ f.bytes.length + 4 < 64 := by omega
  have h2 : ¬ s.get (Reg.MAC_MAXFRAME p) Fd.MAC_MAXFRAME.BYTES < f.bytes.length + 4 := by omega
  simp [sizeStep, h1, h2, hfcs, hpcs]

/-- A frame that the port accepts whole, up to step 1. -/
def accepted (s : State) (p : Nat) (f : RxFrame) : State := (((s.fecStep p f).fifoShown p f).sizeStep p f).1

theorem accepted_onlyMem (s : State) {p : Nat} (hp : p < 8) (f : RxFrame) : s.OnlyMem (s.accepted p f) [Reg.RING_MACFIFO p] :=
  ((fecStep_spec s hp f).1.weaken.andThen (fifoShown_onlyEvents _ p f).onlyMem).andThen (sizeStep_onlyMem _ hp f).weaken

theorem accepts_size {s : State} {p : Nat} (hp : p < 8) {f : RxFrame} (h : s.Accepts p f) :
    (((s.fecStep p f).fifoShown p f).sizeStep p f).2 = true := by
  obtain ⟨-, -, -, -, hfcs, hpcs, hmin, hmax⟩ := h
  refine sizeStep_accepts hmin ?_ hfcs hpcs
  rw [get_congr ((fifoShown_maxframe _ hp f).trans (fecStep_spec s hp f).2)]
  exact hmax

/-- What follows step 1 for a frame that was stored (R274, R286). -/
def arrive (s : State) (p : Nat) (f : RxFrame) (v : SrtpIn) : State :=
  if f.late && !(match classOf f.bytes with
    | .macctl _ _ => true
    | _ => false) then
    { s with nw := { s.nw with waiting := s.nw.waiting ++ [{ stamp := s.clk.now, port := p, bytes := f.bytes }] } }
  else (s.classify { stamp := s.clk.now, port := p, bytes := f.bytes } f.sofBack f.dir v).noteMem 0

theorem receive_eq {s : State} {p : Nat} {f : RxFrame} (v : SrtpIn) (hprov : s.provided p = true) (hen : s.macEn p = true)
    (hmerge : f.mergeErr = false) :
    s.receive p f v = if !(((s.fecStep p f).fifoStep p f).1.sizeStep p f).2 || !((s.fecStep p f).fifoStep p f).2 then
        (((s.fecStep p f).fifoStep p f).1.sizeStep p f).1
      else match (((s.fecStep p f).fifoStep p f).1.sizeStep p f).1.storeFrame p f.bytes with
        | (u, false) => u
        | (u, true) => u.arrive p f v := by
  unfold receive
  rw [hprov, hen, hmerge]
  rfl

theorem receive_accepts {s : State} {p : Nat} (hp : p < 8) {f : RxFrame} (v : SrtpIn) (h : s.Accepts p f) :
    s.receive p f v = match (s.accepted p f).storeFrame p f.bytes with
      | (u, false) => u
      | (u, true) => u.arrive p f v := by
  have hsize := accepts_size hp h
  obtain ⟨hprov, hen, hmerge, hwhole, -⟩ := h
  have hfifo : (s.fecStep p f).fifoStep p f = ((s.fecStep p f).fifoShown p f, true) := by rw [fifoStep_eq, if_pos hwhole]
  rw [receive_eq v hprov hen hmerge, hfifo]
  dsimp only
  rw [hsize]
  rfl

/-- A frame that the FIFO spoiled is dropped (R388, R391). -/
theorem receive_spoiled {s : State} {p : Nat} {f : RxFrame} (v : SrtpIn) (hprov : s.provided p = true) (hen : s.macEn p = true)
    (hmerge : f.mergeErr = false) (hwhole : frameWhole f = false) :
    s.receive p f v
      = ((((s.fecStep p f).fifoShown p f).inc Reg.RING_FIFO_DROP_CNT Fd.RING_FIFO_DROP_CNT.COUNT).sizeStep p f).1 := by
  have hfifo : (s.fecStep p f).fifoStep p f
      = (((s.fecStep p f).fifoShown p f).inc Reg.RING_FIFO_DROP_CNT Fd.RING_FIFO_DROP_CNT.COUNT, false) := by
    rw [fifoStep_eq, if_neg (by simp [hwhole])]
  rw [receive_eq v hprov hen hmerge, hfifo]
  exact if_pos (by simp)

/-! ## Step 1 (R274) -/

/-- A frame that finds room, once it is stored. -/
def stored (s : State) (p : Nat) (b : List Byte) : State :=
  ((((s.incWrap Reg.PKT_RX_CNT Fd.PKT_RX_CNT.COUNT).macCount p 0 1).macCount p 1 (b.length + 4)).macCount p
    (if (b.take 6).all (· = 0xFF) then 4 else if (beAt b 0 1) % 2 = 1 then 3 else 2) 1).noteMem (b.length + 4)

theorem storeFrame_room {s : State} {p : Nat} {b : List Byte} (h : s.ingressUsed + (b.length + 4) ≤ s.ingressCap) :
    s.storeFrame p b = (s.stored p b, true) := by
  have h' : ¬ (s.incWrap Reg.PKT_RX_CNT Fd.PKT_RX_CNT.COUNT).ingressCap < (s.incWrap Reg.PKT_RX_CNT Fd.PKT_RX_CNT.COUNT).ingressUsed + (b.length + 4) :=
    Nat.not_lt.mpr h
  exact if_neg h'

theorem storeFrame_full {s : State} {p : Nat} {b : List Byte} (h : s.ingressCap < s.ingressUsed + (b.length + 4)) :
    s.storeFrame p b = (((s.incWrap Reg.PKT_RX_CNT Fd.PKT_RX_CNT.COUNT).inc Reg.PKT_MEM_DROP_CNT Fd.PKT_MEM_DROP_CNT.COUNT).event Pg.PKT
      Ev.PKT.MEM_DROP, false) := by
  have h' : (s.incWrap Reg.PKT_RX_CNT Fd.PKT_RX_CNT.COUNT).ingressCap < (s.incWrap Reg.PKT_RX_CNT Fd.PKT_RX_CNT.COUNT).ingressUsed + (b.length + 4) := h
  exact if_pos h'

theorem stored_onlyMem (s : State) {p : Nat} (hp : p < 8) (b : List Byte) :
    OnlyMem (s.incWrap Reg.PKT_RX_CNT Fd.PKT_RX_CNT.COUNT) (s.stored p b) [] :=
  (((OnlyMem.same.macCount _ hp (by decide)).macCount _ hp (by decide)).macCount _ hp (by split_ifs <;> decide)).noteMem _

/-- Room in shared packet memory depends on nothing that a count changes. -/
theorem ingress_congr {s u : State} (h : s.OnlyMem u r) : u.ingressUsed = s.ingressUsed ∧ u.ingressCap = s.ingressCap :=
  ⟨h.part ingressUsed, h.part ingressCap⟩

end State
end Sys2Proof.Machine
end

section
/-! PROOFS. The modes: what each mode command asks of the next boundary, and the triggers and timers (R543 to R555). -/

namespace Sys2Proof.Machine

namespace State

/-! ## Triggers of CONSTRAIN -/

@[simp] theorem anyTrigger_atTick (s : State) (t : Nat) : (s.atTick t).anyTrigger = s.anyTrigger := rfl

theorem noteQuiet_of_not {s : State} (h : s.anyTrigger = false) : s.noteQuiet = s := by simp [noteQuiet, h]

theorem noteQuiet_of {s : State} (h : s.anyTrigger = true) :
    s.noteQuiet = s.setModes { s.modes with quietSince := s.clk.now, quietDone := false } := by
  simp [noteQuiet, h, setModes]

theorem anyTrigger_setModes (s : State) (m : Modes) : (s.setModes m).anyTrigger = (s.thermalTrigger || m.power || m.forced) := rfl

/-- The power trigger sets: from now on no quiet time runs (R547). -/
theorem powerTrigger_on {s : State} (hk : s.mgmt.kstate = .running) :
    s.powerTrigger true = s.setModes { s.modes with power := true, quietSince := s.clk.now, quietDone := false } := by
  have hon (m : Modes) : ((s.setModes { m with power := true }).anyTrigger) = true := by simp [anyTrigger_setModes]
  cases h : s.anyTrigger with
  | false => simp only [powerTrigger, hk, if_true, noteQuiet_of_not h]; exact noteQuiet_of (hon _)
  | true => simp only [powerTrigger, hk, if_true, noteQuiet_of h]; exact noteQuiet_of (hon _)

/-- The power trigger clears while one holds: the quiet time begins now (R547). -/
theorem powerTrigger_off_of {s : State} (hk : s.mgmt.kstate = .running) (h : s.anyTrigger = true) :
    s.powerTrigger false = s.setModes { s.modes with power := false, quietSince := s.clk.now, quietDone := false } := by
  simp only [powerTrigger, hk, if_true, noteQuiet_of h]
  cases hq : (s.setModes { s.modes with power := false, quietSince := s.clk.now, quietDone := false }).anyTrigger with
  | false => exact noteQuiet_of_not hq
  | true => exact (noteQuiet_of hq)

theorem powerTrigger_off_of_not {s : State} (hk : s.mgmt.kstate = .running) (h : s.anyTrigger = false) :
    s.powerTrigger false = s.setModes { s.modes with power := false } := by
  have hoff : (s.setModes { s.modes with power := false }).anyTrigger = false := by
    simp only [anyTrigger, Bool.or_eq_false_iff] at h
    simp [anyTrigger_setModes, h.1.1, h.2]
  simp only [powerTrigger, hk, if_true, noteQuiet_of_not h]
  exact noteQuiet_of_not hoff

theorem powerTrigger_of_not {s : State} {on : Bool} (hk : s.mgmt.kstate ≠ .running) : s.powerTrigger on = s := by
  simp [powerTrigger, hk]

/-! ## Mode commands -/

/-- A mode command that is refused. -/
theorem modeWrite_status {s : State} {p : Port} {t : Nat} {f : State → State} {st : Status} (hs : s.Serves p)
    (hf : f (s.atTick t) = (s.atTick t).status Pg.MODE st) :
    (s.act t fun s => s.modeWrite p f) = .next ((s.atTick t).status Pg.MODE st) :=
  serves_of_eq f hs hf rfl rfl

/-- A mode command that only asks something of the next boundary. -/
theorem modeWrite_gives {s : State} {p : Port} {t : Nat} {f : State → State} {m : Modes} (hs : s.Serves p)
    (hf : f (s.atTick t) = ((s.atTick t).setModes m).modeOk) :
    (s.act t fun s => s.modeWrite p f) = .next (State.status { s.atTick t with modes := m } Pg.MODE .ok) :=
  serves_of_eq f hs hf rfl rfl

theorem constrainOff_of {s : State} (h : s.anyTrigger = true) :
    s.constrainOff = (s.setModes { s.modes with forced := false, quietSince := s.clk.now, quietDone := false }).modeOk := by
  simp only [constrainOff, noteQuiet_of h]
  rfl

theorem constrainOff_of_not {s : State} (h : s.anyTrigger = false) :
    s.constrainOff = (s.setModes { s.modes with forced := false }).modeOk := by
  simp only [constrainOff, noteQuiet_of_not h]

/-- What a rotation's start leaves in the registers (R510). -/
theorem startRotation_onlyRegs (s : State) (rest : List Nat) (slot : Nat) (b : Bool) :
    OnlyRegs { s with mgmt := (s.startRotation rest slot b).mgmt } (s.startRotation rest slot b) [Reg.MGMT_ROT] :=
  OnlyRegs.put OnlyRegs.same _ _ (by decide)

/-- ROTATE, accepted (R546). -/
theorem rotateCmd_spec {s : State} (hm : s.modes.mode = 4) (hr : s.mgmt.rot = none) :
    ∃ u, s.rotateCmd = u
      ∧ u.mgmt = { s.mgmt with rot := some { rest := s.notLost, cur := none, loaded := false, slot := s.mgmt.libSlot, stop := false,
                                             byActivate := false, wait := false } }
      ∧ u.get Reg.MGMT_ROT Fd.MGMT_ROT.DONE = 0 ∧ u.Reports Pg.MODE .ok ∧ u.clk = s.clk ∧ u.pending = s.pending
      ∧ OnlyRegs { s with mgmt := u.mgmt } u [Reg.MGMT_ROT, Reg.PAGE_STATUS Pg.MODE] := by
  refine ⟨(s.startRotation s.notLost s.mgmt.libSlot false).modeOk, by simp [rotateCmd, hm, hr], rfl, ?_, reports_status _ _ _, rfl,
    rfl, ?_⟩
  · rw [modeOk, get_status_ne _ _ _ (by decide)]
    exact get_put_same _ _ _ _ (by decide) (by decide)
  · exact OnlyRegs.status (OnlyRegs.put OnlyRegs.same _ _ (by decide)) _ (by decide)

end State

/-- Settles O55: each command is one equation of its operation; the branch of the definition is the clause's premise. -/
theorem modeCommands : Obligations.ModeCommands := by
  unfold Obligations.ModeCommands
  intro s t p hs
  simp only
  refine ⟨?_, ?_, ?_, ?_, ?_, ?_, ?_, ?_, ?_, ?_, ?_, ?_, ?_, ?_, ?_, ?_, ?_⟩
  case _ => exact fun h => State.modeWrite_status hs (by rcases h with h | h <;> simp [State.enterMaint, State.modeNo, h])
  case _ => exact fun hb ho => State.modeWrite_gives hs (by simp [State.enterMaint, hb, ho])
  case _ => exact fun h => State.modeWrite_status hs (by simp [State.leaveMaint, State.modeNo, h])
  case _ => exact fun h => State.modeWrite_gives hs (by simp [State.leaveMaint, h])
  case _ => exact fun h => State.modeWrite_status hs (by simp [State.rotateCmd, State.modeNo, h])
  case _ => exact fun hm h => State.modeWrite_status hs (by simp [State.rotateCmd, State.modeNo, hm, h])
  case _ =>
    intro hm h
    obtain ⟨u, heq, hmgmt, hdone, hrep, hclk, hpend, hframe⟩ := State.rotateCmd_spec (s := s.atTick t) hm h
    exact ⟨u, State.serves_of_eq _ hs heq hclk hpend, hmgmt, hdone, hrep, hframe⟩
  case _ => exact fun h => State.modeWrite_status hs (by simp [State.constrainOn, State.modeNo, h])
  case _ => exact fun h => State.modeWrite_gives hs (by simp [State.constrainOn, h])
  case _ => exact fun h => State.modeWrite_gives hs (State.constrainOff_of_not h)
  case _ => exact fun h => State.modeWrite_gives hs (State.constrainOff_of h)
  case _ =>
    intro force
    refine ⟨?_, ?_, ?_, ?_⟩
    · exact fun h => State.modeWrite_status hs (by simp [State.sealCmd, State.modeNo, h])
    · exact fun hb ho => State.modeWrite_gives hs (by simp [State.sealCmd, hb, ho])
    · exact fun hb ho hf hp => State.modeWrite_gives hs (by simp [State.sealCmd, hb, ho, hf, hp])
    · intro hb ho h
      exact State.modeWrite_status hs (by rcases h with h | h <;> simp [State.sealCmd, State.modeNo, hb, ho, h])
  case _ => exact fun h => State.modeWrite_gives hs (by rcases h with h | h <;> simp [State.unsealCmd, h])
  case _ => exact fun h h' => State.modeWrite_status hs (by simp [State.unsealCmd, State.modeNo, h, h'])
  case _ => exact fun h => State.modeWrite_gives hs (by simp [State.wipeCmd, h])
  case _ => exact fun h => State.modeWrite_status hs (by simp [State.wipeCmd, State.modeNo, h])
  case _ => exact State.serves_of_eq _ hs rfl rfl rfl

namespace State

/-! ## Timers of the modes -/

/-- A command of the running 9340 that replaces the modes alone. -/
theorem act_setModes {s : State} {t : Nat} {f : State → State} {m : Modes} (hup : s.up = true)
    (hf : f (s.atTick t) = (s.atTick t).setModes m) : s.act t f = .next { s.atTick t with modes := m } :=
  act_of_eq f hup hf rfl rfl

/-- A command of the running 9340 that does nothing. -/
theorem act_nothing {s : State} {t : Nat} {f : State → State} (hup : s.up = true) (hf : f (s.atTick t) = s.atTick t) :
    s.act t f = .next (s.atTick t) :=
  act_of_eq f hup hf rfl rfl

theorem quietOver_iff (s : State) : s.quietOver = true ↔ s.anyTrigger = false
    ∧ (s.modes.quietDone = true ∨ s.modes.quietSince + secTicks (s.get Reg.MODE_CONSTRAIN Fd.MODE_CONSTRAIN.EXIT_S) ≤ s.clk.now) := by
  simp [quietOver]

theorem holdOver_iff (s : State) : s.holdOver = true ↔ s.modes.phase = .drained
    ∧ (s.modes.holdDue = true ∨ s.modes.drainedAt + secTicks (s.get Reg.MODE_SEAL_CFG Fd.MODE_SEAL_CFG.HOLD_S) ≤ s.clk.now) := by
  simp [holdOver]

theorem deadlineClose_of {s : State} (hp : s.modes.phase = .draining) (hb : s.modes.bringup = false)
    (hd : beatAtOrAfter s.clk.n (s.rd Reg.MODE_SEAL_DEADLINE) = true) :
    s.deadlineClose = s.sealClose (s.openChans.filter fun c => !c.cfg.emergency) := by
  simp [deadlineClose, hp, hb, hd]

theorem deadlineClose_of_not {s : State} (h : s.modes.phase ≠ .draining ∨ s.modes.bringup = true
      ∨ beatAtOrAfter s.clk.n (s.rd Reg.MODE_SEAL_DEADLINE) = false) : s.deadlineClose = s := by
  rcases h with h | h | h <;> simp [deadlineClose, h]

/-- No open channel but emergency channels: nothing closes. -/
theorem sealClose_of_all {s : State} (h : ∀ c ∈ s.openChans, c.cfg.emergency = true) :
    s.sealClose (s.openChans.filter fun c => !c.cfg.emergency) = s := by
  have hnil : (s.openChans.filter fun c => !c.cfg.emergency) = [] := by
    rw [List.filter_eq_nil_iff]
    intro c hc
    simp [h c hc]
  rw [hnil]
  rfl

end State

/-- Settles O56: each timer is one equation of its operation, by whether its time has come. -/
theorem modeTimers : Obligations.ModeTimers := by
  unfold Obligations.ModeTimers
  intro s t hup
  simp only
  have hn : (s.atTick t).clk.n = s.clk.n := rfl
  refine ⟨?_, ?_, ⟨?_, ?_⟩, ?_, ?_, ⟨?_, ?_⟩, ⟨?_, ?_⟩⟩
  case _ => exact fun hk => ⟨State.act_nothing hup (State.powerTrigger_of_not hk), State.act_nothing hup (State.powerTrigger_of_not hk)⟩
  case _ =>
    exact fun hk => ⟨State.act_setModes hup (State.powerTrigger_on hk),
      fun h => State.act_setModes hup (State.powerTrigger_off_of hk h),
      fun h => State.act_setModes hup (State.powerTrigger_off_of_not hk h)⟩
  case _ =>
    intro hc hspent
    have hq : (s.atTick t).quietOver = true := (State.quietOver_iff _).mpr hspent
    exact State.act_setModes hup (by simp [State.constrainExit, hq, hc])
  case _ =>
    intro h
    refine State.act_nothing hup ?_
    rcases h with h | h
    · simp [State.constrainExit, h]
    · have hq : (s.atTick t).quietOver = false := by
        rw [← Bool.not_eq_true, State.quietOver_iff]
        exact h
      simp [State.constrainExit, hq]
  case _ => exact fun h => State.act_nothing hup (State.deadlineClose_of_not (by rwa [hn]))
  case _ =>
    intro hp hb hd
    have heq := State.deadlineClose_of (s := s.atTick t) hp hb (by rwa [hn])
    exact ⟨fun h => State.act_nothing hup (heq.trans (State.sealClose_of_all h)),
      State.act_after State.deadlineClose (g := fun s => s.sealClose (s.openChans.filter fun c => !c.cfg.emergency)) hup heq⟩
  case _ =>
    intro h
    have hh : (s.atTick t).holdOver = true := (State.holdOver_iff _).mpr h
    exact State.act_setModes hup (by simp [State.holdExpiry, hh])
  case _ =>
    intro h
    have hh : (s.atTick t).holdOver = false := by
      rw [← Bool.not_eq_true, State.holdOver_iff]
      exact h
    exact State.act_nothing hup (by simp [State.holdExpiry, hh])
  case _ =>
    rintro ⟨hp, hm⟩
    have heq : (s.atTick t).sealWiped
        = ((s.atTick t).setModes { s.modes with phase := .sealed }).event Pg.MODE Ev.MODE.SEAL_WIPED := by
      simp [State.sealWiped, hp, hm]
    have hkeeps := State.event_keeps ((s.atTick t).setModes { s.modes with phase := .sealed }) Pg.MODE Ev.MODE.SEAL_WIPED
    have hframe := State.event_onlyEvents ((s.atTick t).setModes { s.modes with phase := .sealed }) Pg.MODE Ev.MODE.SEAL_WIPED
    have hlatch := State.event_latched ((s.atTick t).setModes { s.modes with phase := .sealed }) Pg.MODE Ev.MODE.SEAL_WIPED (by decide)
    generalize hu : ((s.atTick t).setModes { s.modes with phase := .sealed }).event Pg.MODE Ev.MODE.SEAL_WIPED = u at heq hkeeps hframe hlatch
    have hmodes : u.modes = { s.modes with phase := .sealed } := hframe.modes
    refine ⟨u, State.act_of_eq _ hup heq hframe.clk hframe.pending, hmodes, hlatch, ?_⟩
    rw [hmodes]
    exact hframe
  case _ =>
    intro h
    refine State.act_nothing hup ?_
    have h' : ¬((s.atTick t).modes.phase = .wiping ∧ (s.atTick t).get Reg.MEM_STATE Fd.MEM_STATE.STATE ≠ 2) := h
    by_cases hp : (s.atTick t).modes.phase = .wiping
    · have hm : (s.atTick t).get Reg.MEM_STATE Fd.MEM_STATE.STATE = 2 := not_not.mp fun hne => h' ⟨hp, hne⟩
      simp only [State.sealWiped, hp, hm]
      rfl
    · simp only [State.sealWiped, hp]
      rfl

end Sys2Proof.Machine
end

section
/-! PROOFS. Kwakel's configuration in flash and the life cycle; the retirement of frames; host scratch and the translation of
addresses (R460, R461, R470 to R480, R524, R525, R539). -/

namespace Sys2Proof.Machine

namespace State

/-! ## What has left -/

theorem Sends.of_suffix {s u : State} {o : Output} (h : o :: s.out <:+ u.out) : Sends s u o := by
  obtain ⟨l, hl⟩ := h
  have hlen : u.out.length - s.out.length = (l ++ [o]).length := by
    rw [← hl]
    simp only [List.length_append, List.length_cons, List.length_nil]
    omega
  unfold Sends
  rw [hlen, ← hl, show l ++ o :: s.out = (l ++ [o]) ++ s.out by simp, List.take_left]
  simp

theorem suffix_emit (s : State) (o : Output) : s.out <:+ (s.emit o).out := List.suffix_cons o s.out

theorem suffix_sendMsix (s : State) (p : Port) (vec : Nat) : s.out <:+ (s.sendMsix p vec).out := by
  unfold sendMsix
  dsimp only
  split
  · exact List.suffix_rfl
  · split
    · cases p <;> exact List.suffix_rfl
    · exact suffix_emit s _

theorem suffix_pageMsix (s : State) (page : Nat) : s.out <:+ (s.pageMsix page).out := by
  unfold pageMsix
  dsimp only
  split <;> split
  · exact (suffix_sendMsix s _ _).trans (suffix_sendMsix _ _ _)
  · exact suffix_sendMsix s _ _
  · exact suffix_sendMsix s _ _
  · exact List.suffix_rfl

theorem suffix_setLatch (s : State) (page b : Nat) : s.out <:+ (s.setLatch page b).out := by
  unfold setLatch
  dsimp only
  split
  · exact List.suffix_rfl
  · split
    · exact suffix_pageMsix (s.wr (Reg.EVT_LATCH page) _) page
    · exact List.suffix_rfl

theorem suffix_syslog (s : State) (r : LogRec) : s.out <:+ (s.syslog r).out := by
  unfold syslog
  dsimp only
  split
  · split
    · split
      · exact List.suffix_cons _ _
      · exact List.suffix_rfl
    · rw [if_pos (by decide)]
      exact List.suffix_cons _ _
  · exact List.suffix_rfl

theorem suffix_storeRec (s : State) (r : LogRec) : s.out <:+ (s.storeRec r).1.out := by
  unfold storeRec
  dsimp only
  generalize ({ s.log with next := _, ram := _, mem := _, due := _ } : LogState) = l
  exact suffix_syslog { s with log := l } r

theorem suffix_logSource (s : State) (page b : Nat) (w : Word) : s.out <:+ (s.logSource page b w).1.out := by
  unfold logSource
  dsimp only
  split
  · exact List.suffix_rfl
  · split
    · split
      · exact List.suffix_rfl
      · exact suffix_storeRec s _
    · split <;> exact List.suffix_rfl

theorem suffix_logEvent (s : State) (page b : Nat) : s.out <:+ (s.logEvent page b).out := by
  have h := suffix_logSource s page b (s.rd (Reg.EVT_LATCH page))
  unfold logEvent
  split
  · rename_i e; rwa [e] at h
  · rename_i s1 e
    rw [e] at h
    exact (h.trans (suffix_setLatch (s1.inc Reg.LOG_LOST_CNT Fd.LOG_LOST_CNT.COUNT) _ _)).trans (suffix_logSource _ _ _ _)

/-- An event only adds to what has left. -/
theorem suffix_event (s : State) (page b : Nat) : s.out <:+ (s.event page b).out :=
  (suffix_setLatch (s.noteRecent page b) page b).trans (suffix_logEvent _ _ _)

theorem suffix_eventIf (s : State) (c : Bool) (page b : Nat) : s.out <:+ (s.eventIf c page b).out := by
  unfold eventIf
  split
  · exact suffix_event s page b
  · exact List.suffix_rfl

/-! ## The standing configuration in flash (R539) -/

theorem configWrite_of {s : State} (hk : s.mgmt.kstate = .running) (hw : FlashWork.config ∈ s.mgmt.work) :
    s.configWrite = { s with mgmt := { s.mgmt with work := s.mgmt.work.filter (· ≠ FlashWork.config),
                                                   flash := { s.mgmt.flash with config := s.savedConfig } } } := by
  simp [configWrite, hk, hw]

theorem configWrite_of_not {s : State} (h : s.mgmt.kstate ≠ .running ∨ FlashWork.config ∉ s.mgmt.work) : s.configWrite = s := by
  rcases h with h | h <;> simp [configWrite, h]

/-! ## The life cycle (R524, R525) -/

/-- The state in which a request that needs a signature is answered: a challenge has been drawn. -/
def drawn (s : State) (signed : Bool) : State := if signed then s.drawChallenge else s

theorem drawn_eq (s : State) (b : Bool) : ∃ c n, s.drawn b = { s with mgmt := { s.mgmt with challenge := c }, freeCtr := n } := by
  cases b with
  | false => exact ⟨s.mgmt.challenge, s.freeCtr, rfl⟩
  | true => exact ⟨_, _, rfl⟩

theorem drawn_mgmt (s : State) (b : Bool) : { (s.drawn b).mgmt with challenge := s.mgmt.challenge } = s.mgmt := by
  obtain ⟨c, n, h⟩ := drawn_eq s b
  rw [h]

theorem drawn_only (s : State) (b : Bool) : { s with mgmt := (s.drawn b).mgmt, freeCtr := (s.drawn b).freeCtr } = s.drawn b := by
  obtain ⟨c, n, h⟩ := drawn_eq s b
  rw [h]

/-- A refused LIFE_CMD in a state in which at most a challenge has been drawn. -/
theorem lifeRefuse_spec (s : State) (b : Bool) (st : Status) :
    ∃ u, (s.drawn b).lifeRefuse st = u ∧ u.Reports Pg.LIFE st ∧ u.Latched Pg.LIFE Ev.LIFE.REFUSED
      ∧ { u.mgmt with challenge := s.mgmt.challenge } = s.mgmt
      ∧ OnlyEvents { s with mgmt := u.mgmt, freeCtr := u.freeCtr } u [Reg.PAGE_STATUS Pg.LIFE] := by
  have hframe : OnlyEvents (s.drawn b) ((s.drawn b).lifeRefuse st) [Reg.PAGE_STATUS Pg.LIFE] :=
    (OnlyEvents.same.status st (by simp)).event _ _
  refine ⟨_, rfl, ?_, event_latched _ _ _ (by decide), ?_, ?_⟩
  · exact (get_event _ _ _ _ (by decide)).trans (reports_status _ _ _)
  · rw [hframe.mgmt]
    exact drawn_mgmt s b
  · rw [hframe.mgmt, hframe.freeCtr, drawn_only]
    exact hframe

/-- An accepted LIFE_CMD asks for its target at the next boundary. -/
theorem lifeAccept_spec (s : State) (b : Bool) (target : Nat) :
    ∃ u, State.status { s.drawn b with mgmt := { (s.drawn b).mgmt with lifeReq := some target } } Pg.LIFE .ok = u
      ∧ u.Reports Pg.LIFE .ok ∧ { u.mgmt with challenge := s.mgmt.challenge } = { s.mgmt with lifeReq := some target }
      ∧ OnlyEvents { s with mgmt := u.mgmt, freeCtr := u.freeCtr } u [Reg.PAGE_STATUS Pg.LIFE] := by
  obtain ⟨c, n, h⟩ := drawn_eq s b
  rw [h]
  exact ⟨_, rfl, reports_status _ _ _, rfl, OnlyEvents.same.status _ (by simp)⟩

section
variable {s : State} {v : Word} {verified : Bool}

theorem lifeCmd_badParam
    (h : ¬(fieldOf v Fd.LIFE_CMD.CONFIRM = 0x5A17 ∧ lifeLegal s.mgmt.fuses (fieldOf v Fd.LIFE_CMD.TARGET) = true)) :
    s.lifeCmd v verified = (s.drawn false).lifeRefuse .badParam := by
  have hc : (fieldOf v Fd.LIFE_CMD.CONFIRM != 0x5A17 || !lifeLegal s.mgmt.fuses (fieldOf v Fd.LIFE_CMD.TARGET)) = true := by
    by_contra hn
    exact h (by simpa using hn)
  simp only [lifeCmd, hc, if_true]
  rfl

variable (ha : fieldOf v Fd.LIFE_CMD.CONFIRM = 0x5A17 ∧ lifeLegal s.mgmt.fuses (fieldOf v Fd.LIFE_CMD.TARGET) = true)
include ha

theorem lifeCmd_notInMode (h : ¬(s.modes.mode = 6 ∧ s.openChans = [])) :
    s.lifeCmd v verified = (s.drawn false).lifeRefuse .notInMode := by
  have hc : (s.modes.mode != 6 || !s.openChans.isEmpty) = true := by
    by_contra hn
    exact h (by simpa using hn)
  simp only [lifeCmd, ha, hc, if_true]
  rfl

variable (hf : s.modes.mode = 6 ∧ s.openChans = [])
include hf

theorem lifeCmd_checkFail (hs : s.mgmt.fuses.lifeState = 2 ∧ fieldOf v Fd.LIFE_CMD.TARGET = 3) (hv : verified = false) :
    s.lifeCmd v verified = (s.drawn true).lifeRefuse .checkFail := by
  obtain ⟨hconf, hlegal⟩ := ha
  simp [lifeCmd, hconf, hf, hs.1, hs.2 ▸ hlegal, hs.2, hv, drawn]

theorem lifeCmd_ok (h : ¬(s.mgmt.fuses.lifeState = 2 ∧ fieldOf v Fd.LIFE_CMD.TARGET = 3) ∨ verified = true) :
    ∃ b, s.lifeCmd v verified = State.status { s.drawn b with
      mgmt := { (s.drawn b).mgmt with lifeReq := some (fieldOf v Fd.LIFE_CMD.TARGET) } } Pg.LIFE .ok := by
  refine ⟨decide (s.mgmt.fuses.lifeState = 2) && decide (fieldOf v Fd.LIFE_CMD.TARGET = 3), ?_⟩
  have hn : ((decide (s.mgmt.fuses.lifeState = 2) && decide (fieldOf v Fd.LIFE_CMD.TARGET = 3)) && !verified) = false := by
    rw [← Bool.not_eq_true]
    simpa [Bool.and_eq_true, imp_iff_not_or, ← or_assoc, not_and_or] using h
  simp [lifeCmd, ha, hf, hn, drawn]

end

end State

/-- Settles O49: the write of flash is one equation; a LIFE_CMD by the first of R525's conditions that fails. -/
theorem flashAndLifeCycle : Obligations.FlashAndLifeCycle := by
  unfold Obligations.FlashAndLifeCycle
  constructor
  case left =>
    exact fun s t hup => ⟨fun h => State.act_nothing hup (State.configWrite_of_not h),
      fun hk hw => State.act_of_eq _ hup (State.configWrite_of (s := s.atTick t) hk hw) rfl rfl⟩
  case right =>
    intro s t p v verified hup hl hk ho
    simp only
    have answers {st : Status} {b : Bool} (heq : (s.atTick t).lifeCmd v verified = ((s.atTick t).drawn b).lifeRefuse st) :
        ∃ u, (exec (.lifeCmd t p v verified) s = .next u ∧ u.Reports Pg.LIFE st) ∧ u.Latched Pg.LIFE Ev.LIFE.REFUSED
          ∧ { u.mgmt with challenge := s.mgmt.challenge } = s.mgmt
          ∧ State.OnlyEvents { s.atTick t with mgmt := u.mgmt, freeCtr := u.freeCtr } u [Reg.PAGE_STATUS Pg.LIFE] := by
      obtain ⟨u, hu, hrep, hlatch, hmgmt, hframe⟩ := State.lifeRefuse_spec (s.atTick t) b st
      exact ⟨u, ⟨State.act_asks hup hl hk (.inl ⟨ho, by decide⟩) (heq.trans hu) hframe.clk hframe.pending, hrep⟩, hlatch, hmgmt,
        hframe⟩
    refine ⟨fun h => answers (State.lifeCmd_badParam h), fun ha hf => answers (State.lifeCmd_notInMode ha hf),
      fun ha hf hs hv => answers (State.lifeCmd_checkFail ha hf hs hv), fun ha hf h => ?_⟩
    obtain ⟨b, heq⟩ := State.lifeCmd_ok (s := s.atTick t) ha hf h
    obtain ⟨u, hu, hrep, hmgmt, hframe⟩ := State.lifeAccept_spec (s.atTick t) b (fieldOf v Fd.LIFE_CMD.TARGET)
    exact ⟨u, ⟨State.act_asks hup hl hk (.inl ⟨ho, by decide⟩) (heq.trans hu) hframe.clk hframe.pending, hrep⟩, hmgmt, hframe⟩

end Sys2Proof.Machine
end

section
/-! PROOFS. The retirement of frames, host scratch and the translation of addresses (R460, R461, R470 to R480). -/

namespace Sys2Proof.Machine

/-! ## A mask as a word -/

/-- The mask with the bits that a test names, as the sum of their powers of two. -/
def maskSum (p : Nat → Bool) (n : Nat) : Nat := (List.range n).foldl (fun m k => if p k then m + 2 ^ k else m) 0

theorem maskSum_succ (p : Nat → Bool) (n : Nat) : maskSum p (n + 1) = if p n then maskSum p n + 2 ^ n else maskSum p n := by
  unfold maskSum
  rw [List.range_succ, List.foldl_append]
  rfl

theorem maskSum_lt (p : Nat → Bool) (n : Nat) : maskSum p n < 2 ^ n := by
  induction n with
  | zero => exact Nat.one_pos
  | succ n ih =>
    rw [maskSum_succ, Nat.pow_succ]
    split <;> omega

theorem testBit_maskSum (p : Nat → Bool) {n k : Nat} (h : k < n) : (maskSum p n).testBit k = p k := by
  induction n with
  | zero => omega
  | succ n ih =>
    have hlt := maskSum_lt p n
    rw [maskSum_succ]
    rcases Nat.lt_or_eq_of_le (Nat.le_of_lt_succ h) with hk | rfl
    · cases hp : p n with
      | false => simpa using ih hk
      | true => simpa [Nat.add_comm, Nat.testBit_two_pow_add_gt hk] using ih hk
    · cases hp : p k with
      | false => simpa using Nat.testBit_lt_two_pow hlt
      | true => simp [Nat.add_comm (maskSum p k), Nat.testBit_two_pow_add_eq, Nat.testBit_lt_two_pow hlt]

theorem getLsbD_maskSum (p : Nat → Bool) {k : Nat} (h : k < 32) : (Word.of (maskSum p 32)).getLsbD k = p k := by
  rw [Word.of, BitVec.getLsbD_ofNat, testBit_maskSum p h]
  simp [h]

/-! ## Bytes at an offset -/

theorem length_slice (bs : List Byte) (n : Nat) : (slice bs 0 n).length = n := by
  simp [slice]

theorem slice_getD (bs : List Byte) {k n : Nat} (h : k < n) : (slice bs 0 n)[k]? = some (bs.getD k 0) := by
  simp only [slice, List.drop_zero, List.getElem?_append, List.length_take, List.getD_eq_getElem?_getD]
  by_cases hk : k < bs.length
  · simp [h, hk]
  · have hn : ¬k < min n bs.length := by omega
    rw [if_neg hn, List.getElem?_replicate, if_pos (by omega), List.getElem?_eq_none (by omega)]
    rfl

namespace State

/-! ## The retirement commands (R470, R472, R480) -/

theorem retireCmd_starts {s : State} {q : Nat} (hb : s.modes.bringup = false) (hbusy : s.isBusy Pg.RETIRE = false)
    (hr : s.retirable (s.get Reg.RETIRE_FRAME Fd.RETIRE_FRAME.FRAME) = true)
    (hc : ∀ c ∈ s.mem.copies, c.frame ≠ s.get Reg.RETIRE_FRAME Fd.RETIRE_FRAME.FRAME) (hq : s.lowestSpare = some q)
    (hcan : s.canRetire (s.get Reg.RETIRE_FRAME Fd.RETIRE_FRAME.FRAME) = true) :
    s.retireCmd = State.setBusy { s with mem := { s.mem with copies := s.mem.copies ++
      [{ frame := s.get Reg.RETIRE_FRAME Fd.RETIRE_FRAME.FRAME, pool := q, poison := [], byCmd := true, lastFree := s.freeEntries = 1 }] } }
      Pg.RETIRE true := by
  have hany : (s.mem.copies.any fun c => decide (c.frame = s.get Reg.RETIRE_FRAME Fd.RETIRE_FRAME.FRAME)) = false := by
    simpa using hc
  simp only [retireCmd, hb, hbusy, hr, hcan, startRetire, hany, hq]
  rfl

/-- The registers that show an entry of the retirement table. -/
def showEntry (s : State) : Option RetEntry → State
  | some e =>
    (((s.wr Reg.RETIRE_RES_FRAME (Word.of (2 ^ 31 + e.frame))).put Reg.RETIRE_RES_POOL Fd.RETIRE_RES_POOL.POOL e.pool).wr
      Reg.RETIRE_RES_POISON_LO (Word.of (maskSum (fun k => e.poison.contains (0 + k)) 32))).wr
      Reg.RETIRE_RES_POISON_HI (Word.of (maskSum (fun k => e.poison.contains (32 + k)) 32))
  | none =>
    (((s.wr Reg.RETIRE_RES_FRAME 0).wr Reg.RETIRE_RES_POOL 0).wr Reg.RETIRE_RES_POISON_LO 0).wr Reg.RETIRE_RES_POISON_HI 0

theorem retireRead_shows {s : State} {i : Nat} (hb : s.modes.bringup = false) (hbusy : s.isBusy Pg.RETIRE = false) :
    s.retireRead i = (s.showEntry (s.mem.table.find? i)).status Pg.RETIRE .ok := by
  cases h : s.mem.table.find? i <;> simp [retireRead, hb, hbusy, h, showEntry, maskSum]

theorem showEntry_onlyRegs (s : State) (e : Option RetEntry) : OnlyRegs s ((s.showEntry e).status Pg.RETIRE .ok)
    [Reg.RETIRE_RES_FRAME, Reg.RETIRE_RES_POOL, Reg.RETIRE_RES_POISON_LO, Reg.RETIRE_RES_POISON_HI, Reg.PAGE_STATUS Pg.RETIRE] := by
  cases e with
  | none =>
    exact ((((OnlyRegs.same.wr _ (by simp)).wr _ (by simp)).wr _ (by simp)).wr _ (by simp)).status _ (by simp)
  | some e =>
    exact ((((OnlyRegs.same.wr _ (by simp)).put _ _ (by simp)).wr _ (by simp)).wr _ (by simp)).status _ (by simp)

theorem rd_showEntry_none (s : State) {a : Nat}
    (ha : a ∈ [Reg.RETIRE_RES_FRAME, Reg.RETIRE_RES_POOL, Reg.RETIRE_RES_POISON_LO, Reg.RETIRE_RES_POISON_HI]) :
    ((s.showEntry none).status Pg.RETIRE .ok).rd a = 0 := by
  simp only [List.mem_cons, List.not_mem_nil, or_false] at ha
  rcases ha with rfl | rfl | rfl | rfl <;> rw [rd_status_ne _ _ (by decide)] <;>
    simp (disch := decide) only [showEntry, rd_wr_ne, rd_wr_same]

theorem rd_showEntry_frame (s : State) (e : RetEntry) :
    ((s.showEntry (some e)).status Pg.RETIRE .ok).rd Reg.RETIRE_RES_FRAME = Word.of (2 ^ 31 + e.frame) := by
  rw [rd_status_ne _ _ (by decide)]
  simp (disch := decide) only [showEntry, rd_wr_ne, rd_put_ne, rd_wr_same]

theorem rd_showEntry_poisonLo (s : State) (e : RetEntry) {k : Nat} (hk : k < 32) :
    (((s.showEntry (some e)).status Pg.RETIRE .ok).rd Reg.RETIRE_RES_POISON_LO).getLsbD k = e.poison.contains k := by
  rw [rd_status_ne _ _ (by decide)]
  simp (disch := decide) only [showEntry, rd_wr_ne, rd_wr_same]
  rw [getLsbD_maskSum _ hk, Nat.zero_add]

theorem rd_showEntry_poisonHi (s : State) (e : RetEntry) {k : Nat} (hk : k < 32) :
    (((s.showEntry (some e)).status Pg.RETIRE .ok).rd Reg.RETIRE_RES_POISON_HI).getLsbD k = e.poison.contains (32 + k) := by
  rw [rd_status_ne _ _ (by decide)]
  simp only [showEntry, rd_wr_same]
  exact getLsbD_maskSum _ hk

/-! ## The switch to a spare frame (R471) -/

/-- Memory once a copy of a frame without an entry has taken entry `i`. -/
def takesEntry (s : State) (c : RetCopy) (rest : List RetCopy) (i : Nat) : State :=
  { s with mem := { s.mem with copies := rest, table := s.mem.table.insert i { frame := c.frame, pool := c.pool, poison := c.poison } } }

/-- A switch as counted, shown and latched. -/
def noteSwitch (s : State) : State := (s.showRetire.inc Reg.RETIRE_CNT Fd.RETIRE_CNT.COUNT).event Pg.RETIRE Ev.RETIRE.RETIRED

theorem retireSwitch_takes {s : State} {c : RetCopy} {rest : List RetCopy} {i : Nat} (hc : s.mem.copies = c :: rest)
    (hr : s.retEntry c.frame = none) (hi : s.lowestEntry = some i) :
    s.retireSwitch = (let v := (s.takesEntry c rest i).noteSwitch.addWork (.frame c.frame c.pool 0)
      if c.byCmd then (v.setBusy Pg.RETIRE false).status Pg.RETIRE (if c.lastFree then .degraded else .ok) else v) := by
  have hr' : (State.retEntry { s with mem := { s.mem with copies := rest } } c.frame) = none := hr
  have hi' : (State.lowestEntry { s with mem := { s.mem with copies := rest } }) = some i := hi
  simp only [retireSwitch, hc, hr', hi']
  rfl

theorem noteSwitch_onlyEvents (s : State) :
    s.OnlyEvents s.noteSwitch [Reg.RETIRE_USED, Reg.RETIRE_POOL_BAD, Reg.RETIRE_CNT] :=
  (((OnlyEvents.same.put _ _ (by simp)).put _ _ (by simp)).inc _ _ (by simp)).event _ _

theorem noteSwitch_counts (s : State) :
    s.noteSwitch.get Reg.RETIRE_CNT Fd.RETIRE_CNT.COUNT = min (s.get Reg.RETIRE_CNT Fd.RETIRE_CNT.COUNT + 1) (2 ^ 32 - 1) := by
  rw [noteSwitch, get_event _ _ _ _ (by decide), get_inc_same _ _ _ _ (by decide) (by decide), showRetire,
    get_put_ne _ _ _ _ (by decide), get_put_ne _ _ _ _ (by decide)]
  rfl

theorem noteSwitch_latched (s : State) : s.noteSwitch.Latched Pg.RETIRE Ev.RETIRE.RETIRED := event_latched _ _ _ (by decide)

/-- RETIRE_SWITCH_DONE of a frame without an entry. -/
theorem retireSwitch_spec {s : State} {c : RetCopy} {rest : List RetCopy} {i : Nat} (hc : s.mem.copies = c :: rest)
    (hr : s.retEntry c.frame = none) (hi : s.lowestEntry = some i) :
    ∃ u, s.retireSwitch = u ∧ u.mem = (s.takesEntry c rest i).mem ∧ u.Latched Pg.RETIRE Ev.RETIRE.RETIRED
      ∧ u.get Reg.RETIRE_CNT Fd.RETIRE_CNT.COUNT = min (s.get Reg.RETIRE_CNT Fd.RETIRE_CNT.COUNT + 1) (2 ^ 32 - 1)
      ∧ (c.byCmd = true → u.Reports Pg.RETIRE (if c.lastFree then .degraded else .ok) ∧ u.isBusy Pg.RETIRE = false)
      ∧ u.clk = s.clk ∧ u.pending = s.pending := by
  have hframe := noteSwitch_onlyEvents (s.takesEntry c rest i)
  have hcnt := noteSwitch_counts (s.takesEntry c rest i)
  have hlatch := noteSwitch_latched (s.takesEntry c rest i)
  refine ⟨_, retireSwitch_takes hc hr hi, ?_⟩
  generalize (s.takesEntry c rest i).noteSwitch = v at hframe hcnt hlatch
  cases hb : c.byCmd with
  | false => exact ⟨hframe.mem, hlatch, hcnt, by simp, hframe.clk, hframe.pending⟩
  | true =>
    refine ⟨hframe.mem, ?_, ?_, fun _ => ⟨reports_status _ _ _, ?_⟩, hframe.clk, hframe.pending⟩
    · exact (Latched.wr (s := v.addWork _) (hlatch.of_rd rfl) _ (by decide)).status _
    · rw [← show (s.takesEntry c rest i).get _ _ = s.get _ _ from rfl, ← hcnt]
      simp only [if_true]
      rw [get_status_ne _ _ _ (by decide), setBusy, putB, get_put_ne _ _ _ _ (by decide)]
      rfl
    · simp only [if_true]
      rw [isBusy_status, isBusy_setBusy]

/-! ## Host scratch (R460) -/

theorem startXfer_of {s : State} {p : Port} {n : Nat} (toHost : Bool) (data : List Byte) (hb : s.modes.bringup = false)
    (hw : s.wipeBars = false) (hbusy : s.isBusy Pg.MEM = false) (h0 : n ≠ 0) (h1 : n ≤ 65536) (h4 : n % 4 = 0)
    (hsize : s.get Reg.MEM_XFER_OFFSET Fd.MEM_XFER_OFFSET.BYTES + n ≤ s.memMap.scratchSize) :
    s.startXfer p toHost n data = (let x : XferRun :=
        { toHost := toHost, len := n, off := s.get Reg.MEM_XFER_OFFSET Fd.MEM_XFER_OFFSET.BYTES,
          addr := (s.rd Reg.MEM_XFER_ADDR_LO).toNat + (s.rd Reg.MEM_XFER_ADDR_HI).toNat * 2 ^ 32, port := p, data := data }
      let v := State.setBusy { s with mem := { s.mem with xfer := some x } } Pg.MEM true
      if toHost then v else v.emit (.dmaRead p x.addr n)) := by
  have h1' : ¬65536 < n := by omega
  have hs' : ¬s.memMap.scratchSize < s.get Reg.MEM_XFER_OFFSET Fd.MEM_XFER_OFFSET.BYTES + n := by omega
  simp only [startXfer, hb, hw, hbusy, h0, h1', h4, hs']
  rfl

theorem startXfer_of_not {s : State} {p : Port} {n : Nat} {toHost : Bool} {data : List Byte} (hb : s.modes.bringup = false)
    (hw : s.wipeBars = false) (hbusy : s.isBusy Pg.MEM = false)
    (h : ¬(n ≠ 0 ∧ n ≤ 65536 ∧ n % 4 = 0 ∧ s.get Reg.MEM_XFER_OFFSET Fd.MEM_XFER_OFFSET.BYTES + n ≤ s.memMap.scratchSize)) :
    s.startXfer p toHost n data = s.status Pg.MEM .badParam := by
  have hbad : (decide (n = 0) || decide (65536 < n) || n % 4 != 0
      || decide (s.memMap.scratchSize < s.get Reg.MEM_XFER_OFFSET Fd.MEM_XFER_OFFSET.BYTES + n)) = true := by
    simp only [Bool.or_eq_true, decide_eq_true_eq, bne_iff_ne]
    omega
  simp only [startXfer, hb, hw, hbusy, hbad, Bool.or_false]
  rfl

/-- Scratch and its poison after a write, and nothing else but the count of partial stripes. -/
theorem scratchWrite_onlyEvents (s : State) (off : Nat) (bs : List Byte) :
    OnlyEvents { s with mem := (s.scratchWrite off bs).mem } (s.scratchWrite off bs) [Reg.STRIPE_PARTIAL_CNT] := by
  have key : ∀ (l : List Nat) (f : Nat → Nat) (u : State), OnlyEvents { s with mem := u.mem } u [Reg.STRIPE_PARTIAL_CNT] →
      OnlyEvents { s with mem := (l.foldl (fun s i => s.clearPoison (f i)) u).mem } (l.foldl (fun s i => s.clearPoison (f i)) u)
        [Reg.STRIPE_PARTIAL_CNT] := by
    intro l f
    induction l with
    | nil => exact fun u h => h
    | cons x xs ih => exact fun u h => ih _ (h.under fun z => { z with mem := (u.clearPoison (f x)).mem })
  unfold scratchWrite
  dsimp only
  refine key _ (fun i => ((s.memMap.scratchBase + off + 63) / 64 + i) * 64) _ ?_
  exact OnlyEvents.same.incWrap _ _ (by simp)

theorem moveXfer_parts (s : State) (x : XferRun) (n : Nat) :
    (s.moveXfer x n).clk = s.clk ∧ (s.moveXfer x n).pending = s.pending := by
  unfold moveXfer
  split
  · split <;> exact ⟨rfl, rfl⟩
  · have h := scratchWrite_onlyEvents s x.off ((slice x.data 0 x.len).take n)
    generalize s.scratchWrite x.off ((slice x.data 0 x.len).take n) = v at h
    exact ⟨h.clk, h.pending⟩

theorem endXfer_spec (s : State) (st : Status) :
    ∃ u, s.endXfer st = u ∧ u.mem = { s.mem with xfer := none } ∧ u.isBusy Pg.MEM = false ∧ u.Reports Pg.MEM st
      ∧ u.Latched Pg.MEM Ev.MEM.XFER_DONE ∧ s.out <:+ u.out ∧ u.clk = s.clk ∧ u.pending = s.pending := by
  have hframe : OnlyEvents { s with mem := { s.mem with xfer := none } } (s.endXfer st) [Reg.PAGE_STATUS Pg.MEM] :=
    ((OnlyEvents.same.setBusy _ (by simp)).status _ (by simp)).event _ _
  refine ⟨_, rfl, hframe.mem, ?_, ?_, event_latched _ _ _ (by decide), ?_, hframe.clk, hframe.pending⟩
  · rw [endXfer, isBusy_congr (rd_event _ _ _ (by decide)), isBusy_status, isBusy_setBusy]
  · exact (get_event _ _ _ _ (by decide)).trans (reports_status _ _ _)
  · exact suffix_event ((State.setBusy { s with mem := { s.mem with xfer := none } } Pg.MEM false).status Pg.MEM st) _ _

theorem xferDone_eq {s : State} {x : XferRun} (hx : s.mem.xfer = some x) (hm : s.memReady = true) (hd : s.devicesLost = 0) :
    s.xferDone [] = (s.moveXfer x x.len).endXfer .ok := by
  simp [xferDone, hx, readSectors, hm, hd]

theorem moveXfer_toHost {s : State} {x : XferRun} (h : x.toHost = true) (hl : 0 < x.len) :
    s.moveXfer x x.len = s.emit (.dma x.port x.addr (memRead s.mem.scratch x.off x.len)) := by
  have h0 : x.len ≠ 0 := by omega
  simp [moveXfer, h, h0]

theorem moveXfer_fromHost {s : State} {x : XferRun} (h : x.toHost = false) :
    (s.moveXfer x x.len).mem.scratch = memWrite s.mem.scratch x.off (slice x.data 0 x.len) := by
  have ht : (slice x.data 0 x.len).take x.len = slice x.data 0 x.len := List.take_of_length_le (by rw [length_slice])
  rw [← scratchWrite_scratch]
  simp [moveXfer, h, ht]

/-! ## Translation (R478) -/

theorem stripeXlat_usable {s : State} {v : Word}
    (hu : v.toNat + s.get Reg.STRIPE_XLAT_HI Fd.STRIPE_XLAT_HI.ADDR * 2 ^ 32 < s.memMap.usable)
    (hr : s.retEntry ((v.toNat + s.get Reg.STRIPE_XLAT_HI Fd.STRIPE_XLAT_HI.ADDR * 2 ^ 32) / 4096) = none) :
    s.stripeXlat v = (let x := stripeOf (v.toNat + s.get Reg.STRIPE_XLAT_HI Fd.STRIPE_XLAT_HI.ADDR * 2 ^ 32)
      ((s.wr Reg.STRIPE_XLAT_LO v).wr Reg.STRIPE_XLAT_RES (Word.of (2 ^ 31 + x.dev * 2 ^ 26 + x.par * 2 ^ 24))).wr
        Reg.STRIPE_XLAT_DADDR (Word.of x.daddr)) := by
  have hhi : (s.wr Reg.STRIPE_XLAT_LO v).get Reg.STRIPE_XLAT_HI Fd.STRIPE_XLAT_HI.ADDR
      = s.get Reg.STRIPE_XLAT_HI Fd.STRIPE_XLAT_HI.ADDR := get_wr_ne s _ _ (by decide)
  have hmap : (s.wr Reg.STRIPE_XLAT_LO v).memMap = s.memMap := by
    unfold State.memMap flag
    rw [get_wr_ne s _ _ (by decide)]
  have hent (n : Nat) : (s.wr Reg.STRIPE_XLAT_LO v).retEntry n = s.retEntry n := rfl
  simp only [stripeXlat, hhi, hmap, hu, if_true, hent, hr, physAddr, Option.isSome_none, b2n, Bool.false_eq_true, if_false,
    Nat.zero_mul, Nat.add_zero]

theorem stripeXlat_outside {s : State} {v : Word}
    (hu : s.memMap.usable ≤ v.toNat + s.get Reg.STRIPE_XLAT_HI Fd.STRIPE_XLAT_HI.ADDR * 2 ^ 32) :
    s.stripeXlat v = ((s.wr Reg.STRIPE_XLAT_LO v).wr Reg.STRIPE_XLAT_RES 0).wr Reg.STRIPE_XLAT_DADDR 0 := by
  have hhi : (s.wr Reg.STRIPE_XLAT_LO v).get Reg.STRIPE_XLAT_HI Fd.STRIPE_XLAT_HI.ADDR
      = s.get Reg.STRIPE_XLAT_HI Fd.STRIPE_XLAT_HI.ADDR := get_wr_ne s _ _ (by decide)
  have hmap : (s.wr Reg.STRIPE_XLAT_LO v).memMap = s.memMap := by
    unfold State.memMap flag
    rw [get_wr_ne s _ _ (by decide)]
  simp only [stripeXlat, hhi, hmap, Nat.not_lt.mpr hu, if_false]

end State

/-- Settles O45: the commands by R472's conditions in turn; the switch takes the lowest free entry. -/
theorem retirement : Obligations.Retirement := by
  unfold Obligations.Retirement
  constructor
  case left =>
    intro s t p i hs
    simp only
    refine ⟨fun hb => ?_, fun hb hbusy => ?_, fun hb hbusy => ⟨fun hr => ?_, fun q hr hc hq hcan => ?_, ?_⟩⟩
    · exact ⟨State.serves_of_eq _ hs (by simp [State.retireCmd, hb]) rfl rfl,
        State.serves_of_eq (fun s => s.retireRead i.toNat) hs (by simp [State.retireRead, hb]) rfl rfl⟩
    · exact ⟨State.serves_of_eq _ hs (by simp [State.retireCmd, hb, hbusy]) rfl rfl,
        State.serves_of_eq (fun s => s.retireRead i.toNat) hs (by simp [State.retireRead, hb, hbusy]) rfl rfl⟩
    · have hr' : (s.atTick t).retirable (s.get Reg.RETIRE_FRAME Fd.RETIRE_FRAME.FRAME) = false := hr
      exact State.serves_of_eq _ hs (by simp [State.retireCmd, hb, hbusy, hr']) rfl rfl
    · exact State.serves_of_eq _ hs (State.retireCmd_starts (s := s.atTick t) hb hbusy hr hc hq hcan) rfl rfl
    · have heq := State.retireRead_shows (s := s.atTick t) (i := i.toNat) hb hbusy
      have hregs := (State.showEntry_onlyRegs (s.atTick t) ((s.atTick t).mem.table.find? i.toNat)).1
      have hclk := congrArg State.clk hregs
      have hpend := congrArg State.pending hregs
      refine ⟨_, State.serves_of_eq (fun s => s.retireRead i.toNat) hs heq hclk hpend, State.reports_status _ _ _, hregs, fun h => ?_,
        fun e h => ?_⟩
      · have h' : (s.atTick t).mem.table.find? i.toNat = none := h
        rw [h']
        exact ⟨State.rd_showEntry_none _ (by simp), State.rd_showEntry_none _ (by simp), State.rd_showEntry_none _ (by simp),
          State.rd_showEntry_none _ (by simp)⟩
      · have h' : (s.atTick t).mem.table.find? i.toNat = some e := h
        rw [h']
        exact ⟨State.rd_showEntry_frame _ e,
          fun k hk => ⟨State.rd_showEntry_poisonLo _ e hk, State.rd_showEntry_poisonHi _ e hk⟩⟩
  case right =>
    intro s t c rest i hup hc hr hi
    obtain ⟨u, heq, hmem, hlatch, hcnt, hcmd, hclk, hpend⟩ := State.retireSwitch_spec (s := s.atTick t) hc hr hi
    refine ⟨u, State.act_of_eq _ hup heq hclk hpend, ?_, ?_, fun k hk => ?_, ?_, hlatch, hcnt, hcmd⟩
    · rw [hmem]; rfl
    · rw [hmem]
      exact (Assoc.find?_insert _ _ _ _).trans (if_pos rfl)
    · rw [hmem]
      exact (Assoc.find?_insert _ _ _ _).trans (if_neg hk)
    · rw [hmem]; rfl

/-- Settles O46: a transfer by its length and place, its completion by its direction, and the stripe arithmetic of R461. -/
theorem scratchAndStripes : Obligations.ScratchAndStripes := by
  unfold Obligations.ScratchAndStripes
  refine ⟨?_, ?_, ?_⟩
  case refine_1 =>
    intro s t p len data hs hb hw hbusy
    simp only
    have hw' : (s.atTick t).wipeBars = false := hw
    refine ⟨fun ⟨h0, h1, h4, hsize⟩ => ⟨?_, ?_⟩, fun h => ⟨?_, ?_⟩⟩
    · exact State.serves_of_eq _ hs (State.startXfer_of (s := s.atTick t) true [] hb hw' hbusy h0 h1 h4 hsize) rfl rfl
    · exact State.serves_of_eq _ hs (State.startXfer_of (s := s.atTick t) false data hb hw' hbusy h0 h1 h4 hsize) rfl rfl
    · exact State.serves_of_eq _ hs (State.startXfer_of_not (s := s.atTick t) hb hw' hbusy h) rfl rfl
    · exact State.serves_of_eq _ hs (State.startXfer_of_not (s := s.atTick t) hb hw' hbusy h) rfl rfl
  case refine_2 =>
    intro s t x hup hx hm hd hl
    have heq := State.xferDone_eq (s := s.atTick t) hx hm hd
    obtain ⟨hclk, hpend⟩ := State.moveXfer_parts (s.atTick t) x x.len
    obtain ⟨u, hu, hmem, hbusy, hrep, hlatch, hout, huclk, hupend⟩ := State.endXfer_spec ((s.atTick t).moveXfer x x.len) .ok
    refine ⟨u, State.act_of_eq (fun s => s.xferDone []) hup (heq.trans hu) (huclk.trans hclk) (hupend.trans hpend), by rw [hmem],
      hbusy, hrep, hlatch, fun hto => ?_, fun hto => ?_⟩
    · have hmove := State.moveXfer_toHost (s := s.atTick t) hto hl
      rw [hmove] at hmem hout
      exact ⟨by rw [hmem]; rfl, State.Sends.of_suffix hout⟩
    · have hmove := State.moveXfer_fromHost (s := s.atTick t) hto
      have hscr : u.mem.scratch = memWrite s.mem.scratch x.off (slice x.data 0 x.len) := by rw [hmem]; exact hmove
      rw [hscr]
      refine ⟨fun k hk => ?_, fun a ha => memGet_memWrite_ne _ _ _ _ (by rwa [length_slice]), fun h => memWrite_wf _ _ _ h⟩
      rw [memGet_memWrite, if_pos (by omega), Nat.add_sub_cancel_left, slice_getD _ hk]
      rfl
  case refine_3 =>
    intro s t p v hs
    exact ⟨fun hu hr => State.serves_of_eq _ hs (State.stripeXlat_usable (s := s.atTick t) hu hr) rfl rfl,
      fun hu => State.serves_of_eq _ hs (State.stripeXlat_outside (s := s.atTick t) hu) rfl rfl⟩

end Sys2Proof.Machine
end

section
/-! PROOFS. GDDR-6 comes into service, and is scrubbed and recorded (R456 to R458, R469, R473). -/

namespace Sys2Proof.Machine

namespace State

/-! ## The state of memory (R477) -/

/-- A change of MEM_STATE.STATE. -/
theorem setMemState_spec {s : State} {v : Nat} (hv : v < 4) (hne : s.get Reg.MEM_STATE Fd.MEM_STATE.STATE ≠ v) :
    ∃ u, s.setMemState v = u ∧ u.get Reg.MEM_STATE Fd.MEM_STATE.STATE = v
      ∧ u.get Reg.MEM_STATE Fd.MEM_STATE.DEV_OK = s.get Reg.MEM_STATE Fd.MEM_STATE.DEV_OK
      ∧ u.Latched Pg.MEM Ev.MEM.STATE_CHANGE ∧ s.OnlyEvents u [Reg.MEM_STATE] := by
  have heq : s.setMemState v = (s.put Reg.MEM_STATE Fd.MEM_STATE.STATE v).event Pg.MEM Ev.MEM.STATE_CHANGE := by
    rw [setMemState, eventIf, if_pos (by simpa using hne)]
  refine ⟨_, heq, ?_, ?_, event_latched _ _ _ (by decide), (OnlyEvents.same.put _ _ (by simp)).event _ _⟩
  · rw [get_event _ _ _ _ (by decide), get_put_same _ _ _ _ (by decide) (by decide)]
    exact Nat.mod_eq_of_lt hv
  · rw [get_event _ _ _ _ (by decide), get_put_other _ _ _ _ _ (by decide) (by decide) (by decide) (by decide)]

/-! ## Training (R456, R457) -/

/-- The registers once training has ended with every device in service. -/
def trained (s : State) : State :=
  (s.put Reg.MEM_TRAIN_MS Fd.MEM_TRAIN_MS.MS (min 255 ((s.clk.now - s.mem.since) / msTicks 1))).put Reg.MEM_STATE Fd.MEM_STATE.DEV_OK 15

theorem trained_onlyEvents (s : State) : s.OnlyEvents s.trained [Reg.MEM_STATE, Reg.MEM_TRAIN_MS] :=
  (OnlyEvents.same.put _ _ (by simp)).put _ _ (by simp)

theorem trained_devOk (s : State) : s.trained.get Reg.MEM_STATE Fd.MEM_STATE.DEV_OK = 15 :=
  get_put_same _ _ _ _ (by decide) (by decide)

/-- The end of training leaves the other fields of MEM_STATE. -/
theorem trained_get (s : State) {f : Fd} (hf : 7 < f.lo ∨ f.hi < 4) (hle : f.lo ≤ f.hi) :
    s.trained.get Reg.MEM_STATE f = s.get Reg.MEM_STATE f := by
  rw [trained, get_put_other _ _ _ _ _ (by decide) (by decide) hf hle, get_put_ne _ _ _ _ (by decide)]

theorem devicesLost_congr {s u : State} (h : u.get Reg.MEM_STATE Fd.MEM_STATE.LOST = s.get Reg.MEM_STATE Fd.MEM_STATE.LOST) :
    u.devicesLost = s.devicesLost := by
  unfold devicesLost deviceLost
  rw [h]

theorem trainingDone_eq {s : State} (h : s.get Reg.MEM_STATE Fd.MEM_STATE.STATE = 1) (hf : s.mgmt.flash.lostDevices = [])
    (hl : s.devicesLost = 0) : s.trainingDone [] = (s.trained.setMemState 2).relCheck := by
  have hf' : s.trained.recordedLost = s.trained := by
    unfold recordedLost
    rw [show s.trained.mgmt = s.mgmt from s.trained_onlyEvents.mgmt, hf]
    rfl
  have hl' : s.trained.devicesLost < 2 := by
    rw [devicesLost_congr (s.trained_get (by decide) (by decide)), hl]
    decide
  simp only [trainingDone, h, if_true]
  rw [← trained, hf', List.foldl_nil, if_pos hl']

/-- Training ends with every device in service: initialisation begins. -/
theorem trainingDone_spec {s : State} (h : s.get Reg.MEM_STATE Fd.MEM_STATE.STATE = 1) (hf : s.mgmt.flash.lostDevices = [])
    (hl : s.devicesLost = 0) :
    ∃ u, s.trainingDone [] = u ∧ u.get Reg.MEM_STATE Fd.MEM_STATE.STATE = 2 ∧ u.get Reg.MEM_STATE Fd.MEM_STATE.DEV_OK = 15
      ∧ u.Latched Pg.MEM Ev.MEM.STATE_CHANGE ∧ OnlyEvents { s with spares := u.spares } u [Reg.MEM_STATE, Reg.MEM_TRAIN_MS] := by
  have hne : s.trained.get Reg.MEM_STATE Fd.MEM_STATE.STATE ≠ 2 := by
    rw [s.trained_get (by decide) (by decide), h]
    decide
  obtain ⟨v, hv, hstate, hok, hlatch, hframe⟩ := setMemState_spec (v := 2) (by decide) hne
  refine ⟨_, (trainingDone_eq h hf hl).trans (congrArg relCheck hv), ?_, ?_, relCheck_keeps _ hlatch, ?_⟩
  · exact (get_congr (relCheck_rd v (by decide)) _).trans hstate
  · exact (get_congr (relCheck_rd v (by decide)) _).trans (hok.trans s.trained_devOk)
  · exact (s.trained_onlyEvents.andThen (hframe.mono (by simp))).relCheck

theorem trainingDone_of_not {s : State} {l : List Nat} (h : s.get Reg.MEM_STATE Fd.MEM_STATE.STATE ≠ 1) : s.trainingDone l = s := by
  simp [trainingDone, h]

/-! ## Initialisation (R443, R456, R473) -/

/-- Memory, archive and log as initialisation leaves them. -/
def initialised (s : State) : State :=
  { s with
    log := { s.log with mem := (s.log.ram.take memRecords) },
    mem := { s.mem with scratch := [], since := s.clk.now,
                        table := s.mem.table.map fun (e : Nat × RetEntry) => (e.1, { e.2 with poison := [] }) },
    arc := { ArcRun.empty with
      streams := s.arc.streams.map fun (x : ArcStream) => { x with seg := none, full := [], write := none, waitSince := none },
      nextKey := s.arc.nextKey } }

theorem initDone_spec {s : State} (h : s.get Reg.MEM_STATE Fd.MEM_STATE.STATE = 2) :
    ∃ u, s.initDone = u ∧ u.get Reg.MEM_STATE Fd.MEM_STATE.STATE = 3 ∧ s.initialised.OnlyEvents u [Reg.MEM_STATE] := by
  have hne : s.initialised.get Reg.MEM_STATE Fd.MEM_STATE.STATE ≠ 3 := by
    rw [show s.initialised.get Reg.MEM_STATE Fd.MEM_STATE.STATE = s.get Reg.MEM_STATE Fd.MEM_STATE.STATE from rfl, h]
    decide
  obtain ⟨u, hu, hstate, -, -, hframe⟩ := setMemState_spec (v := 3) (by decide) hne
  refine ⟨u, ?_, hstate, hframe⟩
  rw [← hu, initDone, if_pos h]
  rfl

theorem initDone_of_not {s : State} (h : s.get Reg.MEM_STATE Fd.MEM_STATE.STATE ≠ 2) : s.initDone = s := by simp [initDone, h]

/-- Initialisation changes memory, the archive and what the log holds. -/
theorem initialised_onlyEvents (s : State) : OnlyEvents { s with mem := s.initialised.mem, arc := s.initialised.arc } s.initialised [] :=
  ⟨rfl, fun _ _ _ => rfl⟩

/-! ## Scrubbing (R469) -/

theorem scrubPass_spec {s : State} (h : s.memReady = true) :
    ∃ u, s.scrubPass [] = u ∧ u.Latched Pg.MEM Ev.MEM.SCRUB_PASS
      ∧ u.get Reg.MEM_SCRUB_PASSES Fd.MEM_SCRUB_PASSES.COUNT = (s.get Reg.MEM_SCRUB_PASSES Fd.MEM_SCRUB_PASSES.COUNT + 1) % 2 ^ 32
      ∧ OnlyEvents { s with mem := { s.mem with since := s.clk.now } } u [Reg.MEM_SCRUB_PASSES] := by
  have heq : s.scrubPass [] = (State.incWrap { s with mem := { s.mem with since := s.clk.now } } Reg.MEM_SCRUB_PASSES
      Fd.MEM_SCRUB_PASSES.COUNT).event Pg.MEM Ev.MEM.SCRUB_PASS := by
    rw [scrubPass, if_pos h]
    rfl
  refine ⟨_, heq, event_latched _ _ _ (by decide), ?_, (OnlyEvents.same.incWrap _ _ (by simp)).event _ _⟩
  rw [get_event _ _ _ _ (by decide), get_incWrap_same _ _ _ _ (by decide) (by decide)]
  rfl

theorem scrubPass_of_not {s : State} {l : List SectorRead} (h : s.memReady = false) : s.scrubPass l = s := by simp [scrubPass, h]

/-! ## Fault records (R458) -/

theorem recordWrite_some {s : State} {w : FlashWork} {rest : List FlashWork} (hk : s.mgmt.kstate = .running)
    (hw : takeFirst FlashWork.isFault s.mgmt.work = some (w, rest)) :
    s.recordWrite = { s with mgmt := { s.mgmt with work := rest, flash := s.mgmt.flash.record w } } := by
  simp [recordWrite, hk, hw]

theorem recordWrite_none {s : State} (hw : takeFirst FlashWork.isFault s.mgmt.work = none) : s.recordWrite = s := by
  simp [recordWrite, hw]

end State

/-- Settles O44: each command acts in one state of memory and is one equation there. -/
theorem memoryStart : Obligations.MemoryStart := by
  unfold Obligations.MemoryStart
  intro s t hup
  simp only
  refine ⟨?_, ?_, ?_, ?_, ?_, ?_, ?_⟩
  case _ => exact fun h l => State.act_nothing (f := fun s => s.trainingDone l) hup (State.trainingDone_of_not h)
  case _ =>
    intro h hf hl
    obtain ⟨u, heq, hstate, hok, hlatch, hframe⟩ := State.trainingDone_spec (s := s.atTick t) h hf hl
    exact ⟨u, State.act_of_eq (fun s => s.trainingDone []) hup heq hframe.clk hframe.pending, hstate, hok, hlatch, hframe⟩
  case _ => exact fun h => State.act_nothing hup (State.initDone_of_not h)
  case _ =>
    intro h
    obtain ⟨u, heq, hstate, hframe⟩ := State.initDone_spec (s := s.atTick t) h
    have hmem : u.mem = _ := hframe.mem
    have harc : u.arc = _ := hframe.arc
    have hall := (State.initialised_onlyEvents (s.atTick t)).weaken.andThen hframe
    rw [← hmem, ← harc] at hall
    refine ⟨u, State.act_of_eq _ hup heq hframe.clk hframe.pending, by simp [State.memReady, hstate], fun a => ?_, ?_, ?_, ?_, ?_, ?_,
      hall⟩
    · rw [hmem]; rfl
    · rw [hmem]; exact memory_wf_nil
    · rw [hmem]; rfl
    · rw [State.chainLen, harc]; rfl
    · rw [harc]; rfl
    · rw [harc]; rfl
  case _ => exact fun h l => State.act_nothing (f := fun s => s.scrubPass l) hup (State.scrubPass_of_not h)
  case _ =>
    intro h
    obtain ⟨u, heq, hlatch, hcnt, hframe⟩ := State.scrubPass_spec (s := s.atTick t) h
    exact ⟨u, State.act_of_eq (fun s => s.scrubPass []) hup heq hframe.clk hframe.pending, hlatch, hcnt, hframe⟩
  case _ =>
    exact fun hk => ⟨fun h => State.act_nothing hup (State.recordWrite_none h),
      fun w rest h => State.act_of_eq _ hup (State.recordWrite_some (s := s.atTick t) hk h) rfl rfl⟩

end Sys2Proof.Machine
end

section
/-! PROOFS. Aggregates and shapers: their settings, what READ shows, and a refill (R304, R312, R313). -/

namespace Sys2Proof.Machine

/-- The first value under a key, after every value was changed and some were dropped. -/
theorem Assoc.find?_map_filter {α : Type} {m : Assoc α} {k : Nat} {x : α} (g : α → α) (p : Nat × α → Bool) (h : m.find? k = some x)
    (hp : p (k, g x) = true) : Assoc.find? k ((m.map fun e => (e.1, g e.2)).filter p) = some (g x) := by
  induction m with
  | nil => cases h
  | cons e rest ih =>
    obtain ⟨j, y⟩ := e
    rw [List.map_cons]
    by_cases hj : j = k
    · subst hj
      have hy : y = x := by simpa [Assoc.find?] using h
      subst hy
      rw [List.filter_cons_of_pos hp]
      simp [Assoc.find?]
    · have hrest := ih (by simpa [Assoc.find?, hj] using h)
      rw [List.filter_cons]
      split
      · simpa [Assoc.find?, hj] using hrest
      · exact hrest

namespace State

theorem flag_putB_same (s : State) (a : Nat) (f : Fd) (b : Bool) (h : f.hi = f.lo) (h2 : f.hi < 32) : (s.putB a f b).flag a f = b := by
  have hpow : f.hi + 1 - f.lo = 1 := by omega
  unfold flag putB
  rw [get_put_same _ _ _ _ (by omega) h2, hpow]
  cases b <;> rfl

theorem OnlyRegs.of_eq {s u v : State} {r : List Nat} (h : s = u) (hf : u.OnlyRegs v r) : s.OnlyRegs v r := h ▸ hf

/-! ## Aggregates (R304) -/

theorem agg_setAgg (s : State) (a b : Nat) (x : AggRun) : (s.setAgg a x).agg b = if b = a then x else s.agg b :=
  Assoc.get_set (fun _ => AggRun.fresh) _ _ _ _

theorem flow_setFlow (s : State) (a b : Nat) (x : FlowRun) : (s.setFlow a x).flow b = if b = a then x else s.flow b :=
  Assoc.get_set (fun _ => FlowRun.fresh) _ _ _ _

/-- The conditions under which a WRITE would move flows that are attached. -/
def aggMoves (n old : AggCfg) : Bool := n.port != old.port || n.cls != old.cls || (old.en && !n.en)

section
variable {s : State} {a : Nat}

theorem aggWrite_badParam (h : s.aggData.weight = 0 ∨ s.provided s.aggData.port = false) :
    s.aggWrite a = s.status Pg.EGS .badParam := by
  rcases h with h | h <;> simp [aggWrite, h, refuse]

variable (hw : s.aggData.weight ≠ 0) (hp : s.provided s.aggData.port = true)
include hw hp

theorem aggWrite_conflict (hm : aggMoves s.aggData (s.agg a).cfg = true) (hf : 0 < s.aggFlows a) :
    s.aggWrite a = s.status Pg.EGS .conflict := by
  unfold aggMoves at hm
  simp [aggWrite, hw, hp, hm, hf, refuse]

theorem aggWrite_ok (h : aggMoves s.aggData (s.agg a).cfg = false ∨ s.aggFlows a = 0) :
    s.aggWrite a = (s.setAgg a { s.agg a with cfg := s.aggData, cfgAt := s.clk.now }).status Pg.EGS .ok := by
  unfold aggMoves at h
  rcases h with h | h <;> simp [aggWrite, hw, hp, h]

end

/-- The settings of an aggregate in EGS_AGG_DATA. -/
def showAggCfg (s : State) (c : AggCfg) : State :=
  (((s.putB Reg.EGS_AGG_DATA Fd.EGS_AGG_DATA.EN c.en).put Reg.EGS_AGG_DATA Fd.EGS_AGG_DATA.CLASS c.cls).put Reg.EGS_AGG_DATA
    Fd.EGS_AGG_DATA.PORT c.port).put Reg.EGS_AGG_DATA Fd.EGS_AGG_DATA.WEIGHT c.weight

/-- What EGS_AGG_READ shows of an aggregate. -/
def showAgg (s : State) (c : AggCfg) (flows : Nat) : State :=
  ((s.showAggCfg c).put Reg.EGS_AGG_FLOWS Fd.EGS_AGG_FLOWS.COUNT flows).status Pg.EGS .ok

theorem showAggCfg_onlyRegs (s : State) (c : AggCfg) : s.OnlyRegs (s.showAggCfg c) [Reg.EGS_AGG_DATA] :=
  (((OnlyRegs.same.putB _ _ (by simp)).put _ _ (by simp)).put _ _ (by simp)).put _ _ (by simp)

theorem aggFlows_congr {s u : State} (h : u.nw = s.nw) (a : Nat) : u.aggFlows a = s.aggFlows a := by
  unfold aggFlows
  rw [h]

theorem aggRead_eq (s : State) (a : Nat) : s.aggRead a = s.showAgg (s.agg a).cfg (s.aggFlows a) := by
  have hregs := (s.showAggCfg_onlyRegs (s.agg a).cfg).1
  have hnw := congrArg State.nw hregs
  rw [← aggFlows_congr (u := s.showAggCfg (s.agg a).cfg) hnw]
  rfl

theorem showAgg_onlyRegs (s : State) (c : AggCfg) (n : Nat) :
    s.OnlyRegs (s.showAgg c n) [Reg.EGS_AGG_DATA, Reg.EGS_AGG_FLOWS, Reg.PAGE_STATUS Pg.EGS] :=
  (((((OnlyRegs.same.putB _ _ (by simp)).put _ _ (by simp)).put _ _ (by simp)).put _ _ (by simp)).put _ _ (by simp)).status _ (by simp)

theorem showAgg_reports (s : State) (c : AggCfg) (n : Nat) : (s.showAgg c n).Reports Pg.EGS .ok := reports_status _ _ _

theorem showAgg_en (s : State) (c : AggCfg) (n : Nat) : (s.showAgg c n).flag Reg.EGS_AGG_DATA Fd.EGS_AGG_DATA.EN = c.en := by
  rw [← flag_putB_same s Reg.EGS_AGG_DATA Fd.EGS_AGG_DATA.EN c.en rfl (by decide)]
  unfold flag showAgg showAggCfg
  simp (disch := decide) only [get_status_ne, get_put_ne, get_put_other]

theorem showAgg_get (s : State) (c : AggCfg) (n : Nat) :
    (s.showAgg c n).get Reg.EGS_AGG_DATA Fd.EGS_AGG_DATA.CLASS = c.cls % 8
    ∧ (s.showAgg c n).get Reg.EGS_AGG_DATA Fd.EGS_AGG_DATA.PORT = c.port % 8
    ∧ (s.showAgg c n).get Reg.EGS_AGG_DATA Fd.EGS_AGG_DATA.WEIGHT = c.weight % 2 ^ 8
    ∧ (s.showAgg c n).get Reg.EGS_AGG_FLOWS Fd.EGS_AGG_FLOWS.COUNT = n % 2 ^ 18 := by
  unfold showAgg showAggCfg
  refine ⟨?_, ?_, ?_, ?_⟩ <;> simp (disch := decide) only [get_status_ne, get_put_ne, get_put_other, get_put_same] <;> rfl

/-! ## Shapers (R312, R313, R322) -/

/-- A flow or an aggregate is given another shaper. -/
def setShaper (s : State) (agg : Bool) (i : Nat) (x : Shaper) : State :=
  if agg then s.setAgg i { s.agg i with shp := x } else s.setFlow i { s.flow i with shp := x }

theorem shaper_setShaper (s : State) (agg b : Bool) (i k : Nat) (x : Shaper) :
    (s.setShaper agg i x).shaper b k = if (b, k) = (agg, i) then x else s.shaper b k := by
  cases agg <;> cases b <;> by_cases hk : k = i <;> simp [setShaper, shaper, agg_setAgg, flow_setFlow, hk] <;> rfl

theorem shpWrite_ok {s : State} {agg : Bool} {i : Nat} (hr : shpRange agg i = false) (hb : shpBad s.shpData = false) :
    s.shpWrite agg i = (s.setShaper agg i { s.shaper agg i with pend := some (s.clk.now, s.shpData) }).status Pg.SHP .ok := by
  simp [shpWrite, hr, hb, setShaper]

theorem setShaper_only (s : State) (agg : Bool) (i : Nat) (x : Shaper) :
    { s with nw := { s.nw with flows := (s.setShaper agg i x).nw.flows, aggs := (s.setShaper agg i x).nw.aggs } } = s.setShaper agg i x := by
  cases agg <;> rfl

/-- What SHP_READ shows of a shaper. -/
def showShaper (s : State) (x : Shaper) : State :=
  ((((((((s.putB Reg.SHP_CIR Fd.SHP_CIR.EN x.cfg.en).put Reg.SHP_CIR Fd.SHP_CIR.CIR x.cfg.cir).put Reg.SHP_PIR Fd.SHP_PIR.PIR
    x.cfg.pir).put Reg.SHP_DEPTH Fd.SHP_DEPTH.PBS x.cfg.pbs).put Reg.SHP_DEPTH Fd.SHP_DEPTH.CBS x.cfg.cbs).putI Reg.SHP_TC
    Fd.SHP_TC.MILLI (milliOf x.tc)).putI Reg.SHP_TP Fd.SHP_TP.MILLI (milliOf x.tp)).put Reg.SHP_STATE Fd.SHP_STATE.STATE
    x.state).status Pg.SHP .ok

theorem shpRead_eq {s : State} {agg : Bool} {i : Nat} (hr : shpRange agg i = false) : s.shpRead agg i = s.showShaper (s.shaper agg i) := by
  rw [shpRead, if_neg (by simp [hr])]
  rfl

theorem showShaper_onlyRegs (s : State) (x : Shaper) : s.OnlyRegs (s.showShaper x)
    [Reg.SHP_CIR, Reg.SHP_PIR, Reg.SHP_DEPTH, Reg.SHP_TC, Reg.SHP_TP, Reg.SHP_STATE, Reg.PAGE_STATUS Pg.SHP] :=
  ((((((((OnlyRegs.same.putB _ _ (by simp)).put _ _ (by simp)).put _ _ (by simp)).put _ _ (by simp)).put _ _ (by simp)).put _ _
    (by simp)).put _ _ (by simp)).put _ _ (by simp)).status _ (by simp)

theorem Shaper.state_lt (x : Shaper) : x.state < 4 := by
  unfold Machine.Shaper.state
  split
  · decide
  · split
    · decide
    · split <;> decide

theorem showShaper_reports (s : State) (x : Shaper) : (s.showShaper x).Reports Pg.SHP .ok := reports_status _ _ _

theorem showShaper_en (s : State) (x : Shaper) : (s.showShaper x).flag Reg.SHP_CIR Fd.SHP_CIR.EN = x.cfg.en := by
  rw [← flag_putB_same s Reg.SHP_CIR Fd.SHP_CIR.EN x.cfg.en rfl (by decide)]
  unfold flag showShaper putI
  simp (disch := decide) only [get_status_ne, get_put_ne, get_put_other]

theorem showShaper_get (s : State) (x : Shaper) :
    (s.showShaper x).get Reg.SHP_CIR Fd.SHP_CIR.CIR = x.cfg.cir % 2 ^ 24
    ∧ (s.showShaper x).get Reg.SHP_PIR Fd.SHP_PIR.PIR = x.cfg.pir % 2 ^ 24
    ∧ (s.showShaper x).get Reg.SHP_DEPTH Fd.SHP_DEPTH.CBS = x.cfg.cbs % 2 ^ 16
    ∧ (s.showShaper x).get Reg.SHP_DEPTH Fd.SHP_DEPTH.PBS = x.cfg.pbs % 2 ^ 16
    ∧ (s.showShaper x).get Reg.SHP_STATE Fd.SHP_STATE.STATE = x.state % 2 ^ 2 := by
  unfold showShaper putI
  refine ⟨?_, ?_, ?_, ?_, ?_⟩ <;> simp (disch := decide) only [get_status_ne, get_put_ne, get_put_other, get_put_same]

/-! ## A refill (R312, R313) -/

theorem Shaper.refill_of {x : Shaper} (q : Nat) (he : x.cfg.en = true) (hp : x.pend = none) :
    x.refill q = { x with tc := min (x.cfg.cbs * 50000) (x.tc + x.cfg.cir), tp := min (x.cfg.pbs * 50000) (x.tp + x.cfg.pir) } := by
  simp [Machine.Shaper.refill, Machine.Shaper.adopt, hp, he, shpUnit]

theorem Shaper.refill_cfg {x : Shaper} (q : Nat) (he : x.cfg.en = true) (hp : x.pend = none) : (x.refill q).cfg.en = true := by
  rw [refill_of q he hp]
  exact he

theorem takeWant_q (s : State) (f : FlowRun) : (s.takeWant f).q = f.q := by
  unfold takeWant
  split
  · rfl
  · split
    · rfl
    · split <;> rfl

/-- A flow or aggregate that has a shaper is listed. -/
theorem find?_of_getD {α : Type} {m : Assoc α} {k : Nat} {d : α} (h : (m.find? k).getD d ≠ d) : m.find? k = some ((m.find? k).getD d) := by
  cases hm : m.find? k with
  | none => simp [hm] at h
  | some x => rfl

/-- An aggregate after a refill at tick `q`: settings that wait take effect, and its bucket refills. -/
def refillAgg (s : State) (q : Nat) (a : AggRun) : AggRun :=
  let b := if a.cfg != a.eff && a.cfgAt < q then
      { a with eff := a.cfg, tag := if a.cfg.port = a.eff.port && a.cfg.cls = a.eff.cls then a.tag
                                    else (s.cls (s.outPort a.cfg.port) a.cfg.cls).v }
    else a
  { b with shp := b.shp.refill q }

theorem refillAgg_shp (s : State) (q : Nat) (a : AggRun) : (s.refillAgg q a).shp = a.shp.refill q := by
  unfold refillAgg
  dsimp only
  split <;> rfl

/-- The state with the aggregates after a refill. -/
def refillAggs (s : State) (q : Nat) : State :=
  { s with nw := { s.nw with aggs := (s.nw.aggs.map fun e => (e.1, s.refillAgg q e.2)).filter fun x => x.2 ≠ AggRun.fresh } }

/-- A flow after a refill at tick `q`. -/
def refillFlow (s : State) (q : Nat) (f : FlowRun) : FlowRun := { s.takeWant f with shp := f.shp.refill q }

theorem refillStep_eq (s : State) (q : Nat) : s.refillStep q = { s.refillAggs q with nw := { (s.refillAggs q).nw with
    flows := (s.nw.flows.map fun e => (e.1, (s.refillAggs q).refillFlow q e.2)).filter fun x => x.2 ≠ FlowRun.fresh } } := rfl

theorem agg_refillStep {s : State} {a q : Nat} (he : (s.agg a).shp.cfg.en = true) (hp : (s.agg a).shp.pend = none) :
    ((s.refillStep q).agg a).shp = (s.agg a).shp.refill q := by
  have hne : s.agg a ≠ AggRun.fresh := by
    intro h
    rw [h] at he
    cases he
  have hkept : s.refillAgg q (s.agg a) ≠ AggRun.fresh := by
    intro h
    have hen := Shaper.refill_cfg q he hp
    rw [← refillAgg_shp, h] at hen
    cases hen
  have hfind := Assoc.find?_map_filter (s.refillAgg q) (fun x => decide (x.2 ≠ AggRun.fresh)) (find?_of_getD hne) (decide_eq_true hkept)
  have hagg : (s.refillStep q).agg a = s.refillAgg q (s.agg a) := congrArg (fun x => x.getD AggRun.fresh) hfind
  rw [hagg, refillAgg_shp]

theorem flow_refillStep {s : State} {leg q : Nat} (he : (s.flow leg).shp.cfg.en = true) (hp : (s.flow leg).shp.pend = none) :
    ((s.refillStep q).flow leg).shp = (s.flow leg).shp.refill q ∧ ((s.refillStep q).flow leg).q = (s.flow leg).q := by
  have hne : s.flow leg ≠ FlowRun.fresh := by
    intro h
    rw [h] at he
    cases he
  have hkept : (s.refillAggs q).refillFlow q (s.flow leg) ≠ FlowRun.fresh := by
    intro h
    have hen : ((s.refillAggs q).refillFlow q (s.flow leg)).shp.cfg.en = true := Shaper.refill_cfg q he hp
    rw [h] at hen
    cases hen
  have hfind := Assoc.find?_map_filter ((s.refillAggs q).refillFlow q) (fun x => decide (x.2 ≠ FlowRun.fresh)) (find?_of_getD hne)
    (decide_eq_true hkept)
  have hflow : (s.refillStep q).flow leg = (s.refillAggs q).refillFlow q (s.flow leg) :=
    congrArg (fun x => x.getD FlowRun.fresh) hfind
  rw [hflow]
  exact ⟨rfl, takeWant_q _ _⟩

/-- One refill that is due. -/
theorem refills_one {s : State} (hst : s.clk.started = true) (hd : s.refillsDue = s.nw.refills + 1) :
    ∃ q, s.refills = { s.refillStep q with nw := { (s.refillStep q).nw with refills := s.nw.refills + 1 } } := by
  refine ⟨s.clk.at0 + refillAt s.nw.refills, ?_⟩
  simp only [refills, hst, hd, Nat.add_sub_cancel_left]
  rfl

end State

/-- Settles O31: WRITE by R304's conditions in turn, READ as the fields of its two registers. -/
theorem aggregates : Obligations.Aggregates := by
  unfold Obligations.Aggregates
  intro s t p a hs
  simp only
  refine ⟨fun hw hp => ⟨fun h => ?_, fun hm hf => ?_⟩, fun h => ?_, ?_⟩
  · have heq := State.aggWrite_ok (s := s.atTick t) (a := a.toNat) hw hp h
    refine ⟨_, State.serves_of_eq (fun s => s.aggWrite a.toNat) hs heq rfl rfl, State.reports_status _ _ _, ?_, fun b hb => ?_,
      State.OnlyRegs.same.status _ (by simp)⟩
    · exact (State.agg_setAgg (s.atTick t) a.toNat a.toNat _).trans (if_pos rfl)
    · exact (State.agg_setAgg (s.atTick t) a.toNat b _).trans (if_neg hb)
  · exact State.serves_of_eq (fun s => s.aggWrite a.toNat) hs (State.aggWrite_conflict (s := s.atTick t) hw hp hm hf) rfl rfl
  · exact State.serves_of_eq (fun s => s.aggWrite a.toNat) hs (State.aggWrite_badParam (s := s.atTick t) h) rfl rfl
  · have heq := (s.atTick t).aggRead_eq a.toNat
    have hframe := (s.atTick t).showAgg_onlyRegs ((s.atTick t).agg a.toNat).cfg ((s.atTick t).aggFlows a.toNat)
    have hen := (s.atTick t).showAgg_en ((s.atTick t).agg a.toNat).cfg ((s.atTick t).aggFlows a.toNat)
    obtain ⟨hcls, hport, hweight, hflows⟩ := (s.atTick t).showAgg_get ((s.atTick t).agg a.toNat).cfg ((s.atTick t).aggFlows a.toNat)
    have hrep := (s.atTick t).showAgg_reports ((s.atTick t).agg a.toNat).cfg ((s.atTick t).aggFlows a.toNat)
    generalize (s.atTick t).showAgg _ _ = u at heq hframe hen hcls hport hweight hflows hrep
    have hclk := congrArg State.clk hframe.1
    have hpend := congrArg State.pending hframe.1
    exact ⟨u, State.serves_of_eq (fun s => s.aggRead a.toNat) hs heq hclk hpend, hrep, hen, hcls, hport, hweight,
      hflows, hframe⟩

/-- Settles O30: a refill changes every flow and aggregate by one function; WRITE and READ are one equation each. -/
theorem shapers : Obligations.Shapers := by
  unfold Obligations.Shapers
  refine ⟨fun _ => rfl, ?_, ?_⟩
  case refine_1 =>
    intro s t hup hst hd
    obtain ⟨q, heq⟩ := State.refills_one (s := s.atTick t) hst hd
    refine ⟨_, State.act_of_eq _ hup heq rfl rfl, rfl, fun leg he hp => ?_, fun a he hp => ?_, rfl⟩
    · obtain ⟨hshp, hq⟩ := State.flow_refillStep (s := s.atTick t) (q := q) he hp
      exact ⟨hshp.trans (State.Shaper.refill_of q he hp), hq⟩
    · exact (State.agg_refillStep (s := s.atTick t) (q := q) he hp).trans (State.Shaper.refill_of q he hp)
  case refine_2 =>
    intro s t p agg i hs hr
    refine ⟨fun hb => ?_, ?_⟩
    · have heq := State.shpWrite_ok (s := s.atTick t) hr hb
      have honly := (s.atTick t).setShaper_only agg i.toNat
        { (s.atTick t).shaper agg i.toNat with pend := some ((s.atTick t).clk.now, (s.atTick t).shpData) }
      have hshaper := (s.atTick t).shaper_setShaper agg (x :=
        { (s.atTick t).shaper agg i.toNat with pend := some ((s.atTick t).clk.now, (s.atTick t).shpData) }) (i := i.toNat)
      generalize (s.atTick t).setShaper agg i.toNat _ = v at heq honly hshaper
      have hclk := congrArg State.clk honly
      have hpend := congrArg State.pending honly
      refine ⟨_, State.serves_of_eq (fun s => s.shpWrite agg i.toNat) hs heq hclk.symm hpend.symm, State.reports_status _ _ _,
        (hshaper agg i.toNat).trans (if_pos rfl), fun b k hne => (hshaper b k).trans (if_neg hne), ?_⟩
      exact State.OnlyRegs.of_eq honly (State.OnlyRegs.same.status _ (by simp))
    · have heq := State.shpRead_eq (s := s.atTick t) hr
      have hframe := (s.atTick t).showShaper_onlyRegs ((s.atTick t).shaper agg i.toNat)
      have hen := (s.atTick t).showShaper_en ((s.atTick t).shaper agg i.toNat)
      obtain ⟨hcir, hpir, hcbs, hpbs, hstate⟩ := (s.atTick t).showShaper_get ((s.atTick t).shaper agg i.toNat)
      have hrep := (s.atTick t).showShaper_reports ((s.atTick t).shaper agg i.toNat)
      generalize (s.atTick t).showShaper _ = u at heq hframe hen hcir hpir hcbs hpbs hstate hrep
      have hclk := congrArg State.clk hframe.1
      have hpend := congrArg State.pending hframe.1
      exact ⟨u, State.serves_of_eq (fun s => s.shpRead agg i.toNat) hs heq hclk hpend, hrep, hen, hcir, hpir,
        hcbs, hpbs, hstate.trans (Nat.mod_eq_of_lt (State.Shaper.state_lt _)), hframe⟩

end Sys2Proof.Machine
end

section
/-! PROOFS. Taldy link sessions: frames to send, loading maps, and the results of MODEM jobs (R416, R418, R424, R432). -/

namespace Sys2Proof.Machine

namespace State

/-! ## Frames to send (R418) -/

section
variable {s : State} {v : Word} {c : Chan} (hbusy : s.isBusy Pg.MDM = false) (hc : s.chan (fieldOf v Fd.MDM_TX_CMD.CHANNEL) = some c)
  (hsess : c.cfg.sess = .taldy) (h1 : 1 ≤ s.get Reg.MDM_TX_LEN Fd.MDM_TX_LEN.LEN) (h256 : s.get Reg.MDM_TX_LEN Fd.MDM_TX_LEN.LEN ≤ 256)
  (hrate : fieldOf v Fd.MDM_TX_CMD.RATE ≠ 3)
  (hbits : 24 ≤ mapBits (c.hostMaps.getD (fieldOf v Fd.MDM_TX_CMD.MAP) freshMap) s.notchEn)
include hbusy hc hsess h1 h256 hrate hbits

theorem mdmTx_ok (hw : sendWaits c = false) (htx : c.taldy.tx = none) :
    s.mdmTx v = (s.addCtl (fieldOf v Fd.MDM_TX_CMD.CHANNEL) (.send
      { tag := s.get Reg.MDM_TX_LEN Fd.MDM_TX_LEN.TAG, map := fieldOf v Fd.MDM_TX_CMD.MAP, rate := fieldOf v Fd.MDM_TX_CMD.RATE,
        payload := s.txPayload (s.get Reg.MDM_TX_LEN Fd.MDM_TX_LEN.LEN) })).status Pg.MDM .ok := by
  have h0 : s.get Reg.MDM_TX_LEN Fd.MDM_TX_LEN.LEN ≠ 0 := by omega
  rw [List.getD_eq_getElem?_getD] at hbits
  simp [mdmTx, hbusy, hc, hsess, h0, Nat.not_lt.mpr h256, hrate, Nat.not_lt.mpr hbits, hw, htx]

theorem mdmTx_busy (h : sendWaits c = true ∨ c.taldy.tx.isSome = true) : s.mdmTx v = s.status Pg.MDM .busy := by
  have h0 : s.get Reg.MDM_TX_LEN Fd.MDM_TX_LEN.LEN ≠ 0 := by omega
  rw [List.getD_eq_getElem?_getD] at hbits
  rcases h with h | h <;> simp [mdmTx, hbusy, hc, hsess, h0, Nat.not_lt.mpr h256, hrate, Nat.not_lt.mpr hbits, h, refuse]

end

/-! ## Loading maps (R416, R432) -/

/-- Words in consecutive registers. -/
theorem rd_putWords_ne (s : State) {a b : Nat} (ws : List Word) (h : b < a ∨ a + 4 * ws.length ≤ b) : (s.putWords a ws).rd b = s.rd b := by
  induction ws generalizing s a with
  | nil => rfl
  | cons w ws ih =>
    rw [List.length_cons] at h
    rw [putWords, ih _ (by omega), rd_wr_ne _ _ (by omega)]

theorem rd_putWords (s : State) (a : Nat) {ws : List Word} {k : Nat} (hk : k < ws.length) :
    (s.putWords a ws).rd (a + 4 * k) = ws.getD k 0 := by
  induction ws generalizing s a k with
  | nil => simp at hk
  | cons w ws ih =>
    rw [putWords]
    cases k with
    | zero => rw [rd_putWords_ne _ _ (by omega), Nat.mul_zero, Nat.add_zero, rd_wr_same]; rfl
    | succ k =>
      have hplace : a + 4 * (k + 1) = a + 4 + 4 * k := by omega
      rw [hplace, ih _ _ (by simpa using hk)]
      rfl

theorem putWords_regs (s : State) (a : Nat) (ws : List Word) : { s.putWords a ws with regs := s.regs } = s := by
  induction ws generalizing s a with
  | nil => rfl
  | cons w ws ih => exact congrArg (fun z : State => { z with regs := s.regs }) (ih (s.wr a w) (a + 4))

section
variable {s : State} {map session num : Nat} {c : Chan} (hbusy : s.isBusy Pg.MDM = false) (hs : s.taldyChan session = some (num, c))
include hbusy hs

theorem mdmMap_write (hd : (s.mapData.any fun e => 6 < e.1 || 60 < e.2) = false) :
    s.mdmMap 1 map session
      = ((s.modLife c.uid fun c => { c with hostMaps := c.hostMaps.set map s.mapData }).addCtl num (.map map s.mapData)).status Pg.MDM .ok := by
  simp only [mdmMap, hbusy, hs, hd]
  rfl

theorem mdmMap_badParam (hd : (s.mapData.any fun e => 6 < e.1 || 60 < e.2) = true) :
    s.mdmMap 1 map session = s.status Pg.MDM .badParam := by
  simp only [mdmMap, hbusy, hs, hd]
  rfl

theorem mdmMap_read :
    s.mdmMap 2 map session = (s.putWords (Reg.MDM_MAP_DATA 0) (mapWords (c.hostMaps.getD map freshMap))).status Pg.MDM .ok := by
  simp only [mdmMap, hbusy, hs]
  rfl

end

/-- Words shown in MDM_MAP_DATA. -/
theorem showMap_spec (s : State) {ws : List Word} (hlen : ws.length = 12) :
    ∃ u, (s.putWords (Reg.MDM_MAP_DATA 0) ws).status Pg.MDM .ok = u ∧ u.Reports Pg.MDM .ok
      ∧ (∀ k, k < 12 → u.rd (Reg.MDM_MAP_DATA k) = ws.getD k 0) ∧ { u with regs := s.regs } = s := by
  have hregs := s.putWords_regs (Reg.MDM_MAP_DATA 0) ws
  refine ⟨_, rfl, reports_status _ _ _, fun k hk => ?_, hregs⟩
  have hreg : Reg.MDM_MAP_DATA k = Reg.MDM_MAP_DATA 0 + 4 * k := by unfold Reg.MDM_MAP_DATA; rw [Nat.mul_zero, Nat.add_zero]
  rw [rd_status_ne _ _ (by simp only [Reg.MDM_MAP_DATA, Reg.PAGE_STATUS, Pg.MDM]; omega), hreg]
  exact rd_putWords _ _ (by rwa [hlen])

/-- A channel whose host's copy of a map has changed and whose next job is given the map. -/
def takesMap (s : State) (map : Nat) (c : Chan) : Chan :=
  { c with hostMaps := c.hostMaps.set map s.mapData, ctls := c.ctls ++ [(s.clk.n + 1, .map map s.mapData)] }

theorem giveMap_eq {s : State} {num map : Nat} {c : Chan} (hc : s.chan num = some c) :
    (s.modLife c.uid fun c => { c with hostMaps := c.hostMaps.set map s.mapData }).addCtl num (.map map s.mapData)
      = s.modLife c.uid (s.takesMap map) := by
  have hfirst : (s.modLife c.uid fun c => { c with hostMaps := c.hostMaps.set map s.mapData }).chan num
      = some { c with hostMaps := c.hostMaps.set map s.mapData } := by
    rw [chan_modLife, hc, Option.map_some, if_pos rfl]
  rw [addCtl_eq _ hfirst]
  exact modLife_modLife s c.uid _ _ fun _ => rfl

theorem giveMap_spec {s : State} {num map : Nat} {c : Chan} (hc : s.chan num = some c) :
    ∃ u, (s.modLife c.uid (s.takesMap map)).status Pg.MDM .ok = u ∧ u.chan num = some (s.takesMap map c)
      ∧ (∀ m d, s.chan m = some d → d.uid ≠ c.uid → u.chan m = some d) ∧ u.Reports Pg.MDM .ok ∧ u.clk = s.clk ∧ u.pending = s.pending := by
  refine ⟨_, rfl, ?_, fun m d hm hd => chan_modLife_ne s c.uid m (s.takesMap map) hm hd, reports_status _ _ _, rfl, rfl⟩
  change (s.modLife c.uid (s.takesMap map)).chan num = _
  rw [chan_modLife, hc, Option.map_some, if_pos rfl]

/-! ## Results of MODEM jobs (R424) -/

/-- A change of one life, seen under its id. -/
theorem life_modLife {s : State} {uid : Nat} {f : Chan → Chan} {c : Chan} (hf : ∀ c, (f c).uid = c.uid) (hc : s.life uid = some c) :
    (s.modLife uid f).life uid = some (f c) := by
  have hkeep (p : Nat × Chan) : decide ((if p.2.uid = uid then (p.1, f p.2) else p).2.uid = uid) = decide (p.2.uid = uid) := by
    split
    · rw [hf]
    · rfl
  have hkeep' (x : Chan) : decide ((if x.uid = uid then f x else x).uid = uid) = decide (x.uid = uid) := by
    split
    · rw [hf]
    · rfl
  unfold life modLife at *
  dsimp only
  simp only [List.find?_map, Function.comp_def, hkeep, hkeep']
  cases hp : List.find? (fun (p : Nat × Chan) => decide (p.2.uid = uid)) s.chans with
  | some p =>
    have huid : p.2.uid = uid := by simpa using List.find?_some hp
    rw [hp] at hc
    simp only [Option.some.injEq] at hc
    subst hc
    simp [huid]
  | none =>
    rw [hp] at hc
    dsimp only at hc
    have huid : c.uid = uid := by simpa using List.find?_some hc
    simp [hc, huid]

theorem traceJob_disp (s : State) (event : Nat) (j : Job) (server : Option Server) (flags : Nat) :
    (s.traceJob event j server flags).disp = s.disp := by
  obtain ⟨x, h⟩ := traceJob_onlyTrace s event j server flags
  exact h.disp

theorem chargeCycles_trellisNow (s : State) (j : Job) : (s.chargeCycles j).disp.trellisNow = s.disp.trellisNow := by
  unfold chargeCycles
  split
  · split <;> rfl
  · rfl

theorem leaveServer_trellisNow (s : State) (j : Job) : (s.leaveServer j).disp.trellisNow = s.disp.trellisNow := by
  unfold leaveServer
  rcases j.server with _ | ⟨k, i⟩ | u | l
  · rfl
  · dsimp only
    split <;> rfl
  · rfl
  · rfl

theorem freeEntry_trellisNow (s : State) (id : Nat) : (s.freeEntry id).disp.trellisNow = s.disp.trellisNow := by
  have h (v : State) : v.OnlyEvents v.pendChanged [Reg.DSP_PEND, Reg.DSP_PEND_HWM] :=
    ((OnlyEvents.same.put _ _ (by simp)).put _ _ (by simp)).eventIf _ _ _
  have hdisp := (h { s with disp := { s.disp with jobs := s.disp.jobs.filter (fun j => j.id ≠ id) } }).disp
  have hnow := congrArg (fun d : Disp => d.trellisNow) hdisp
  exact hnow

/-- The completion of a job leaves the results that the trellis units have delivered. -/
theorem completeJob_trellisNow (s : State) (j : Job) : (s.completeJob j).disp.trellisNow = s.disp.trellisNow := by
  rw [completeJob, freeEntry_trellisNow, traceJob_disp, leaveServer_trellisNow, chargeCycles_trellisNow]

/-- The results that a unit delivers wait in the life of the channel. -/
def giveResult (s : State) (j : Job) (res : ModemRes) : State :=
  State.modLife { s with disp := { s.disp with trellisNow := s.disp.trellisNow + res.bits } } j.uid fun c =>
    { c with taldy := { c.taldy with res := c.taldy.res ++ [(j.version.toNat, res)] } }

theorem modemDone_eq {s : State} {i id : Nat} {x : PoolUnit} {j : Job} {res : ModemRes} (hx : s.disp.trellis[i]? = some x)
    (hr : x.run = some id) (hj : s.job id = some j) : s.modemDone i res = (s.completeJob j).giveResult j res := by
  simp only [modemDone, hx, hr, hj, Option.bind_some]
  rfl

theorem life_congr {s u : State} (h : u.chans = s.chans) (h' : u.closing = s.closing) (uid : Nat) : u.life uid = s.life uid := by
  unfold life
  rw [h, h']

theorem giveResult_spec {s : State} {j : Job} {res : ModemRes} {c : Chan} (hc : s.life j.uid = some c) :
    (s.giveResult j res).life j.uid = some { c with taldy := { c.taldy with res := c.taldy.res ++ [(j.version.toNat, res)] } }
    ∧ (s.giveResult j res).disp.trellisNow = s.disp.trellisNow + res.bits
    ∧ (s.giveResult j res).clk = s.clk ∧ (s.giveResult j res).pending = s.pending :=
  ⟨life_modLife (s := { s with disp := { s.disp with trellisNow := s.disp.trellisNow + res.bits } }) (fun _ => rfl) hc, rfl, rfl, rfl⟩

end State

/-- Settles O41: a frame and a map are actions of one life; the results of a unit go to the life of its job. -/
theorem taldyCommands : Obligations.TaldyCommands := by
  unfold Obligations.TaldyCommands
  constructor
  case left =>
    intro s t p hs hbusy
    refine ⟨?_, ?_⟩
    · intro v c
      simp only
      intro hc hsess h1 h256 hrate hbits
      refine ⟨fun hw htx => ?_, fun h => ?_⟩
      · exact State.serves_gives (fun s => s.mdmTx v) hs (State.mdmTx_ok (s := s.atTick t) hbusy hc hsess h1 h256 hrate hbits hw htx)
          (State.givesCtls_addCtl (s := s.atTick t) _ hc)
      · exact State.serves_of_eq (fun s => s.mdmTx v) hs (State.mdmTx_busy (s := s.atTick t) hbusy hc hsess h1 h256 hrate hbits h) rfl
          rfl
    · intro map session num c htaldy hc
      refine ⟨fun hd => ?_, fun hd => ?_, ?_⟩
      · have heq := (State.mdmMap_write (s := s.atTick t) (map := map.toNat) hbusy htaldy hd).trans
          (congrArg (fun z => State.status z Pg.MDM .ok) (State.giveMap_eq (s := s.atTick t) hc))
        obtain ⟨u, hu, hchan, hother, hrep, hclk, hpend⟩ := State.giveMap_spec (s := s.atTick t) (map := map.toNat) hc
        exact ⟨u, State.serves_of_eq (fun s => s.mdmMap 1 map.toNat session.toNat) hs (heq.trans hu) hclk hpend, hchan, hother, hrep⟩
      · exact State.serves_of_eq (fun s => s.mdmMap 1 map.toNat session.toNat) hs
          (State.mdmMap_badParam (s := s.atTick t) hbusy htaldy hd) rfl rfl
      · have heq := State.mdmMap_read (s := s.atTick t) (map := map.toNat) hbusy htaldy
        obtain ⟨u, hu, hrep, hrd, hregs⟩ := (s.atTick t).showMap_spec
          (ws := State.mapWords (c.hostMaps.getD map.toNat freshMap)) (by simp [State.mapWords])
        have hclk := congrArg State.clk hregs
        have hpend := congrArg State.pending hregs
        exact ⟨u, State.serves_of_eq (fun s => s.mdmMap 2 map.toNat session.toNat) hs (heq.trans hu) hclk hpend, hrep, hrd, hregs⟩
  case right =>
    intro s t i res x id j c hup hx hr hj hc
    have heq := State.modemDone_eq (s := s.atTick t) (res := res) hx hr hj
    have hframe := (State.completeJob_onlyJobs (s.atTick t) j).frame
    have hnow := State.completeJob_trellisNow (s.atTick t) j
    generalize (s.atTick t).completeJob j = v at heq hframe hnow
    have hlife : v.life j.uid = some c := (State.life_congr hframe.chans hframe.closing j.uid).trans hc
    obtain ⟨hl, ht, hclk, hpend⟩ := State.giveResult_spec (res := res) hlife
    exact ⟨_, State.act_of_eq (fun s => s.modemDone i.toNat res) hup heq (hclk.trans hframe.clk) (hpend.trans hframe.pending), hl,
      ht.trans (by rw [hnow]; rfl)⟩

end Sys2Proof.Machine
end

section
/-! PROOFS. The archive's commands: what a write of ARC_CMD starts, refuses and completes, and the done queue (R447, R449, R450). -/

namespace Sys2Proof.Machine

namespace State

/-! ## A write of ARC_CMD (R449) -/

theorem arcCmd_notInMode {s : State} {p : Port} {op g : Nat} (h : s.modes.bringup = true ∨ s.wipeBars = true) :
    s.arcCmd p op g = (s.status Pg.ARC .notInMode).event Pg.ARC Ev.ARC.CMD_DONE := by
  rcases h with h | h <;> simp [arcCmd, h]

/-- The command that a write of ARC_CMD notes. -/
def arcArgs (s : State) (p : Port) (op g : Nat) : ArcCmd :=
  { op := op, seg := g, off := s.get Reg.ARC_ARG_OFFSET Fd.ARC_ARG_OFFSET.BYTES, len := s.get Reg.ARC_ARG_LEN Fd.ARC_ARG_LEN.BYTES,
    addr := (s.rd Reg.ARC_ARG_ADDR_LO).toNat + (s.rd Reg.ARC_ARG_ADDR_HI).toNat * 2 ^ 32, port := p, stamp := s.clk.now,
    applied := false, ran := op != 4 }

/-- The archive engine busy with a command. -/
def startArc (s : State) (c : ArcCmd) : State := (s.modArc fun a => { a with cmd := some c }).setBusy Pg.ARC true

/-- A DECODE's job on the flow of its segment's stream. -/
def startDecode (s : State) (g : Nat) : State :=
  match s.arc.segs.find? g with
  | some x => s.archiveJob x.stream 0
  | none => s

section
variable {s : State} {p : Port} {op g : Nat} (hb : s.modes.bringup = false) (hw : s.wipeBars = false)
include hb hw

theorem arcCmd_refused {st : Status} (h : s.arcRefusal op g = some st) : s.arcCmd p op g = s.status Pg.ARC st := by
  simp [arcCmd, hb, hw, h]

theorem arcCmd_accepted (h : s.arcRefusal op g = none) :
    s.arcCmd p op g = if op = 4 then (s.startArc (s.arcArgs p op g)).startDecode g else s.startArc (s.arcArgs p op g) := by
  simp only [arcCmd, hb, hw, h]
  rfl

end

theorem startArc_onlyRegs (s : State) (c : ArcCmd) :
    OnlyRegs { s with arc := { s.arc with cmd := some c } } (s.startArc c) [Reg.PAGE_STATUS Pg.ARC] :=
  OnlyRegs.same.putB _ _ (by simp)

theorem startDecode_onlyJobs (s : State) (g : Nat) : OnlyJobs 0 s (s.startDecode g) := by
  unfold startDecode
  split
  · exact makeReady_onlyJobs 0 s _
  · exact .refl 0 s

/-- An accepted write of ARC_CMD. -/
theorem arcCmd_spec {s : State} {p : Port} {op g : Nat} (hb : s.modes.bringup = false) (hw : s.wipeBars = false)
    (h : s.arcRefusal op g = none) :
    ∃ u, s.arcCmd p op g = u ∧ u.isBusy Pg.ARC = true ∧ u.arc = { s.arc with cmd := some (s.arcArgs p op g) }
      ∧ (op ≠ 4 → OnlyRegs { s with arc := u.arc } u [Reg.PAGE_STATUS Pg.ARC]) ∧ u.clk = s.clk ∧ u.pending = s.pending := by
  have hregs := s.startArc_onlyRegs (s.arcArgs p op g)
  have hbusy : (s.startArc (s.arcArgs p op g)).isBusy Pg.ARC = true := isBusy_setBusy _ _ true
  have hparts := hregs.1
  have harc := congrArg State.arc hparts
  have hclk := congrArg State.clk hparts
  have hpend := congrArg State.pending hparts
  by_cases h4 : op = 4
  · refine ⟨_, (arcCmd_accepted hb hw h).trans (if_pos h4), ?_⟩
    have hjobs := (startDecode_onlyJobs (s.startArc (s.arcArgs p op g)) g)
    generalize s.startArc (s.arcArgs p op g) = v at hjobs hbusy harc hclk hpend
    have hframe := hjobs.frame
    exact ⟨(hjobs.isBusy Pg.ARC).trans hbusy, hframe.arc.trans harc, fun hne => absurd h4 hne, hframe.clk.trans hclk,
      hframe.pending.trans hpend⟩
  · exact ⟨_, (arcCmd_accepted hb hw h).trans (if_neg h4), hbusy, harc, fun _ => hregs, hclk, hpend⟩

/-! ## The end of a command (R449, R450) -/

theorem endArc_spec (s : State) (st : Status) :
    ∃ u, s.endArc st = u ∧ (u.arc = { s.arc with cmd := none } ∧ u.isBusy Pg.ARC = false ∧ u.Reports Pg.ARC st
        ∧ u.Latched Pg.ARC Ev.ARC.CMD_DONE) ∧ s.out <:+ u.out
      ∧ (∀ a, a ≠ Reg.PAGE_STATUS Pg.ARC → evtReg a = false → u.rd a = s.rd a) ∧ u.clk = s.clk ∧ u.pending = s.pending := by
  have hframe : OnlyEvents { s with arc := { s.arc with cmd := none } } (s.endArc st) [Reg.PAGE_STATUS Pg.ARC] :=
    ((OnlyEvents.same.setBusy _ (by simp)).status _ (by simp)).event _ _
  refine ⟨_, rfl, ⟨hframe.arc, ?_, ?_, event_latched _ _ _ (by decide)⟩, ?_, fun a ha he => hframe.2 a (by simpa using ha) he,
    hframe.clk, hframe.pending⟩
  · rw [endArc, isBusy_congr (rd_event _ _ _ (by decide)), isBusy_status, isBusy_setBusy]
  · exact (get_event _ _ _ _ (by decide)).trans (reports_status _ _ _)
  · exact suffix_event ((State.setBusy (s.modArc fun a => { a with cmd := none }) Pg.ARC false).status Pg.ARC st) _ _

section
variable {s : State} {c : ArcCmd} (hc : s.arc.cmd = some c) (hr : c.ran = true)
include hc hr

theorem arcDone_append (h : c.op = 1) (ha : c.applied = false) : s.arcDone [] = (s.appendSegment c.seg c.stamp).endArc .ok := by
  simp [arcDone, hc, hr, h, ha]

/-- ARC_RES_SEG as QUERY fills it. -/
def segWord (s : State) (g : Nat) : Word :=
  withBits (withBits (withBits 0 31 30 (s.segState g)) 27 16 (((s.arc.segs.find? g).map fun x => x.stream).getD 0)) 15 0
    (s.segUsed g)

theorem arcDone_query (h : c.op = 2) : s.arcDone [] = (s.wr Reg.ARC_RES_SEG (s.segWord c.seg)).endArc .ok := by
  cases hx : s.arc.segs.find? c.seg <;> simp [arcDone, hc, hr, h, hx, segWord]

theorem arcDone_xfer {x : ArcSeg} (h : c.op = 3) (hx : s.arc.segs.find? c.seg = some x) (hl : c.off + c.len ≤ x.bytes.length) :
    s.arcDone [] = (s.emit (.dma c.port c.addr ((x.bytes.drop c.off).take c.len))).endArc .ok := by
  have hlen : c.len - min c.len (x.bytes.length - c.off) = 0 := by omega
  simp [arcDone, hc, hr, h, readSectors, segSlice, hx, hlen, arcFree]

theorem arcDone_decode (h : c.op = 4) : s.arcDone [] = s.decodeDone c false := by
  simp [arcDone, hc, hr, h, readSectors]

end

theorem segState_lt (s : State) (g : Nat) : s.segState g < 4 := by
  unfold segState
  split
  · split <;> decide
  · decide

theorem segWord_state (s : State) (g : Nat) : bitsOf (s.segWord g) 31 30 = s.segState g := by
  rw [segWord, bitsOf_withBits_ne _ _ _ _ _ _ (by decide) (by decide) (by decide) (by decide),
    bitsOf_withBits_ne _ _ _ _ _ _ (by decide) (by decide) (by decide) (by decide), bitsOf_withBits _ _ _ _ (by decide) (by decide)]
  exact Nat.mod_eq_of_lt (s.segState_lt g)

theorem segWord_used (s : State) (g : Nat) : bitsOf (s.segWord g) 15 0 = s.segUsed g % 2 ^ 16 :=
  bitsOf_withBits _ _ _ _ (by decide) (by decide)

/-- The samples of a DECODE on their way to the host, and ARC_RES_DEC. -/
def showDecode (s : State) (c : ArcCmd) (r : DecodeOut) : State :=
  (if r.pairs.isEmpty then s else s.emit (.dma c.port c.addr (pairBytes r.pairs))).wr Reg.ARC_RES_DEC
    (withBits (withBits 0 31 28 r.cause) 12 0 r.pairs.length)

theorem showDecode_cause (s : State) (c : ArcCmd) (r : DecodeOut) :
    (s.showDecode c r).get Reg.ARC_RES_DEC Fd.ARC_RES_DEC.CAUSE = r.cause % 16 := by
  rw [showDecode, get_wr_same, bitsOf_withBits_ne _ _ _ _ _ _ (by decide) (by decide) (by decide) (by decide),
    bitsOf_withBits _ _ _ _ (by decide) (by decide)]
  rfl

theorem showDecode_sends (s : State) (c : ArcCmd) {r : DecodeOut} (h : r.pairs ≠ []) :
    (s.showDecode c r).out = .dma c.port c.addr (pairBytes r.pairs) :: s.out := by
  have he : r.pairs.isEmpty = false := by simpa using h
  rw [showDecode, he]
  rfl

theorem showDecode_onlyEvents (s : State) (c : ArcCmd) (r : DecodeOut) : s.OnlyEvents (s.showDecode c r) [Reg.ARC_RES_DEC] :=
  (OnlyEvents.ite _ OnlyEvents.same (OnlyEvents.same.emit _)).wr _ (by simp)

theorem chainBytes_congr {s u : State} (h : u.arc = s.arc) (n g off : Nat) : u.chainBytes n g off = s.chainBytes n g off := by
  induction n generalizing g off with
  | zero => rfl
  | succ n ih =>
    unfold chainBytes
    rw [h]
    simp only [ih]

theorem out_wr (s : State) (a : Nat) (w : Word) : (s.wr a w).out = s.out := rfl

/-- How a DECODE with outcome `r` ends. -/
def endDecode (s : State) (c : ArcCmd) (r : DecodeOut) : State :=
  if r.cause = 0 then (s.showDecode c r).endArc .ok
  else ((s.showDecode c r).inc Reg.ARC_CHECK_FAIL_CNT Fd.ARC_CHECK_FAIL_CNT.COUNT).endArc .checkFail

theorem decodeDone_eq {s : State} {c : ArcCmd} {bs : List Byte} {broken : Bool} (h : s.chainBytes 64 c.seg c.off = (bs, broken)) :
    s.decodeDone c false = s.endDecode c (decodeBlock bs broken) := by
  unfold decodeDone
  rw [h]
  simp [endDecode, showDecode]

/-- A DECODE ends. -/
theorem endDecode_spec (s : State) (c : ArcCmd) (r : DecodeOut) :
    ∃ u, s.endDecode c r = u ∧ (u.arc.cmd = none ∧ u.isBusy Pg.ARC = false
        ∧ u.Reports Pg.ARC (if r.cause = 0 then .ok else .checkFail) ∧ u.Latched Pg.ARC Ev.ARC.CMD_DONE)
      ∧ (r.pairs ≠ [] → .dma c.port c.addr (pairBytes r.pairs) :: s.out <:+ u.out)
      ∧ u.get Reg.ARC_RES_DEC Fd.ARC_RES_DEC.CAUSE = r.cause % 16 ∧ u.clk = s.clk ∧ u.pending = s.pending := by
  have hcause := s.showDecode_cause c r
  have hsends (h : r.pairs ≠ []) := s.showDecode_sends c h
  have hframe := s.showDecode_onlyEvents c r
  unfold endDecode
  generalize s.showDecode c r = v at hcause hsends hframe ⊢
  by_cases h0 : r.cause = 0
  · obtain ⟨u, hu, ⟨harc, hbusy, hrep, hlatch⟩, hout, hrd, huclk, hupend⟩ := v.endArc_spec .ok
    refine ⟨u, (if_pos h0).trans hu, ⟨by rw [harc], hbusy, by rwa [if_pos h0], hlatch⟩, fun h => by rwa [← hsends h], ?_,
      huclk.trans hframe.clk, hupend.trans hframe.pending⟩
    exact (get_congr (hrd _ (by decide) (by decide)) _).trans hcause
  · have hcnt : v.OnlyEvents (v.inc Reg.ARC_CHECK_FAIL_CNT Fd.ARC_CHECK_FAIL_CNT.COUNT) [Reg.ARC_CHECK_FAIL_CNT] :=
      OnlyEvents.same.inc _ _ (by simp)
    have hrdec := rd_inc_ne v Fd.ARC_CHECK_FAIL_CNT.COUNT 1 (show Reg.ARC_RES_DEC ≠ Reg.ARC_CHECK_FAIL_CNT by decide)
    have hvout : (v.inc Reg.ARC_CHECK_FAIL_CNT Fd.ARC_CHECK_FAIL_CNT.COUNT).out = v.out := out_wr v _ _
    generalize v.inc Reg.ARC_CHECK_FAIL_CNT Fd.ARC_CHECK_FAIL_CNT.COUNT = w at hcnt hrdec hvout ⊢
    obtain ⟨u, hu, ⟨harc, hbusy, hrep, hlatch⟩, hout, hrd, huclk, hupend⟩ := w.endArc_spec .checkFail
    refine ⟨u, (if_neg h0).trans hu, ⟨by rw [harc], hbusy, by rwa [if_neg h0], hlatch⟩, fun h => ?_, ?_,
      huclk.trans (hcnt.clk.trans hframe.clk), hupend.trans (hcnt.pending.trans hframe.pending)⟩
    · rw [← hsends h, ← hvout]
      exact hout
    · exact (get_congr ((hrd _ (by decide) (by decide)).trans hrdec) _).trans hcause

/-! ## The done queue (R447) -/

/-- The first word of a done entry. -/
def doneWord (e : ArcDone) : Word := Word.of (2 ^ 31 + b2n e.ended * 2 ^ 30 + b2n e.abandon * 2 ^ 29 + e.stream * 2 ^ 16 + e.seg)

theorem arcPop_other {s : State} {p : Port} {e : ArcDone} {rest : List ArcDone} (h : s.arc.done = e :: rest) (ho : s.ownedBy p = false) :
    s.arcPop p = (doneWord e, s) := by
  simp only [arcPop, h, ho]
  rfl

theorem arcPop_owner {s : State} {p : Port} {e : ArcDone} {rest : List ArcDone} (h : s.arc.done = e :: rest) (ho : s.ownedBy p = true) :
    s.arcPop p = (doneWord e, (s.modArc fun a => { a with done := rest }).wr Reg.ARC_DONE1 (withBits (withBits 0 31 16 e.seq) 15 0 e.used)) := by
  simp only [arcPop, h, ho]
  rfl

end State

/-- Settles O42: a write by the first of R449's conditions that holds, a completion by the command's OP, a read by who reads. -/
theorem archiveCommands : Obligations.ArchiveCommands := by
  unfold Obligations.ArchiveCommands
  refine ⟨?_, ?_, ?_⟩
  case refine_1 =>
    intro s t p seg cmd op hs hcmd
    have hexec : exec cmd s = s.act t fun s => s.hostWrite p Reg.ARC_CMD fun s => s.arcCmd p op seg.toNat := by
      rcases hcmd with ⟨rfl, rfl⟩ | ⟨rfl, rfl⟩ | ⟨rfl, rfl⟩ | ⟨rfl, rfl⟩ <;> rfl
    simp only [hexec]
    refine ⟨fun h => ?_, fun hb hw => ⟨fun st h => ?_, fun h => ?_⟩⟩
    · exact State.serves_after (fun s => s.arcCmd p op seg.toNat)
        (g := fun s => (s.status Pg.ARC .notInMode).event Pg.ARC Ev.ARC.CMD_DONE) hs (State.arcCmd_notInMode (s := s.atTick t) h)
    · exact State.serves_of_eq (fun s => s.arcCmd p op seg.toNat) hs (State.arcCmd_refused (s := s.atTick t) hb hw h) rfl rfl
    · obtain ⟨u, hu, hbusy, harc, hregs, hclk, hpend⟩ := State.arcCmd_spec (s := s.atTick t) (p := p) hb hw h
      exact ⟨u, State.serves_of_eq (fun s => s.arcCmd p op seg.toNat) hs hu hclk hpend, hbusy, harc, hregs⟩
  case refine_2 =>
    intro s t c hup hc hr
    simp only
    refine ⟨fun h ha => ?_, fun h => ?_, fun x h hx hl => ?_, fun h => ?_⟩
    · obtain ⟨u, hu, ⟨harc, hends⟩, -, -, hclk, hpend⟩ := ((s.atTick t).appendSegment c.seg c.stamp).endArc_spec .ok
      refine ⟨u, ⟨State.act_of_eq (fun s => s.arcDone []) hup ((State.arcDone_append (s := s.atTick t) hc hr h ha).trans hu) hclk hpend,
        by rw [harc], hends⟩, by rw [harc]; rfl, ?_⟩
      rw [harc]
      exact (Assoc.find?_erase _ _ _).trans (if_pos rfl)
    · obtain ⟨u, hu, ⟨harc, hends⟩, -, hrd, hclk, hpend⟩ :=
        ((s.atTick t).wr Reg.ARC_RES_SEG ((s.atTick t).segWord c.seg)).endArc_spec .ok
      have hword : u.rd Reg.ARC_RES_SEG = (s.atTick t).segWord c.seg := (hrd _ (by decide) (by decide)).trans (State.rd_wr_same _ _ _)
      refine ⟨u, ⟨State.act_of_eq (fun s => s.arcDone []) hup ((State.arcDone_query (s := s.atTick t) hc hr h).trans hu) hclk hpend,
        by rw [harc], hends⟩, by rw [harc]; rfl, by rw [harc]; rfl, ?_, ?_⟩
      · rw [State.get, hword]
        exact State.segWord_state _ _
      · rw [State.get, hword]
        exact State.segWord_used _ _
    · obtain ⟨u, hu, ⟨harc, hends⟩, hout, -, hclk, hpend⟩ :=
        ((s.atTick t).emit (.dma c.port c.addr ((x.bytes.drop c.off).take c.len))).endArc_spec .ok
      exact ⟨u, ⟨State.act_of_eq (fun s => s.arcDone []) hup ((State.arcDone_xfer (s := s.atTick t) hc hr h hx hl).trans hu) hclk hpend,
        by rw [harc], hends⟩, State.Sends.of_suffix hout⟩
    · generalize hch : s.chainBytes 64 c.seg c.off = x
      obtain ⟨bs, broken⟩ := x
      have hch' := (State.chainBytes_congr (s := s) (u := s.atTick t) (State.atTick_arc s t) 64 c.seg c.off).trans hch
      have heq := (State.arcDone_decode (s := s.atTick t) hc hr h).trans (State.decodeDone_eq hch')
      dsimp only
      generalize decodeBlock bs broken = r at heq ⊢
      obtain ⟨u, hu, hends, hsends, hcause, hclk, hpend⟩ := (s.atTick t).endDecode_spec c r
      exact ⟨u, ⟨State.act_of_eq (fun s => s.arcDone []) hup (heq.trans hu) hclk hpend, hends⟩, fun hne => State.Sends.of_suffix (hsends hne), hcause⟩
  case refine_3 =>
    intro s t p e rest hup hl hk hd
    simp only
    have hl' : (s.atTick t).linked p = true := by simpa using hl
    refine ⟨fun ho => ?_, fun ho => ?_⟩
    · exact State.act_of_eq (fun s => s.hostRead p fun s => s.arcPop p) hup
        (State.hostRead_answers hl' hk (State.arcPop_other (s := s.atTick t) hd ho)) rfl rfl
    · refine ⟨_, State.act_of_eq (fun s => s.hostRead p fun s => s.arcPop p) hup
        (State.hostRead_answers hl' hk (State.arcPop_owner (s := s.atTick t) hd ho)) rfl rfl, rfl, rfl, ?_⟩
      exact State.OnlyRegs.same.wr _ (by simp)

end Sys2Proof.Machine
end

section
/-! PROOFS. Gate control lists: CHANGE, CANCEL, the change itself and the entry in force (R364, R365). -/

namespace Sys2Proof.Machine

namespace State

/-! ## A port's gates -/

theorem gateOf_setGate (s : State) (p q : Nat) (g : GateState) : (s.setGate p g).gateOf q = if q = p then g else s.gateOf q :=
  getD_putAt _ _ _ _ _

theorem gateOf_congr {s u : State} (h : u.gates = s.gates) (p : Nat) : u.gateOf p = s.gateOf p := by
  unfold gateOf
  rw [h]

theorem setGate_only (s : State) (p : Nat) (g : GateState) : { s with gates := (s.setGate p g).gates } = s.setGate p g := rfl

theorem flag_setGate (s : State) (p : Nat) (g : GateState) (a : Nat) (f : Fd) : (s.setGate p g).flag a f = s.flag a f := rfl

theorem evtReg_gateState {i : Nat} (hi : i < 8) : evtReg (Reg.GATE_STATE i) = false := by
  simp only [evtReg, Bool.or_eq_false_iff, decide_eq_false_iff_not, Reg.GATE_STATE, Reg.LOG_LOST_CNT, Reg.MGMT_NET_DROP]
  refine ⟨⟨?_, ?_⟩, ?_⟩ <;> omega

theorem showGates_onlyRegs (s : State) (p : Nat) : s.OnlyRegs (s.showGates p) [Reg.GATE_CUR p] :=
  (OnlyRegs.same.put _ _ (by simp)).put _ _ (by simp)

theorem showGates_onlyEvents (s : State) (p : Nat) : s.OnlyEvents (s.showGates p) [Reg.GATE_CUR p] :=
  (OnlyEvents.same.put _ _ (by simp)).put _ _ (by simp)

/-- GATE_CUR shows the gates of the entry in force (R364). -/
theorem showGates_get {s : State} {p : Nat} {l : GateList} (he : s.flag (Reg.GATE_CTRL p) Fd.GATE_CTRL.EN = true)
    (ho : (s.gateOf p).oper = some l) :
    (s.showGates p).get (Reg.GATE_CUR p) Fd.GATE_CUR.GATES = l.gates (s.gateOf p).entry % 256 := by
  rw [showGates, get_put_other _ _ _ _ _ (by decide) (by decide) (by decide) (by decide), get_put_same _ _ _ _ (by decide) (by decide)]
  simp [he, ho]

/-! ## CHANGE and CANCEL (R365) -/

/-- The admin list of a port. -/
def adminList (s : State) (p : Nat) : List GateEntry :=
  (List.range (s.get (Reg.GATE_ADMIN_LEN p) Fd.GATE_ADMIN_LEN.LEN)).map fun k =>
    { gates := s.get (Reg.GATE_ADMIN p k) Fd.GATE_ADMIN.GATES, interval := s.get (Reg.GATE_ADMIN p k) Fd.GATE_ADMIN.INTERVAL }

/-- A well-formed admin list: its length, its cycle and its intervals are in range. -/
def AdminGood (s : State) (p : Nat) : Prop :=
  1 ≤ s.get (Reg.GATE_ADMIN_LEN p) Fd.GATE_ADMIN_LEN.LEN ∧ s.get (Reg.GATE_ADMIN_LEN p) Fd.GATE_ADMIN_LEN.LEN ≤ 256
    ∧ 1000 ≤ s.get (Reg.GATE_ADMIN_CYCLE p) Fd.GATE_ADMIN_CYCLE.NS
    ∧ s.get (Reg.GATE_ADMIN_CYCLE p) Fd.GATE_ADMIN_CYCLE.NS ≤ 1000000000 ∧ ∀ e ∈ s.adminList p, e.interval ≠ 0

/-- The base of a port's admin list. -/
def adminBase (s : State) (p : Nat) : Nat :=
  s.getTime (Reg.GATE_ADMIN_BASE_SEC_LO p) (Reg.GATE_ADMIN_BASE_SEC_HI p) (Reg.GATE_ADMIN_BASE_NS p)

theorem adminGood_iff (s : State) (p : Nat) : s.AdminGood p ↔
    ¬(s.get (Reg.GATE_ADMIN_LEN p) Fd.GATE_ADMIN_LEN.LEN < 1 || 256 < s.get (Reg.GATE_ADMIN_LEN p) Fd.GATE_ADMIN_LEN.LEN
      || s.get (Reg.GATE_ADMIN_CYCLE p) Fd.GATE_ADMIN_CYCLE.NS < 1000 || 1000000000 < s.get (Reg.GATE_ADMIN_CYCLE p) Fd.GATE_ADMIN_CYCLE.NS
      || (s.adminList p).any fun e => e.interval = 0) = true := by
  unfold AdminGood
  simp only [Bool.or_eq_true, decide_eq_true_eq, List.any_eq_true, not_or, not_exists, not_and, not_lt, Nat.lt_one_iff]
  simp only [ne_eq, Nat.one_le_iff_ne_zero]
  tauto

theorem gateChange_badParam {s : State} {p : Nat} (h : ¬s.AdminGood p) : s.gateChange p = s.status (Pg.GATE p) .badParam := by
  rw [adminGood_iff, not_not] at h
  exact if_pos h

theorem gateChange_busy {s : State} {p : Nat} (h : s.AdminGood p) (hp : (s.gateOf p).pend.isSome = true) :
    s.gateChange p = s.status (Pg.GATE p) .busy := by
  rw [adminGood_iff] at h
  exact (if_neg h).trans (if_pos hp)

/-- The pending list that CHANGE makes of the admin list. -/
def placedGate (s : State) (p : Nat) : GateList :=
  { start := gridFrom (s.adminBase p) (s.get (Reg.GATE_ADMIN_CYCLE p) Fd.GATE_ADMIN_CYCLE.NS) (s.netNs + 2000), base := s.adminBase p,
    cycle := s.get (Reg.GATE_ADMIN_CYCLE p) Fd.GATE_ADMIN_CYCLE.NS, entries := s.adminList p }

/-- A list is pending, with its start on view. -/
def pendGate (s : State) (p : Nat) (l : GateList) : State :=
  (((s.setGate p { s.gateOf p with pend := some l }).putTime (Reg.GATE_START_SEC_LO p) (Reg.GATE_START_SEC_HI p) (Reg.GATE_START_NS p)
    l.start).putB (Reg.GATE_STATE p) Fd.GATE_STATE.ADJUSTED (l.start != l.base)).putB (Reg.GATE_STATE p) Fd.GATE_STATE.PENDING true

theorem placeGate_eq (s : State) (p base cycle : Nat) (es : List GateEntry) :
    s.placeGate p base cycle es = (s.pendGate p { start := gridFrom base cycle (s.netNs + 2000), base := base, cycle := cycle, entries := es },
      gridFrom base cycle (s.netNs + 2000) != base) := rfl

theorem gateChange_ok {s : State} {p : Nat} (h : s.AdminGood p) (hp : (s.gateOf p).pend = none) :
    s.gateChange p = if (s.placedGate p).start != (s.placedGate p).base then
        ((s.pendGate p (s.placedGate p)).status (Pg.GATE p) .startAdjusted).event (Pg.GATE p) Ev.GATE.START_ADJ
      else (s.pendGate p (s.placedGate p)).status (Pg.GATE p) .ok := by
  rw [adminGood_iff] at h
  refine (if_neg h).trans ((if_neg (by simp [hp])).trans ?_)
  dsimp only
  rw [placeGate_eq]
  rfl

/-- The registers that show a pending list. -/
def startRegs (p : Nat) : List Nat :=
  [Reg.GATE_STATE p, Reg.GATE_START_SEC_LO p, Reg.GATE_START_SEC_HI p, Reg.GATE_START_NS p]

theorem pendGate_onlyRegs (s : State) (p : Nat) (l : GateList) :
    OnlyRegs (s.setGate p { s.gateOf p with pend := some l }) (s.pendGate p l) (startRegs p) :=
  ((((OnlyRegs.same.wr _ (by simp [startRegs])).put _ _ (by simp [startRegs])).wr _ (by simp [startRegs])).putB _ _
    (by simp [startRegs])).putB _ _ (by simp [startRegs])

/-- What a pending list shows. -/
theorem pendGate_spec (s : State) (p : Nat) (l : GateList) :
    (∀ q, q ≠ p → (s.pendGate p l).gateOf q = s.gateOf q) ∧ (s.pendGate p l).gateOf p = { s.gateOf p with pend := some l }
      ∧ (s.pendGate p l).flag (Reg.GATE_STATE p) Fd.GATE_STATE.PENDING = true
      ∧ (s.pendGate p l).clk = s.clk ∧ (s.pendGate p l).pending = s.pending := by
  have hregs := (s.pendGate_onlyRegs p l).1
  have hflag : (s.pendGate p l).flag (Reg.GATE_STATE p) Fd.GATE_STATE.PENDING = true := flag_putB_same _ _ _ _ rfl (by decide)
  generalize s.pendGate p l = v at hregs hflag
  have hgates := congrArg State.gates hregs
  have hclk := congrArg State.clk hregs
  have hpend := congrArg State.pending hregs
  refine ⟨fun q hq => ?_, ?_, hflag, hclk, hpend⟩
  · exact (gateOf_congr hgates q).trans ((gateOf_setGate s p q _).trans (if_neg hq))
  · exact (gateOf_congr hgates p).trans ((gateOf_setGate s p p _).trans (if_pos rfl))

/-- A status on a page of gates leaves the page's flags. -/
theorem flag_gate_status (s : State) (p q : Nat) (st : Status) (f : Fd) :
    (s.status (Pg.GATE q) st).flag (Reg.GATE_STATE p) f = s.flag (Reg.GATE_STATE p) f := by
  unfold flag
  rw [get_status_ne _ _ _ (by simp only [Reg.GATE_STATE, Reg.PAGE_STATUS, Pg.GATE]; omega)]

/-- An accepted CHANGE. -/
theorem gateChange_spec {s : State} {p : Nat} (hp8 : p < 8) (h : s.AdminGood p) (hp : (s.gateOf p).pend = none) :
    ∃ u, s.gateChange p = u ∧ (∀ q, q ≠ p → u.gateOf q = s.gateOf q) ∧ u.gateOf p = { s.gateOf p with pend := some (s.placedGate p) }
      ∧ u.flag (Reg.GATE_STATE p) Fd.GATE_STATE.PENDING = true
      ∧ ((s.placedGate p).start = (s.placedGate p).base → u.Reports (Pg.GATE p) .ok)
      ∧ ((s.placedGate p).start ≠ (s.placedGate p).base → u.Reports (Pg.GATE p) .startAdjusted ∧ u.Latched (Pg.GATE p) Ev.GATE.START_ADJ)
      ∧ u.clk = s.clk ∧ u.pending = s.pending := by
  have heq := gateChange_ok h hp
  obtain ⟨hother, hthis, hflag, hclk, hpend⟩ := s.pendGate_spec p (s.placedGate p)
  generalize s.pendGate p (s.placedGate p) = v at heq hother hthis hflag hclk hpend
  have hstatus (st : Status) : ∃ w, v.status (Pg.GATE p) st = w ∧ w.Reports (Pg.GATE p) st ∧ w.gates = v.gates ∧ w.clk = v.clk
      ∧ w.pending = v.pending ∧ w.flag (Reg.GATE_STATE p) Fd.GATE_STATE.PENDING = true := by
    have hregs := (OnlyRegs.status (OnlyRegs.same (s := v)) (page := Pg.GATE p) st (List.mem_singleton_self _)).1
    have hflag' := (flag_gate_status v p p st _).trans hflag
    have hrep := reports_status v (Pg.GATE p) st
    generalize v.status (Pg.GATE p) st = w at hregs hflag' hrep
    have hgates := congrArg State.gates hregs
    have hclk := congrArg State.clk hregs
    have hpend := congrArg State.pending hregs
    exact ⟨w, rfl, hrep, hgates, hclk, hpend, hflag'⟩
  by_cases hadj : (s.placedGate p).start = (s.placedGate p).base
  · obtain ⟨w, hw, hrep, hgates, hwclk, hwpend, hwflag⟩ := hstatus .ok
    exact ⟨w, (heq.trans (if_neg (by simpa using hadj))).trans hw, fun q hq => (gateOf_congr hgates q).trans (hother q hq),
      (gateOf_congr hgates p).trans hthis, hwflag, fun _ => hrep, fun hne => absurd hadj hne, hwclk.trans hclk, hwpend.trans hpend⟩
  · obtain ⟨w, hw, hrep, hgates, hwclk, hwpend, hwflag⟩ := hstatus .startAdjusted
    rw [hw] at heq
    have hev := event_onlyEvents w (Pg.GATE p) Ev.GATE.START_ADJ
    have hlatch := event_latched w (Pg.GATE p) Ev.GATE.START_ADJ (by decide)
    have hflag' : (w.event (Pg.GATE p) Ev.GATE.START_ADJ).flag (Reg.GATE_STATE p) Fd.GATE_STATE.PENDING = true := by
      rw [flag, get_event _ _ _ _ (evtReg_gateState hp8)]
      exact hwflag
    have hrep' : (w.event (Pg.GATE p) Ev.GATE.START_ADJ).Reports (Pg.GATE p) .startAdjusted :=
      (get_event _ _ _ _ (evtReg_pageStatus _)).trans hrep
    generalize w.event (Pg.GATE p) Ev.GATE.START_ADJ = u at heq hev hlatch hflag' hrep'
    have hgate (q : Nat) : u.gateOf q = v.gateOf q := gateOf_congr (hev.gates.trans hgates) q
    exact ⟨u, heq.trans (if_pos (by simpa using hadj)), fun q hq => (hgate q).trans (hother q hq), (hgate p).trans hthis, hflag',
      fun he => absurd he hadj, fun _ => ⟨hrep', hlatch⟩, hev.clk.trans (hwclk.trans hclk), hev.pending.trans (hwpend.trans hpend)⟩

/-- CANCEL withdraws what is pending. -/
theorem gateCancel_spec (s : State) (p : Nat) :
    ∃ u, s.gateCancel p = u ∧ (∀ q, q ≠ p → u.gateOf q = s.gateOf q) ∧ u.gateOf p = { s.gateOf p with pend := none }
      ∧ u.flag (Reg.GATE_STATE p) Fd.GATE_STATE.PENDING = false ∧ u.Reports (Pg.GATE p) .ok
      ∧ OnlyRegs { s with gates := u.gates } u [Reg.GATE_STATE p, Reg.PAGE_STATUS (Pg.GATE p)] := by
  refine ⟨_, rfl, fun q hq => (gateOf_setGate s p q _).trans (if_neg hq), (gateOf_setGate s p p _).trans (if_pos rfl), ?_,
    reports_status _ _ _, (OnlyRegs.same.putB _ _ (by simp)).status _ (by simp)⟩
  rw [gateCancel, flag_gate_status, flag_putB_same _ _ _ _ rfl (by decide)]

/-! ## The change and the entry in force (R364, R365) -/

/-- The operating list's registers. -/
def showOper (s : State) (p : Nat) (l : GateList) : State :=
  ((((s.putB (Reg.GATE_STATE p) Fd.GATE_STATE.PENDING false).putB (Reg.GATE_STATE p) Fd.GATE_STATE.OPER true).put
    (Reg.GATE_OPER_CYCLE p) Fd.GATE_OPER_CYCLE.NS l.cycle).put (Reg.GATE_OPER_LEN p) Fd.GATE_OPER_LEN.LEN l.entries.length).inc
    (Reg.GATE_CHANGE_CNT p) Fd.GATE_CHANGE_CNT.COUNT

/-- The registers that a change writes. -/
def operRegs (p : Nat) : List Nat :=
  [Reg.GATE_STATE p, Reg.GATE_OPER_CYCLE p, Reg.GATE_OPER_LEN p, Reg.GATE_CHANGE_CNT p, Reg.GATE_CUR p]

theorem showOper_onlyEvents (s : State) (p : Nat) (l : GateList) : s.OnlyEvents (s.showOper p l) (operRegs p) :=
  ((((OnlyEvents.same.putB _ _ (by simp [operRegs])).putB _ _ (by simp [operRegs])).put _ _ (by simp [operRegs])).put _ _
    (by simp [operRegs])).inc _ _ (by simp [operRegs])

theorem gateStart_eq {s : State} {p : Nat} {l : GateList} (hp : (s.gateOf p).pend = some l) (hl : l.start ≤ s.netNs) :
    s.gateStart p = (((s.setGate p { pend := none, oper := some l, entry := l.at s.netNs }).showOper p l).showGates p).event (Pg.GATE p)
      Ev.GATE.CHANGED := by
  simp only [gateStart, hp, hl, if_true]
  rfl

/-- CHANGED at or after the pending list's start. -/
theorem gateStart_spec {s : State} {p : Nat} {l : GateList} (hp : (s.gateOf p).pend = some l) (hl : l.start ≤ s.netNs) :
    ∃ u, s.gateStart p = u ∧ (∀ q, q ≠ p → u.gateOf q = s.gateOf q)
      ∧ u.gateOf p = { pend := none, oper := some l, entry := l.at s.netNs } ∧ u.Latched (Pg.GATE p) Ev.GATE.CHANGED
      ∧ OnlyEvents { s with gates := u.gates } u (operRegs p) := by
  have heq := gateStart_eq hp hl
  have hset (q : Nat) := gateOf_setGate s p q { pend := none, oper := some l, entry := l.at s.netNs }
  have honly := s.setGate_only p { pend := none, oper := some l, entry := l.at s.netNs }
  generalize s.setGate p { pend := none, oper := some l, entry := l.at s.netNs } = v at heq hset honly
  have hshow : v.OnlyEvents ((v.showOper p l).showGates p) (operRegs p) :=
    (v.showOper_onlyEvents p l).andThen ((showGates_onlyEvents _ p).mono (by simp [operRegs]))
  generalize (v.showOper p l).showGates p = w at heq hshow
  have hev := event_onlyEvents w (Pg.GATE p) Ev.GATE.CHANGED
  have hlatch := event_latched w (Pg.GATE p) Ev.GATE.CHANGED (by decide)
  generalize w.event (Pg.GATE p) Ev.GATE.CHANGED = u at heq hev hlatch
  have hall := hshow.andThen hev.weaken
  refine ⟨u, heq, fun q hq => ?_, ?_, hlatch, ?_⟩
  · exact (gateOf_congr hall.gates q).trans ((hset q).trans (if_neg hq))
  · exact (gateOf_congr hall.gates p).trans ((hset p).trans (if_pos rfl))
  · rw [hall.gates, honly]
    exact hall

theorem gateEntry_eq {s : State} {p : Nat} {l : GateList} (ho : (s.gateOf p).oper = some l) :
    s.gateEntry p = (s.setGate p { s.gateOf p with entry := l.at s.netNs }).showGates p := by
  simp only [gateEntry, ho]

/-- The entry of the grid comes into force. -/
theorem gateEntry_spec {s : State} {p : Nat} {l : GateList} (ho : (s.gateOf p).oper = some l) :
    ∃ u, s.gateEntry p = u ∧ (∀ q, q ≠ p → u.gateOf q = s.gateOf q) ∧ u.gateOf p = { s.gateOf p with entry := l.at s.netNs }
      ∧ (s.flag (Reg.GATE_CTRL p) Fd.GATE_CTRL.EN = true →
          u.get (Reg.GATE_CUR p) Fd.GATE_CUR.GATES = l.gates (l.at s.netNs) % 256)
      ∧ OnlyRegs { s with gates := u.gates } u [Reg.GATE_CUR p] := by
  have heq := gateEntry_eq ho
  generalize l.at s.netNs = e at heq ⊢
  have hset (q : Nat) := gateOf_setGate s p q { s.gateOf p with entry := e }
  have hen := s.flag_setGate p { s.gateOf p with entry := e } (Reg.GATE_CTRL p) Fd.GATE_CTRL.EN
  have honly := s.setGate_only p { s.gateOf p with entry := e }
  generalize s.setGate p { s.gateOf p with entry := e } = v at heq hset hen honly
  have hthis : v.gateOf p = { s.gateOf p with entry := e } := (hset p).trans (if_pos rfl)
  have hshow := v.showGates_onlyRegs p
  have hget (he : v.flag (Reg.GATE_CTRL p) Fd.GATE_CTRL.EN = true) :=
    showGates_get (l := l) he (show (v.gateOf p).oper = some l by rw [hthis]; exact ho)
  generalize v.showGates p = u at heq hshow hget
  have hregs := hshow.1
  have hgates := congrArg State.gates hregs
  have hg : u.gates = v.gates := hgates
  clear hgates hregs
  refine ⟨u, heq, fun q hq => ?_, ?_, fun he => ?_, ?_⟩
  · exact (gateOf_congr hg q).trans ((hset q).trans (if_neg hq))
  · exact (gateOf_congr hg p).trans hthis
  · have hcur := hget (hen.trans he)
    rwa [hthis] at hcur
  · rw [hg, honly]
    exact hshow

end State

/-- Settles O38: each command changes one port's gates and the registers that show them. -/
theorem gates : Obligations.Gates := by
  unfold Obligations.Gates
  intro s t port
  simp only
  refine ⟨fun p hs => ⟨fun h => ?_, fun h hp => ?_, fun h hp => ?_, ?_⟩, fun hup => ⟨fun l hp hl => ?_, fun l ho => ?_⟩⟩
  · exact State.serves_of_eq (fun s => s.gateChange port.toNat) hs (State.gateChange_badParam (s := s.atTick t) h) rfl rfl
  · exact State.serves_of_eq (fun s => s.gateChange port.toNat) hs (State.gateChange_busy (s := s.atTick t) h hp) rfl rfl
  · obtain ⟨u, hu, hother, hthis, hflag, hok, hadj, hclk, hpend⟩ := State.gateChange_spec (s := s.atTick t) port.isLt h hp
    exact ⟨u, State.serves_of_eq (fun s => s.gateChange port.toNat) hs hu hclk hpend, hother, hthis, hflag, hok, hadj⟩
  · obtain ⟨u, hu, hother, hthis, hflag, hrep, hframe⟩ := (s.atTick t).gateCancel_spec port.toNat
    have hclk := congrArg State.clk hframe.1
    have hpend := congrArg State.pending hframe.1
    exact ⟨u, State.serves_of_eq (fun s => s.gateCancel port.toNat) hs hu hclk hpend, hother, hthis, hflag, hrep, hframe⟩
  · obtain ⟨u, hu, hother, hthis, hlatch, hframe⟩ := State.gateStart_spec (s := s.atTick t) hp hl
    exact ⟨u, State.act_of_eq (fun s => s.gateStart port.toNat) hup hu hframe.clk hframe.pending, hother, hthis, hlatch, hframe⟩
  · obtain ⟨u, hu, hother, hthis, hget, hframe⟩ := State.gateEntry_spec (s := s.atTick t) ho
    have hclk := congrArg State.clk hframe.1
    have hpend := congrArg State.pending hframe.1
    exact ⟨u, State.act_of_eq (fun s => s.gateEntry port.toNat) hup hu hclk hpend, hother, hthis, hget, hframe⟩

end Sys2Proof.Machine
end

section
/-! PROOFS. The network clock: rate, set, adjust and slew, and what is read and captured from it (R348 to R352, R358, R362). -/

namespace Sys2Proof.Machine

/-! ## A clock whose base point is now -/

theorem refUnits_zero (dco : Int) : refUnits 0 dco = 0 := by simp [refUnits]

theorem slewApplied_zero (left : Int) (ppm : Nat) : slewApplied left ppm 0 = 0 := by simp [slewApplied]

/-- A clock reads its base at the instant of its base point, whatever its rate and slew. -/
theorem NetClock.read_at0 (c : NetClock) (dco : Int) : c.read c.at0 dco = c.base := by
  simp [NetClock.read, refUnits_zero, slewApplied_zero]

namespace State

theorem netUnits_of {s : State} (h : s.net.at0 = s.clk.now) : s.netUnits = s.net.base := by
  rw [netUnits, ← h]
  exact NetClock.read_at0 _ _

/-- The clock as every change of it leaves it: the same reading at a base point of now. -/
def rebased (s : State) : NetClock := s.net.rebase s.clk.now s.refs.dco

theorem rebased_base (s : State) : s.rebased.base = s.netUnits := rfl
theorem rebased_at0 (s : State) : s.rebased.at0 = s.clk.now := rfl
theorem rebased_gen (s : State) : s.rebased.gen = s.net.gen := rfl
theorem rebased_freq (s : State) : s.rebased.freq16 = s.net.freq16 := rfl
theorem rebased_slewLeft (s : State) : s.rebased.slewLeft = s.net.left s.clk.now s.refs.dco := rfl

/-! ## The rate (R349) -/

theorem timeFreq_badParam {s : State} {v : Word} (h : asSigned 32 v.toNat < -16000000 ∨ 16000000 < asSigned 32 v.toNat) :
    s.timeFreq v = s.status Pg.TIME .badParam :=
  if_pos (by simpa using h)

theorem timeFreq_ok {s : State} {v : Word} (h : -16000000 ≤ asSigned 32 v.toNat) (h' : asSigned 32 v.toNat ≤ 16000000) :
    s.timeFreq v = State.wr { s with net := { s.rebased with freq16 := asSigned 32 v.toNat } } Reg.TIME_FREQ v :=
  if_neg (by simpa using ⟨h, h'⟩)

/-! ## A step (R351) -/

/-- `u` is `s` for a reader of the clock: clock, timebase and references are the same, and latches of the TIME page stay. -/
structure SameClock (s u : State) : Prop where
  net : u.net = s.net
  clk : u.clk = s.clk
  refs : u.refs = s.refs
  pending : u.pending = s.pending
  latched : ∀ b, s.Latched Pg.TIME b → u.Latched Pg.TIME b

theorem SameClock.refl (s : State) : SameClock s s := ⟨rfl, rfl, rfl, rfl, fun _ h => h⟩

theorem SameClock.trans {s u v : State} (h : SameClock s u) (h' : SameClock u v) : SameClock s v :=
  ⟨h'.net.trans h.net, h'.clk.trans h.clk, h'.refs.trans h.refs, h'.pending.trans h.pending, fun b hb => h'.latched b (h.latched b hb)⟩

theorem SameClock.wr (s : State) {a : Nat} (w : Word) (ha : Reg.EVT_LATCH Pg.TIME ≠ a) : SameClock s (s.wr a w) :=
  ⟨rfl, rfl, rfl, rfl, fun _ h => h.wr w ha⟩

theorem SameClock.event (s : State) (page b : Nat) (hb : b < 32) : SameClock s (s.event page b) :=
  have h := event_onlyEvents s page b
  ⟨h.net, h.clk, h.refs, h.pending, fun _ hl => event_keeps s page b _ _ hb hl⟩

theorem SameClock.setPg (s : State) (k : Nat) (g : PulseGen) : SameClock s (s.setPg k g) := ⟨rfl, rfl, rfl, rfl, fun _ h => h.of_rd rfl⟩

theorem SameClock.setGate (s : State) (p : Nat) (g : GateState) : SameClock s (s.setGate p g) := ⟨rfl, rfl, rfl, rfl, fun _ h => h.of_rd rfl⟩

/-- A register of a port's gates is no latch of the TIME page. -/
theorem latchTime_ne_gate (p k : Nat) : Reg.EVT_LATCH Pg.TIME ≠ 0x80000 + k + 0x1000 * p := by
  simp only [Reg.EVT_LATCH, Pg.TIME]
  omega

theorem sameClock_showGates (s : State) (p : Nat) : SameClock s (s.showGates p) :=
  (SameClock.wr s _ (latchTime_ne_gate p 0x74)).trans (SameClock.wr _ _ (latchTime_ne_gate p 0x74))

theorem sameClock_gateEntry (s : State) (p : Nat) : SameClock s (s.gateEntry p) := by
  unfold gateEntry
  dsimp only
  split
  · exact .refl s
  · exact (SameClock.setGate s p _).trans (sameClock_showGates _ p)

theorem sameClock_pendGate (s : State) (p : Nat) (l : GateList) : SameClock s (s.pendGate p l) :=
  (((((SameClock.setGate s p _).trans (SameClock.wr _ _ (latchTime_ne_gate p 0x60))).trans
    (SameClock.wr _ _ (latchTime_ne_gate p 0x64))).trans (SameClock.wr _ _ (latchTime_ne_gate p 0x68))).trans
    (SameClock.wr _ _ (latchTime_ne_gate p 0x5C))).trans (SameClock.wr _ _ (latchTime_ne_gate p 0x5C))

theorem sameClock_gateStep (s : State) (p before : Nat) : SameClock s (s.gateStep p before) := by
  have hentry := sameClock_gateEntry s p
  unfold gateStep
  dsimp only
  generalize s.gateEntry p = v at hentry ⊢
  split
  · exact hentry
  · split
    · rename_i l _ _
      rw [placeGate_eq]
      have hpend := sameClock_pendGate v p
        { start := gridFrom l.base l.cycle (v.netNs + 2000), base := l.base, cycle := l.cycle, entries := l.entries }
      refine (hentry.trans hpend).trans ?_
      unfold eventIf
      split
      · exact SameClock.event _ _ _ (by decide)
      · exact .refl _
    · exact hentry

theorem sameClock_pgStep (s : State) (k : Nat) : SameClock s (s.pgStep k) := by
  unfold pgStep
  dsimp only
  split
  · exact SameClock.setPg s k _
  · exact .refl s

theorem sameClock_foldl {α : Type} (f : State → α → State) (hf : ∀ s x, SameClock s (f s x)) (l : List α) (s : State) :
    SameClock s (l.foldl f s) := by
  induction l generalizing s with
  | nil => exact .refl s
  | cons x xs ih => exact (hf s x).trans (ih _)

/-- A step as counted: the generation goes up, the beat's grid is to be placed again, and STEP latches. -/
def countStep (s : State) : State :=
  (State.inc { s with net := { s.net with gen := s.net.gen + 1 }, refs := { s.refs with rebase := true } } Reg.TIME_STEP_CNT
    Fd.TIME_STEP_CNT.COUNT).event Pg.TIME Ev.TIME.STEP

/-- What every step leaves. -/
theorem afterStep_spec (s : State) (before : Nat) :
    ∃ u, s.afterStep before = u ∧ u.net = { s.net with gen := s.net.gen + 1 } ∧ u.clk = s.clk ∧ u.refs.dco = s.refs.dco
      ∧ u.pending = s.pending ∧ u.Latched Pg.TIME Ev.TIME.STEP := by
  have hsame : SameClock s.countStep (s.afterStep before) :=
    (sameClock_foldl pgStep sameClock_pgStep _ _).trans (sameClock_foldl (fun s p => s.gateStep p before) (fun s p => sameClock_gateStep s p before) _ _)
  have hframe : OnlyEvents { s with net := { s.net with gen := s.net.gen + 1 }, refs := { s.refs with rebase := true } } s.countStep
      [Reg.TIME_STEP_CNT] := (OnlyEvents.same.inc _ _ (by simp)).event _ _
  have hlatch : s.countStep.Latched Pg.TIME Ev.TIME.STEP := event_latched _ _ _ (by decide)
  generalize s.afterStep before = u at hsame ⊢
  generalize s.countStep = v at hsame hframe hlatch
  refine ⟨u, rfl, hsame.net.trans hframe.net, hsame.clk.trans hframe.clk, ?_, hsame.pending.trans hframe.pending, hsame.latched _ hlatch⟩
  rw [hsame.refs, hframe.refs]

/-- A step to a reading: what a reader of the clock sees after it. -/
theorem stepTo_spec {s : State} {c : NetClock} (before : Nat) (hc : c.at0 = s.clk.now) :
    ∃ u, (State.afterStep { s with net := c } before).status Pg.TIME .ok = u ∧ u.netUnits = c.base
      ∧ u.net = { c with gen := c.gen + 1 } ∧ u.Latched Pg.TIME Ev.TIME.STEP ∧ u.Reports Pg.TIME .ok ∧ u.clk = s.clk
      ∧ u.pending = s.pending := by
  obtain ⟨v, hv, hnet, hclk, hdco, hpend, hlatch⟩ := afterStep_spec { s with net := c } before
  rw [hv]
  have hregs := (OnlyRegs.status (OnlyRegs.same (s := v)) (page := Pg.TIME) .ok (List.mem_singleton_self _)).1
  have hrep := reports_status v Pg.TIME .ok
  have hlatch' := hlatch.status (page := Pg.TIME) .ok
  generalize v.status Pg.TIME .ok = u at hregs hrep hlatch'
  have hunet := congrArg State.net hregs
  have huclk := congrArg State.clk hregs
  have hupend := congrArg State.pending hregs
  have h1 : u.net = { c with gen := c.gen + 1 } := hunet.trans hnet
  have h2 : u.clk = s.clk := huclk.trans hclk
  refine ⟨u, rfl, ?_, h1, hlatch', hrep, h2, hupend.trans hpend⟩
  rw [netUnits_of (by rw [h1, h2]; exact hc), h1]

theorem timeSet_badParam {s : State} (h : nsPerSec ≤ (s.rd Reg.TIME_SET_NS).toNat) : s.timeSet = s.status Pg.TIME .badParam := if_pos h

theorem timeSet_ok {s : State} (h : (s.rd Reg.TIME_SET_NS).toNat < nsPerSec) :
    s.timeSet = (State.afterStep { s with net := { s.rebased with
      base := s.getTime Reg.TIME_SET_SEC_LO Reg.TIME_SET_SEC_HI Reg.TIME_SET_NS * 65536 } } s.netNs).status Pg.TIME .ok :=
  if_neg (Nat.not_le.mpr h)

/-! ## ADJUST and slews (R350) -/

/-- The offset in TIME_ADJ. -/
def adjOffset (s : State) : Int := asSigned 64 ((s.rd Reg.TIME_ADJ_LO).toNat + (s.rd Reg.TIME_ADJ_HI).toNat * 2 ^ 32)

theorem timeAdjust_slew {s : State} (h : s.adjOffset.natAbs < s.get Reg.TIME_STEP_THR Fd.TIME_STEP_THR.US * 1000) :
    s.timeAdjust = State.status { s with net := { s.rebased with
      slewLeft := s.adjOffset * 65536, slewPpm := s.get Reg.TIME_SLEW Fd.TIME_SLEW.PPM } } Pg.TIME .ok := if_pos h

theorem timeAdjust_step {s : State} (h : s.get Reg.TIME_STEP_THR Fd.TIME_STEP_THR.US * 1000 ≤ s.adjOffset.natAbs) :
    s.timeAdjust = (State.afterStep { s with net := { s.rebased with
      slewLeft := 0, base := ((s.netUnits : Int) + s.adjOffset * 65536).toNat } } s.netNs).status Pg.TIME .ok :=
  if_neg (Nat.not_lt.mpr h)

/-- A change of rate or slew that keeps the reading. -/
theorem netUnits_keep {s u : State} {c : NetClock} (hn : u.net = c) (hu : u.clk = s.clk) (h0 : c.at0 = s.clk.now) (hb : c.base = s.netUnits) :
    u.netUnits = s.netUnits := by
  rw [netUnits_of (by rw [hn, hu, h0]), hn, hb]

theorem slewDone_of {s : State} (h : s.net.slewLeft ≠ 0) (h0 : s.net.left s.clk.now s.refs.dco = 0) :
    s.slewDone = State.event { s with net := s.rebased } Pg.TIME Ev.TIME.SLEW_DONE := by
  have hleft : (s.net.rebase s.clk.now s.refs.dco).slewLeft = 0 := h0
  exact if_pos (by simp [h, hleft])

/-! ## PPS in (R362) -/

/-- PPS in as captured. -/
def ppsCapture (s : State) : State :=
  ((s.wr Reg.TIME_PPSIN_SEC_LO (Word.of s.netStamp.sec)).wr Reg.TIME_PPSIN_SEC_HI
    (Word.of (s.netStamp.gen * 2 ^ 24 + s.netStamp.sec / 2 ^ 32 % 65536))).wr Reg.TIME_PPSIN_NS (Word.of s.netStamp.ns)

theorem ppsIn_eq (s : State) : s.ppsIn = (s.ppsCapture.incWrap Reg.TIME_PPSIN_CNT Fd.TIME_PPSIN_CNT.COUNT).event Pg.TIME Ev.TIME.PPS_IN := rfl

theorem ppsIn_spec (s : State) :
    ∃ u, s.ppsIn = u ∧ u.rd Reg.TIME_PPSIN_NS = Word.of s.netStamp.ns ∧ u.rd Reg.TIME_PPSIN_SEC_LO = Word.of s.netStamp.sec
      ∧ u.Latched Pg.TIME Ev.TIME.PPS_IN
      ∧ u.get Reg.TIME_PPSIN_CNT Fd.TIME_PPSIN_CNT.COUNT = (s.get Reg.TIME_PPSIN_CNT Fd.TIME_PPSIN_CNT.COUNT + 1) % 2 ^ 32
      ∧ OnlyEvents s u [Reg.TIME_PPSIN_SEC_LO, Reg.TIME_PPSIN_SEC_HI, Reg.TIME_PPSIN_NS, Reg.TIME_PPSIN_CNT] := by
  refine ⟨_, s.ppsIn_eq, ?_, ?_, event_latched _ _ _ (by decide), ?_, ?_⟩
  · rw [rd_event _ _ _ (by decide), rd_incWrap_ne _ _ _ (by decide), ppsCapture, rd_wr_same]
  · rw [rd_event _ _ _ (by decide), rd_incWrap_ne _ _ _ (by decide), ppsCapture, rd_wr_ne _ _ (by decide), rd_wr_ne _ _ (by decide),
      rd_wr_same]
  · rw [get_event _ _ _ _ (by decide), get_incWrap_same _ _ _ _ (by decide) (by decide), ppsCapture, get_wr_ne _ _ _ (by decide),
      get_wr_ne _ _ _ (by decide), get_wr_ne _ _ _ (by decide)]
    rfl
  · exact ((((OnlyEvents.same.wr _ (by simp)).wr _ (by simp)).wr _ (by simp)).incWrap _ _ (by simp)).event _ _

/-! ## Reads (R352, R358) -/

theorem timeNow_eq (s : State) (p : Port) : s.timeNow p = (Word.of s.netStamp.sec,
    { s with timeSnapA := if p = .a then s.netStamp else s.timeSnapA, timeSnapB := if p = .b then s.netStamp else s.timeSnapB }) := by
  cases p <;> rfl

/-- The head of a transmit timestamp queue leaves, its rest latched. -/
def popTsq (s : State) (p : Nat) (e : TsqEntry) (rest : List TsqEntry) : State :=
  (((State.put { s with tsq := putAt [] s.tsq p rest } (Reg.PTIME_TSQ_CNT p) Fd.PTIME_TSQ_CNT.COUNT ((putAt [] s.tsq p rest).getD p []).length).wr
    (Reg.PTIME_TSQ1 p) (Word.of e.stamp.sec)).wr (Reg.PTIME_TSQ2 p) (Word.of (e.stamp.frac * 65536 + e.stamp.sec / 2 ^ 32))).wr
    (Reg.PTIME_TSQ3 p) (Word.of e.stamp.ns)

theorem tsqPop_keeps {s : State} {host : Port} {p : Nat} (h : s.ownedBy host = false ∨ s.tsq.getD p [] = []) :
    s.tsqPop host p = (s.tsqWord p, s) := by
  unfold tsqPop
  dsimp only
  split
  · rename_i ho
    have hnil : s.tsq.getD p [] = [] := h.resolve_left (by simp [ho])
    rw [hnil]
  · rfl

theorem tsqPop_pops {s : State} {host : Port} {p : Nat} {e : TsqEntry} {rest : List TsqEntry} (ho : s.ownedBy host = true)
    (h : s.tsq.getD p [] = e :: rest) :
    s.tsqPop host p = (Word.of (2 ^ 31 + e.stamp.gen * 65536 + e.ident), s.popTsq p e rest) := by
  simp only [tsqPop, ho, h, tsqWord, if_true]
  rfl

theorem popTsq_onlyRegs (s : State) (p : Nat) (e : TsqEntry) (rest : List TsqEntry) :
    OnlyRegs { s with tsq := putAt [] s.tsq p rest } (s.popTsq p e rest)
      [Reg.PTIME_TSQ_CNT p, Reg.PTIME_TSQ1 p, Reg.PTIME_TSQ2 p, Reg.PTIME_TSQ3 p] :=
  (((OnlyRegs.same.put _ _ (by simp)).wr _ (by simp)).wr _ (by simp)).wr _ (by simp)

theorem popTsq_rd (s : State) (p : Nat) (e : TsqEntry) (rest : List TsqEntry) :
    (s.popTsq p e rest).rd (Reg.PTIME_TSQ1 p) = Word.of e.stamp.sec
    ∧ (s.popTsq p e rest).rd (Reg.PTIME_TSQ3 p) = Word.of e.stamp.ns
    ∧ (s.popTsq p e rest).rd (Reg.PTIME_TSQ2 p) = Word.of (e.stamp.frac * 65536 + e.stamp.sec / 2 ^ 32) := by
  have h23 : Reg.PTIME_TSQ2 p ≠ Reg.PTIME_TSQ3 p := by simp only [Reg.PTIME_TSQ2, Reg.PTIME_TSQ3]; omega
  have h12 : Reg.PTIME_TSQ1 p ≠ Reg.PTIME_TSQ2 p := by simp only [Reg.PTIME_TSQ1, Reg.PTIME_TSQ2]; omega
  have h13 : Reg.PTIME_TSQ1 p ≠ Reg.PTIME_TSQ3 p := by simp only [Reg.PTIME_TSQ1, Reg.PTIME_TSQ3]; omega
  unfold popTsq
  refine ⟨?_, rd_wr_same _ _ _, ?_⟩
  · rw [rd_wr_ne _ _ h13, rd_wr_ne _ _ h12, rd_wr_same]
  · rw [rd_wr_ne _ _ h23, rd_wr_same]

end State

/-- Settles O36: every change of the clock moves its base point to now, where it reads its base; a read and a capture are one
equation each. -/
theorem networkClock : Obligations.NetworkClock := by
  unfold Obligations.NetworkClock
  constructor
  case left =>
    intro s t p v hs
    simp only
    refine ⟨fun h h' => ?_, fun h => ?_, ⟨fun h => ?_, fun h => ?_⟩, ⟨fun h => ?_, fun h => ?_⟩, ?_⟩
    · have heq := State.timeFreq_ok (s := s.atTick t) h h'
      refine ⟨_, State.serves_of_eq (fun s => s.timeFreq v) hs heq rfl rfl, rfl, ?_, rfl, State.rd_wr_same _ _ _,
        State.OnlyRegs.same.wr _ (by simp)⟩
      exact State.netUnits_keep (s := s.atTick t) rfl rfl rfl rfl
    · exact State.serves_of_eq (fun s => s.timeFreq v) hs (State.timeFreq_badParam (s := s.atTick t) h) rfl rfl
    · have heq := State.timeSet_ok (s := s.atTick t) h
      obtain ⟨u, hu, hunits, hnet, hlatch, hrep, hclk, hpend⟩ := State.stepTo_spec (s := s.atTick t)
        (c := { (s.atTick t).rebased with base := s.getTime Reg.TIME_SET_SEC_LO Reg.TIME_SET_SEC_HI Reg.TIME_SET_NS * 65536 })
        (s.atTick t).netNs rfl
      exact ⟨u, State.serves_of_eq (fun s => s.timeSet) hs (heq.trans hu) hclk hpend, hunits, by rw [hnet]; rfl, by rw [hnet]; rfl,
        hlatch, hrep⟩
    · exact State.serves_of_eq (fun s => s.timeSet) hs (State.timeSet_badParam (s := s.atTick t) h) rfl rfl
    · have heq := State.timeAdjust_slew (s := s.atTick t) h
      refine ⟨_, State.serves_of_eq (fun s => s.timeAdjust) hs heq rfl rfl, ?_, rfl, rfl, rfl, State.reports_status _ _ _,
        State.OnlyRegs.same.status _ (by simp)⟩
      exact State.netUnits_keep (s := s.atTick t) rfl rfl rfl rfl
    · have heq := State.timeAdjust_step (s := s.atTick t) h
      obtain ⟨u, hu, hunits, hnet, hlatch, hrep, hclk, hpend⟩ := State.stepTo_spec (s := s.atTick t)
        (c := { (s.atTick t).rebased with slewLeft := 0, base := (((s.atTick t).netUnits : Int) + (s.atTick t).adjOffset * 65536).toNat })
        (s.atTick t).netNs rfl
      exact ⟨u, State.serves_of_eq (fun s => s.timeAdjust) hs (heq.trans hu) hclk hpend, hunits, by rw [hnet], by rw [hnet]; rfl,
        hlatch, hrep⟩
    · refine ⟨_, State.serves_of_eq (fun s => s.stopSlew) hs rfl rfl rfl, ?_, rfl, rfl, State.reports_status _ _ _,
        State.OnlyRegs.same.status _ (by simp)⟩
      exact State.netUnits_keep (s := s.atTick t) rfl rfl rfl rfl
  case right =>
    intro s t hup
    refine ⟨fun h h0 => ?_, ?_, fun p hl hk => ?_⟩
    · have heq := State.slewDone_of (s := s.atTick t) h h0
      have hframe := State.event_onlyEvents { s.atTick t with net := (s.atTick t).rebased } Pg.TIME Ev.TIME.SLEW_DONE
      have hlatch := State.event_latched { s.atTick t with net := (s.atTick t).rebased } Pg.TIME Ev.TIME.SLEW_DONE (by decide)
      generalize State.event { s.atTick t with net := (s.atTick t).rebased } Pg.TIME Ev.TIME.SLEW_DONE = u at heq hframe hlatch
      have hnet : u.net = (s.atTick t).rebased := hframe.net
      refine ⟨u, State.act_of_eq (fun s => s.slewDone) hup heq hframe.clk hframe.pending, ?_, ?_, hlatch, ?_⟩
      · exact State.netUnits_keep hnet hframe.clk rfl rfl
      · rw [hnet]
        exact h0
      · rw [hnet]
        exact hframe
    · obtain ⟨u, hu, hns, hsec, hlatch, hcnt, hframe⟩ := (s.atTick t).ppsIn_spec
      exact ⟨u, State.act_of_eq (fun s => s.ppsIn) hup hu hframe.clk hframe.pending, hns, hsec, hlatch, hcnt, hframe⟩
    · have hl' : (s.atTick t).linked p = true := by simpa using hl
      refine ⟨?_, fun port => ⟨fun h => ?_, fun e rest ho he => ?_⟩⟩
      · have heq := State.hostRead_answers (f := fun s => s.timeNow p) hl' hk ((s.atTick t).timeNow_eq p)
        exact State.act_of_eq (fun s => s.hostRead p fun s => s.timeNow p) hup heq rfl rfl
      · exact State.act_of_eq (fun s => s.hostRead p fun s => s.tsqPop p port.toNat) hup
          (State.hostRead_answers hl' hk (State.tsqPop_keeps (s := s.atTick t) h)) rfl rfl
      · have heq := State.hostRead_answers (f := fun s => s.tsqPop p port.toNat) hl' hk (State.tsqPop_pops (s := s.atTick t) ho he)
        have hregs := (s.atTick t).popTsq_onlyRegs port.toNat e rest
        obtain ⟨h1, h3, h2⟩ := (s.atTick t).popTsq_rd port.toNat e rest
        generalize (s.atTick t).popTsq port.toNat e rest = v at heq hregs h1 h2 h3
        have hclk := congrArg State.clk hregs.1
        have hpend := congrArg State.pending hregs.1
        have htsq := congrArg State.tsq hregs.1
        have htsq' : v.tsq = putAt [] s.tsq port.toNat rest := htsq
        refine ⟨_, State.act_of_eq (fun s => s.hostRead p fun s => s.tsqPop p port.toNat) hup heq hclk hpend, rfl, ?_, fun q hq => ?_, h1,
          h3, h2, ?_⟩
        · exact (congrArg (fun l : List (List TsqEntry) => l.getD port.toNat []) htsq').trans ((getD_putAt _ _ _ _ _).trans (if_pos rfl))
        · exact (congrArg (fun l : List (List TsqEntry) => l.getD q []) htsq').trans ((getD_putAt _ _ _ _ _).trans (if_neg hq))
        · refine ⟨?_, hregs.2⟩
          have hall := congrArg (fun z : State => { z with lastRead := Word.of (2 ^ 31 + e.stamp.gen * 65536 + e.ident) }) hregs.1
          exact hall.trans (congrArg (fun l => { s.atTick t with tsq := l, lastRead := Word.of (2 ^ 31 + e.stamp.gen * 65536 + e.ident) })
            htsq'.symm)

end Sys2Proof.Machine
end

section
/-! PROOFS. Ethernet ports: lane mode, port control, link pairs and the end of the preemption verify (R326, R329, R334, R341). -/

namespace Sys2Proof.Machine

namespace State

/-! ## Clearing registers -/

/-- The registers of a list are cleared. -/
def clearRegs (l : List Nat) (s : State) : State := l.foldl (fun s a => s.wr a 0) s

theorem clearRegs_onlyRegs (l : List Nat) (s : State) : s.OnlyRegs (s.clearRegs l) l := by
  have h (l' : List Nat) : l' ⊆ l → ∀ u, s.OnlyRegs u l → s.OnlyRegs (clearRegs l' u) l := by
    induction l' with
    | nil => exact fun _ _ hu => hu
    | cons a as ih => exact fun hl u hu => ih (fun x hx => hl (by simp [hx])) _ (hu.wr _ (hl (by simp)))
  exact h l (fun _ hx => hx) s OnlyRegs.same

theorem clearRegs_rd (l : List Nat) (s : State) {a : Nat} (ha : a ∈ l) : (s.clearRegs l).rd a = 0 := by
  have h (l : List Nat) : ∀ u : State, u.rd a = 0 ∨ a ∈ l → (clearRegs l u).rd a = 0 := by
    induction l with
    | nil => simp [clearRegs]
    | cons b bs ih =>
      refine fun u hu => ih _ ?_
      by_cases hb : a = b
      · exact .inl (by rw [hb, rd_wr_same])
      · exact hu.imp (fun h => by rw [rd_wr_ne _ _ hb, h]) fun h => (List.mem_cons.mp h).resolve_left hb
  exact h l s (.inr ha)

/-- The counters and the notice of a port. -/
def countRegs (p : Nat) : List Nat := Reg.MAC_CNT_NOTICE p :: (List.range 32).map (Reg.MAC_CNT p)

theorem clearMacCounts_eq (s : State) : s.clearMacCounts = s.clearRegs (allPorts.flatMap countRegs) := by
  unfold clearMacCounts clearRegs countRegs
  rw [List.foldl_flatMap]
  simp only [List.foldl_cons, List.foldl_map]

theorem provided_wr (s : State) (p q : Nat) (w : Word) : (s.wr (Reg.MAC_LINK q) w).provided p = s.provided p := by
  unfold provided laneMode
  rw [get_wr_ne _ _ _ (by simp only [Reg.MAC_LANE_MODE, Reg.MAC_LINK]; omega)]

theorem unlinkAbsent_eq (s : State) : s.unlinkAbsent = s.clearRegs ((allPorts.filter fun p => !s.provided p).map Reg.MAC_LINK) := by
  have h (l : List Nat) : ∀ u : State, u.provided = s.provided →
      l.foldl (fun s p => if s.provided p then s else s.wr (Reg.MAC_LINK p) 0) u
        = u.clearRegs ((l.filter fun p => !s.provided p).map Reg.MAC_LINK) := by
    induction l with
    | nil => exact fun _ _ => rfl
    | cons p ps ih =>
      intro u hu
      rw [List.foldl_cons, hu]
      by_cases hp : s.provided p = true
      · rw [if_pos hp, ih u hu, List.filter_cons_of_neg (by simp [hp])]
      · rw [if_neg hp, ih _ ((funext fun q => provided_wr u q p 0).trans hu), List.filter_cons_of_pos (by simp [hp])]
        rfl
  exact h allPorts s rfl

/-! ## Lane mode and control (R326, R329) -/

theorem laneWrite_badParam {s : State} {page : Nat} {v : Word} (h : page ≠ 0 ∨ 3 < fieldOf v Fd.MAC_LANE_MODE.MODE) :
    s.laneWrite page v = s.status (Pg.MAC page) .badParam := if_pos (by simpa using h)

theorem laneWrite_busy {s : State} {v : Word} (h : fieldOf v Fd.MAC_LANE_MODE.MODE ≤ 3)
    (hb : ((allPorts.any fun q => s.macEn q) || (allPairs.any fun k => s.pairEn k)) = true) :
    s.laneWrite 0 v = s.status (Pg.MAC 0) .busy := (if_neg (by simpa using h)).trans (if_pos hb)

/-- The lane mode is `m`. -/
def withLanes (s : State) (m : Nat) : State := s.put (Reg.MAC_LANE_MODE 0) Fd.MAC_LANE_MODE.MODE m

theorem laneWrite_ok {s : State} {v : Word} (h : fieldOf v Fd.MAC_LANE_MODE.MODE ≤ 3)
    (hb : ((allPorts.any fun q => s.macEn q) || (allPairs.any fun k => s.pairEn k)) = false) :
    s.laneWrite 0 v = if s.laneMode = fieldOf v Fd.MAC_LANE_MODE.MODE then s.withLanes (fieldOf v Fd.MAC_LANE_MODE.MODE)
      else (s.withLanes (fieldOf v Fd.MAC_LANE_MODE.MODE)).clearMacCounts.unlinkAbsent :=
  (if_neg (by simpa using h)).trans (if_neg (by simp [hb]))

theorem mem_allPorts {p : Nat} : p ∈ allPorts ↔ p < 8 := by
  simp only [allPorts, List.mem_cons, List.not_mem_nil, or_false]
  omega

theorem mem_countRegs {a : Nat} : a ∈ allPorts.flatMap countRegs ↔
    ∃ p, p < 8 ∧ (a = Reg.MAC_CNT_NOTICE p ∨ ∃ i, i < 32 ∧ Reg.MAC_CNT p i = a) := by
  simp [countRegs, mem_allPorts]

theorem macReg_link {p : Nat} (hp : p < 8) : macReg (Reg.MAC_LINK p) = true := by
  simp only [macReg, Reg.MAC_LINK, Bool.and_eq_true, decide_eq_true_eq]
  omega

/-- A new lane mode clears counters, notices and the links of ports that it lacks. -/
theorem clearedLanes_spec (s : State) :
    ∃ u, s.clearMacCounts.unlinkAbsent = u ∧ u.laneMode = s.laneMode ∧ { u with regs := s.regs } = s
      ∧ (∀ a, macReg a = false → u.rd a = s.rd a)
      ∧ ∀ q, q < 8 → (∀ i, i < 32 → u.rd (Reg.MAC_CNT q i) = 0) ∧ u.rd (Reg.MAC_CNT_NOTICE q) = 0
        ∧ (u.provided q = false → u.rd (Reg.MAC_LINK q) = 0) := by
  rw [unlinkAbsent_eq, clearMacCounts_eq]
  obtain ⟨hcnt, hcntRd⟩ := s.clearRegs_onlyRegs (allPorts.flatMap countRegs)
  have hzero {a : Nat} (ha : a ∈ allPorts.flatMap countRegs) := s.clearRegs_rd _ ha
  generalize s.clearRegs (allPorts.flatMap countRegs) = v at hcnt hcntRd hzero
  obtain ⟨hlink, hlinkRd⟩ := v.clearRegs_onlyRegs ((allPorts.filter fun p => !v.provided p).map Reg.MAC_LINK)
  have hdown {a : Nat} (ha : a ∈ (allPorts.filter fun p => !v.provided p).map Reg.MAC_LINK) := v.clearRegs_rd _ ha
  generalize v.clearRegs ((allPorts.filter fun p => !v.provided p).map Reg.MAC_LINK) = u at hlink hlinkRd hdown
  have hlinkNot {a : Nat} (ha : ∀ p, p < 8 → Reg.MAC_LINK p ≠ a) : u.rd a = v.rd a :=
    hlinkRd a fun hm => by
      obtain ⟨p, hp, rfl⟩ := List.mem_map.mp hm
      exact ha p (mem_allPorts.mp (List.mem_filter.mp hp).1) rfl
  have hmode : u.laneMode = v.laneMode := get_congr (hlinkNot fun p _ => by simp only [Reg.MAC_LINK, Reg.MAC_LANE_MODE]; omega) _
  have hmode' : v.laneMode = s.laneMode := get_congr (hcntRd _ (by rw [mem_countRegs]; simp only [Reg.MAC_CNT, Reg.MAC_CNT_NOTICE, Reg.MAC_LANE_MODE]; omega)) _
  refine ⟨u, rfl, hmode.trans hmode', ?_, fun a ha => ?_, fun q hq => ⟨fun i hi => ?_, ?_, fun hp => ?_⟩⟩
  · rw [← hcnt, ← hlink]
  · rw [hlinkNot fun p hp he => by simp [← he, macReg_link hp] at ha]
    refine hcntRd a fun hm => ?_
    obtain ⟨p, hp, rfl | ⟨i, hi, rfl⟩⟩ := mem_countRegs.mp hm
    · simp [macReg_notice hp] at ha
    · simp [macReg_macCnt hp hi] at ha
  · rw [hlinkNot fun p _ => by simp only [Reg.MAC_LINK, Reg.MAC_CNT]; omega]
    exact hzero (mem_countRegs.mpr ⟨q, hq, .inr ⟨i, hi, rfl⟩⟩)
  · rw [hlinkNot fun p _ => by simp only [Reg.MAC_LINK, Reg.MAC_CNT_NOTICE]; omega]
    exact hzero (mem_countRegs.mpr ⟨q, hq, .inl rfl⟩)
  · have hp' : v.provided q = false := by rwa [provided, hmode] at hp
    exact hdown (List.mem_map_of_mem (List.mem_filter.mpr ⟨mem_allPorts.mpr hq, by simp [hp']⟩))

/-- An accepted lane mode. -/
theorem laneWrite_spec {s : State} {v : Word} (h : fieldOf v Fd.MAC_LANE_MODE.MODE ≤ 3)
    (hb : ((allPorts.any fun q => s.macEn q) || (allPairs.any fun k => s.pairEn k)) = false) :
    ∃ u, s.laneWrite 0 v = u ∧ u.laneMode = fieldOf v Fd.MAC_LANE_MODE.MODE ∧ { u with regs := s.regs } = s
      ∧ (∀ a, macReg a = false → u.rd a = s.rd a)
      ∧ (s.laneMode ≠ fieldOf v Fd.MAC_LANE_MODE.MODE → ∀ q, q < 8 → (∀ i, i < 32 → u.rd (Reg.MAC_CNT q i) = 0)
          ∧ u.rd (Reg.MAC_CNT_NOTICE q) = 0 ∧ (u.provided q = false → u.rd (Reg.MAC_LINK q) = 0)) := by
  have heq := laneWrite_ok h hb
  have hmode : (s.withLanes (fieldOf v Fd.MAC_LANE_MODE.MODE)).laneMode = fieldOf v Fd.MAC_LANE_MODE.MODE := by
    rw [withLanes, laneMode, get_put_same _ _ _ _ (by decide) (by decide)]
    exact Nat.mod_eq_of_lt (by simp; omega)
  obtain ⟨hregs, hrd⟩ : s.OnlyRegs (s.withLanes (fieldOf v Fd.MAC_LANE_MODE.MODE)) [Reg.MAC_LANE_MODE 0] := OnlyRegs.same.put _ _ (by simp)
  generalize s.withLanes (fieldOf v Fd.MAC_LANE_MODE.MODE) = w at heq hmode hregs hrd
  have hrd' (a : Nat) (ha : macReg a = false) : w.rd a = s.rd a := hrd a (by
    rintro hm
    rw [List.mem_singleton.mp hm] at ha
    exact absurd ha (by decide))
  by_cases hm : s.laneMode = fieldOf v Fd.MAC_LANE_MODE.MODE
  · exact ⟨w, heq.trans (if_pos hm), hmode, hregs, hrd', fun hne => absurd hm hne⟩
  · obtain ⟨u, hu, humode, huregs, hurd, hclear⟩ := w.clearedLanes_spec
    exact ⟨u, (heq.trans (if_neg hm)).trans hu, humode.trans hmode, by rw [← hregs, ← huregs],
      fun a ha => (hurd a ha).trans (hrd' a ha), fun _ => hclear⟩

/-- The conditions under which a write of MAC_CTRL is refused with BAD_PARAM (R326). -/
def macCtrlBad (s : State) (p : Nat) (v : Word) : Bool :=
  !s.provided p || !fecAllowed s.laneMode (fieldOf v Fd.MAC_CTRL.FEC) || fieldOf v Fd.MAC_CTRL.PAUSE_MODE = 3

theorem macCtrlWrite_badParam {s : State} {p : Nat} {v : Word} (h : s.macCtrlBad p v = true) :
    s.macCtrlWrite p v = s.status (Pg.MAC p) .badParam := if_pos h

theorem macCtrlWrite_busy {s : State} {p : Nat} {v : Word} (h : s.macCtrlBad p v = false) (hen : s.macEn p = true)
    (hf : fieldOf v Fd.MAC_CTRL.FEC ≠ s.get (Reg.MAC_CTRL p) Fd.MAC_CTRL.FEC) :
    s.macCtrlWrite p v = s.status (Pg.MAC p) .busy :=
  (if_neg (by simp [show (!s.provided p || !fecAllowed s.laneMode (fieldOf v Fd.MAC_CTRL.FEC) || fieldOf v Fd.MAC_CTRL.PAUSE_MODE = 3) = false from h])).trans
    (if_pos (by simpa [hen] using hf))

theorem macCtrlWrite_ok {s : State} {p : Nat} {v : Word} (h : s.macCtrlBad p v = false)
    (hf : s.macEn p = false ∨ fieldOf v Fd.MAC_CTRL.FEC = s.get (Reg.MAC_CTRL p) Fd.MAC_CTRL.FEC) :
    s.macCtrlWrite p v = s.wr (Reg.MAC_CTRL p) (mergeFields (fieldsAt (Reg.MAC_CTRL p)) .rw (s.rd (Reg.MAC_CTRL p)) v) :=
  (if_neg (by simp [show (!s.provided p || !fecAllowed s.laneMode (fieldOf v Fd.MAC_CTRL.FEC) || fieldOf v Fd.MAC_CTRL.PAUSE_MODE = 3) = false from h])).trans
    (if_neg (by simpa [or_iff_not_imp_left] using hf))

/-! ## The end of the preemption verify (R334) -/

theorem verifyDone_ok {s : State} {p : Nat} (h : s.get (Reg.MAC_PREEMPT_ST p) Fd.MAC_PREEMPT_ST.VERIFY = 1) :
    s.verifyDone p true = (s.put (Reg.MAC_PREEMPT_ST p) Fd.MAC_PREEMPT_ST.VERIFY 2).putB (Reg.MAC_PREEMPT_ST p) Fd.MAC_PREEMPT_ST.ACTIVE true := by
  simp [verifyDone, h]

theorem verifyDone_failed {s : State} {p : Nat} (h : s.get (Reg.MAC_PREEMPT_ST p) Fd.MAC_PREEMPT_ST.VERIFY = 1) :
    s.verifyDone p false = (s.put (Reg.MAC_PREEMPT_ST p) Fd.MAC_PREEMPT_ST.VERIFY 3).event (Pg.MAC p) Ev.MAC.VERIFY_FAIL := by
  simp [verifyDone, h]

theorem evtReg_preempt {p : Nat} (hp : p < 8) : evtReg (Reg.MAC_PREEMPT_ST p) = false := by
  simp only [evtReg, Bool.or_eq_false_iff, decide_eq_false_iff_not, Reg.MAC_PREEMPT_ST, Reg.LOG_LOST_CNT, Reg.MGMT_NET_DROP]
  refine ⟨⟨?_, ?_⟩, ?_⟩ <;> omega

theorem verifyDone_failed_spec {s : State} {p : Nat} (hp : p < 8) (h : s.get (Reg.MAC_PREEMPT_ST p) Fd.MAC_PREEMPT_ST.VERIFY = 1) :
    ∃ u, s.verifyDone p false = u ∧ u.get (Reg.MAC_PREEMPT_ST p) Fd.MAC_PREEMPT_ST.VERIFY = 3 ∧ u.Latched (Pg.MAC p) Ev.MAC.VERIFY_FAIL
      ∧ s.OnlyEvents u [Reg.MAC_PREEMPT_ST p] := by
  refine ⟨_, verifyDone_failed h, ?_, event_latched _ _ _ (by decide), (OnlyEvents.same.put _ _ (by simp)).event _ _⟩
  rw [get_event _ _ _ _ (evtReg_preempt hp), get_put_same _ _ _ _ (by decide) (by decide)]
  rfl

/-! ## What moves with a pair (R341 to R343) -/

/-- `u` is `s` but for the trains of the ports' classes and the tags of aggregates. -/
structure SameLinks (s u : State) : Prop where
  clk : u.clk = s.clk
  pending : u.pending = s.pending
  pairs : u.nw.pairs = s.nw.pairs
  rd : ∀ a, u.rd a = s.rd a
  mac : ∀ q, { u.mac q with classes := (s.mac q).classes } = s.mac q

theorem SameLinks.refl (s : State) : SameLinks s s := ⟨rfl, rfl, rfl, fun _ => rfl, fun _ => rfl⟩

theorem SameLinks.trans {s u v : State} (h : SameLinks s u) (h' : SameLinks u v) : SameLinks s v :=
  ⟨h'.clk.trans h.clk, h'.pending.trans h.pending, h'.pairs.trans h.pairs, fun a => (h'.rd a).trans (h.rd a), fun q => by
    rw [← h.mac q, ← h'.mac q]⟩

theorem SameLinks.setAgg (s : State) (a : Nat) (x : AggRun) : SameLinks s (s.setAgg a x) := ⟨rfl, rfl, rfl, fun _ => rfl, fun _ => rfl⟩

theorem SameLinks.setMac (s : State) (p : Nat) (m : MacRun) (h : { m with classes := (s.mac p).classes } = s.mac p) :
    SameLinks s (s.setMac p m) :=
  ⟨rfl, rfl, rfl, fun _ => rfl, fun q => by
    rw [mac_setMac]
    split
    · next hq => rw [hq, h]
    · rfl⟩

theorem SameLinks.retagPort (s : State) (p : Nat) : SameLinks s (s.retagPort p) := by
  have h (l : List Nat) : ∀ u : State, SameLinks s u → SameLinks s (l.foldl (fun s a =>
      let x := s.agg a
      s.setAgg a { x with tag := if s.aggBusy a then headTag (s.aggCls x).v (s.aggCls x).v x.eff.weight else (s.aggCls x).v }) u) := by
    induction l with
    | nil => exact fun _ hu => hu
    | cons a as ih => exact fun u hu => ih _ (hu.trans (SameLinks.setAgg u a _))
  exact h _ s (.refl s)

theorem SameLinks.moveTrains (s : State) (old new : Nat) : SameLinks s (s.moveTrains old new) := by
  unfold State.moveTrains modMac
  dsimp only
  exact (SameLinks.setMac s new _ (by rfl)).trans (SameLinks.setMac _ old _ (by rfl))

theorem SameLinks.pair {s u : State} (h : SameLinks s u) (k : Nat) : u.pair k = s.pair k := by
  unfold State.pair
  rw [h.pairs]

theorem SameLinks.latched {s u : State} (h : SameLinks s u) {p b : Nat} (hl : s.Latched p b) : u.Latched p b := hl.of_rd (h.rd _)

theorem pair_setPair (s : State) (k j : Nat) (x : PairRun) : (s.setPair k x).pair j = if j = k then x else s.pair j := getD_putAt _ _ _ _ _

theorem pair_congr {s u : State} (h : u.nw = s.nw) (k : Nat) : u.pair k = s.pair k := by
  unfold State.pair
  rw [h]

/-- A pair's new active member, before its traffic moves. -/
theorem pairMove_sameLinks (s : State) (k p : Nat) (down : Bool) :
    SameLinks (s.setPair k { active := p, down := down }) (s.pairMove k p down) := by
  unfold pairMove activate
  dsimp only
  split
  · exact .refl _
  · exact (SameLinks.moveTrains _ _ p).trans (SameLinks.retagPort _ p)

/-! ## A write of a pair (R341) -/

/-- The word that a write of LPAIR_PAIRk leaves. -/
def pairWord (s : State) (k : Nat) (v : Word) : Word := mergeFields (fieldsAt (Reg.LPAIR_PAIR k)) .rw (s.rd (Reg.LPAIR_PAIR k)) v

theorem pairWord_eq (s : State) {k : Nat} (hk : k < 4) (v : Word) : s.pairWord k v
    = withBits (withBits (withBits (withBits (s.rd (Reg.LPAIR_PAIR k)) 10 8 (bitsOf v 10 8)) 6 4 (bitsOf v 6 4)) 1 1 (bitsOf v 1 1)) 0 0
        (bitsOf v 0 0) := by
  have hfields : fieldsAt (Reg.LPAIR_PAIR k) = fieldsAt (Reg.LPAIR_PAIR 0) := by interval_cases k <;> rfl
  unfold pairWord
  rw [hfields]
  rfl

/-- The written fields stand in the register. -/
theorem pairWord_fields (s : State) {k : Nat} (hk : k < 4) (v : Word) :
    bitsOf (s.pairWord k v) 0 0 = fieldOf v Fd.LPAIR_PAIR.EN ∧ bitsOf (s.pairWord k v) 6 4 = fieldOf v Fd.LPAIR_PAIR.PRIMARY
      ∧ bitsOf (s.pairWord k v) 10 8 = fieldOf v Fd.LPAIR_PAIR.SECONDARY := by
  rw [pairWord_eq s hk]
  refine ⟨?_, ?_, ?_⟩
  · rw [bitsOf_withBits _ _ _ _ (by decide) (by decide)]
    exact Nat.mod_eq_of_lt (bitsOf_lt _ _ _)
  · repeat rw [bitsOf_withBits_ne _ _ _ _ 6 4 (by decide) (by decide) (by decide) (by decide)]
    rw [bitsOf_withBits _ _ _ _ (by decide) (by decide)]
    exact Nat.mod_eq_of_lt (bitsOf_lt _ _ _)
  · repeat rw [bitsOf_withBits_ne _ _ _ _ 10 8 (by decide) (by decide) (by decide) (by decide)]
    rw [bitsOf_withBits _ _ _ _ (by decide) (by decide)]
    exact Nat.mod_eq_of_lt (bitsOf_lt _ _ _)

/-- The pair that a write names does not share a port with another enabled pair. -/
def PairFree (s : State) (k pr se : Nat) : Prop :=
  ∀ j, j < 4 → j ≠ k → s.pairEn j = true → s.primary j ≠ pr ∧ s.primary j ≠ se ∧ s.secondary j ≠ pr ∧ s.secondary j ≠ se

theorem pairFree_taken {s : State} {k pr se : Nat} (h : s.PairFree k pr se) :
    (allPairs.any fun j => j != k && s.pairEn j
      && (s.primary j = pr || s.primary j = se || s.secondary j = pr || s.secondary j = se)) = false := by
  rw [List.any_eq_false]
  intro j hj ht
  simp only [Bool.and_eq_true, bne_iff_ne, Bool.or_eq_true, decide_eq_true_eq] at ht
  obtain ⟨⟨hne, hen⟩, hshare⟩ := ht
  obtain ⟨h1, h2, h3, h4⟩ := h j (by simp only [allPairs, List.mem_cons, List.not_mem_nil, or_false] at hj; omega) hne hen
  tauto

/-- The running state of a pair that is enabled now. -/
def newPair (s : State) (pr se : Nat) : PairRun :=
  { active := if s.linkIsUp pr then pr else se, down := !s.linkIsUp pr && !s.linkIsUp se }

/-- Enabling a pair chooses its active member. -/
def joinPair (s : State) (k pr se : Nat) : State :=
  let act := if s.linkIsUp pr then pr else se
  let down := !s.linkIsUp pr && !s.linkIsUp se
  let s := (s.setPair k { active := act, down := down }).eventIf down Pg.LPAIR Ev.LPAIR.PAIR_DOWN
  (s.moveTrains (if act = pr then se else pr) act).retagPort act

/-- A pair that is no longer enabled. -/
def leavePair (s : State) (pr se : Nat) : State := (s.retagPort pr).retagPort se

theorem pairWrite_ok {s : State} {k : Nat} {v : Word} (hpr : s.provided (fieldOf v Fd.LPAIR_PAIR.PRIMARY) = true)
    (hse : s.provided (fieldOf v Fd.LPAIR_PAIR.SECONDARY) = true)
    (hne : fieldOf v Fd.LPAIR_PAIR.PRIMARY ≠ fieldOf v Fd.LPAIR_PAIR.SECONDARY)
    (hfree : s.PairFree k (fieldOf v Fd.LPAIR_PAIR.PRIMARY) (fieldOf v Fd.LPAIR_PAIR.SECONDARY))
    (hkeep : s.pairEn k = true → s.primary k = fieldOf v Fd.LPAIR_PAIR.PRIMARY ∧ s.secondary k = fieldOf v Fd.LPAIR_PAIR.SECONDARY) :
    s.pairWrite k v = (if (s.wr (Reg.LPAIR_PAIR k) (s.pairWord k v)).pairEn k && !s.pairEn k then
        (s.wr (Reg.LPAIR_PAIR k) (s.pairWord k v)).joinPair k (fieldOf v Fd.LPAIR_PAIR.PRIMARY) (fieldOf v Fd.LPAIR_PAIR.SECONDARY)
      else if s.pairEn k && !(s.wr (Reg.LPAIR_PAIR k) (s.pairWord k v)).pairEn k then
        (s.wr (Reg.LPAIR_PAIR k) (s.pairWord k v)).leavePair (fieldOf v Fd.LPAIR_PAIR.PRIMARY) (fieldOf v Fd.LPAIR_PAIR.SECONDARY)
      else s.wr (Reg.LPAIR_PAIR k) (s.pairWord k v)).relCheck := by
  refine (if_neg ?_).trans (if_neg ?_)
  · simp [hpr, hse, hne, pairFree_taken hfree]
  · intro h
    simp only [Bool.and_eq_true, Bool.or_eq_true, bne_iff_ne] at h
    obtain ⟨hp, hs⟩ := hkeep h.1
    exact h.2.elim (fun h => h hp.symm) (fun h => h hs.symm)

theorem evtReg_pair {k : Nat} (hk : k < 4) : evtReg (Reg.LPAIR_PAIR k) = false := by
  interval_cases k <;> decide

/-- What a pair's registers and running state are after it is enabled. -/
theorem joinPair_spec (s : State) {k : Nat} (hk : k < 4) (pr se : Nat) :
    ∃ u, s.joinPair k pr se = u ∧ u.clk = s.clk ∧ u.pending = s.pending ∧ u.rd (Reg.LPAIR_PAIR k) = s.rd (Reg.LPAIR_PAIR k)
      ∧ u.pair k = s.newPair pr se := by
  unfold joinPair newPair
  dsimp only
  generalize (if s.linkIsUp pr then pr else se) = act
  generalize (!s.linkIsUp pr && !s.linkIsUp se) = down
  have hev : OnlyEvents (s.setPair k { active := act, down := down }) ((s.setPair k { active := act, down := down }).eventIf down Pg.LPAIR
      Ev.LPAIR.PAIR_DOWN) [] := OnlyEvents.same.eventIf _ _ _
  have hset := (s.pair_setPair k k { active := act, down := down }).trans (if_pos rfl)
  generalize (s.setPair k { active := act, down := down }).eventIf down Pg.LPAIR Ev.LPAIR.PAIR_DOWN = v at hev ⊢
  have hlinks := (SameLinks.moveTrains v (if act = pr then se else pr) act).trans (SameLinks.retagPort _ act)
  generalize (v.moveTrains (if act = pr then se else pr) act).retagPort act = u at hlinks ⊢
  exact ⟨u, rfl, hlinks.clk.trans hev.clk, hlinks.pending.trans hev.pending,
    (hlinks.rd _).trans (hev.2 _ (by simp) (evtReg_pair hk)), (hlinks.pair k).trans ((pair_congr hev.nw k).trans hset)⟩

theorem leavePair_sameLinks (s : State) (pr se : Nat) : SameLinks s (s.leavePair pr se) :=
  (SameLinks.retagPort s pr).trans (SameLinks.retagPort _ se)

/-- A pair's settings and running state after an accepted write. -/
theorem pairWrite_spec {s : State} {k : Nat} (hk : k < 4) {v : Word} (hpr : s.provided (fieldOf v Fd.LPAIR_PAIR.PRIMARY) = true)
    (hse : s.provided (fieldOf v Fd.LPAIR_PAIR.SECONDARY) = true)
    (hne : fieldOf v Fd.LPAIR_PAIR.PRIMARY ≠ fieldOf v Fd.LPAIR_PAIR.SECONDARY)
    (hfree : s.PairFree k (fieldOf v Fd.LPAIR_PAIR.PRIMARY) (fieldOf v Fd.LPAIR_PAIR.SECONDARY))
    (hkeep : s.pairEn k = true → s.primary k = fieldOf v Fd.LPAIR_PAIR.PRIMARY ∧ s.secondary k = fieldOf v Fd.LPAIR_PAIR.SECONDARY) :
    ∃ u, s.pairWrite k v = u ∧ u.clk = s.clk ∧ u.pending = s.pending ∧ u.rd (Reg.LPAIR_PAIR k) = s.pairWord k v
      ∧ (fieldOf v Fd.LPAIR_PAIR.EN = 1 → s.pairEn k = false → u.pair k = s.newPair (fieldOf v Fd.LPAIR_PAIR.PRIMARY)
          (fieldOf v Fd.LPAIR_PAIR.SECONDARY))
      ∧ (fieldOf v Fd.LPAIR_PAIR.EN ≠ 1 ∨ s.pairEn k = true → u.pair k = s.pair k) := by
  have heq := pairWrite_ok hpr hse hne hfree hkeep
  have hpr8 : fieldOf v Fd.LPAIR_PAIR.PRIMARY < 8 := bitsOf_lt v 6 4
  have hse8 : fieldOf v Fd.LPAIR_PAIR.SECONDARY < 8 := bitsOf_lt v 10 8
  generalize fieldOf v Fd.LPAIR_PAIR.PRIMARY = pr at heq hpr8 ⊢
  generalize fieldOf v Fd.LPAIR_PAIR.SECONDARY = se at heq hse8 ⊢
  have hrd : (s.wr (Reg.LPAIR_PAIR k) (s.pairWord k v)).rd (Reg.LPAIR_PAIR k) = s.pairWord k v := rd_wr_same _ _ _
  have hon : (s.wr (Reg.LPAIR_PAIR k) (s.pairWord k v)).pairEn k = true ↔ fieldOf v Fd.LPAIR_PAIR.EN = 1 := by
    rw [pairEn, flag, get_wr_same, (s.pairWord_fields hk v).1, decide_eq_true_eq]
  have hlink {p : Nat} (hp : p < 8) : (s.wr (Reg.LPAIR_PAIR k) (s.pairWord k v)).linkIsUp p = s.linkIsUp p := by
    unfold linkIsUp flag
    rw [get_wr_ne _ _ _ (show Reg.MAC_LINK p ≠ Reg.LPAIR_PAIR k by simp only [Reg.MAC_LINK, Reg.LPAIR_PAIR]; omega)]
  obtain ⟨hregs, -⟩ : s.OnlyRegs (s.wr (Reg.LPAIR_PAIR k) (s.pairWord k v)) [Reg.LPAIR_PAIR k] := OnlyRegs.same.wr _ (by simp)
  generalize s.wr (Reg.LPAIR_PAIR k) (s.pairWord k v) = w at heq hrd hon hlink hregs
  have hclk := congrArg State.clk hregs
  have hpend := congrArg State.pending hregs
  have hnw := congrArg State.nw hregs
  have hfinish (z : State) (hz : s.pairWrite k v = z.relCheck) (hzclk : z.clk = w.clk) (hzpend : z.pending = w.pending)
      (hzrd : z.rd (Reg.LPAIR_PAIR k) = w.rd (Reg.LPAIR_PAIR k)) : ∃ u, s.pairWrite k v = u ∧ u.clk = s.clk ∧ u.pending = s.pending
        ∧ u.rd (Reg.LPAIR_PAIR k) = s.pairWord k v ∧ u.pair k = z.pair k := by
    have hcheck := relCheck_only z
    have hcheckRd := relCheck_rd z (evtReg_pair hk)
    generalize z.relCheck = u at hz hcheck hcheckRd
    exact ⟨u, hz, hcheck.clk.trans (hzclk.trans hclk), hcheck.pending.trans (hzpend.trans hpend), hcheckRd.trans (hzrd.trans hrd),
      pair_congr hcheck.nw k⟩
  have hwpair : w.pair k = s.pair k := pair_congr hnw k
  by_cases hen : fieldOf v Fd.LPAIR_PAIR.EN = 1
  · by_cases hwas : s.pairEn k = true
    · obtain ⟨u, hu, huclk, hupend, hurd, hpair⟩ := hfinish w (heq.trans (by simp [hon.mpr hen, hwas])) rfl rfl rfl
      exact ⟨u, hu, huclk, hupend, hurd, fun _ h => by simp [hwas] at h, fun _ => hpair.trans hwpair⟩
    · obtain ⟨z, hz, hzclk, hzpend, hzrd, hzpair⟩ := w.joinPair_spec hk pr se
      obtain ⟨u, hu, huclk, hupend, hurd, hpair⟩ := hfinish z (heq.trans (by simp [hon.mpr hen, hwas, hz])) hzclk hzpend hzrd
      refine ⟨u, hu, huclk, hupend, hurd, fun _ _ => ?_, fun h => ?_⟩
      · rw [hpair, hzpair, newPair, hlink hpr8, hlink hse8, newPair]
      · exact absurd h (by simp [hen, hwas])
  · have hoff : w.pairEn k = false := by simpa [hen] using hon
    by_cases hwas : s.pairEn k = true
    · have hlinks := w.leavePair_sameLinks pr se
      generalize hz : w.leavePair pr se = z at hlinks
      obtain ⟨u, hu, huclk, hupend, hurd, hpair⟩ := hfinish z (heq.trans (by simp [hoff, hwas, hz])) hlinks.clk hlinks.pending (hlinks.rd _)
      exact ⟨u, hu, huclk, hupend, hurd, fun h => absurd h hen, fun _ => hpair.trans ((hlinks.pair k).trans hwpair)⟩
    · obtain ⟨u, hu, huclk, hupend, hurd, hpair⟩ := hfinish w (heq.trans (by simp [hoff, hwas])) rfl rfl rfl
      exact ⟨u, hu, huclk, hupend, hurd, fun h => absurd h hen, fun _ => hpair.trans hwpair⟩

end State

/-- Settles O33: what each write checks decides its branch; counters, links and pairs follow. -/
theorem portSettings : Obligations.PortSettings := by
  unfold Obligations.PortSettings
  refine ⟨fun s t p port v hs => ?_, fun s t p k v hs => ?_, fun s t port hup => ?_⟩
  · dsimp only
    refine ⟨fun h => ?_, fun h0 h3 hb => ?_, fun h0 h3 hb => ?_, fun h => ?_, fun h hen hf => ?_, fun h hf => ?_⟩
    · exact State.serves_of_eq (fun s => s.laneWrite port.toNat v) hs (State.laneWrite_badParam (s := s.atTick t) h) rfl rfl
    · refine State.serves_of_eq (fun s => s.laneWrite port.toNat v) hs ?_ rfl rfl
      rw [h0]
      exact State.laneWrite_busy (s := s.atTick t) h3 hb
    · obtain ⟨u, hu, hmode, hregs, hrd, hclear⟩ := State.laneWrite_spec (s := s.atTick t) h3 hb
      have hclk := congrArg State.clk hregs
      have hpend := congrArg State.pending hregs
      exact ⟨u, State.serves_of_eq (fun s => s.laneWrite port.toNat v) hs (by rw [h0]; exact hu) hclk hpend, hmode, hregs, hrd, hclear⟩
    · exact State.serves_of_eq (fun s => s.macCtrlWrite port.toNat v) hs (State.macCtrlWrite_badParam (s := s.atTick t) h) rfl rfl
    · exact State.serves_of_eq (fun s => s.macCtrlWrite port.toNat v) hs (State.macCtrlWrite_busy (s := s.atTick t) h hen hf) rfl rfl
    · exact State.serves_of_eq (fun s => s.macCtrlWrite port.toNat v) hs (State.macCtrlWrite_ok (s := s.atTick t) h hf) rfl rfl
  · intro pr se on hpr hse hne hfree hkeep
    obtain ⟨u, hu, hclk, hpend, hrd, hjoin, hstay⟩ := State.pairWrite_spec (s := s.atTick t) k.isLt hpr hse hne hfree hkeep
    obtain ⟨hen, hprim, hsec⟩ := (s.atTick t).pairWord_fields k.isLt v
    refine ⟨u, State.serves_of_eq (fun s => s.pairWrite k.toNat v) hs hu hclk hpend, ?_, ?_, ?_, fun hon => hjoin (by simpa [on] using hon),
      fun hon => hstay (hon.imp_left fun h => by simpa [on] using h)⟩
    · rw [State.pairEn, State.flag, State.get, hrd, hen]
    · rw [State.primary, State.get, hrd, hprim]
    · rw [State.secondary, State.get, hrd, hsec]
  · intro a h
    obtain ⟨u, hu, hget, hlatch, hframe⟩ := State.verifyDone_failed_spec (s := s.atTick t) port.isLt h
    exact ⟨State.act_of_eq (fun s => s.verifyDone port.toNat true) hup (State.verifyDone_ok (s := s.atTick t) h) rfl rfl, u,
      State.act_of_eq (fun s => s.verifyDone port.toNat false) hup hu hframe.clk hframe.pending, hget, hlatch, hframe⟩

end Sys2Proof.Machine
end

section
/-! PROOFS. Pause: frames that hold and release classes, the ends of holds, the watchdog and repeats (R336 to R339). -/

namespace Sys2Proof.Machine

namespace State

/-! ## Holds of a port -/

theorem holdOf_setHold (s : State) (p k j : Nat) (h : Hold) : (s.setHold p k h).holdOf p j = if j = k then h else s.holdOf p j := by
  unfold holdOf setHold modMac
  rw [mac_setMac, if_pos rfl]
  exact getD_putAt _ _ _ _ _

/-- `u` is `s` but for the holds of port `p`. -/
def OnlyHolds (s u : State) (p : Nat) : Prop :=
  { u with nw := { u.nw with macs := s.nw.macs } } = s
    ∧ ∀ q, { u.mac q with holds := (s.mac q).holds } = s.mac q ∧ (q ≠ p → u.mac q = s.mac q)

theorem OnlyHolds.refl (s : State) (p : Nat) : s.OnlyHolds s p := ⟨rfl, fun _ => ⟨rfl, fun _ => rfl⟩⟩

theorem OnlyHolds.setHold {s u : State} {p : Nat} (h : s.OnlyHolds u p) (k : Nat) (x : Hold) : s.OnlyHolds (u.setHold p k x) p := by
  obtain ⟨hrest, hmac⟩ := h
  refine ⟨hrest, fun q => ?_⟩
  unfold State.setHold modMac
  rw [mac_setMac]
  by_cases hq : q = p
  · rw [if_pos hq, hq]
    exact ⟨(hmac p).1, fun hne => absurd rfl hne⟩
  · rw [if_neg hq]
    exact hmac q

theorem OnlyHolds.clk {s u : State} {p : Nat} (h : s.OnlyHolds u p) : u.clk = s.clk := by
  have hclk := congrArg State.clk h.1
  exact hclk

theorem OnlyHolds.pending {s u : State} {p : Nat} (h : s.OnlyHolds u p) : u.pending = s.pending := by
  have hpend := congrArg State.pending h.1
  exact hpend

theorem OnlyHolds.rd {s u : State} {p : Nat} (h : s.OnlyHolds u p) (a : Nat) : u.rd a = s.rd a := by
  have hrd := congrArg (fun z : State => z.rd a) h.1
  exact hrd

theorem OnlyHolds.wire {s u : State} {p : Nat} (h : s.OnlyHolds u p) : (u.mac p).wire = (s.mac p).wire := by
  have hwire := congrArg MacRun.wire (h.2 p).1
  exact hwire

theorem OnlyHolds.trans {s u v : State} {p : Nat} (h : s.OnlyHolds u p) (h' : u.OnlyHolds v p) : s.OnlyHolds v p := by
  refine ⟨?_, fun q => ⟨?_, fun hq => ((h'.2 q).2 hq).trans ((h.2 q).2 hq)⟩⟩
  · have hv := congrArg (fun z : State => { z with nw := { z.nw with macs := s.nw.macs } }) h'.1
    exact hv.trans h.1
  · have hv := congrArg (fun z : MacRun => { z with holds := (s.mac q).holds }) (h'.2 q).1
    exact hv.trans (h.2 q).1

/-- A pass over classes, each of which takes a new hold or keeps the one it has. -/
theorem foldHolds {s : State} {p : Nat} {f : State → Nat → State} (c : Nat → Hold → Option Hold)
    (hf : ∀ u k, s.OnlyHolds u p → f u k = (c k (u.holdOf p k)).elim u (u.setHold p k)) {l : List Nat} (hl : l.Nodup) :
    s.OnlyHolds (l.foldl f s) p
      ∧ ∀ k, (l.foldl f s).holdOf p k = if k ∈ l then (c k (s.holdOf p k)).getD (s.holdOf p k) else s.holdOf p k := by
  have key (l : List Nat) : l.Nodup → ∀ u, s.OnlyHolds u p → s.OnlyHolds (l.foldl f u) p
      ∧ ∀ k, (l.foldl f u).holdOf p k = if k ∈ l then (c k (u.holdOf p k)).getD (u.holdOf p k) else u.holdOf p k := by
    induction l with
    | nil => exact fun _ u hu => ⟨hu, fun k => rfl⟩
    | cons a as ih =>
      intro hnd u hu
      obtain ⟨ha, has⟩ := List.nodup_cons.mp hnd
      have hstep : s.OnlyHolds (f u a) p ∧ ∀ k, (f u a).holdOf p k = if k = a then (c a (u.holdOf p a)).getD (u.holdOf p a) else u.holdOf p k := by
        rw [hf u a hu]
        cases c a (u.holdOf p a) with
        | none => exact ⟨hu, fun k => by by_cases hk : k = a <;> simp [hk]⟩
        | some x => exact ⟨hu.setHold a x, fun k => holdOf_setHold u p a k x⟩
      obtain ⟨honly, hhold⟩ := ih has (f u a) hstep.1
      refine ⟨honly, fun k => (hhold k).trans ?_⟩
      rw [hstep.2 k]
      by_cases hk : k = a
      · simp [hk, ha]
      · simp [hk]
  exact key l hl s (.refl s p)

/-! ## The ends of holds and of hold-offs (R337, R338) -/

/-- A hold that has ended by `now` is over. -/
def endedHold (now : Nat) (h : Hold) : Option Hold := if h.held && h.stop ≤ now then some { h with held := false } else none

/-- A hold-off that has ended by `now` is over. -/
def endedHoldoff (now : Nat) (h : Hold) : Option Hold :=
  h.holdoff.bind fun d => if d ≤ now then some { h with holdoff := none } else none

theorem holdEnd_spec (s : State) (p : Nat) : s.OnlyHolds (s.holdEnd p) p
    ∧ ∀ k, k < 8 → (s.holdEnd p).holdOf p k
        = if (s.holdOf p k).held ∧ (s.holdOf p k).stop ≤ s.clk.now then { s.holdOf p k with held := false } else s.holdOf p k := by
  obtain ⟨honly, hhold⟩ := foldHolds (s := s) (p := p) (f := fun s k =>
    let h := s.holdOf p k
    if h.held && h.stop ≤ s.clk.now then s.setHold p k { h with held := false } else s) (fun _ => endedHold s.clk.now)
    (fun u k hu => by
      unfold endedHold
      rw [hu.clk]
      dsimp only
      split <;> rfl) (l := List.range 8) List.nodup_range
  refine ⟨honly, fun k hk => (hhold k).trans ?_⟩
  rw [if_pos (List.mem_range.mpr hk), endedHold]
  by_cases h : (s.holdOf p k).held ∧ (s.holdOf p k).stop ≤ s.clk.now
  · rw [if_pos (by simpa using h), if_pos h]
    rfl
  · rw [if_neg (by simpa using h), if_neg h]
    rfl

theorem holdoffEnd_spec (s : State) (p : Nat) : s.OnlyHolds (s.holdoffEnd p) p
    ∧ ∀ k, k < 8 → (s.holdoffEnd p).holdOf p k
        = { s.holdOf p k with holdoff := (s.holdOf p k).holdoff.filter fun d => s.clk.now < d } := by
  obtain ⟨honly, hhold⟩ := foldHolds (s := s) (p := p) (f := fun s k =>
    let h := s.holdOf p k
    match h.holdoff with
    | some d => if d ≤ s.clk.now then s.setHold p k { h with holdoff := none } else s
    | none => s) (fun _ => endedHoldoff s.clk.now)
    (fun u k hu => by
      unfold endedHoldoff
      rw [hu.clk]
      dsimp only
      cases (u.holdOf p k).holdoff with
      | none => rfl
      | some d =>
        dsimp only [Option.bind_some]
        split <;> rfl) (l := List.range 8) List.nodup_range
  refine ⟨honly, fun k hk => (hhold k).trans ?_⟩
  rw [if_pos (List.mem_range.mpr hk), endedHoldoff]
  generalize s.holdOf p k = h
  obtain ⟨held, since, stop, effect, holdoff⟩ := h
  cases holdoff with
  | none => rfl
  | some d =>
    by_cases hd : d ≤ s.clk.now
    · simp [hd, Option.filter]
    · simp [hd, Option.filter, Nat.lt_of_not_le hd]

/-! ## The watchdog (R338) -/

/-- A class whose break is due at `d` begins its hold-off. -/
def brokenHold (s : State) (p : Nat) (d : Nat) : Hold :=
  { Hold.none with holdoff := some (d + msTicks (s.get (Reg.MAC_PWD p) Fd.MAC_PWD.HOLDOFF_MS)) }

/-- The breaks that are due on a port. -/
def dueBreaks (s : State) (p : Nat) : List (Nat × Nat) := (List.range 8).filterMap fun k => (s.breakDue p k).map fun d => (k, d)

/-- The holds of a port after its breaks. -/
def breakHolds (s : State) (p : Nat) : State :=
  (s.dueBreaks p).foldl (fun s x =>
    s.setHold p x.1 { Hold.none with holdoff := some (x.2 + msTicks (s.get (Reg.MAC_PWD p) Fd.MAC_PWD.HOLDOFF_MS)) }) s

theorem pauseBreak_eq (s : State) (p : Nat) : s.pauseBreak p
    = if (if s.pauseMode p = 1 then min 1 (s.dueBreaks p).length else (s.dueBreaks p).length) = 0 then s.breakHolds p
      else ((s.breakHolds p).inc (Reg.MAC_PWD_CNT p) Fd.MAC_PWD_CNT.COUNT (if s.pauseMode p = 1 then min 1 (s.dueBreaks p).length
        else (s.dueBreaks p).length)).event (Pg.MAC p) Ev.MAC.PAUSE_BREAK := rfl

theorem foldl_filterMap_elim {α β σ : Type} (f : σ → β → σ) (g : α → Option β) (l : List α) (s : σ) :
    (l.filterMap g).foldl f s = l.foldl (fun s a => (g a).elim s (f s)) s := by
  rw [List.foldl_filterMap]
  congr
  funext x a
  cases g a <;> rfl

theorem breakHolds_spec (s : State) (p : Nat) : s.OnlyHolds (s.breakHolds p) p
    ∧ ∀ k, k < 8 → (s.breakHolds p).holdOf p k = ((s.breakDue p k).map (s.brokenHold p)).getD (s.holdOf p k) := by
  unfold breakHolds dueBreaks
  rw [foldl_filterMap_elim]
  obtain ⟨honly, hhold⟩ := foldHolds (s := s) (p := p) (f := fun u k => ((s.breakDue p k).map fun d => (k, d)).elim u fun x =>
      u.setHold p x.1 { Hold.none with holdoff := some (x.2 + msTicks (u.get (Reg.MAC_PWD p) Fd.MAC_PWD.HOLDOFF_MS)) })
    (fun k _ => (s.breakDue p k).map (s.brokenHold p))
    (fun u k hu => by
      cases s.breakDue p k with
      | none => rfl
      | some d =>
        simp only [Option.map_some, Option.elim_some, brokenHold]
        rw [get_congr (hu.rd _)]) (l := List.range 8) List.nodup_range
  refine ⟨honly, fun k hk => (hhold k).trans ?_⟩
  rw [if_pos (List.mem_range.mpr hk)]

/-- The watchdog breaks what is due, and no other hold. -/
theorem pauseBreak_spec (s : State) (p : Nat) :
    ∃ u, s.pauseBreak p = u ∧ u.clk = s.clk ∧ u.pending = s.pending
      ∧ (∀ k d, k < 8 → s.breakDue p k = some d → u.holdOf p k = s.brokenHold p d ∧ u.Latched (Pg.MAC p) Ev.MAC.PAUSE_BREAK)
      ∧ ∀ k, k < 8 → s.breakDue p k = none → u.holdOf p k = s.holdOf p k := by
  have heq := s.pauseBreak_eq p
  obtain ⟨honly, hhold⟩ := s.breakHolds_spec p
  generalize s.breakHolds p = v at heq honly hhold
  generalize hn : (if s.pauseMode p = 1 then min 1 (s.dueBreaks p).length else (s.dueBreaks p).length) = n at heq
  have hdue {k d : Nat} (hk : k < 8) (h : s.breakDue p k = some d) : n ≠ 0 := by
    have hmem : (k, d) ∈ s.dueBreaks p := List.mem_filterMap.mpr ⟨k, List.mem_range.mpr hk, by rw [h]; rfl⟩
    have hpos : 0 < (s.dueBreaks p).length := List.length_pos_of_mem hmem
    split at hn <;> omega
  by_cases h0 : n = 0
  · refine ⟨v, heq.trans (if_pos h0), honly.clk, honly.pending, fun k d hk h => absurd h0 (hdue hk h), fun k hk h => ?_⟩
    rw [hhold k hk, h]
    rfl
  · have hev : v.OnlyEvents ((v.inc (Reg.MAC_PWD_CNT p) Fd.MAC_PWD_CNT.COUNT n).event (Pg.MAC p) Ev.MAC.PAUSE_BREAK) [Reg.MAC_PWD_CNT p] :=
      (OnlyEvents.same.inc _ _ (by simp)).event _ _
    have hlatch := event_latched (v.inc (Reg.MAC_PWD_CNT p) Fd.MAC_PWD_CNT.COUNT n) (Pg.MAC p) Ev.MAC.PAUSE_BREAK (by decide)
    rw [if_neg h0] at heq
    generalize (v.inc (Reg.MAC_PWD_CNT p) Fd.MAC_PWD_CNT.COUNT n).event (Pg.MAC p) Ev.MAC.PAUSE_BREAK = u at heq hev hlatch
    have hsame (k : Nat) : u.holdOf p k = v.holdOf p k := by rw [holdOf, mac, hev.nw, holdOf, mac]
    refine ⟨u, heq, hev.clk.trans honly.clk, hev.pending.trans honly.pending, fun k d hk h => ⟨?_, hlatch⟩, fun k hk h => ?_⟩
    · rw [hsame, hhold k hk, h]
      rfl
    · rw [hsame, hhold k hk, h]
      rfl

/-! ## Flow control that a port repeats (R339) -/

theorem fcRepeat_not {s : State} {p : Nat} (h : s.fcOn p = false ∨ (s.mac p).xoff = false ∨ s.clk.now < (s.mac p).repeatAt) :
    s.fcRepeat p = s := if_neg (by
  simp only [Bool.and_eq_true, decide_eq_true_eq]
  rintro ⟨⟨hon, hx⟩, hr⟩
  rcases h with h | h | h
  · simp [h] at hon
  · simp [h] at hx
  · omega)

/-- A counter of a port counts: its register, its notice and events alone. -/
theorem macCount_onlyEvents (s : State) (p i n : Nat) :
    s.OnlyEvents (s.macCount p i n) [Reg.MAC_CNT p i, Reg.MAC_CNT_NOTICE p] := by
  unfold macCount
  dsimp only
  split
  · exact OnlyEvents.same
  · split
    · refine OnlyEvents.eventIf (OnlyEvents.wr ?_ _ (by simp)) _ _ _
      obtain ⟨hrest, hrd⟩ := (OnlyEvents.same (s := s) (r := [Reg.MAC_CNT p i, Reg.MAC_CNT_NOTICE p])).wr (a := Reg.MAC_CNT p i)
        (Word.of ((s.rd (Reg.MAC_CNT p i)).toNat + n)) (by simp)
      exact ⟨hrest, hrd⟩
    · exact OnlyEvents.same.wr _ (by simp)

theorem suffix_macCount (s : State) (p i n : Nat) : s.out <:+ (s.macCount p i n).out := by
  unfold macCount
  dsimp only
  split
  · exact List.suffix_rfl
  · split
    · refine List.IsSuffix.trans ?_ (suffix_eventIf _ _ _ _)
      rw [out_wr]
      exact List.suffix_rfl
    · rw [out_wr]

/-- An output that leaves after others have left. -/
theorem Sends.after {s v u : State} {o : Output} (h : s.out <:+ v.out) (h' : o :: v.out <:+ u.out) : Sends s u o := by
  obtain ⟨l, hl⟩ := h
  obtain ⟨m, hm⟩ := h'
  unfold Sends
  rw [← hm, ← hl]
  have hlen : (m ++ o :: (l ++ s.out)).length - s.out.length = (m ++ o :: l).length := by
    simp only [List.length_append, List.length_cons]
    omega
  rw [hlen, show m ++ o :: (l ++ s.out) = (m ++ o :: l) ++ s.out by simp, List.take_left]
  simp

/-- The flow control frame of a port with `n` quanta. -/
def fcFrame (s : State) (p n : Nat) : List Byte :=
  pauseFrame (s.macSa p) (s.pauseMode p = 2) (s.get (Reg.MAC_FC_TX p) Fd.MAC_FC_TX.PRI) n

/-- A flow control frame leaves, with its counts and nothing else. -/
theorem sendPause_spec (s : State) (p n : Nat) : (∃ r, s.OnlyEvents (s.sendPause p n) r) ∧ Sends s (s.sendPause p n) (.frame p (padFrame (s.fcFrame p n))) := by
  have hcount := (s.macCount_onlyEvents p 23 1)
  have hsuffix := s.suffix_macCount p 23 1
  unfold sendPause sentFrame
  dsimp only
  change (∃ r, s.OnlyEvents ((((s.macCount p 23 1).macCount p 24 (wireBytes (s.fcFrame p n))).emit (.frame p (padFrame (s.fcFrame p n)))).macCount p _ 1) r)
    ∧ Sends s ((((s.macCount p 23 1).macCount p 24 (wireBytes (s.fcFrame p n))).emit (.frame p (padFrame (s.fcFrame p n)))).macCount p _ 1) _
  generalize (if s.pauseMode p = 2 then 26 else 25) = i
  generalize s.macCount p 23 1 = v at hcount hsuffix ⊢
  have hcount' := hcount.trans (v.macCount_onlyEvents p 24 (wireBytes (s.fcFrame p n)))
  have hsuffix' := hsuffix.trans (v.suffix_macCount p 24 (wireBytes (s.fcFrame p n)))
  generalize v.macCount p 24 (wireBytes (s.fcFrame p n)) = w at hcount' hsuffix' ⊢
  have hemit := hcount'.emit (.frame p (padFrame (s.fcFrame p n)))
  have hout : (w.emit (.frame p (padFrame (s.fcFrame p n)))).out = .frame p (padFrame (s.fcFrame p n)) :: w.out := rfl
  generalize w.emit (.frame p (padFrame (s.fcFrame p n))) = x at hemit hout ⊢
  exact ⟨⟨_, hemit.trans (x.macCount_onlyEvents p i 1)⟩, Sends.after hsuffix' (hout ▸ x.suffix_macCount p i 1)⟩

/-- A repeat that is due leaves, and the next one is half of QUANTA later. -/
theorem fcRepeat_spec {s : State} {p : Nat} (hon : s.fcOn p = true) (hx : (s.mac p).xoff = true) (hr : (s.mac p).repeatAt ≤ s.clk.now) :
    ∃ u, s.fcRepeat p = u ∧ u.clk = s.clk ∧ u.pending = s.pending
      ∧ u.mac p = { s.mac p with repeatAt := (s.mac p).repeatAt + s.fcPeriod p }
      ∧ Sends s u (.frame p (padFrame (s.fcFrame p (s.get (Reg.MAC_FC_TX p) Fd.MAC_FC_TX.QUANTA)))) := by
  have heq : s.fcRepeat p = (s.setMac p { s.mac p with repeatAt := (s.mac p).repeatAt + s.fcPeriod p }).sendPause p
      (s.get (Reg.MAC_FC_TX p) Fd.MAC_FC_TX.QUANTA) := if_pos (by simp [hon, hx, hr])
  have hset := s.mac_setMac p p { s.mac p with repeatAt := (s.mac p).repeatAt + s.fcPeriod p }
  have hframe (n : Nat) : (s.setMac p { s.mac p with repeatAt := (s.mac p).repeatAt + s.fcPeriod p }).fcFrame p n = s.fcFrame p n := rfl
  have hout : (s.setMac p { s.mac p with repeatAt := (s.mac p).repeatAt + s.fcPeriod p }).out = s.out := rfl
  have hclk : (s.setMac p { s.mac p with repeatAt := (s.mac p).repeatAt + s.fcPeriod p }).clk = s.clk := rfl
  have hpend : (s.setMac p { s.mac p with repeatAt := (s.mac p).repeatAt + s.fcPeriod p }).pending = s.pending := rfl
  generalize s.setMac p { s.mac p with repeatAt := (s.mac p).repeatAt + s.fcPeriod p } = v at heq hset hframe hout hclk hpend
  obtain ⟨⟨r, hev⟩, hsends⟩ := v.sendPause_spec p (s.get (Reg.MAC_FC_TX p) Fd.MAC_FC_TX.QUANTA)
  rw [hframe] at hsends
  generalize v.sendPause p (s.get (Reg.MAC_FC_TX p) Fd.MAC_FC_TX.QUANTA) = u at heq hev hsends
  have hmac : u.mac p = v.mac p := by rw [mac, hev.nw, mac]
  refine ⟨u, heq, hev.clk.trans hclk, hev.pending.trans hpend, hmac.trans (hset.trans (if_pos rfl)), ?_⟩
  unfold Sends at hsends ⊢
  rwa [hout] at hsends

/-! ## What reception keeps of a port (R331) -/

/-- A register of a port's settings. -/
def portCfg (a : Nat) : Prop := 0x60 ≤ a / 0x1000 ∧ a / 0x1000 < 0x68 ∧ 0x40 ≤ a % 0x1000 ∧ a % 0x1000 < 0x7C

/-- `u` is `s` for a reader of the ports' settings, wires and holds. -/
structure SamePort (s u : State) : Prop where
  clk : u.clk = s.clk
  pending : u.pending = s.pending
  mac : ∀ q, { u.mac q with xoff := (s.mac q).xoff, repeatAt := (s.mac q).repeatAt } = s.mac q
  rd : ∀ a, portCfg a → u.rd a = s.rd a

theorem SamePort.refl (s : State) : SamePort s s := ⟨rfl, rfl, fun _ => rfl, fun _ _ => rfl⟩

theorem SamePort.trans {s u v : State} (h : SamePort s u) (h' : SamePort u v) : SamePort s v :=
  ⟨h'.clk.trans h.clk, h'.pending.trans h.pending, fun q => by rw [← h.mac q, ← h'.mac q], fun a ha => (h'.rd a ha).trans (h.rd a ha)⟩

theorem portCfg_evtReg {a : Nat} (h : portCfg a) : evtReg a = false := by
  obtain ⟨h1, h2, h3, h4⟩ := h
  simp only [evtReg, Bool.or_eq_false_iff, decide_eq_false_iff_not, Reg.LOG_LOST_CNT, Reg.MGMT_NET_DROP]
  refine ⟨⟨?_, ?_⟩, ?_⟩ <;> omega

theorem SamePort.events {s u : State} {r : List Nat} (h : s.OnlyEvents u r) (hr : ∀ a ∈ r, ¬portCfg a) : SamePort s u :=
  ⟨h.clk, h.pending, fun q => by rw [State.mac, h.nw, State.mac], fun a ha => h.2 a (fun hm => hr a hm ha) (portCfg_evtReg ha)⟩

theorem not_portCfg_cnt (p : Nat) {i : Nat} (hi : i < 32) : ¬portCfg (Reg.MAC_CNT p i) := by
  simp only [portCfg, Reg.MAC_CNT]
  omega

theorem not_portCfg_notice (p : Nat) : ¬portCfg (Reg.MAC_CNT_NOTICE p) := by
  simp only [portCfg, Reg.MAC_CNT_NOTICE]
  omega

theorem SamePort.macCount (s : State) (p : Nat) {i : Nat} (n : Nat) (hi : i < 32) : SamePort s (s.macCount p i n) :=
  SamePort.events (s.macCount_onlyEvents p i n) (by simp [not_portCfg_cnt p hi, not_portCfg_notice p])

theorem SamePort.wr (s : State) {a : Nat} (w : Word) (ha : ¬portCfg a) : SamePort s (s.wr a w) :=
  SamePort.events (OnlyEvents.same.wr (r := [a]) w (by simp)) (by simpa using ha)

theorem SamePort.sendPause (s : State) (p n : Nat) : SamePort s (s.sendPause p n) := by
  have hsent := (SamePort.macCount s p (i := 23) 1 (by decide)).trans
    (SamePort.macCount _ p (i := 24) (wireBytes (s.fcFrame p n)) (by decide))
  have hemit := hsent.trans (SamePort.events (emit_onlyEvents _ (.frame p (padFrame (s.fcFrame p n)))) (by simp))
  exact hemit.trans (SamePort.macCount _ _ _ (by split <;> decide))

theorem SamePort.setMac (s : State) (p : Nat) (x : Bool) (t : Nat) :
    SamePort s (s.setMac p { s.mac p with xoff := x, repeatAt := t }) :=
  ⟨rfl, rfl, fun q => by
    rw [mac_setMac]
    split
    · next hq => rw [hq]
    · rfl, fun _ _ => rfl⟩

theorem SamePort.fcPort (s : State) (used p : Nat) : SamePort s (fcPort used s p) := by
  unfold State.fcPort
  dsimp only
  split
  · split
    · exact SamePort.setMac s p false _
    · exact .refl s
  · split
    · exact (SamePort.setMac s p true _).trans (SamePort.sendPause _ _ _)
    · split
      · exact (SamePort.setMac s p false _).trans (SamePort.sendPause _ _ _)
      · exact .refl s

theorem SamePort.noteMem (s : State) (more : Nat) : SamePort s (s.noteMem more) := by
  have key (l : List Nat) (used : Nat) : ∀ u : State, SamePort s u → SamePort s (l.foldl (State.fcPort used) u) := by
    induction l with
    | nil => exact fun _ hu => hu
    | cons p ps ih => exact fun u hu => ih _ (hu.trans (SamePort.fcPort u used p))
  have hwater : ∀ v, SamePort s (s.put Reg.PKT_MEM_HWM Fd.PKT_MEM_HWM.BYTES v) := fun v =>
    SamePort.wr s _ (by simp [portCfg, Reg.PKT_MEM_HWM])
  unfold State.noteMem State.raise
  dsimp only
  exact key _ _ _ (hwater _)

theorem SamePort.ite {s u v : State} (c : Prop) [Decidable c] (h : SamePort s u) (h' : SamePort s v) : SamePort s (if c then u else v) := by
  split
  · exact h
  · exact h'

/-- Reception up to step 1 keeps the settings, wires and holds of the ports. -/
theorem SamePort.sizeStep (s : State) (p : Nat) (f : RxFrame) : SamePort s (s.sizeStep p f).1 := by
  have hfirst := SamePort.macCount s p 1 (sizeCounter_lt s p f)
  have hfcs (c : Prop) [Decidable c] : SamePort s (if c then (s.macCount p (s.sizeCounter p f) 1).macCount p 7 1
      else s.macCount p (s.sizeCounter p f) 1) :=
    SamePort.ite _ (hfirst.trans (SamePort.macCount _ p 1 (by decide))) hfirst
  unfold State.sizeStep
  dsimp only
  exact SamePort.ite _ (hfcs _) ((hfcs _).trans (SamePort.macCount _ p 1 (by decide)))

theorem SamePort.accepted (s : State) (p : Nat) (f : RxFrame) : SamePort s (s.accepted p f) := by
  have hfec := (SamePort.macCount s p (i := 20) f.fecCorr (by decide)).trans (SamePort.macCount _ p (i := 21) f.fecLost (by decide))
  have hfifo := SamePort.events (fifoShown_onlyEvents (s.fecStep p f) p f) (by simp [portCfg, Reg.RING_MACFIFO]; omega)
  exact (hfec.trans hfifo).trans (SamePort.sizeStep _ p f)

theorem SamePort.stored (s : State) (p : Nat) (b : List Byte) : SamePort s (s.stored p b) :=
  ((((SamePort.wr s _ (by simp [portCfg, Reg.PKT_RX_CNT])).trans (SamePort.macCount _ _ _ (by decide))).trans (SamePort.macCount _ _ _ (by decide))).trans
    (SamePort.macCount _ _ _ (by split_ifs <;> decide))).trans (SamePort.noteMem _ _)

theorem SamePort.holdOf {s u : State} (h : SamePort s u) (p k : Nat) : u.holdOf p k = s.holdOf p k := by
  have hholds := congrArg MacRun.holds (h.mac p)
  unfold State.holdOf
  exact congrArg (fun l : List Hold => l.getD k Hold.none) hholds

theorem SamePort.wire {s u : State} (h : SamePort s u) (p : Nat) : (u.mac p).wire = (s.mac p).wire := by
  have hwire := congrArg MacRun.wire (h.mac p)
  exact hwire

/-! ## A pause frame (R336, R337) -/

/-- What a frame does to one class that it names. -/
def namedPause (p : Nat) (s : State) (x : Nat × Nat) : State := if s.inHoldoff p x.1 then s else s.pauseClass p x.1 x.2

theorem pauseClass_only (s : State) (p k q : Nat) :
    s.OnlyHolds (s.pauseClass p k q) p ∧ ∀ j, j ≠ k → (s.pauseClass p k q).holdOf p j = s.holdOf p j := by
  have hset (x : Hold) : s.OnlyHolds (s.setHold p k x) p ∧ ∀ j, j ≠ k → (s.setHold p k x).holdOf p j = s.holdOf p j :=
    ⟨(OnlyHolds.refl s p).setHold k x, fun j hj => (holdOf_setHold s p k j x).trans (if_neg hj)⟩
  unfold pauseClass
  dsimp only
  split_ifs <;> exact hset _

theorem namedPause_only (s : State) (p : Nat) (x : Nat × Nat) :
    s.OnlyHolds (namedPause p s x) p ∧ ∀ j, j ≠ x.1 → (namedPause p s x).holdOf p j = s.holdOf p j := by
  unfold namedPause
  split
  · exact ⟨OnlyHolds.refl s p, fun _ _ => rfl⟩
  · exact pauseClass_only s p x.1 x.2

/-- A pause of a class that is not in hold-off and has no frame on the wire. -/
theorem namedPause_hold {s : State} {p k q : Nat} (hoff : (s.holdOf p k).holdoff = none) (hw : ∀ w, (s.mac p).wire = some w → w.cls ≠ k) :
    (0 < s.bitTicks (512 * q) → ((namedPause p s (k, q)).holdOf p k).stop = s.clk.now + s.bitTicks (512 * q)
        ∧ ((namedPause p s (k, q)).holdOf p k).held = true)
      ∧ (q = 0 → ((namedPause p s (k, q)).holdOf p k).held = false) := by
  have hin : s.inHoldoff p k = false := by rw [inHoldoff, hoff]
  have heffect : s.holdEffect p k = s.clk.now := by
    unfold holdEffect
    split
    · rfl
    · next w hwire => rw [if_pos (by simpa using hw w hwire)]
  have hset (x : Hold) : (s.setHold p k x).holdOf p k = x := (holdOf_setHold s p k k x).trans (if_pos rfl)
  rw [namedPause, if_neg (by simp [hin])]
  unfold pauseClass
  refine ⟨fun hpos => ?_, fun h0 => ?_⟩
  · have hq : q ≠ 0 := by
      rintro rfl
      simp [bitTicks] at hpos
    dsimp only
    rw [if_neg hq]
    split
    · next hlive =>
      rw [hset]
      exact ⟨rfl, (Bool.and_eq_true_iff.mp hlive).1⟩
    · rw [heffect, if_neg (by omega), hset]
      exact ⟨rfl, rfl⟩
  · dsimp only
    rw [if_pos h0, hset]

theorem foldPause_only {s : State} {p : Nat} (l : List (Nat × Nat)) :
    s.OnlyHolds (l.foldl (namedPause p) s) p
      ∧ ∀ k, (∀ x ∈ l, x.1 ≠ k) → (l.foldl (namedPause p) s).holdOf p k = s.holdOf p k := by
  have key (l : List (Nat × Nat)) : ∀ u, s.OnlyHolds u p → s.OnlyHolds (l.foldl (namedPause p) u) p
      ∧ ∀ k, (∀ x ∈ l, x.1 ≠ k) → (l.foldl (namedPause p) u).holdOf p k = u.holdOf p k := by
    induction l with
    | nil => exact fun u hu => ⟨hu, fun _ _ => rfl⟩
    | cons x xs ih =>
      intro u hu
      obtain ⟨honly, hhold⟩ := namedPause_only u p x
      obtain ⟨honly', hhold'⟩ := ih _ (hu.trans honly)
      exact ⟨honly', fun k hk => (hhold' k fun y hy => hk y (by simp [hy])).trans (hhold k (Ne.symm (hk x (by simp))))⟩
  exact key l s (.refl s p)

/-- A frame that names class `k` once. -/
theorem foldPause_hold {s : State} {p k q : Nat} {named : List (Nat × Nat)} (hn : named.filter (fun x => x.1 = k) = [(k, q)])
    (hoff : (s.holdOf p k).holdoff = none) (hw : ∀ w, (s.mac p).wire = some w → w.cls ≠ k) :
    (0 < s.bitTicks (512 * q) → ((named.foldl (namedPause p) s).holdOf p k).stop = s.clk.now + s.bitTicks (512 * q)
        ∧ ((named.foldl (namedPause p) s).holdOf p k).held = true)
      ∧ (q = 0 → ((named.foldl (namedPause p) s).holdOf p k).held = false) := by
  obtain ⟨l, r, rfl, hl, -, hr⟩ := List.filter_eq_cons_iff.mp hn
  rw [List.foldl_append, List.foldl_cons]
  obtain ⟨honly, hhold⟩ := foldPause_only (s := s) (p := p) l
  have hclass := hhold k fun x hx => by simpa using hl x hx
  generalize l.foldl (namedPause p) s = v at honly hclass
  have hpause := namedPause_hold (s := v) (p := p) (k := k) (q := q) (by rw [hclass, hoff]) (by rw [honly.wire]; exact hw)
  have hticks : v.bitTicks (512 * q) = s.bitTicks (512 * q) := by
    rw [bitTicks, portRate, laneMode, get_congr (honly.rd _), bitTicks, portRate, laneMode]
  rw [hticks, honly.clk] at hpause
  have hrest := (foldPause_only (s := namedPause p v (k, q)) (p := p) r).2 k fun x hx => by
    simpa using List.filter_eq_nil_iff.mp hr x hx
  rw [hrest]
  exact hpause

/-- With the watchdog off nothing is broken. -/
theorem pauseBreak_off {s : State} {p : Nat} (h : s.get (Reg.MAC_PWD p) Fd.MAC_PWD.LIMIT_MS = 0) : s.pauseBreak p = s := by
  have hdue : s.dueBreaks p = [] := by
    refine List.filterMap_eq_nil_iff.mpr fun k _ => ?_
    unfold breakDue pwdDeadline
    simp [h]
  have hnone : (if s.pauseMode p = 1 then min 1 (s.dueBreaks p).length else (s.dueBreaks p).length) = 0 := by simp [hdue]
  rw [pauseBreak_eq, if_pos hnone, breakHolds, hdue]
  rfl

/-- The refusals that a frame's named classes in hold-off count. -/
def countRefused (s : State) (p : Nat) (named : List (Nat × Nat)) : State :=
  if (named.any fun x => s.inHoldoff p x.1) = true then s.macCount p 30 1 else s

theorem portCfg_ctrl {p : Nat} (hp : p < 8) : portCfg (Reg.MAC_CTRL p) := by
  simp only [portCfg, Reg.MAC_CTRL]
  omega

theorem portCfg_pwd {p : Nat} (hp : p < 8) : portCfg (Reg.MAC_PWD p) := by
  simp only [portCfg, Reg.MAC_PWD]
  omega

theorem SamePort.pauseMode {s u : State} (h : SamePort s u) {p : Nat} (hp : p < 8) : u.pauseMode p = s.pauseMode p :=
  get_congr (h.rd _ (portCfg_ctrl hp)) _

theorem SamePort.pwd {s u : State} (h : SamePort s u) {p : Nat} (hp : p < 8) (f : Fd) : u.get (Reg.MAC_PWD p) f = s.get (Reg.MAC_PWD p) f :=
  get_congr (h.rd _ (portCfg_pwd hp)) f

theorem SamePort.bitTicks {s u : State} (h : SamePort s u) (n : Nat) : u.bitTicks n = s.bitTicks n := by
  unfold State.bitTicks portRate laneMode
  rw [get_congr (h.rd (Reg.MAC_LANE_MODE 0) (by simp [portCfg, Reg.MAC_LANE_MODE]))]

theorem pauseTake_eq {s : State} {p : Nat} (hp : p < 8) {pfc : Bool} {named : List (Nat × Nat)} (hm : s.pauseMode p = if pfc then 2 else 1)
    (hl : s.get (Reg.MAC_PWD p) Fd.MAC_PWD.LIMIT_MS = 0) :
    s.pauseTake p pfc named
      = named.foldl (namedPause p) (((s.macCount p (if pfc then 6 else 5) 1).holdoffEnd p).countRefused p named) := by
  have hsame := SamePort.macCount s p (i := if pfc then 6 else 5) 1 (by split <;> decide)
  unfold pauseTake
  dsimp only
  generalize s.macCount p (if pfc then 6 else 5) 1 = v at hsame ⊢
  rw [if_neg (by rw [hsame.pauseMode hp, hm]; simp), pauseBreak_off ((hsame.pwd hp _).trans hl)]
  rfl

/-- What a pause does to class `k`: `t` is the length of the pause of `q` quanta. -/
def Pauses (s : State) (p k q now t : Nat) : Prop :=
  (0 < t → (s.holdOf p k).stop = now + t ∧ (s.holdOf p k).held = true) ∧ (q = 0 → (s.holdOf p k).held = false)

theorem pauseTake_spec {s : State} {p : Nat} (hp : p < 8) {pfc : Bool} {k q : Nat} (hk : k < 8) {named : List (Nat × Nat)}
    (hm : s.pauseMode p = if pfc then 2 else 1) (hl : s.get (Reg.MAC_PWD p) Fd.MAC_PWD.LIMIT_MS = 0)
    (hn : named.filter (fun x => x.1 = k) = [(k, q)]) (hoff : (s.holdOf p k).holdoff = none)
    (hw : ∀ w, (s.mac p).wire = some w → w.cls ≠ k) :
    ∃ u, s.pauseTake p pfc named = u ∧ u.clk = s.clk ∧ u.pending = s.pending ∧ u.Pauses p k q s.clk.now (s.bitTicks (512 * q)) := by
  have heq := pauseTake_eq hp hm hl (named := named)
  have hsame := SamePort.macCount s p (i := if pfc then 6 else 5) 1 (by split <;> decide)
  generalize s.macCount p (if pfc then 6 else 5) 1 = v at heq hsame
  obtain ⟨honly, hhold⟩ := v.holdoffEnd_spec p
  have hclass := hhold k hk
  generalize v.holdoffEnd p = x at heq honly hclass
  have hrefused : SamePort x (x.countRefused p named) := SamePort.ite _ (SamePort.macCount x p 1 (by decide)) (.refl x)
  generalize x.countRefused p named = y at heq hrefused
  have hpause := foldPause_hold (s := y) hn (by rw [hrefused.holdOf, hclass, hsame.holdOf, hoff]; rfl)
    (by rw [hrefused.wire, honly.wire, hsame.wire]; exact hw)
  have hfold := (foldPause_only (s := y) (p := p) named).1
  generalize named.foldl (namedPause p) y = u at heq hpause hfold
  have hticks : y.bitTicks (512 * q) = s.bitTicks (512 * q) := by
    rw [hrefused.bitTicks, bitTicks, portRate, laneMode, get_congr (honly.rd _)]
    exact hsame.bitTicks _
  have hclk : y.clk = s.clk := hrefused.clk.trans (honly.clk.trans hsame.clk)
  rw [hticks, hclk] at hpause
  exact ⟨u, heq, hfold.clk.trans hclk, hfold.pending.trans (hrefused.pending.trans (honly.pending.trans hsame.pending)), hpause⟩

theorem pauseReceive_eq {s : State} {p : Nat} (hp : p < 8) {f : RxFrame} {pfc : Bool} {named : List (Nat × Nat)} (ha : s.Accepts p f)
    (hroom : s.ingressUsed + (f.bytes.length + 4) ≤ s.ingressCap) (hcls : classOf f.bytes = .macctl pfc named) :
    s.pauseReceive p f = (((s.accepted p f).stored p f.bytes).pauseTake p pfc named).noteMem 0 := by
  obtain ⟨hused, hcap⟩ := ingress_congr (s.accepted_onlyMem hp f)
  unfold pauseReceive
  rw [hcls]
  dsimp only
  rw [receive_accepts hp _ ha, storeFrame_room (by rw [hused, hcap]; exact hroom)]
  dsimp only
  unfold arrive classify
  rw [hcls]
  simp

/-- A pause frame that the port accepts. -/
theorem pauseReceive_spec {s : State} {p : Nat} (hp : p < 8) {f : RxFrame} {pfc : Bool} {k q : Nat} (hk : k < 8) {named : List (Nat × Nat)}
    (ha : s.Accepts p f) (hroom : s.ingressUsed + (f.bytes.length + 4) ≤ s.ingressCap) (hcls : classOf f.bytes = .macctl pfc named)
    (hm : s.pauseMode p = if pfc then 2 else 1) (hl : s.get (Reg.MAC_PWD p) Fd.MAC_PWD.LIMIT_MS = 0)
    (hn : named.filter (fun x => x.1 = k) = [(k, q)]) (hoff : (s.holdOf p k).holdoff = none)
    (hw : ∀ w, (s.mac p).wire = some w → w.cls ≠ k) :
    ∃ u, s.pauseReceive p f = u ∧ u.clk = s.clk ∧ u.pending = s.pending ∧ u.Pauses p k q s.clk.now (s.bitTicks (512 * q)) := by
  have heq := pauseReceive_eq hp ha hroom hcls
  have hsame := (SamePort.accepted s p f).trans (SamePort.stored _ p f.bytes)
  generalize (s.accepted p f).stored p f.bytes = v at heq hsame
  obtain ⟨w, hwtake, hwclk, hwpend, hpauses⟩ := pauseTake_spec (s := v) hp hk (pfc := pfc) (q := q) ((hsame.pauseMode hp).trans hm) ((hsame.pwd hp _).trans hl)
    hn (by rw [hsame.holdOf, hoff]) (by rw [hsame.wire]; exact hw)
  rw [hwtake] at heq
  have hmem := SamePort.noteMem w 0
  generalize w.noteMem 0 = u at heq hmem
  refine ⟨u, heq, hmem.clk.trans (hwclk.trans hsame.clk), hmem.pending.trans (hwpend.trans hsame.pending), ?_⟩
  unfold Pauses at hpauses ⊢
  rwa [hmem.holdOf, ← hsame.bitTicks, ← hsame.clk]

end State

/-- Settles O35: a pass over the classes changes each class's hold by itself, and reception leaves holds alone. -/
theorem pause : Obligations.Pause := by
  unfold Obligations.Pause
  intro s t port hup p now onlyHolds
  refine ⟨fun f pfc named k q ha hroom hcls hk hm hn hl hoff hw => ?_, ?_, ?_, ?_, fun h => ?_, fun hon hx hr => ?_⟩
  · obtain ⟨u, hu, hclk, hpend, hlen, hrel⟩ := State.pauseReceive_spec (s := s.atTick t) port.isLt hk ha hroom hcls hm hl hn hoff hw
    exact ⟨u, State.act_of_eq (fun s => s.pauseReceive port.toNat f) hup hu hclk hpend, hlen, hrel⟩
  · obtain ⟨honly, hhold⟩ := (s.atTick t).holdEnd_spec port.toNat
    exact ⟨_, State.act_of_eq (fun s => s.holdEnd port.toNat) hup rfl honly.clk honly.pending, honly, hhold⟩
  · obtain ⟨honly, hhold⟩ := (s.atTick t).holdoffEnd_spec port.toNat
    exact ⟨_, State.act_of_eq (fun s => s.holdoffEnd port.toNat) hup rfl honly.clk honly.pending, honly, hhold⟩
  · obtain ⟨u, hu, hclk, hpend, hdue, hrest⟩ := (s.atTick t).pauseBreak_spec port.toNat
    exact ⟨u, State.act_of_eq (fun s => s.pauseBreak port.toNat) hup hu hclk hpend, hdue, hrest⟩
  · exact State.act_of_eq (fun s => s.fcRepeat port.toNat) hup (State.fcRepeat_not (s := s.atTick t) h) rfl rfl
  · obtain ⟨u, hu, hclk, hpend, hmac, hsends⟩ := State.fcRepeat_spec (s := s.atTick t) hon hx hr
    exact ⟨u, State.act_of_eq (fun s => s.fcRepeat port.toNat) hup hu hclk hpend, hmac, hsends⟩

end Sys2Proof.Machine
end

section
/-! PROOFS. Link state: a port comes up or falls, its pair fails over, and a pair reverts (R330, R341 to R343). -/

namespace Sys2Proof.Machine

/-- Bit 0 of an even number. -/
theorem Word.bitsOf_even (n : Nat) : bitsOf (Word.of (n * 2)) 0 0 = 0 := by
  simp only [bitsOf, Word.of, BitVec.toNat_ofNat]
  omega

namespace State

/-! ## What goes on around a port -/

/-- `u` is `s` for a reader of clock, pairs, ports (but their trains) and of the registers other than those of `r`; latches stay. -/
structure Carries (s u : State) (r : List Nat) : Prop where
  clk : u.clk = s.clk
  pending : u.pending = s.pending
  pairs : u.nw.pairs = s.nw.pairs
  mac : ∀ q, { u.mac q with classes := (s.mac q).classes } = s.mac q
  rd : ∀ a, a ∉ r → evtReg a = false → u.rd a = s.rd a
  latched : ∀ p b, s.Latched p b → u.Latched p b

section
variable {s u v : State} {r : List Nat}

theorem Carries.refl (s : State) (r : List Nat) : Carries s s r := ⟨rfl, rfl, rfl, fun _ => rfl, fun _ _ _ => rfl, fun _ _ h => h⟩

theorem Carries.trans (h : Carries s u r) (h' : Carries u v r) : Carries s v r :=
  ⟨h'.clk.trans h.clk, h'.pending.trans h.pending, h'.pairs.trans h.pairs, fun q => by rw [← h.mac q, ← h'.mac q],
    fun a ha he => (h'.rd a ha he).trans (h.rd a ha he), fun p b hl => h'.latched p b (h.latched p b hl)⟩

theorem Carries.mono {r' : List Nat} (h : Carries s u r) (hr : ∀ a ∈ r, a ∈ r') : Carries s u r' :=
  ⟨h.clk, h.pending, h.pairs, h.mac, fun a ha => h.rd a fun hm => ha (hr a hm), h.latched⟩

theorem Carries.ofEvents (h : s.OnlyEvents u r) (hl : ∀ p b, s.Latched p b → u.Latched p b) : Carries s u r :=
  ⟨h.clk, h.pending, by rw [h.nw], fun q => by rw [State.mac, h.nw, State.mac], h.2, hl⟩

theorem Carries.ofLinks (h : SameLinks s u) : Carries s u r :=
  ⟨h.clk, h.pending, h.pairs, h.mac, fun a _ _ => h.rd a, fun _ _ hl => h.latched hl⟩

theorem Carries.wr (h : Carries s u r) {a : Nat} (w : Word) (ha : a ∈ r) (hl : ∀ p, Reg.EVT_LATCH p ≠ a) : Carries s (u.wr a w) r :=
  h.trans (Carries.ofEvents (OnlyEvents.same.wr w ha) fun p _ hp => hp.wr w (hl p))

theorem Carries.event (h : Carries s u r) (page b : Nat) (hb : b < 32) : Carries s (u.event page b) r :=
  h.trans ((Carries.ofEvents (event_onlyEvents u page b) fun p b' hp => event_keeps u page b p b' hb hp).mono (by simp))

theorem Carries.eventIf (h : Carries s u r) (c : Bool) (page b : Nat) (hb : b < 32) : Carries s (u.eventIf c page b) r := by
  unfold State.eventIf
  split
  · exact h.event page b hb
  · exact h

theorem Carries.emit (h : Carries s u r) (o : Output) : Carries s (u.emit o) r :=
  h.trans ((Carries.ofEvents (emit_onlyEvents u o) fun p b hp => hp.of_rd rfl).mono (by simp))

theorem Carries.relCheck (h : Carries s u r) : Carries s u.relCheck r := by
  have hcheck := relCheck_only u
  have hlatch (p b : Nat) (hl : u.Latched p b) := relCheck_keeps u hl
  refine h.trans ?_
  generalize u.relCheck = w at hcheck hlatch
  exact ⟨hcheck.clk, hcheck.pending, by rw [hcheck.nw], fun q => by rw [State.mac, hcheck.nw, State.mac], fun a _ he => hcheck.2 a (by simp) he,
    hlatch⟩

theorem Carries.recordFault (h : Carries s u r) (cls cluster index detect : Nat) (inj : Bool)
    (hr : ∀ a ∈ [Reg.REL_FAULT_CNT cls, Reg.REL_LAST_FAULT, Reg.REL_LAST_BEAT], a ∈ r) (hcls : ∀ p, Reg.EVT_LATCH p ≠ Reg.REL_FAULT_CNT cls) :
    Carries s (u.recordFault cls cluster index detect inj) r := by
  have hfault := recordFault_only u cls cluster index detect inj
  have hlatch (p b : Nat) (hl : u.Latched p b) := recordFault_keeps cls cluster index detect inj (hcls p) hl
  refine h.trans ?_
  generalize u.recordFault cls cluster index detect inj = w at hfault hlatch
  exact ⟨hfault.clk, hfault.pending, by rw [hfault.nw], fun q => by rw [State.mac, hfault.nw, State.mac],
    fun a ha he => hfault.2 a (fun hm => ha (hr a hm)) he, hlatch⟩

theorem Carries.macCount (h : Carries s u r) {p i : Nat} (n : Nat) (hi : i < 32) (hcnt : Reg.MAC_CNT p i ∈ r) (hnotice : Reg.MAC_CNT_NOTICE p ∈ r) :
    Carries s (u.macCount p i n) r := by
  have hnotCnt (q : Nat) : Reg.EVT_LATCH q ≠ Reg.MAC_CNT p i := by unfold Reg.EVT_LATCH Reg.MAC_CNT; omega
  have hnotNotice (q : Nat) : Reg.EVT_LATCH q ≠ Reg.MAC_CNT_NOTICE p := by unfold Reg.EVT_LATCH Reg.MAC_CNT_NOTICE; omega
  unfold State.macCount
  dsimp only
  split
  · exact h
  · have hcount := h.wr (Word.of ((u.rd (Reg.MAC_CNT p i)).toNat + n)) hcnt hnotCnt
    generalize u.wr (Reg.MAC_CNT p i) (Word.of ((u.rd (Reg.MAC_CNT p i)).toNat + n)) = w at hcount ⊢
    split
    · have hrecent (l : Recent) : Carries w { w with recent := l } r := ⟨rfl, rfl, rfl, fun _ => rfl, fun _ _ _ => rfl, fun _ _ hl => hl.of_rd rfl⟩
      exact ((hcount.trans (hrecent _)).wr _ hnotice hnotNotice).eventIf _ _ _ (by decide)
    · exact hcount

theorem Carries.hostDone (h : Carries s u r) (f : HostFrame) (st : Status) (ts : Nat) : Carries s (u.hostDone f st ts) r := by
  refine h.trans ?_
  unfold State.hostDone
  dsimp only
  split
  · exact ⟨rfl, rfl, rfl, fun _ => rfl, fun _ _ _ => rfl, fun _ _ hl => hl.of_rd rfl⟩
  · exact .refl u r

end

theorem latch_ne {a : Nat} (h : a % 0x1000 ≠ 0x10) (p : Nat) : Reg.EVT_LATCH p ≠ a := by
  unfold Reg.EVT_LATCH
  omega

theorem Carries.startVerify {s u : State} {r : List Nat} (h : Carries s u r) {p : Nat} (hp : Reg.MAC_PREEMPT_ST p ∈ r) :
    Carries s (u.startVerify p) r := by
  have hlatch := latch_ne (a := Reg.MAC_PREEMPT_ST p) (by simp only [Reg.MAC_PREEMPT_ST]; omega)
  exact (h.wr _ hp hlatch).wr _ hp hlatch

theorem Carries.pair {s u : State} {r : List Nat} (h : Carries s u r) (k : Nat) : u.pair k = s.pair k := by
  unfold State.pair
  rw [h.pairs]

/-- A pair's new active member: its running state, and what goes on around it. -/
theorem pairMove_spec (s : State) (k p : Nat) (down : Bool) :
    Carries (s.setPair k { active := p, down := down }) (s.pairMove k p down) []
      ∧ (s.pairMove k p down).pair k = { active := p, down := down } := by
  have hlinks := pairMove_sameLinks s k p down
  exact ⟨.ofLinks hlinks, (hlinks.pair k).trans ((pair_setPair s k k _).trans (if_pos rfl))⟩

/-! ## A link rises (R330) -/

/-- The conditions of a link that has come up. -/
def raised (s : State) (p : Nat) : State :=
  (((((s.wr (Reg.MAC_LINK p) 0).putB (Reg.MAC_LINK p) Fd.MAC_LINK.LINK_UP true).putB (Reg.MAC_LINK p) Fd.MAC_LINK.SIGNAL true).putB
    (Reg.MAC_LINK p) Fd.MAC_LINK.BLOCK_LOCK true)).putB (Reg.MAC_LINK p) Fd.MAC_LINK.FEC_LOCK (s.get (Reg.MAC_CTRL p) Fd.MAC_CTRL.FEC = 2)

theorem raised_onlyRegs (s : State) (p : Nat) : s.OnlyRegs (s.raised p) [Reg.MAC_LINK p] :=
  ((((OnlyRegs.same.wr _ (by simp)).putB _ _ (by simp)).putB _ _ (by simp)).putB _ _ (by simp)).putB _ _ (by simp)

theorem flag_putB_other (s : State) (a : Nat) (f g : Fd) (b : Bool) (h : f.lo ≤ f.hi) (h2 : f.hi < 32) (h3 : f.hi < g.lo ∨ g.hi < f.lo)
    (h4 : g.lo ≤ g.hi) : (s.putB a f b).flag a g = s.flag a g := by
  unfold flag putB
  rw [get_put_other _ _ _ _ _ h h2 h3 h4]

theorem raised_flags (s : State) (p : Nat) : (s.raised p).flag (Reg.MAC_LINK p) Fd.MAC_LINK.LINK_UP = true
    ∧ (s.raised p).flag (Reg.MAC_LINK p) Fd.MAC_LINK.SIGNAL = true ∧ (s.raised p).flag (Reg.MAC_LINK p) Fd.MAC_LINK.BLOCK_LOCK = true := by
  unfold raised
  refine ⟨?_, ?_, ?_⟩
  · rw [flag_putB_other _ _ _ _ _ (by decide) (by decide) (by decide) (by decide), flag_putB_other _ _ _ _ _ (by decide) (by decide) (by decide) (by decide),
      flag_putB_other _ _ _ _ _ (by decide) (by decide) (by decide) (by decide), flag_putB_same _ _ _ _ rfl (by decide)]
  · rw [flag_putB_other _ _ _ _ _ (by decide) (by decide) (by decide) (by decide), flag_putB_other _ _ _ _ _ (by decide) (by decide) (by decide) (by decide),
      flag_putB_same _ _ _ _ rfl (by decide)]
  · rw [flag_putB_other _ _ _ _ _ (by decide) (by decide) (by decide) (by decide), flag_putB_same _ _ _ _ rfl (by decide)]

/-- A pair that was down becomes active by its member `p`. -/
def rejoin (s : State) (p : Nat) : State :=
  match s.pairOf p with
  | some k => if (s.pair k).down then s.pairMove k p false else s
  | none => s

/-- A port that has come up, before its pair and the tolerance bits follow. -/
def broughtUp (s : State) (p : Nat) : State :=
  (((s.raised p).setMac p { (s.raised p).mac p with upSince := (s.raised p).clk.now }).event (Pg.MAC p) Ev.MAC.LINK_CHANGE).startVerify p

theorem linkUp_eq {s : State} {p : Nat} (hprov : s.provided p = true) (hl : s.linkIsUp p = false) :
    s.linkUp p = ((s.broughtUp p).rejoin p).relCheck := if_neg (by simp [hprov, hl])

theorem evtReg_link (p : Nat) (hp : p < 8) : evtReg (Reg.MAC_LINK p) = false := by
  interval_cases p <;> decide

theorem broughtUp_spec (s : State) {p : Nat} (hp : p < 8) :
    ∃ u, s.broughtUp p = u ∧ u.clk = s.clk ∧ u.pending = s.pending ∧ u.rd (Reg.MAC_LINK p) = (s.raised p).rd (Reg.MAC_LINK p)
      ∧ (u.mac p).upSince = s.clk.now ∧ u.Latched (Pg.MAC p) Ev.MAC.LINK_CHANGE ∧ u.nw.pairs = s.nw.pairs
      ∧ ∀ k, k < 4 → u.rd (Reg.LPAIR_PAIR k) = s.rd (Reg.LPAIR_PAIR k) := by
  unfold broughtUp
  obtain ⟨hregs, hrd⟩ := s.raised_onlyRegs p
  generalize s.raised p = v at hregs hrd ⊢
  have hclk := congrArg State.clk hregs
  have hpend := congrArg State.pending hregs
  have hnw := congrArg State.nw hregs
  have hv : v.nw = s.nw := hnw
  have hset := v.mac_setMac p p { v.mac p with upSince := v.clk.now }
  have hsetRd := v.rd_setMac p { v.mac p with upSince := v.clk.now }
  have hsetClk : (v.setMac p { v.mac p with upSince := v.clk.now }).clk = v.clk := rfl
  have hsetPend : (v.setMac p { v.mac p with upSince := v.clk.now }).pending = v.pending := rfl
  have hsetPairs : (v.setMac p { v.mac p with upSince := v.clk.now }).nw.pairs = v.nw.pairs := rfl
  generalize v.setMac p { v.mac p with upSince := v.clk.now } = w at hset hsetRd hsetClk hsetPend hsetPairs ⊢
  have hlatch := event_latched w (Pg.MAC p) Ev.MAC.LINK_CHANGE (by decide)
  have hevent := (Carries.refl w [Reg.MAC_PREEMPT_ST p]).event (Pg.MAC p) Ev.MAC.LINK_CHANGE (by decide)
  generalize w.event (Pg.MAC p) Ev.MAC.LINK_CHANGE = x at hlatch hevent ⊢
  have hstart := (Carries.refl x [Reg.MAC_PREEMPT_ST p]).startVerify (p := p) (by simp)
  have hall := hevent.trans hstart
  have hkeep := hstart.latched _ _ hlatch
  generalize x.startVerify p = u at hall hkeep ⊢
  have hup := congrArg MacRun.upSince (hall.mac p)
  have hup' : (u.mac p).upSince = (w.mac p).upSince := hup
  refine ⟨u, rfl, hall.clk.trans (hsetClk.trans hclk), hall.pending.trans (hsetPend.trans hpend), ?_, ?_, hkeep, ?_, fun k hk => ?_⟩
  · rw [hall.rd _ (by simp only [List.mem_singleton, Reg.MAC_LINK, Reg.MAC_PREEMPT_ST]; omega) (evtReg_link p hp), hsetRd]
  · rw [hup', hset, if_pos rfl]
    exact congrArg Clk.now hclk
  · rw [hall.pairs, hsetPairs, hv]
  · rw [hall.rd _ (by simp only [List.mem_singleton, Reg.LPAIR_PAIR, Reg.MAC_PREEMPT_ST]; omega) (evtReg_pair hk), hsetRd,
      hrd _ (by simp only [List.mem_singleton, Reg.LPAIR_PAIR, Reg.MAC_LINK]; omega)]

/-- The pair that a port belongs to depends on the pairs' registers. -/
theorem pairOf_congr {s u : State} (h : ∀ k, k < 4 → u.rd (Reg.LPAIR_PAIR k) = s.rd (Reg.LPAIR_PAIR k)) (p : Nat) : u.pairOf p = s.pairOf p := by
  have hpred : ∀ k ∈ allPairs, (u.pairEn k && (decide (u.primary k = p) || decide (u.secondary k = p)))
      = (s.pairEn k && (decide (s.primary k = p) || decide (s.secondary k = p))) := by
    intro k hk
    have hk4 : k < 4 := by
      simp only [allPairs, List.mem_cons, List.not_mem_nil, or_false] at hk
      omega
    simp only [pairEn, flag, primary, secondary, get_congr (h k hk4)]
    rfl
  unfold pairOf allPairs at *
  simp only [List.find?_cons, List.find?_nil, hpred 0 (by simp), hpred 1 (by simp), hpred 2 (by simp), hpred 3 (by simp)]

theorem pairOf_lt {s : State} {p k : Nat} (h : s.pairOf p = some k) : k < 4 := by
  have hk := List.mem_of_find?_eq_some h
  simp only [allPairs, List.mem_cons, List.not_mem_nil, or_false] at hk
  omega

/-- What the pair of a port that came up does. -/
theorem rejoin_spec (s : State) (p : Nat) : ∃ u, s.rejoin p = u ∧ u.clk = s.clk ∧ u.pending = s.pending
    ∧ (∀ a, evtReg a = false → u.rd a = s.rd a) ∧ (u.mac p).upSince = (s.mac p).upSince ∧ (∀ q b, s.Latched q b → u.Latched q b)
    ∧ ∀ k, s.pairOf p = some k → u.pair k = if (s.pair k).down then { active := p, down := false } else s.pair k := by
  unfold rejoin
  cases hp : s.pairOf p with
  | none => exact ⟨s, rfl, rfl, rfl, fun _ _ => rfl, rfl, fun _ _ h => h, fun k hk => by simp at hk⟩
  | some k =>
    by_cases hd : (s.pair k).down = true
    · obtain ⟨hcarry, hpair⟩ := s.pairMove_spec k p false
      dsimp only
      rw [if_pos hd]
      generalize s.pairMove k p false = u at hcarry hpair ⊢
      have hup := congrArg MacRun.upSince (hcarry.mac p)
      refine ⟨u, rfl, hcarry.clk, hcarry.pending, fun a he => hcarry.rd a (by simp) he, hup, fun q b hl => hcarry.latched q b (hl.of_rd rfl), fun j hj => ?_⟩
      obtain rfl := Option.some.inj hj
      rw [if_pos hd, hpair]
    · exact ⟨s, if_neg hd, rfl, rfl, fun _ _ => rfl, rfl, fun _ _ h => h, fun j hj => by
        obtain rfl := Option.some.inj hj
        rw [if_neg hd]⟩

theorem linkUp_spec {s : State} {p : Nat} (hp : p < 8) (hprov : s.provided p = true) (hl : s.linkIsUp p = false) :
    ∃ u, s.linkUp p = u ∧ u.clk = s.clk ∧ u.pending = s.pending ∧ u.rd (Reg.MAC_LINK p) = (s.raised p).rd (Reg.MAC_LINK p)
      ∧ (u.mac p).upSince = s.clk.now ∧ u.Latched (Pg.MAC p) Ev.MAC.LINK_CHANGE
      ∧ ∀ k, s.pairOf p = some k → u.pair k = if (s.pair k).down then { active := p, down := false } else s.pair k := by
  have heq := linkUp_eq hprov hl
  obtain ⟨v, hv, hvclk, hvpend, hvrd, hvup, hvlatch, hvpairs, hvregs⟩ := s.broughtUp_spec hp
  rw [hv] at heq
  obtain ⟨w, hw, hwclk, hwpend, hwrd, hwup, hwlatch, hwpair⟩ := v.rejoin_spec p
  rw [hw] at heq
  have hcheck := (Carries.refl w []).relCheck
  generalize w.relCheck = u at heq hcheck
  have hup := congrArg MacRun.upSince (hcheck.mac p)
  have hup' : (u.mac p).upSince = (w.mac p).upSince := hup
  have hpair (k : Nat) : v.pair k = s.pair k := by unfold State.pair; rw [hvpairs]
  refine ⟨u, heq, hcheck.clk.trans (hwclk.trans hvclk), hcheck.pending.trans (hwpend.trans hvpend), ?_, hup'.trans (hwup.trans hvup),
    hcheck.latched _ _ (hwlatch _ _ hvlatch), fun k hk => ?_⟩
  · rw [hcheck.rd _ (by simp) (evtReg_link p hp), hwrd _ (evtReg_link p hp), hvrd]
  · rw [hcheck.pair, hwpair k ((pairOf_congr hvregs p).trans hk), hpair]

/-! ## A link falls (R330, R342) -/

/-- The counters of a port that a lost frame and a lost link count in. -/
def lossRegs (p : Nat) : List Nat := [Reg.MAC_CNT p 29, Reg.MAC_CNT p 31, Reg.MAC_CNT_NOTICE p, Reg.MAC_PREEMPT_ST p]

/-- Nothing of a port is on the wire. -/
def clearWire (s : State) (p : Nat) : State := s.setMac p { s.mac p with wire := none, parked := none }

theorem Carries.loseFrame {s u : State} {r : List Nat} (h : Carries s u r) {p : Nat} (w : WireFrame) (sent : Nat)
    (hcnt : Reg.MAC_CNT p 29 ∈ r) (hnotice : Reg.MAC_CNT_NOTICE p ∈ r) : Carries s (u.loseFrame p w sent) r := by
  have hlost := (h.macCount (p := p) (i := 29) 1 (by decide) hcnt hnotice).emit (.cutOff p sent)
  unfold State.loseFrame
  dsimp only
  split
  · exact hlost.hostDone _ _ _
  · exact hlost

/-- What a port had begun is lost; only its counters follow. -/
theorem loseWire_carries (s : State) (p : Nat) : Carries (s.clearWire p) (s.loseWire p).1 [Reg.MAC_CNT p 29, Reg.MAC_CNT_NOTICE p] := by
  have hrefl := Carries.refl (s.clearWire p) [Reg.MAC_CNT p 29, Reg.MAC_CNT_NOTICE p]
  unfold loseWire
  dsimp only
  change Carries (s.clearWire p) _ _
  have hwire : Carries (s.clearWire p) (match (s.mac p).wire with
      | some w => (s.clearWire p).loseFrame p w (w.sent + (s.clearWire p).fragSent w)
      | none => s.clearWire p) [Reg.MAC_CNT p 29, Reg.MAC_CNT_NOTICE p] := by
    split
    · exact hrefl.loseFrame _ _ (by simp) (by simp)
    · exact hrefl
  split
  · exact Carries.loseFrame hwire _ _ (by simp) (by simp)
  · exact hwire

/-- A counter of a port after it has counted. -/
theorem macCount_rd_self (s : State) (p : Nat) {i n : Nat} (hi : i < 32) (hn : n ≠ 0) :
    (s.macCount p i n).rd (Reg.MAC_CNT p i) = Word.of ((s.rd (Reg.MAC_CNT p i)).toNat + n) := by
  have hne : Reg.MAC_CNT p i ≠ Reg.MAC_CNT_NOTICE p := by simp only [Reg.MAC_CNT, Reg.MAC_CNT_NOTICE]; omega
  have hevt : evtReg (Reg.MAC_CNT p i) = false := by
    simp only [evtReg, Bool.or_eq_false_iff, decide_eq_false_iff_not, Reg.MAC_CNT, Reg.LOG_LOST_CNT, Reg.MGMT_NET_DROP]
    refine ⟨⟨?_, ?_⟩, ?_⟩ <;> omega
  unfold macCount
  rw [if_neg hn]
  dsimp only
  split
  · rw [(eventIf_onlyEvents _ _ _ _).2 _ (by simp) hevt, rd_wr_ne _ _ hne]
    exact rd_wr_same s _ _
  · exact rd_wr_same s _ _

theorem clearWire_spec (s : State) (p : Nat) : (s.clearWire p).clk = s.clk ∧ (s.clearWire p).pending = s.pending
    ∧ (∀ a, (s.clearWire p).rd a = s.rd a) ∧ (s.clearWire p).nw.pairs = s.nw.pairs
    ∧ ((s.clearWire p).mac p).wire = none ∧ ((s.clearWire p).mac p).parked = none := by
  have hset := s.mac_setMac p p { s.mac p with wire := none, parked := none }
  rw [if_pos rfl] at hset
  refine ⟨rfl, rfl, fun _ => rfl, rfl, ?_, ?_⟩
  · exact congrArg MacRun.wire hset
  · exact congrArg MacRun.parked hset

/-- A port whose link has fallen, before its pair and the tolerance bits follow. -/
def fallen (s : State) (p cond : Nat) : State :=
  ((((s.wr (Reg.MAC_LINK p) (Word.of (cond % 32 * 2))).loseWire p).1.macCount p 31 1).event (Pg.MAC p) Ev.MAC.LINK_CHANGE).startVerify p

/-- A port is out of service: the frames on it are lost, its counter has counted, and its link's registers hold `w`. -/
structure OutOfService (s u : State) (p : Nat) : Prop where
  clk : u.clk = s.clk
  pending : u.pending = s.pending
  wire : (u.mac p).wire = none
  parked : (u.mac p).parked = none
  latched : u.Latched (Pg.MAC p) Ev.MAC.LINK_CHANGE
  count : u.rd (Reg.MAC_CNT p 31) = Word.of ((s.rd (Reg.MAC_CNT p 31)).toNat + 1)

theorem not_mem_lossRegs_link (p q : Nat) : Reg.MAC_LINK q ∉ lossRegs p := by
  simp only [lossRegs, List.mem_cons, List.not_mem_nil, or_false, Reg.MAC_LINK, Reg.MAC_CNT, Reg.MAC_CNT_NOTICE, Reg.MAC_PREEMPT_ST]
  omega

theorem not_mem_lossRegs_pair (p : Nat) {k : Nat} (hk : k < 4) : Reg.LPAIR_PAIR k ∉ lossRegs p := by
  simp only [lossRegs, List.mem_cons, List.not_mem_nil, or_false, Reg.LPAIR_PAIR, Reg.MAC_CNT, Reg.MAC_CNT_NOTICE, Reg.MAC_PREEMPT_ST]
  omega

theorem evtReg_cnt31 {p : Nat} (hp : p < 8) : evtReg (Reg.MAC_CNT p 31) = false := by
  interval_cases p <;> decide

theorem fallen_spec (s : State) {p : Nat} (hp : p < 8) (cond : Nat) :
    ∃ u, s.fallen p cond = u ∧ OutOfService s u p ∧ u.rd (Reg.MAC_LINK p) = Word.of (cond % 32 * 2) ∧ u.nw.pairs = s.nw.pairs
      ∧ (∀ k, k < 4 → u.rd (Reg.LPAIR_PAIR k) = s.rd (Reg.LPAIR_PAIR k))
      ∧ ∀ q, q < 8 → q ≠ p → u.rd (Reg.MAC_LINK q) = s.rd (Reg.MAC_LINK q) := by
  unfold fallen
  obtain ⟨hregs, hrd⟩ : s.OnlyRegs (s.wr (Reg.MAC_LINK p) (Word.of (cond % 32 * 2))) [Reg.MAC_LINK p] := OnlyRegs.same.wr _ (by simp)
  have hlink : (s.wr (Reg.MAC_LINK p) (Word.of (cond % 32 * 2))).rd (Reg.MAC_LINK p) = Word.of (cond % 32 * 2) := rd_wr_same _ _ _
  generalize s.wr (Reg.MAC_LINK p) (Word.of (cond % 32 * 2)) = v at hregs hrd hlink ⊢
  have hclk := congrArg State.clk hregs
  have hpend := congrArg State.pending hregs
  have hnw := congrArg State.nw hregs
  have hv : v.nw = s.nw := hnw
  obtain ⟨hcClk, hcPend, hcRd, hcPairs, hcWire, hcParked⟩ := v.clearWire_spec p
  have hlose := v.loseWire_carries p
  generalize v.clearWire p = c at hcClk hcPend hcRd hcPairs hcWire hcParked hlose
  generalize (v.loseWire p).1 = l at hlose ⊢
  have hcnt31 : Reg.MAC_CNT p 31 ∉ [Reg.MAC_CNT p 29, Reg.MAC_CNT_NOTICE p] := by
    simp only [List.mem_cons, List.not_mem_nil, or_false, Reg.MAC_CNT, Reg.MAC_CNT_NOTICE]
    omega
  have hcount : (l.macCount p 31 1).rd (Reg.MAC_CNT p 31) = Word.of ((s.rd (Reg.MAC_CNT p 31)).toNat + 1) := by
    rw [l.macCount_rd_self p (by decide) (by decide), hlose.rd _ hcnt31 (evtReg_cnt31 hp), hcRd, hrd _ (by simp only [List.mem_singleton, Reg.MAC_CNT, Reg.MAC_LINK]; omega)]
  have hcounted := (hlose.mono (r' := lossRegs p) (by simp [lossRegs])).macCount (p := p) (i := 31) 1 (by decide) (by simp [lossRegs])
    (by simp [lossRegs])
  generalize l.macCount p 31 1 = m at hcount hcounted ⊢
  have hlatch := event_latched m (Pg.MAC p) Ev.MAC.LINK_CHANGE (by decide)
  have hevent := (Carries.refl m [Reg.MAC_PREEMPT_ST p]).event (Pg.MAC p) Ev.MAC.LINK_CHANGE (by decide)
  generalize m.event (Pg.MAC p) Ev.MAC.LINK_CHANGE = e at hlatch hevent ⊢
  have hstart := (Carries.refl e [Reg.MAC_PREEMPT_ST p]).startVerify (p := p) (by simp)
  have hkeep := hstart.latched _ _ hlatch
  have hafter := hevent.trans hstart
  generalize e.startVerify p = u at hafter hkeep ⊢
  have hall := hcounted.trans (hafter.mono (r' := lossRegs p) (by simp [lossRegs]))
  have hwire := congrArg MacRun.wire (hall.mac p)
  have hparked := congrArg MacRun.parked (hall.mac p)
  have hwire' : (u.mac p).wire = (c.mac p).wire := hwire
  have hparked' : (u.mac p).parked = (c.mac p).parked := hparked
  refine ⟨u, rfl, ⟨hall.clk.trans (hcClk.trans hclk), hall.pending.trans (hcPend.trans hpend), hwire'.trans hcWire, hparked'.trans hcParked,
    hkeep, ?_⟩, ?_, by rw [hall.pairs, hcPairs, hv], fun k hk => ?_, fun q hq hne => ?_⟩
  · rw [hafter.rd _ (by simp only [List.mem_singleton, Reg.MAC_CNT, Reg.MAC_PREEMPT_ST]; omega) (evtReg_cnt31 hp), hcount]
  · rw [hall.rd _ (not_mem_lossRegs_link p p) (evtReg_link p hp), hcRd, hlink]
  · rw [hall.rd _ (not_mem_lossRegs_pair p hk) (evtReg_pair hk), hcRd, hrd _ (by simp only [List.mem_singleton, Reg.LPAIR_PAIR, Reg.MAC_LINK]; omega)]
  · rw [hall.rd _ (not_mem_lossRegs_link p q) (evtReg_link q hq), hcRd, hrd _ (by simp only [List.mem_singleton, Reg.MAC_LINK]; omega)]

/-! ## A pair that loses its active member (R342, R343) -/

theorem Carries.setPair {s u : State} {r : List Nat} (h : Carries s u r) (k : Nat) (x : PairRun) : Carries (s.setPair k x) (u.setPair k x) r :=
  ⟨h.clk, h.pending, congrArg (fun l : List PairRun => putAt PairRun.fresh l k x) h.pairs, h.mac, h.rd, fun p b hl => (h.latched p b (hl.of_rd rfl)).of_rd rfl⟩

/-- The registers of a fault of class 10 and of the pairs' counts. -/
def pairLossRegs (k : Nat) : List Nat :=
  [Reg.REL_FAULT_CNT 10, Reg.REL_LAST_FAULT, Reg.REL_LAST_BEAT, Reg.LPAIR_LOST_CNT, Reg.LPAIR_FAILOVER_CNT k, Reg.LPAIR_LAST k]

theorem otherMember_congr {s u : State} {k : Nat} (h : u.rd (Reg.LPAIR_PAIR k) = s.rd (Reg.LPAIR_PAIR k)) (p : Nat) :
    u.otherMember k p = s.otherMember k p := by
  unfold otherMember primary secondary
  simp only [get_congr h]

theorem member_lt (s : State) (k p : Nat) : s.otherMember k p < 8 := by
  unfold otherMember primary secondary get
  split
  · exact bitsOf_lt _ 10 8
  · exact bitsOf_lt _ 6 4

theorem not_mem_pairLossRegs (k : Nat) {p : Nat} (hp : p < 8) : Reg.MAC_LINK p ∉ pairLossRegs k := by
  simp only [pairLossRegs, List.mem_cons, List.not_mem_nil, or_false, Reg.MAC_LINK, Reg.REL_FAULT_CNT, Reg.REL_LAST_FAULT, Reg.REL_LAST_BEAT,
    Reg.LPAIR_LOST_CNT, Reg.LPAIR_FAILOVER_CNT, Reg.LPAIR_LAST]
  omega

theorem Carries.linkIsUp {s u : State} {r : List Nat} (h : Carries s u r) {p : Nat} (hr : Reg.MAC_LINK p ∉ r) (hp : p < 8) :
    u.linkIsUp p = s.linkIsUp p := by
  unfold State.linkIsUp flag
  rw [get_congr (h.rd _ hr (evtReg_link p hp))]

theorem evtReg_pairLast {k : Nat} (hk : k < 4) : evtReg (Reg.LPAIR_LAST k) = false := by
  interval_cases k <;> decide

/-- The other member of a pair of two ports is another port. -/
theorem otherMember_ne {s : State} {k : Nat} (p : Nat) (hne : s.primary k ≠ s.secondary k) : s.otherMember k p ≠ p := by
  unfold otherMember
  split
  · next h => exact fun he => hne (h.trans he.symm)
  · next h => exact h

/-- The other member takes over. -/
theorem failover_up {s : State} {k p lost : Nat} (hk : k < 4) (hup : s.linkIsUp (s.otherMember k p) = true) :
    ∃ u, s.failover k p lost = u ∧ Carries (s.setPair k { active := s.otherMember k p, down := false }) u (pairLossRegs k)
      ∧ u.Latched Pg.LPAIR Ev.LPAIR.FAILOVER ∧ u.rd (Reg.LPAIR_LAST k) = s.clk.n := by
  have ho8 := s.member_lt k p
  unfold failover
  dsimp only
  generalize s.otherMember k p = o at hup ho8 ⊢
  have hfault := (Carries.refl s (pairLossRegs k)).recordFault 10 0 k 8 false (by simp [pairLossRegs]) (latch_ne (by decide))
  generalize s.recordFault 10 0 k 8 false = v at hfault ⊢
  rw [if_pos (by rw [hfault.linkIsUp (not_mem_pairLossRegs k ho8) ho8, hup])]
  have hmove := (pairMove_spec v k o false).1
  generalize v.pairMove k o false = w at hmove ⊢
  have hmoved := (hfault.setPair k { active := o, down := false }).trans (hmove.mono (r' := pairLossRegs k) (by simp))
  have hlost : Carries w (w.inc Reg.LPAIR_LOST_CNT Fd.LPAIR_LOST_CNT.COUNT lost) (pairLossRegs k) :=
    (Carries.refl w _).wr _ (by simp [pairLossRegs]) (latch_ne (by decide))
  generalize w.inc Reg.LPAIR_LOST_CNT Fd.LPAIR_LOST_CNT.COUNT lost = x at hlost ⊢
  have hcount : Carries x (x.inc (Reg.LPAIR_FAILOVER_CNT k) Fd.LPAIR_FAILOVER_CNT.COUNT) (pairLossRegs k) :=
    (Carries.refl x _).wr _ (by simp [pairLossRegs]) (latch_ne (by simp only [Reg.LPAIR_FAILOVER_CNT]; omega))
  generalize x.inc (Reg.LPAIR_FAILOVER_CNT k) Fd.LPAIR_FAILOVER_CNT.COUNT = y at hcount ⊢
  have hbefore := (hmoved.trans hlost).trans hcount
  have hn : x.clk.n = s.clk.n := congrArg Clk.n (hmoved.trans hlost).clk
  have hlast := rd_wr_same y (Reg.LPAIR_LAST k) x.clk.n
  have hnoted := hbefore.wr (a := Reg.LPAIR_LAST k) x.clk.n (by simp [pairLossRegs]) (latch_ne (by simp only [Reg.LPAIR_LAST]; omega))
  rw [hn] at hlast hnoted ⊢
  generalize y.wr (Reg.LPAIR_LAST k) s.clk.n = z at hlast hnoted ⊢
  have hevent := hnoted.event Pg.LPAIR Ev.LPAIR.FAILOVER (by decide)
  have hlatch := event_latched z Pg.LPAIR Ev.LPAIR.FAILOVER (by decide)
  have hkept := rd_event z Pg.LPAIR Ev.LPAIR.FAILOVER (a := Reg.LPAIR_LAST k) (evtReg_pairLast hk)
  generalize z.event Pg.LPAIR Ev.LPAIR.FAILOVER = u at hevent hlatch hkept ⊢
  exact ⟨u, rfl, hevent, hlatch, hkept.trans hlast⟩

/-- No member is left. -/
theorem failover_down {s : State} {k p lost : Nat} (hup : s.linkIsUp (s.otherMember k p) = false) :
    ∃ u, s.failover k p lost = u ∧ Carries (s.setPair k { s.pair k with down := true }) u (pairLossRegs k) ∧ u.Latched Pg.LPAIR Ev.LPAIR.PAIR_DOWN := by
  have ho8 := s.member_lt k p
  unfold failover
  dsimp only
  generalize s.otherMember k p = o at hup ho8 ⊢
  have hfault := (Carries.refl s (pairLossRegs k)).recordFault 10 0 k 8 false (by simp [pairLossRegs]) (latch_ne (by decide))
  generalize s.recordFault 10 0 k 8 false = v at hfault ⊢
  rw [if_neg (by rw [hfault.linkIsUp (not_mem_pairLossRegs k ho8) ho8, hup]; simp), hfault.pair]
  have hset := hfault.setPair k { s.pair k with down := true }
  generalize v.setPair k { s.pair k with down := true } = w at hset ⊢
  exact ⟨_, rfl, hset.event Pg.LPAIR Ev.LPAIR.PAIR_DOWN (by decide), event_latched w Pg.LPAIR Ev.LPAIR.PAIR_DOWN (by decide)⟩

/-- The pair of a port whose link has fallen follows. -/
def loseMember (s : State) (p lost : Nat) : State :=
  match s.pairOf p with
  | some k => if (s.pair k).active = p then s.failover k p lost else s
  | none => s

theorem linkDown_eq {s : State} {p cond : Nat} (hprov : s.provided p = true) (hl : s.linkIsUp p = true) :
    s.linkDown p cond = ((s.fallen p cond).loseMember p ((s.wr (Reg.MAC_LINK p) (Word.of (cond % 32 * 2))).loseWire p).2).relCheck :=
  (if_neg (by simp [hprov])).trans (if_neg (by simp [hl]))

/-- What becomes of the pair of a port that has fallen. -/
def PairFollows (s u : State) (p : Nat) : Prop :=
  ∀ k, s.pairOf p = some k → (s.pair k).active = p →
    (s.linkIsUp (s.otherMember k p) = true → u.pair k = { active := s.otherMember k p, down := false } ∧ u.Latched Pg.LPAIR Ev.LPAIR.FAILOVER
        ∧ u.rd (Reg.LPAIR_LAST k) = s.clk.n)
      ∧ (s.linkIsUp (s.otherMember k p) = false → u.pair k = { active := p, down := true } ∧ u.Latched Pg.LPAIR Ev.LPAIR.PAIR_DOWN)

theorem pair_setPair_same (s : State) (k : Nat) (x : PairRun) : (s.setPair k x).pair k = x := (pair_setPair s k k x).trans (if_pos rfl)

/-- `u` is `s` but for pairs, trains, the registers of a pair's loss, and what events do. -/
structure PairLost (s u : State) (k : Nat) : Prop where
  clk : u.clk = s.clk
  pending : u.pending = s.pending
  mac : ∀ q, { u.mac q with classes := (s.mac q).classes } = s.mac q
  rd : ∀ a, a ∉ pairLossRegs k → evtReg a = false → u.rd a = s.rd a
  latched : ∀ p b, s.Latched p b → u.Latched p b

theorem PairLost.ofSet {s u : State} {k : Nat} {x : PairRun} (h : Carries (s.setPair k x) u (pairLossRegs k)) : PairLost s u k :=
  ⟨h.clk, h.pending, h.mac, h.rd, fun p b hl => h.latched p b (hl.of_rd rfl)⟩

theorem PairLost.relCheck {s u : State} {k : Nat} (h : PairLost s u k) : PairLost s u.relCheck k := by
  have hcheck := (Carries.refl u []).relCheck
  generalize u.relCheck = v at hcheck ⊢
  exact ⟨hcheck.clk.trans h.clk, hcheck.pending.trans h.pending, fun q => by rw [← h.mac q, ← hcheck.mac q],
    fun a ha he => (hcheck.rd a (by simp) he).trans (h.rd a ha he), fun p b hl => hcheck.latched p b (h.latched p b hl)⟩

theorem OutOfService.after {s v u : State} {p k : Nat} (h : OutOfService s v p) (hp : p < 8) (hl : PairLost v u k) : OutOfService s u p := by
  have hwire := congrArg MacRun.wire (hl.mac p)
  have hwire' : (u.mac p).wire = (v.mac p).wire := hwire
  have hparked := congrArg MacRun.parked (hl.mac p)
  have hparked' : (u.mac p).parked = (v.mac p).parked := hparked
  have hcnt : u.rd (Reg.MAC_CNT p 31) = v.rd (Reg.MAC_CNT p 31) := hl.rd _ (by
    simp only [pairLossRegs, List.mem_cons, List.not_mem_nil, or_false, Reg.MAC_CNT, Reg.REL_FAULT_CNT, Reg.REL_LAST_FAULT, Reg.REL_LAST_BEAT,
      Reg.LPAIR_LOST_CNT, Reg.LPAIR_FAILOVER_CNT, Reg.LPAIR_LAST]
    omega) (evtReg_cnt31 hp)
  exact ⟨hl.clk.trans h.clk, hl.pending.trans h.pending, hwire'.trans h.wire, hparked'.trans h.parked, hl.latched _ _ h.latched, hcnt.trans h.count⟩

theorem loseMember_spec (s : State) (p lost : Nat) :
    ∃ u, s.loseMember p lost = u ∧ (∃ k, k < 4 ∧ PairLost s u k) ∧ s.PairFollows u p := by
  unfold loseMember PairFollows
  cases hp : s.pairOf p with
  | none => exact ⟨s, rfl, ⟨0, by decide, rfl, rfl, fun _ => rfl, fun _ _ _ => rfl, fun _ _ h => h⟩, fun k hk => by simp at hk⟩
  | some k =>
    have hk := pairOf_lt hp
    by_cases ha : (s.pair k).active = p
    · dsimp only
      rw [if_pos ha]
      cases hup : s.linkIsUp (s.otherMember k p) with
      | true =>
        obtain ⟨u, hu, hcarry, hlatch, hlast⟩ := failover_up (lost := lost) hk hup
        refine ⟨u, hu, ⟨k, hk, .ofSet hcarry⟩, fun j hj _ => ?_⟩
        obtain rfl := Option.some.inj hj
        exact ⟨fun _ => ⟨(hcarry.pair k).trans (s.pair_setPair_same k _), hlatch, hlast⟩, fun h => by simp [hup] at h⟩
      | false =>
        obtain ⟨u, hu, hcarry, hlatch⟩ := failover_down (lost := lost) hup
        refine ⟨u, hu, ⟨k, hk, .ofSet hcarry⟩, fun j hj _ => ?_⟩
        obtain rfl := Option.some.inj hj
        refine ⟨fun h => by simp [hup] at h, fun _ => ⟨(hcarry.pair k).trans ((s.pair_setPair_same k _).trans ?_), hlatch⟩⟩
        rw [← ha]
    · refine ⟨s, if_neg ha, ⟨k, hk, rfl, rfl, fun _ => rfl, fun _ _ _ => rfl, fun _ _ h => h⟩, fun j hj hact => ?_⟩
      obtain rfl := Option.some.inj hj
      exact absurd hact ha

theorem linkDown_spec {s : State} {p cond : Nat} (hp : p < 8) (hprov : s.provided p = true) (hl : s.linkIsUp p = true) :
    ∃ u, s.linkDown p cond = u ∧ OutOfService s u p ∧ u.rd (Reg.MAC_LINK p) = Word.of (cond % 32 * 2)
      ∧ ((∀ k, s.pairOf p = some k → s.otherMember k p ≠ p) → s.PairFollows u p) := by
  have heq := linkDown_eq (cond := cond) hprov hl
  obtain ⟨v, hv, hout, hvlink, hvpairs, hvregs, hvlinks⟩ := s.fallen_spec hp cond
  rw [hv] at heq
  generalize ((s.wr (Reg.MAC_LINK p) (Word.of (cond % 32 * 2))).loseWire p).2 = lost at heq
  obtain ⟨w, hw, ⟨j, hj, hlost⟩, hfollows⟩ := v.loseMember_spec p lost
  rw [hw] at heq
  have hafter := hlost.relCheck
  have hcheck := (Carries.refl w []).relCheck
  generalize w.relCheck = u at heq hafter hcheck
  refine ⟨u, heq, hout.after hp hafter, (hafter.rd _ (not_mem_pairLossRegs j hp) (evtReg_link p hp)).trans hvlink, fun hother k hk hact => ?_⟩
  have hk4 := pairOf_lt hk
  have hpair : v.pair k = s.pair k := by unfold State.pair; rw [hvpairs]
  have hmember : v.otherMember k p = s.otherMember k p := otherMember_congr (hvregs k hk4) p
  have hlink : v.linkIsUp (s.otherMember k p) = s.linkIsUp (s.otherMember k p) := by
    unfold linkIsUp flag
    rw [get_congr (hvlinks _ (s.member_lt k p) (hother k hk))]
  obtain ⟨hup, hdown⟩ := hfollows k ((pairOf_congr hvregs p).trans hk) (by rw [hpair, hact])
  rw [hmember, hlink, congrArg Clk.n hout.clk] at hup
  rw [hmember, hlink] at hdown
  refine ⟨fun h => ?_, fun h => ?_⟩
  · obtain ⟨hpairUp, hlatch, hlast⟩ := hup h
    exact ⟨(hcheck.pair k).trans hpairUp, hcheck.latched _ _ hlatch, (hcheck.rd _ (by simp) (evtReg_pairLast hk4)).trans hlast⟩
  · obtain ⟨hpairDown, hlatch⟩ := hdown h
    exact ⟨(hcheck.pair k).trans hpairDown, hcheck.latched _ _ hlatch⟩

/-! ## A pair reverts (R343) -/

/-- A standby PRIMARY that has held its link long enough. -/
theorem revert_eq {s : State} {k : Nat} (hen : s.pairEn k = true) (hr : s.flag (Reg.LPAIR_PAIR k) Fd.LPAIR_PAIR.REVERT = true)
    (hact : (s.pair k).active ≠ s.primary k) (hl : s.linkIsUp (s.primary k) = true)
    (hheld : (s.mac (s.primary k)).upSince + secTicks (s.get Reg.LPAIR_REVERT_S Fd.LPAIR_REVERT_S.SECONDS) ≤ s.clk.now) :
    s.revert k = (((s.pairMove k (s.primary k) false).wr (Reg.LPAIR_LAST k) s.clk.n).event Pg.LPAIR Ev.LPAIR.REVERTED).relCheck :=
  if_pos (by simp [hen, hr, hact, hl, hheld])

theorem revert_spec {s : State} {k : Nat} (hk : k < 4) (hen : s.pairEn k = true) (hr : s.flag (Reg.LPAIR_PAIR k) Fd.LPAIR_PAIR.REVERT = true)
    (hact : (s.pair k).active ≠ s.primary k) (hl : s.linkIsUp (s.primary k) = true)
    (hheld : (s.mac (s.primary k)).upSince + secTicks (s.get Reg.LPAIR_REVERT_S Fd.LPAIR_REVERT_S.SECONDS) ≤ s.clk.now) :
    ∃ u, s.revert k = u ∧ u.clk = s.clk ∧ u.pending = s.pending ∧ u.pair k = { active := s.primary k, down := false }
      ∧ u.rd (Reg.LPAIR_LAST k) = s.clk.n ∧ u.Latched Pg.LPAIR Ev.LPAIR.REVERTED := by
  have heq := revert_eq hen hr hact hl hheld
  generalize s.primary k = p at heq ⊢
  obtain ⟨hmove, hpair⟩ := s.pairMove_spec k p false
  generalize s.pairMove k p false = v at heq hmove hpair
  have hlast := rd_wr_same v (Reg.LPAIR_LAST k) s.clk.n
  have hnoted := (hmove.mono (r' := [Reg.LPAIR_LAST k]) (by simp)).trans ((Carries.refl v _).wr (a := Reg.LPAIR_LAST k) s.clk.n (by simp)
    (latch_ne (by simp only [Reg.LPAIR_LAST]; omega)))
  generalize v.wr (Reg.LPAIR_LAST k) s.clk.n = w at heq hlast hnoted
  have hlatch := event_latched w Pg.LPAIR Ev.LPAIR.REVERTED (by decide)
  have hevent := ((Carries.refl w []).event Pg.LPAIR Ev.LPAIR.REVERTED (by decide))
  generalize w.event Pg.LPAIR Ev.LPAIR.REVERTED = x at heq hlatch hevent
  have hcheck := (Carries.refl x []).relCheck
  have hkeep := hcheck.latched _ _ hlatch
  have hafter := hevent.trans hcheck
  generalize x.relCheck = u at heq hafter hkeep
  have hall := hnoted.trans (hafter.mono (by simp))
  exact ⟨u, heq, hall.clk, hall.pending, (hall.pair k).trans (s.pair_setPair_same k _), (hafter.rd _ (by simp) (evtReg_pairLast hk)).trans hlast, hkeep⟩

end State

/-- Settles O34: a port's link, its pair and what they note; the other registers and ports stand still. -/
theorem linkState : Obligations.LinkState := by
  unfold Obligations.LinkState
  intro s t hup
  refine ⟨fun port hprov hl => ?_, fun port cond hprov hl => ?_, fun k hen hr hact hl hheld => ?_⟩
  · obtain ⟨u, hu, hclk, hpend, hrd, hsince, hlatch, hpair⟩ := State.linkUp_spec (s := s.atTick t) port.isLt hprov hl
    obtain ⟨hlink, hsig, hblock⟩ := (s.atTick t).raised_flags port.toNat
    refine ⟨u, State.act_of_eq (fun s => s.linkUp port.toNat) hup hu hclk hpend, ?_, ?_, ?_, hsince, hlatch, hpair⟩
    · rw [State.linkIsUp, State.flag, State.get_congr hrd]
      exact hlink
    · rw [State.flag, State.get_congr hrd]
      exact hsig
    · rw [State.flag, State.get_congr hrd]
      exact hblock
  · have hcond : cond.toNat % 32 = cond.toNat := Nat.mod_eq_of_lt cond.isLt
    obtain ⟨u, hu, hout, hrd, hpair⟩ := State.linkDown_spec (s := s.atTick t) (cond := cond.toNat) port.isLt hprov hl
    rw [hcond] at hrd
    refine ⟨u, State.act_of_eq (fun s => s.linkDown port.toNat cond.toNat) hup hu hout.clk hout.pending, ?_, hrd, hout.wire, hout.parked,
      hout.latched, ?_, fun k hk hact hne => ?_⟩
    · rw [State.linkIsUp, State.flag, State.get, hrd, Word.bitsOf_even]
      rfl
    · rw [hout.count]
      exact BitVec.toNat_ofNat _ _
    · refine hpair (fun j hj => ?_) k hk hact
      obtain rfl := Option.some.inj (hj.symm.trans hk)
      exact State.otherMember_ne _ hne
  · obtain ⟨u, hu, hclk, hpend, hpair, hlast, hlatch⟩ := State.revert_spec (s := s.atTick t) k.isLt hen hr hact hl hheld
    exact ⟨u, State.act_of_eq (fun s => s.revert k.toNat) hup hu hclk hpend, hpair, hlast, hlatch⟩

end Sys2Proof.Machine
end

section
/-! PROOFS. A received frame: stored, classified and bound to its leg; or counted and dropped (R274 to R291, R331, R388). -/

namespace Sys2Proof.Machine

namespace State

/-! ## Latches past the level of memory -/

theorem Latched.macCount {s : State} {q b : Nat} (h : s.Latched q b) (p : Nat) {i : Nat} (n : Nat) (hi : i < 32) : (s.macCount p i n).Latched q b :=
  ((Carries.refl s [Reg.MAC_CNT p i, Reg.MAC_CNT_NOTICE p]).macCount n hi (by simp) (by simp)).latched q b h

theorem Latched.sendPause {s : State} {q b : Nat} (h : s.Latched q b) (p n : Nat) : (s.sendPause p n).Latched q b := by
  have hsent := (h.macCount p (i := 23) 1 (by decide)).macCount p (i := 24) (wireBytes (s.fcFrame p n)) (by decide)
  have hemit : (((s.macCount p 23 1).macCount p 24 (wireBytes (s.fcFrame p n))).emit (.frame p (padFrame (s.fcFrame p n)))).Latched q b :=
    hsent.of_rd rfl
  exact hemit.macCount p 1 (by split <;> decide)

theorem Latched.fcPort {s : State} {q b : Nat} (h : s.Latched q b) (used p : Nat) : (State.fcPort used s p).Latched q b := by
  have hset (m : MacRun) : (s.setMac p m).Latched q b := h.of_rd (rd_setMac s p m _)
  unfold State.fcPort
  dsimp only
  split
  · split
    · exact hset _
    · exact h
  · split
    · exact (hset _).sendPause p _
    · split
      · exact (hset _).sendPause p _
      · exact h

/-- The level of shared packet memory clears no latch. -/
theorem Latched.noteMem {s : State} {q b : Nat} (h : s.Latched q b) (more : Nat) : (s.noteMem more).Latched q b := by
  have hports (l : List Nat) (used : Nat) : ∀ u : State, u.Latched q b → (l.foldl (State.fcPort used) u).Latched q b := by
    induction l with
    | nil => exact fun _ hu => hu
    | cons p ps ih => exact fun u hu => ih _ (hu.fcPort used p)
  have hwater (v : Nat) : (s.put Reg.PKT_MEM_HWM Fd.PKT_MEM_HWM.BYTES v).Latched q b := h.wr _ (latch_ne (by decide) q)
  unfold State.noteMem State.raise
  exact hports _ _ _ (hwater _)

/-! ## Arrival (R277 to R290) -/

/-- `s` with other waiting frames. -/
def withWaiting (s : State) (l : List StoredFrame) : State := { s with nw := { s.nw with waiting := l } }

theorem OnlyMem.withWaiting {s u : State} {r : List Nat} (h : s.OnlyMem u r) (l : List StoredFrame) :
    OnlyMem { s with nw := { s.nw with waiting := (u.withWaiting l).nw.waiting } } (u.withWaiting l) r :=
  h.under fun z => z.withWaiting l

/-- A frame that the classifier reaches late waits (R286). -/
theorem arrive_late {s : State} {p : Nat} {f : RxFrame} (v : SrtpIn) (hlate : f.late = true)
    (hctl : ∀ pfc named, classOf f.bytes ≠ .macctl pfc named) :
    s.arrive p f v = s.withWaiting (s.nw.waiting ++ [{ stamp := s.clk.now, port := p, bytes := f.bytes }]) := by
  unfold arrive
  rw [hlate]
  cases hcls : classOf f.bytes with
  | macctl pfc named => exact absurd hcls (hctl pfc named)
  | _ => rfl

theorem arrive_prompt {s : State} {p : Nat} {f : RxFrame} (v : SrtpIn) (hlate : f.late = false) :
    s.arrive p f v = (s.classify { stamp := s.clk.now, port := p, bytes := f.bytes } f.sofBack f.dir v).noteMem 0 := by
  unfold arrive
  rw [hlate]
  rfl

theorem classify_error {s : State} {x : Arrived} (back : Nat) (dir : DirRead) (v : SrtpIn) (h : classOf x.bytes = .error) :
    s.classify x back dir v = (s.inc Reg.PKT_ERR_CNT Fd.PKT_ERR_CNT.COUNT).event Pg.PKT Ev.PKT.PARSE_ERR := by
  unfold classify
  rw [h]

theorem classify_lookup {s : State} {x : Arrived} {d : Found} (back : Nat) (dir : DirRead) (v : SrtpIn) (h : classOf x.bytes = .lookup d) :
    s.classify x back dir v = s.lookupFrame d x dir v := by
  unfold classify
  rw [h]

/-- The directory's answers depend on its records, the mode and MEM_CFG. -/
theorem directory_congr {s u : State} (hepd : u.nw.epd = s.nw.epd) (hmode : u.modes = s.modes) (hcfg : u.rd Reg.MEM_CFG = s.rd Reg.MEM_CFG)
    (key : List Byte) : u.epdLookup key = s.epdLookup key ∧ u.epdRecs = s.epdRecs := by
  have hwidth : u.epdWidth = s.epdWidth := by rw [epdWidth, flag, get_congr hcfg, epdWidth, flag]
  have hchip : u.epdOnChip = s.epdOnChip := by rw [epdOnChip, hmode, epdOnChip]
  constructor
  · rw [epdLookup, epdLookup, hwidth, hchip, hepd]
  · rw [epdRecs, epdRecs, hchip, hepd]

/-- A packet enters the inbox of its leg last. -/
def bound (s : State) (c : Chan) (b : Bool) (pkt : InPkt) : State :=
  (s.modLife c.uid fun c => c.modLeg b fun l => { l with inbox := l.inbox ++ [pkt] }).incWrap Reg.PKT_BOUND_CNT Fd.PKT_BOUND_CNT.COUNT

theorem placePacket_room {s : State} {c : Chan} {b : Bool} {r : EpRec} {pkt : InPkt} (hroom : (c.leg b).inbox.length < 64) :
    s.placePacket c b r colGreen pkt = s.bound c b pkt := by
  unfold placePacket
  dsimp only
  rw [if_neg (by simp [colGreen, colYellow]), if_neg (by omega)]
  rfl

theorem legPacket_plain {s : State} {c : Chan} {b : Bool} {r : EpRec} {colour codec : Nat} {payload : List Byte} {x : Arrived} (v : SrtpIn)
    (hcodec : (c.cfg.leg b).plainCodec = some codec) :
    (c.cfg.leg b).kind = 0 ∧ s.legPacket c b r colour payload x v
      = s.placePacket c b r colour (inPkt codec payload x.stamp (x.bytes.length + 4)) := by
  unfold legPacket
  cases hleg : c.cfg.leg b with
  | packet cd _ _ srtp _ _ _ _ _ _ _ _ =>
    rw [hleg] at hcodec
    cases srtp with
    | true => simp [LegCfg.plainCodec] at hcodec
    | false =>
      obtain rfl : cd = codec := by simpa [LegCfg.plainCodec] using hcodec
      exact ⟨rfl, rfl⟩
  | _ => rw [hleg] at hcodec; simp [LegCfg.plainCodec] at hcodec

/-- A packet for a leg without SRTP, with room in its inbox, enters it last (R290). -/
theorem bindPacket_plain {s : State} {h : Nat} {r : EpRec} {d : Found} {x : Arrived} {c : Chan} {codec : Nat} (v : SrtpIn)
    (hring : r.bindRing = false) (hc : s.chan (r.leg / 2) = some c) (hcodec : (c.cfg.leg (r.leg % 2 = 1)).plainCodec = some codec)
    (hroom : (c.leg (r.leg % 2 = 1)).inbox.length < 64) :
    s.bindPacket h r colGreen d x v = s.bound c (r.leg % 2 = 1) (inPkt codec d.payload x.stamp (x.bytes.length + 4)) := by
  obtain ⟨hkind, hplain⟩ := legPacket_plain (s := s) (r := r) (colour := colGreen) (payload := d.payload) (x := x) v hcodec
  unfold bindPacket legChan
  rw [hring, hc]
  dsimp only [Option.map_some]
  rw [if_neg (by decide), if_pos hkind, hplain, placePacket_room hroom]

/-- A packet whose record is in the cache and has no meter. -/
theorem lookupFrame_bound {s : State} {d : Found} {x : Arrived} {dir : DirRead} {v : SrtpIn} {h : Nat} {r : EpRec} {c : Chan} {codec : Nat}
    (hhit : dir.hit = true)
    (hkey : s.epdLookup (d.key (domainOf (s.get (Reg.PKT_PORT_DOM x.port) Fd.PKT_PORT_DOM.MODE)
      (s.get (Reg.PKT_PORT_DOM x.port) Fd.PKT_PORT_DOM.DOMAIN) (frameTags x.bytes))) = some h)
    (hrec : s.epdRecs.find? h = some r) (hmeter : r.meterEn = false) (hring : r.bindRing = false) (hc : s.chan (r.leg / 2) = some c)
    (hcodec : (c.cfg.leg (r.leg % 2 = 1)).plainCodec = some codec) (hroom : (c.leg (r.leg % 2 = 1)).inbox.length < 64) :
    s.lookupFrame d x dir v = (s.incWrap Reg.EPD_CACHE_HIT Fd.EPD_CACHE_HIT.COUNT).bound c (r.leg % 2 = 1)
      (inPkt codec d.payload x.stamp (x.bytes.length + 4)) := by
  unfold lookupFrame
  dsimp only
  rw [hhit, if_pos rfl]
  have hregs : s.OnlyRegs (s.incWrap Reg.EPD_CACHE_HIT Fd.EPD_CACHE_HIT.COUNT) [Reg.EPD_CACHE_HIT] := OnlyRegs.same.wr _ (by simp)
  generalize s.incWrap Reg.EPD_CACHE_HIT Fd.EPD_CACHE_HIT.COUNT = u at hregs ⊢
  have hnw := congrArg State.nw hregs.1
  have hu : u.nw = s.nw := hnw
  have hmodes := congrArg State.modes hregs.1
  have hchans := congrArg State.chans hregs.1
  have hchans' : u.chans = s.chans := hchans
  obtain ⟨hlook, hrecs⟩ := directory_congr (u := u) (by rw [hu]) hmodes (hregs.2 Reg.MEM_CFG (by decide))
    (d.key (domainOf (s.get (Reg.PKT_PORT_DOM x.port) Fd.PKT_PORT_DOM.MODE) (s.get (Reg.PKT_PORT_DOM x.port) Fd.PKT_PORT_DOM.DOMAIN) (frameTags x.bytes)))
  have hdir : u.dirRead dir = (u, false) := if_pos (by simp [hhit])
  rw [hdir]
  dsimp only
  rw [if_neg (by decide), hlook, hkey]
  dsimp only
  rw [hrecs, hrec]
  dsimp only
  have hstep : u.meterStep h r x.stamp = (u, colGreen) := if_pos (by simp [hmeter])
  rw [hstep]
  dsimp only
  rw [policePacket, if_pos (by decide)]
  exact bindPacket_plain v hring (by rw [chan, hchans', ← chan, hc]) hcodec hroom

/-- What a bound packet leaves of the channels, and its count. -/
theorem bound_spec (s : State) {num : Nat} {c : Chan} (b : Bool) (pkt : InPkt) (hc : s.chan num = some c) :
    (s.bound c b pkt).chan num = some (c.modLeg b fun l => { l with inbox := l.inbox ++ [pkt] })
      ∧ (∀ m e, s.chan m = some e → e.uid ≠ c.uid → (s.bound c b pkt).chan m = some e)
      ∧ (s.bound c b pkt).get Reg.PKT_BOUND_CNT Fd.PKT_BOUND_CNT.COUNT = (s.get Reg.PKT_BOUND_CNT Fd.PKT_BOUND_CNT.COUNT + 1) % 2 ^ 32
      ∧ (∀ a, a ≠ Reg.PKT_BOUND_CNT → (s.bound c b pkt).rd a = s.rd a) ∧ (s.bound c b pkt).clk = s.clk
      ∧ (s.bound c b pkt).pending = s.pending := by
  unfold bound
  have hthis := s.chan_modLife c.uid num fun c => c.modLeg b fun l => { l with inbox := l.inbox ++ [pkt] }
  rw [hc] at hthis
  have hother (m : Nat) (e : Chan) (he : s.chan m = some e) (hne : e.uid ≠ c.uid) :=
    s.chan_modLife_ne c.uid m (fun c => c.modLeg b fun l => { l with inbox := l.inbox ++ [pkt] }) he hne
  have hregs := s.modLife_regs c.uid fun c => c.modLeg b fun l => { l with inbox := l.inbox ++ [pkt] }
  have hclk := s.modLife_clk c.uid fun c => c.modLeg b fun l => { l with inbox := l.inbox ++ [pkt] }
  have hpend := s.modLife_pending c.uid fun c => c.modLeg b fun l => { l with inbox := l.inbox ++ [pkt] }
  generalize (s.modLife c.uid fun c => c.modLeg b fun l => { l with inbox := l.inbox ++ [pkt] }) = v at hthis hother hregs hclk hpend ⊢
  have hcount := get_incWrap_same v Reg.PKT_BOUND_CNT Fd.PKT_BOUND_CNT.COUNT 1 (by decide) (by decide)
  have hrd (a : Nat) (ha : a ≠ Reg.PKT_BOUND_CNT) : (v.incWrap Reg.PKT_BOUND_CNT Fd.PKT_BOUND_CNT.COUNT).rd a = v.rd a := rd_wr_ne v _ ha
  have hchans : (v.incWrap Reg.PKT_BOUND_CNT Fd.PKT_BOUND_CNT.COUNT).chans = v.chans := rfl
  have hclk' : (v.incWrap Reg.PKT_BOUND_CNT Fd.PKT_BOUND_CNT.COUNT).clk = v.clk := rfl
  have hpend' : (v.incWrap Reg.PKT_BOUND_CNT Fd.PKT_BOUND_CNT.COUNT).pending = v.pending := rfl
  have hsame (a : Nat) : v.rd a = s.rd a := by rw [rd, hregs, rd]
  generalize v.incWrap Reg.PKT_BOUND_CNT Fd.PKT_BOUND_CNT.COUNT = u at hcount hrd hchans hclk' hpend' ⊢
  refine ⟨(chan_congr hchans num).trans (hthis.trans (by simp)), fun m e he hne => (chan_congr hchans m).trans (hother m e he hne), ?_,
    fun a ha => (hrd a ha).trans (hsame a), hclk'.trans hclk, hpend'.trans hpend⟩
  rw [hcount, get_congr (hsame _)]
  rfl

/-! ## Step 1, with its counts -/

/-- The registers of a frame that has passed step 1. -/
def stepRegs (p : Nat) : List Nat := [Reg.PKT_RX_CNT, Reg.RING_MACFIFO p]

/-- A frame that the port accepts and that finds room is counted, and arrives. -/
theorem receive_room {s : State} {p : Nat} (hp : p < 8) {f : RxFrame} (v : SrtpIn) (ha : s.Accepts p f)
    (hroom : s.ingressUsed + (f.bytes.length + 4) ≤ s.ingressCap) :
    ∃ u, s.receive p f v = u.arrive p f v ∧ s.OnlyMem u (stepRegs p)
      ∧ u.get Reg.PKT_RX_CNT Fd.PKT_RX_CNT.COUNT = (s.get Reg.PKT_RX_CNT Fd.PKT_RX_CNT.COUNT + 1) % 2 ^ 32 := by
  have hacc := s.accepted_onlyMem hp f
  obtain ⟨hused, hcap⟩ := ingress_congr hacc
  have heq := receive_accepts hp v ha
  rw [storeFrame_room (by rw [hused, hcap]; exact hroom)] at heq
  generalize s.accepted p f = a at heq hacc
  have hrx := get_incWrap_same a Reg.PKT_RX_CNT Fd.PKT_RX_CNT.COUNT 1 (by decide) (by decide)
  have hcounted := (hacc.mono (r' := stepRegs p) (by simp [stepRegs])).incWrap (a := Reg.PKT_RX_CNT) Fd.PKT_RX_CNT.COUNT 1 (by simp [stepRegs])
  have hstored := a.stored_onlyMem hp f.bytes
  generalize a.incWrap Reg.PKT_RX_CNT Fd.PKT_RX_CNT.COUNT = b at hrx hcounted hstored
  generalize a.stored p f.bytes = u at heq hstored
  refine ⟨u, heq, hcounted.andThen hstored.weaken, ?_⟩
  rw [hstored.get _ (by simp) (by decide) (by decide) (by decide), hrx,
    hacc.get _ (by simp only [List.mem_singleton, Reg.PKT_RX_CNT, Reg.RING_MACFIFO]; omega) (by decide) (by decide) (by decide)]
  rfl

/-- An accepted frame without room is dropped (R274). -/
theorem receive_full {s : State} {p : Nat} (hp : p < 8) {f : RxFrame} (v : SrtpIn) (ha : s.Accepts p f)
    (hfull : s.ingressCap < s.ingressUsed + (f.bytes.length + 4)) :
    ∃ u, s.receive p f v = u ∧ s.OnlyMem u [Reg.PKT_RX_CNT, Reg.PKT_MEM_DROP_CNT, Reg.RING_MACFIFO p]
      ∧ u.get Reg.PKT_MEM_DROP_CNT Fd.PKT_MEM_DROP_CNT.COUNT
          = min (s.get Reg.PKT_MEM_DROP_CNT Fd.PKT_MEM_DROP_CNT.COUNT + 1) (2 ^ 32 - 1)
      ∧ u.Latched Pg.PKT Ev.PKT.MEM_DROP := by
  have hacc := s.accepted_onlyMem hp f
  obtain ⟨hused, hcap⟩ := ingress_congr hacc
  have heq := receive_accepts hp v ha
  rw [storeFrame_full (by rw [hused, hcap]; exact hfull)] at heq
  generalize s.accepted p f = a at heq hacc
  have hcounted := (hacc.mono (r' := [Reg.PKT_RX_CNT, Reg.PKT_MEM_DROP_CNT, Reg.RING_MACFIFO p]) (by simp)).incWrap (a := Reg.PKT_RX_CNT)
    Fd.PKT_RX_CNT.COUNT 1 (by simp)
  have hkeep : (a.incWrap Reg.PKT_RX_CNT Fd.PKT_RX_CNT.COUNT).get Reg.PKT_MEM_DROP_CNT Fd.PKT_MEM_DROP_CNT.COUNT
      = s.get Reg.PKT_MEM_DROP_CNT Fd.PKT_MEM_DROP_CNT.COUNT := by
    have hrx : (a.incWrap Reg.PKT_RX_CNT Fd.PKT_RX_CNT.COUNT).rd Reg.PKT_MEM_DROP_CNT = a.rd Reg.PKT_MEM_DROP_CNT := rd_wr_ne a _ (by decide)
    rw [get_congr hrx, hacc.get _ (by simp only [List.mem_singleton, Reg.PKT_MEM_DROP_CNT, Reg.RING_MACFIFO]; omega) (by decide) (by decide) (by decide)]
  generalize a.incWrap Reg.PKT_RX_CNT Fd.PKT_RX_CNT.COUNT = b at heq hcounted hkeep
  have hdrop := get_inc_same b Reg.PKT_MEM_DROP_CNT Fd.PKT_MEM_DROP_CNT.COUNT 1 (by decide) (by decide)
  have hdropped := hcounted.inc (a := Reg.PKT_MEM_DROP_CNT) Fd.PKT_MEM_DROP_CNT.COUNT 1 (by simp)
  generalize b.inc Reg.PKT_MEM_DROP_CNT Fd.PKT_MEM_DROP_CNT.COUNT = c at heq hdrop hdropped
  have hlatch := event_latched c Pg.PKT Ev.PKT.MEM_DROP (by decide)
  refine ⟨_, heq, hdropped.event _ _, ?_, hlatch⟩
  rw [get_event _ _ _ _ (by decide), hdrop, hkeep]
  rfl

/-- A spoiled frame of the FIFO. -/
theorem receive_spoiled_spec {s : State} {p : Nat} (hp : p < 8) {f : RxFrame} (v : SrtpIn) (hprov : s.provided p = true) (hen : s.macEn p = true)
    (hmerge : f.mergeErr = false) (hwhole : frameWhole f = false) :
    ∃ u, s.receive p f v = u ∧ s.OnlyMem u [Reg.RING_FIFO_DROP_CNT, Reg.RING_MACFIFO p]
      ∧ u.get Reg.RING_FIFO_DROP_CNT Fd.RING_FIFO_DROP_CNT.COUNT
          = min (s.get Reg.RING_FIFO_DROP_CNT Fd.RING_FIFO_DROP_CNT.COUNT + 1) (2 ^ 32 - 1)
      ∧ ((macPass f).ignored ≠ [] → u.flag (Reg.RING_MACFIFO p) Fd.RING_MACFIFO.OVR = true)
      ∧ ((macPass f).broken ≠ [] → u.flag (Reg.RING_MACFIFO p) Fd.RING_MACFIFO.UNCORR = true) := by
  have heq := receive_spoiled v hprov hen hmerge hwhole
  have hfec := (fecStep_spec s hp f).1
  generalize s.fecStep p f = a at heq hfec
  have hshown := fifoShown_onlyEvents a p f
  have hflags := a.fifoShown_flags hp f
  generalize a.fifoShown p f = b at heq hshown hflags
  have hbefore : s.OnlyMem b [Reg.RING_MACFIFO p] := hfec.weaken.events hshown
  have hdrop := get_inc_same b Reg.RING_FIFO_DROP_CNT Fd.RING_FIFO_DROP_CNT.COUNT 1 (by decide) (by decide)
  have hdropped := (hbefore.mono (r' := [Reg.RING_FIFO_DROP_CNT, Reg.RING_MACFIFO p]) (by simp)).inc (a := Reg.RING_FIFO_DROP_CNT)
    Fd.RING_FIFO_DROP_CNT.COUNT 1 (by simp)
  have hne : Reg.RING_MACFIFO p ≠ Reg.RING_FIFO_DROP_CNT := by simp only [Reg.RING_MACFIFO, Reg.RING_FIFO_DROP_CNT]; omega
  have hfifo : (b.inc Reg.RING_FIFO_DROP_CNT Fd.RING_FIFO_DROP_CNT.COUNT).rd (Reg.RING_MACFIFO p) = b.rd (Reg.RING_MACFIFO p) := rd_inc_ne b _ _ hne
  generalize b.inc Reg.RING_FIFO_DROP_CNT Fd.RING_FIFO_DROP_CNT.COUNT = c at heq hdrop hdropped hfifo
  have hsize := sizeStep_onlyMem c hp f
  generalize (c.sizeStep p f).1 = u at heq hsize
  have hu : u.rd (Reg.RING_MACFIFO p) = b.rd (Reg.RING_MACFIFO p) :=
    (hsize.rd (by simp) (evtReg_macfifo hp) (by simp only [Reg.RING_MACFIFO, Reg.PKT_MEM_HWM]; omega)
      (by simp only [macReg, Reg.RING_MACFIFO, Bool.and_eq_false_iff, decide_eq_false_iff_not]; omega)).trans hfifo
  refine ⟨u, heq, hdropped.andThen hsize.weaken, ?_, fun h => ?_, fun h => ?_⟩
  · rw [hsize.get _ (by simp) (by decide) (by decide) (by decide), hdrop,
      hbefore.get _ (by simpa using hne.symm) (by decide) (by decide) (by decide)]
    rfl
  · rw [flag, get_congr hu]
    exact hflags.1 h
  · rw [flag, get_congr hu]
    exact hflags.2 h

/-! ## What an accepted frame leaves -/

/-- The count of accepted frames. -/
def rxCount (s : State) : Nat := s.get Reg.PKT_RX_CNT Fd.PKT_RX_CNT.COUNT

theorem receive_late {s : State} {p : Nat} (hp : p < 8) {f : RxFrame} (v : SrtpIn) (ha : s.Accepts p f)
    (hroom : s.ingressUsed + (f.bytes.length + 4) ≤ s.ingressCap) (hlate : f.late = true)
    (hctl : ∀ pfc named, classOf f.bytes ≠ .macctl pfc named) :
    ∃ u, s.receive p f v = u ∧ u.nw.waiting = s.nw.waiting ++ [{ stamp := s.clk.now, port := p, bytes := f.bytes }]
      ∧ u.rxCount = (s.rxCount + 1) % 2 ^ 32 ∧ OnlyMem { s with nw := { s.nw with waiting := u.nw.waiting } } u (stepRegs p) := by
  obtain ⟨u, heq, hstep, hrx⟩ := receive_room hp v ha hroom
  rw [arrive_late v hlate hctl] at heq
  have hwait : u.nw.waiting = s.nw.waiting := hstep.part fun z => z.nw.waiting
  have hclk : u.clk = s.clk := hstep.part State.clk
  rw [hwait, hclk] at heq
  exact ⟨u.withWaiting (s.nw.waiting ++ [{ stamp := s.clk.now, port := p, bytes := f.bytes }]), heq, rfl, hrx, hstep.withWaiting _⟩

theorem receive_error {s : State} {p : Nat} (hp : p < 8) {f : RxFrame} (v : SrtpIn) (ha : s.Accepts p f)
    (hroom : s.ingressUsed + (f.bytes.length + 4) ≤ s.ingressCap) (hlate : f.late = false) (hcls : classOf f.bytes = .error) :
    ∃ u, s.receive p f v = u ∧ u.rxCount = (s.rxCount + 1) % 2 ^ 32
      ∧ u.get Reg.PKT_ERR_CNT Fd.PKT_ERR_CNT.COUNT = min (s.get Reg.PKT_ERR_CNT Fd.PKT_ERR_CNT.COUNT + 1) (2 ^ 32 - 1)
      ∧ u.Latched Pg.PKT Ev.PKT.PARSE_ERR ∧ s.OnlyMem u [Reg.PKT_RX_CNT, Reg.PKT_ERR_CNT, Reg.RING_MACFIFO p] := by
  obtain ⟨a, heq, hstep, hrx⟩ := receive_room hp v ha hroom
  rw [arrive_prompt v hlate, classify_error (x := { stamp := a.clk.now, port := p, bytes := f.bytes }) _ _ _ hcls] at heq
  have herr := get_inc_same a Reg.PKT_ERR_CNT Fd.PKT_ERR_CNT.COUNT 1 (by decide) (by decide)
  have hcounted := (hstep.mono (r' := [Reg.PKT_RX_CNT, Reg.PKT_ERR_CNT, Reg.RING_MACFIFO p]) (by simp [stepRegs])).inc (a := Reg.PKT_ERR_CNT)
    Fd.PKT_ERR_CNT.COUNT 1 (by simp)
  have hrxRd : (a.inc Reg.PKT_ERR_CNT Fd.PKT_ERR_CNT.COUNT).rd Reg.PKT_RX_CNT = a.rd Reg.PKT_RX_CNT := rd_inc_ne a _ _ (by decide)
  generalize a.inc Reg.PKT_ERR_CNT Fd.PKT_ERR_CNT.COUNT = b at heq herr hcounted hrxRd
  have hlatch := event_latched b Pg.PKT Ev.PKT.PARSE_ERR (by decide)
  have hevent := (event_onlyEvents b Pg.PKT Ev.PKT.PARSE_ERR)
  generalize b.event Pg.PKT Ev.PKT.PARSE_ERR = c at heq hlatch hevent
  have hmem := noteMem_onlyMem c 0
  have hkeep := hlatch.noteMem 0
  generalize c.noteMem 0 = u at heq hmem hkeep
  have hafter := hevent.onlyMem.andThen hmem
  refine ⟨u, heq, ?_, ?_, hkeep, hcounted.andThen hafter.weaken⟩
  · exact (hafter.get _ (by simp) (by decide) (by decide) (by decide)).trans ((get_congr hrxRd _).trans hrx)
  · rw [hafter.get _ (by simp) (by decide) (by decide) (by decide), herr,
      hstep.get _ (by simp only [stepRegs, List.mem_cons, List.not_mem_nil, or_false, Reg.PKT_ERR_CNT, Reg.PKT_RX_CNT, Reg.RING_MACFIFO]; omega)
        (by decide) (by decide) (by decide)]
    rfl

/-- The directory's key of a frame at a port. -/
def frameKey (s : State) (p : Nat) (b : List Byte) (d : Found) : List Byte :=
  d.key (domainOf (s.get (Reg.PKT_PORT_DOM p) Fd.PKT_PORT_DOM.MODE) (s.get (Reg.PKT_PORT_DOM p) Fd.PKT_PORT_DOM.DOMAIN) (frameTags b))

theorem frameKey_congr {s u : State} {p : Nat} (hp : p < 8) (h : s.OnlyMem u (stepRegs p)) (b : List Byte) (d : Found) :
    u.frameKey p b d = s.frameKey p b d := by
  have hdom : u.rd (Reg.PKT_PORT_DOM p) = s.rd (Reg.PKT_PORT_DOM p) := h.rd
    (by simp only [stepRegs, List.mem_cons, List.not_mem_nil, or_false, Reg.PKT_PORT_DOM, Reg.PKT_RX_CNT, Reg.RING_MACFIFO]; omega)
    (by interval_cases p <;> decide) (by simp only [Reg.PKT_PORT_DOM, Reg.PKT_MEM_HWM]; omega)
    (by simp only [macReg, Reg.PKT_PORT_DOM, Bool.and_eq_false_iff, decide_eq_false_iff_not]; omega)
  unfold frameKey
  rw [get_congr hdom, get_congr hdom]

theorem receive_bound {s : State} {p : Nat} (hp : p < 8) {f : RxFrame} (v : SrtpIn) (ha : s.Accepts p f)
    (hroom : s.ingressUsed + (f.bytes.length + 4) ≤ s.ingressCap) (hlate : f.late = false) {d : Found} {h : Nat} {r : EpRec} {c : Chan}
    {codec : Nat} (hhit : f.dir.hit = true) (hcls : classOf f.bytes = .lookup d) (hkey : s.epdLookup (s.frameKey p f.bytes d) = some h)
    (hrec : s.epdRecs.find? h = some r) (hmeter : r.meterEn = false) (hring : r.bindRing = false) (hc : s.chan (r.leg / 2) = some c)
    (hcodec : (c.cfg.leg (r.leg % 2 = 1)).plainCodec = some codec) (hinbox : (c.leg (r.leg % 2 = 1)).inbox.length < 64) :
    ∃ u, s.receive p f v = u ∧ u.clk = s.clk ∧ u.pending = s.pending
      ∧ u.chan (r.leg / 2) = some (c.modLeg (r.leg % 2 = 1) fun l =>
          { l with inbox := l.inbox ++ [inPkt codec d.payload s.clk.now (f.bytes.length + 4)] })
      ∧ (∀ m e, s.chan m = some e → e.uid ≠ c.uid → u.chan m = some e)
      ∧ u.rxCount = (s.rxCount + 1) % 2 ^ 32
      ∧ u.get Reg.PKT_BOUND_CNT Fd.PKT_BOUND_CNT.COUNT = (s.get Reg.PKT_BOUND_CNT Fd.PKT_BOUND_CNT.COUNT + 1) % 2 ^ 32 := by
  obtain ⟨a, heq, hstep, hrx⟩ := receive_room hp v ha hroom
  have hchans (m : Nat) : a.chan m = s.chan m := hstep.part fun z => z.chan m
  have hclk : a.clk = s.clk := hstep.part State.clk
  have hpend : a.pending = s.pending := hstep.part State.pending
  have hcfg : a.rd Reg.MEM_CFG = s.rd Reg.MEM_CFG := hstep.rd
    (by simp only [stepRegs, List.mem_cons, List.not_mem_nil, or_false, Reg.MEM_CFG, Reg.PKT_RX_CNT, Reg.RING_MACFIFO]; omega) (by decide)
    (by decide) (by decide)
  have hepd : a.nw.epd = s.nw.epd := hstep.part fun z => z.nw.epd
  have hmodes : a.modes = s.modes := hstep.part State.modes
  obtain ⟨hlook, hrecs⟩ := directory_congr (u := a) hepd hmodes hcfg (s.frameKey p f.bytes d)
  have hlookup := lookupFrame_bound (s := a) (x := { stamp := a.clk.now, port := p, bytes := f.bytes }) (v := v) hhit
    (show a.epdLookup (a.frameKey p f.bytes d) = some h by rw [frameKey_congr hp hstep, hlook, hkey]) (hrecs.symm ▸ hrec) hmeter hring
    ((hchans _).trans hc) hcodec hinbox
  rw [arrive_prompt v hlate, classify_lookup (x := { stamp := a.clk.now, port := p, bytes := f.bytes }) _ _ _ hcls, hlookup] at heq
  dsimp only at heq
  rw [hclk] at heq
  have hhitRegs : a.OnlyRegs (a.incWrap Reg.EPD_CACHE_HIT Fd.EPD_CACHE_HIT.COUNT) [Reg.EPD_CACHE_HIT] := OnlyRegs.same.wr _ (by simp)
  generalize a.incWrap Reg.EPD_CACHE_HIT Fd.EPD_CACHE_HIT.COUNT = b at heq hhitRegs
  have hbchans := congrArg State.chans hhitRegs.1
  have hbclk := congrArg State.clk hhitRegs.1
  have hbpend := congrArg State.pending hhitRegs.1
  have hbchan (m : Nat) : b.chan m = s.chan m := (chan_congr hbchans m).trans (hchans m)
  obtain ⟨hthis, hother, hcount, hrd, hwclk, hwpend⟩ := b.bound_spec (num := r.leg / 2) (c := c) (r.leg % 2 = 1) (inPkt codec d.payload s.clk.now (f.bytes.length + 4))
    ((hbchan _).trans hc)
  generalize b.bound c (r.leg % 2 = 1) (inPkt codec d.payload s.clk.now (f.bytes.length + 4)) = w at heq hthis hother hcount hrd hwclk hwpend
  have hmem := noteMem_onlyMem w 0
  generalize w.noteMem 0 = u at heq hmem
  have huchan (m : Nat) : u.chan m = w.chan m := hmem.part fun z => z.chan m
  have huclk : u.clk = w.clk := hmem.part State.clk
  have hupend : u.pending = w.pending := hmem.part State.pending
  refine ⟨u, heq, huclk.trans (hwclk.trans (hbclk.trans hclk)), hupend.trans (hwpend.trans (hbpend.trans hpend)), (huchan _).trans hthis,
    fun m e he hne => (huchan m).trans (hother m e ((hbchan m).trans he) hne), ?_, ?_⟩
  · rw [rxCount, hmem.get _ (by simp) (by decide) (by decide) (by decide), get_congr ((hrd _ (by decide)).trans (hhitRegs.2 _ (by decide))), hrx,
      rxCount]
  · rw [hmem.get _ (by simp) (by decide) (by decide) (by decide), hcount, get_congr (hhitRegs.2 _ (by decide)),
      hstep.get _ (by simp only [stepRegs, List.mem_cons, List.not_mem_nil, or_false, Reg.PKT_BOUND_CNT, Reg.PKT_RX_CNT, Reg.RING_MACFIFO]; omega)
        (by decide) (by decide) (by decide)]

theorem receive_disabled {s : State} {p : Nat} {f : RxFrame} (v : SrtpIn) (hen : s.macEn p = false) : s.receive p f v = s :=
  if_pos (by simp [hen])

end State

/-- Settles O28: what the port, the memory, the FIFO, the classifier and the directory find decides where the frame goes. -/
theorem frameReception : Obligations.FrameReception := by
  unfold Obligations.FrameReception
  intro s t port f v hup p len one sat
  refine ⟨fun hen => ?_, fun ha hroom => ⟨fun hlate hctl => ?_, fun hlate hcls => ?_, ?_⟩, fun ha hfull => ?_, fun hprov hen hmerge hwhole => ?_⟩
  · exact State.act_of_eq (fun s => s.receive port.toNat f v) hup (State.receive_disabled (s := s.atTick t) v hen) rfl rfl
  · obtain ⟨u, hu, hwait, hrx, hframe⟩ := State.receive_late (s := s.atTick t) port.isLt v ha hroom hlate hctl
    have hclk : u.clk = s.clk.advance t := hframe.part State.clk
    have hpend : u.pending = s.pending := hframe.part State.pending
    exact ⟨u, State.act_of_eq (fun s => s.receive port.toNat f v) hup hu hclk hpend, hwait, hrx, hframe⟩
  · obtain ⟨u, hu, hrx, herr, hlatch, hframe⟩ := State.receive_error (s := s.atTick t) port.isLt v ha hroom hlate hcls
    have hclk : u.clk = s.clk.advance t := hframe.part State.clk
    have hpend : u.pending = s.pending := hframe.part State.pending
    exact ⟨u, State.act_of_eq (fun s => s.receive port.toNat f v) hup hu hclk hpend, hrx, herr, hlatch, hframe⟩
  · intro d h r c codec hlate hhit hcls hkey hrec hmeter hring hc hcodec hinbox
    obtain ⟨u, hu, hclk, hpend, hthis, hother, hrx, hbound⟩ :=
      State.receive_bound (s := s.atTick t) port.isLt v ha hroom hlate hhit hcls hkey hrec hmeter hring hc hcodec hinbox
    exact ⟨u, State.act_of_eq (fun s => s.receive port.toNat f v) hup hu hclk hpend, hthis, hother, hrx, hbound⟩
  · obtain ⟨u, hu, hframe, hdrop, hlatch⟩ := State.receive_full (s := s.atTick t) port.isLt v ha hfull
    have hclk : u.clk = s.clk.advance t := hframe.part State.clk
    have hpend : u.pending = s.pending := hframe.part State.pending
    exact ⟨u, State.act_of_eq (fun s => s.receive port.toNat f v) hup hu hclk hpend, hdrop, hlatch, hframe⟩
  · obtain ⟨u, hu, hframe, hdrop, hovr, hunc⟩ := State.receive_spoiled_spec (s := s.atTick t) port.isLt v hprov hen hmerge hwhole
    have hclk : u.clk = s.clk.advance t := hframe.part State.clk
    have hpend : u.pending = s.pending := hframe.part State.pending
    exact ⟨u, State.act_of_eq (fun s => s.receive port.toNat f v) hup hu hclk hpend, hdrop, hovr, hunc, hframe⟩

end Sys2Proof.Machine
end

section
/-! PROOFS. Fragments: the job that handles one, the datagrams that stay incomplete, and frames that waited too long (R276, R286). -/

namespace Sys2Proof.Machine

namespace State

/-! ## Datagrams that stay incomplete (R276) -/

theorem OnlyMem.setReasm {s u : State} {r : List Nat} (h : s.OnlyMem u r) (l : List Datagram) : OnlyMem (s.setReasm l) (u.setReasm l) r :=
  h.under fun z => z.setReasm l

/-- Datagrams that are younger than four beats. -/
def liveGrams (s : State) : List Datagram := s.nw.reasm.filter fun d => (s.clk.n - d.beat).toNat < 4

/-- Datagrams that have been incomplete for four beats or more. -/
def deadGrams (s : State) : List Datagram := s.nw.reasm.filter fun d => 4 ≤ (s.clk.n - d.beat).toNat

theorem reasmTimeout_spec (s : State) :
    ∃ u, s.reasmTimeout = u ∧ OnlyMem (s.setReasm s.liveGrams) u [Reg.PKT_REASM_DROP_CNT]
      ∧ u.get Reg.PKT_REASM_DROP_CNT Fd.PKT_REASM_DROP_CNT.COUNT
          = min (s.get Reg.PKT_REASM_DROP_CNT Fd.PKT_REASM_DROP_CNT.COUNT + s.deadGrams.length) (2 ^ 32 - 1) := by
  have heq : s.reasmTimeout = ((s.setReasm s.liveGrams).inc Reg.PKT_REASM_DROP_CNT Fd.PKT_REASM_DROP_CNT.COUNT s.deadGrams.length).noteMem 0 := rfl
  have hset : (s.setReasm s.liveGrams).get Reg.PKT_REASM_DROP_CNT Fd.PKT_REASM_DROP_CNT.COUNT
      = s.get Reg.PKT_REASM_DROP_CNT Fd.PKT_REASM_DROP_CNT.COUNT := rfl
  generalize s.deadGrams.length = n at heq ⊢
  generalize s.setReasm s.liveGrams = v at heq hset ⊢
  have hcount := get_inc_same v Reg.PKT_REASM_DROP_CNT Fd.PKT_REASM_DROP_CNT.COUNT n (by decide) (by decide)
  have hinc := (OnlyMem.same (s := v) (r := [Reg.PKT_REASM_DROP_CNT])).inc (a := Reg.PKT_REASM_DROP_CNT) Fd.PKT_REASM_DROP_CNT.COUNT n (by simp)
  generalize v.inc Reg.PKT_REASM_DROP_CNT Fd.PKT_REASM_DROP_CNT.COUNT n = w at heq hcount hinc
  have hmem := noteMem_onlyMem w 0
  generalize w.noteMem 0 = u at heq hmem
  refine ⟨u, heq, hinc.andThen hmem.weaken, ?_⟩
  rw [hmem.get _ (by simp) (by decide) (by decide) (by decide), hcount, hset]
  rfl

/-! ## Frames that waited too long (R286) -/

/-- A frame that is dropped for want of time. -/
def overdue (s : State) : State := (s.inc Reg.PKT_OVERLOAD_DROP_CNT Fd.PKT_OVERLOAD_DROP_CNT.COUNT).event Pg.PKT Ev.PKT.OVERLOAD

theorem overdue_spec (s : State) : s.OnlyEvents s.overdue [Reg.PKT_OVERLOAD_DROP_CNT]
    ∧ s.overdue.get Reg.PKT_OVERLOAD_DROP_CNT Fd.PKT_OVERLOAD_DROP_CNT.COUNT
        = min (s.get Reg.PKT_OVERLOAD_DROP_CNT Fd.PKT_OVERLOAD_DROP_CNT.COUNT + 1) (2 ^ 32 - 1)
    ∧ s.overdue.Latched Pg.PKT Ev.PKT.OVERLOAD := by
  refine ⟨(OnlyEvents.same.inc _ _ (by simp)).event _ _, ?_, event_latched _ _ _ (by decide)⟩
  rw [overdue, get_event _ _ _ _ (by decide), get_inc_same _ _ _ _ (by decide) (by decide)]
  rfl

/-- Each frame of a list is counted, and the first latches OVERLOAD. -/
theorem foldl_overdue {α : Type} (l : List α) (s : State) : s.OnlyEvents (l.foldl (fun s _ => s.overdue) s) [Reg.PKT_OVERLOAD_DROP_CNT]
    ∧ (s.get Reg.PKT_OVERLOAD_DROP_CNT Fd.PKT_OVERLOAD_DROP_CNT.COUNT ≤ 2 ^ 32 - 1 →
        (l.foldl (fun s _ => s.overdue) s).get Reg.PKT_OVERLOAD_DROP_CNT Fd.PKT_OVERLOAD_DROP_CNT.COUNT
          = min (s.get Reg.PKT_OVERLOAD_DROP_CNT Fd.PKT_OVERLOAD_DROP_CNT.COUNT + l.length) (2 ^ 32 - 1))
    ∧ (l ≠ [] ∨ s.Latched Pg.PKT Ev.PKT.OVERLOAD → (l.foldl (fun s _ => s.overdue) s).Latched Pg.PKT Ev.PKT.OVERLOAD) := by
  induction l generalizing s with
  | nil => exact ⟨.same, fun h => by simpa using h, fun h => h.elim (fun h => absurd rfl h) id⟩
  | cons x xs ih =>
    obtain ⟨hev, hcount, hlatch⟩ := s.overdue_spec
    rw [List.foldl_cons]
    generalize s.overdue = v at hev hcount hlatch
    obtain ⟨hev', hcount', hlatch'⟩ := ih v
    refine ⟨hev.andThen hev', fun h => ?_, fun _ => hlatch' (.inr hlatch)⟩
    rw [hcount' (by rw [hcount]; exact min_le_right _ _), hcount, List.length_cons]
    generalize s.get Reg.PKT_OVERLOAD_DROP_CNT Fd.PKT_OVERLOAD_DROP_CNT.COUNT = c at h ⊢
    generalize 2 ^ 32 - 1 = m
    omega

/-- The waiting frames that are dropped. -/
def overdueFrames (s : State) : List StoredFrame := s.nw.waiting.filter fun w => w.stamp + usTicks 40 ≤ s.clk.now

/-- The waiting frames that stay. -/
def timelyFrames (s : State) : List StoredFrame := s.nw.waiting.filter fun w => s.clk.now < w.stamp + usTicks 40

theorem overload_spec (s : State) :
    ∃ u, s.overload = u ∧ OnlyMem (s.withWaiting s.timelyFrames) u [Reg.PKT_OVERLOAD_DROP_CNT]
      ∧ u.get Reg.PKT_OVERLOAD_DROP_CNT Fd.PKT_OVERLOAD_DROP_CNT.COUNT
          = min (s.get Reg.PKT_OVERLOAD_DROP_CNT Fd.PKT_OVERLOAD_DROP_CNT.COUNT + s.overdueFrames.length) (2 ^ 32 - 1)
      ∧ (s.overdueFrames ≠ [] → u.Latched Pg.PKT Ev.PKT.OVERLOAD) := by
  have heq : s.overload = (s.overdueFrames.foldl (fun s _ => s.overdue) (s.withWaiting s.timelyFrames)).noteMem 0 := rfl
  have hset : (s.withWaiting s.timelyFrames).get Reg.PKT_OVERLOAD_DROP_CNT Fd.PKT_OVERLOAD_DROP_CNT.COUNT
      = s.get Reg.PKT_OVERLOAD_DROP_CNT Fd.PKT_OVERLOAD_DROP_CNT.COUNT := rfl
  have hlt : s.get Reg.PKT_OVERLOAD_DROP_CNT Fd.PKT_OVERLOAD_DROP_CNT.COUNT < 2 ^ 32 := bitsOf_lt _ 31 0
  generalize s.overdueFrames = l at heq ⊢
  generalize s.withWaiting s.timelyFrames = v at heq hset ⊢
  obtain ⟨hev, hcount, hlatch⟩ := foldl_overdue l v
  generalize l.foldl (fun s _ => s.overdue) v = w at heq hev hcount hlatch
  have hmem := noteMem_onlyMem w 0
  have hkeep (h : w.Latched Pg.PKT Ev.PKT.OVERLOAD) := h.noteMem 0
  generalize w.noteMem 0 = u at heq hmem hkeep
  refine ⟨u, heq, hev.onlyMem.andThen hmem.weaken, ?_, fun h => hkeep (hlatch (.inl h))⟩
  rw [hmem.get _ (by simp) (by decide) (by decide) (by decide), hcount (by rw [hset]; omega), hset]

/-! ## A fragment and its job (R276) -/

/-- The key of a fragment depends on the port's domain. -/
theorem fragKey_congr {s u : State} {w : StoredFrame} (h : u.rd (Reg.PKT_PORT_DOM w.port) = s.rd (Reg.PKT_PORT_DOM w.port)) (x : IpPart) (id : List Byte) :
    u.fragKey w x id = s.fragKey w x id := by
  unfold fragKey
  rw [get_congr h, get_congr h]

theorem beatOf_congr {s u : State} (h : u.clk = s.clk) (t : Nat) : u.beatOf t = s.beatOf t := by
  rw [beatOf, h, beatOf]

/-- The datagram that a first fragment begins. -/
def newGram (s : State) (w : StoredFrame) (key : List Byte) : Datagram :=
  { key := key, beat := s.beatOf w.stamp, frags := [], size := 0, total := none, first := none }

/-- The datagram that a fragment extends, among `live`. -/
def gramOf (s : State) (live : List Datagram) (w : StoredFrame) (key : List Byte) : Datagram :=
  (live.find? fun d => d.key = key).getD (s.newGram w key)

theorem takeFragment_joins {s : State} {w : StoredFrame} {x : IpPart} {id : List Byte} {off : Nat} {more : Bool} (dir : DirRead) (v : SrtpIn)
    (hroom : s.nw.reasm.length < 512) (hfrags : (s.gramOf s.nw.reasm w (s.fragKey w x id)).frags.length < 16) (hlen : off + x.pay.length ≤ 9216)
    (hwhole : whole (Datagram.add (s.gramOf s.nw.reasm w (s.fragKey w x id)) w.port (etherHead w.bytes x.v6) x off more (w.bytes.length + 4)) = none) :
    s.takeFragment w x id off more dir v = s.setReasm (s.nw.reasm.filter (fun d => d.key ≠ s.fragKey w x id)
      ++ [Datagram.add (s.gramOf s.nw.reasm w (s.fragKey w x id)) w.port (etherHead w.bytes x.v6) x off more (w.bytes.length + 4)]) := by
  have hothers : (s.nw.reasm.filter fun d => d.key ≠ s.fragKey w x id).length < 512 := lt_of_le_of_lt (List.length_filter_le _ _) hroom
  unfold takeFragment
  unfold gramOf newGram at hfrags hwhole ⊢
  dsimp only
  generalize (s.nw.reasm.find? fun d => d.key = s.fragKey w x id).getD _ = d at hfrags hwhole ⊢
  rw [if_neg, hwhole]
  simp only [Bool.or_eq_true, Bool.and_eq_true, decide_eq_true_eq]
  omega

/-- The fragments that wait for their job, without `w`. -/
def dropFrag (s : State) (w : StoredFrame) : State := { s with nw := { s.nw with frags := s.nw.frags.erase w } }

theorem pktJobDone_eq {s : State} {p : Nat} {dir : DirRead} {v : SrtpIn} {j : Job} {w : StoredFrame} {x : IpPart} {id : List Byte} {off : Nat}
    {more : Bool} (hj : s.coreJob .pkt p = some j) (hw : s.nw.frags.find? (fun w => w.port = p) = some w) (hcls : classOf w.bytes = .frag x)
    (hfrag : x.frag = some (id, off, more)) :
    s.pktJobDone p dir v = (((s.reasmTimeout.completeJob j).dropFrag w).takeFragment w x id off more dir v).noteMem 0 := by
  unfold pktJobDone
  rw [hj, hw]
  dsimp only
  rw [hcls]
  dsimp only
  rw [hfrag]
  rfl

theorem not_mem_jobRegs_dom {p : Nat} (hp : p < 8) (k : Nat) : Reg.PKT_PORT_DOM p ∉ jobRegs k := by
  simp only [jobRegs, Reg.PKT_PORT_DOM, Reg.CLU_STAGE_WAIT_CNT, Reg.DSP_HOLD, Reg.DSP_HOLD_CNT, Reg.DSP_PEND, Reg.DSP_PEND_HWM,
    Reg.TRACE_WR_IDX, Reg.TRACE_OLDEST, Reg.TRACE_LOST, List.mem_cons, List.not_mem_nil, or_false]
  omega

theorem evtReg_dom {p : Nat} (hp : p < 8) : evtReg (Reg.PKT_PORT_DOM p) = false := by
  interval_cases p <;> decide

/-- What the job of a port's oldest fragment finds when it has left its core. -/
theorem fragJob_spec (s : State) {p : Nat} (hp : p < 8) (j : Job) (w : StoredFrame) :
    ∃ u, (s.reasmTimeout.completeJob j).dropFrag w = u ∧ u.clk = s.clk ∧ u.pending = s.pending ∧ u.nw.reasm = s.liveGrams
      ∧ u.nw.frags = s.nw.frags.erase w ∧ u.rd (Reg.PKT_PORT_DOM p) = s.rd (Reg.PKT_PORT_DOM p) := by
  obtain ⟨a, ha, hmem, -⟩ := s.reasmTimeout_spec
  rw [ha]
  have hreasm : a.nw.reasm = s.liveGrams := hmem.part fun z => z.nw.reasm
  have hfrags : a.nw.frags = s.nw.frags := hmem.part fun z => z.nw.frags
  have hclk : a.clk = s.clk := hmem.part State.clk
  have hpend : a.pending = s.pending := hmem.part State.pending
  have hdom : a.rd (Reg.PKT_PORT_DOM p) = s.rd (Reg.PKT_PORT_DOM p) := hmem.rd (by simp [Reg.PKT_PORT_DOM, Reg.PKT_REASM_DROP_CNT]; omega)
    (evtReg_dom hp) (by simp only [Reg.PKT_PORT_DOM, Reg.PKT_MEM_HWM]; omega)
    (by simp only [macReg, Reg.PKT_PORT_DOM, Bool.and_eq_false_iff, decide_eq_false_iff_not]; omega)
  have hjob := a.completeJob_onlyJobs j
  have hjobRd := hjob.rd (not_mem_jobRegs_dom hp _) (evtReg_dom hp)
  have hframe := hjob.frame
  generalize a.completeJob j = b at hjobRd hframe ⊢
  have hnw : b.nw = a.nw := hframe.nw
  refine ⟨_, rfl, hframe.clk.trans hclk, hframe.pending.trans hpend, ?_, ?_, hjobRd.trans hdom⟩
  · change b.nw.reasm = _
    rw [hnw, hreasm]
  · change b.nw.frags.erase w = _
    rw [hnw, hfrags]

theorem pktJobDone_spec {s : State} {p : Nat} (hp : p < 8) (dir : DirRead) (v : SrtpIn) {j : Job} {w : StoredFrame} {x : IpPart} {id : List Byte}
    {off : Nat} {more : Bool} (hj : s.coreJob .pkt p = some j) (hw : s.nw.frags.find? (fun w => w.port = p) = some w)
    (hcls : classOf w.bytes = .frag x) (hfrag : x.frag = some (id, off, more)) (hroom : s.liveGrams.length < 512)
    (hfrags : (s.gramOf s.liveGrams w (s.fragKey w x id)).frags.length < 16) (hlen : off + x.pay.length ≤ 9216)
    (hwhole : whole (Datagram.add (s.gramOf s.liveGrams w (s.fragKey w x id)) w.port (etherHead w.bytes x.v6) x off more (w.bytes.length + 4))
      = none) :
    ∃ u, s.pktJobDone p dir v = u ∧ u.clk = s.clk ∧ u.pending = s.pending ∧ u.nw.frags = s.nw.frags.erase w
      ∧ u.nw.reasm = s.liveGrams.filter (fun d => d.key ≠ s.fragKey w x id)
          ++ [Datagram.add (s.gramOf s.liveGrams w (s.fragKey w x id)) w.port (etherHead w.bytes x.v6) x off more (w.bytes.length + 4)] := by
  have heq := pktJobDone_eq (dir := dir) (v := v) hj hw hcls hfrag
  obtain ⟨a, ha, hclk, hpend, hreasm, herase, hdom⟩ := s.fragJob_spec hp j w
  rw [ha] at heq
  have hport : w.port = p := by simpa using List.find?_some hw
  have hkey : a.fragKey w x id = s.fragKey w x id := fragKey_congr (by rw [hport, hdom]) x id
  have hgram : a.gramOf a.nw.reasm w (a.fragKey w x id) = s.gramOf s.liveGrams w (s.fragKey w x id) := by
    rw [gramOf, gramOf, newGram, newGram, hreasm, hkey, beatOf_congr hclk]
  have htake := takeFragment_joins (s := a) (w := w) (x := x) (id := id) (off := off) (more := more) dir v (by rw [hreasm]; exact hroom)
    (by rw [hgram]; exact hfrags) hlen (by rw [hgram]; exact hwhole)
  rw [hgram, hreasm, hkey] at htake
  rw [htake] at heq
  generalize s.liveGrams.filter (fun d => d.key ≠ s.fragKey w x id) ++ [Datagram.add (s.gramOf s.liveGrams w (s.fragKey w x id)) w.port
    (etherHead w.bytes x.v6) x off more (w.bytes.length + 4)] = l at heq ⊢
  have hset : (a.setReasm l).nw.reasm = l ∧ (a.setReasm l).nw.frags = a.nw.frags ∧ (a.setReasm l).clk = a.clk
    ∧ (a.setReasm l).pending = a.pending := ⟨rfl, rfl, rfl, rfl⟩
  generalize a.setReasm l = b at heq hset
  obtain ⟨hbreasm, hbfrags, hbclk, hbpend⟩ := hset
  have hmem := noteMem_onlyMem b 0
  generalize b.noteMem 0 = u at heq hmem
  have hureasm : u.nw.reasm = b.nw.reasm := hmem.part fun z => z.nw.reasm
  have hufrags : u.nw.frags = b.nw.frags := hmem.part fun z => z.nw.frags
  have huclk : u.clk = b.clk := hmem.part State.clk
  have hupend : u.pending = b.pending := hmem.part State.pending
  exact ⟨u, heq, huclk.trans (hbclk.trans hclk), hupend.trans (hbpend.trans hpend), hufrags.trans (hbfrags.trans herase), hureasm.trans hbreasm⟩

end State

/-- Settles O29: a fragment extends its datagram, and what has waited too long is dropped and counted. -/
theorem reassemblyAndOverload : Obligations.ReassemblyAndOverload := by
  unfold Obligations.ReassemblyAndOverload
  refine ⟨fun s t port dir v j w x id off more hup hj hw hcls hfrag => ?_, fun s t hup => ⟨?_, ?_⟩⟩
  · intro key live d d' hroom hfrags hlen hwhole
    obtain ⟨u, hu, hclk, hpend, herase, hreasm⟩ :=
      State.pktJobDone_spec (s := s.atTick t) port.isLt dir v hj hw hcls hfrag hroom hfrags hlen hwhole
    exact ⟨u, State.act_of_eq (fun s => s.pktJobDone port.toNat dir v) hup hu hclk hpend, herase, hreasm⟩
  · obtain ⟨u, hu, hframe, hcount⟩ := (s.atTick t).reasmTimeout_spec
    have hclk : u.clk = s.clk.advance t := hframe.part State.clk
    have hpend : u.pending = s.pending := hframe.part State.pending
    have hreasm : u.nw.reasm = (s.atTick t).liveGrams := hframe.part fun z => z.nw.reasm
    refine ⟨u, State.act_of_eq (fun s => s.reasmTimeout) hup hu hclk hpend, hreasm, hcount, ?_⟩
    rw [hreasm]
    exact hframe
  · obtain ⟨u, hu, hframe, hcount, hlatch⟩ := (s.atTick t).overload_spec
    have hclk : u.clk = s.clk.advance t := hframe.part State.clk
    have hpend : u.pending = s.pending := hframe.part State.pending
    have hwait : u.nw.waiting = (s.atTick t).timelyFrames := hframe.part fun z => z.nw.waiting
    refine ⟨u, State.act_of_eq (fun s => s.overload) hup hu hclk hpend, hwait, hcount, hlatch, ?_⟩
    rw [hwait]
    exact hframe

end Sys2Proof.Machine
end

section
/-! PROOFS. Transmission: what an opportunity puts on the wire, and what leaves when a frame ends (R308, R310, R315, R399). -/

namespace Sys2Proof.Machine

namespace State

/-! ## Ageing (R308) -/

theorem dropHead_clk (s : State) (leg : Nat) : (s.dropHead leg).clk = s.clk := by
  unfold dropHead
  dsimp only
  generalize hf : ({ (s.flow leg) with q := (s.flow leg).q.drop 1, tag := _ } : FlowRun) = f
  have hset : (s.setFlow leg f).clk = s.clk := rfl
  generalize s.setFlow leg f = v at hset ⊢
  split
  · exact hset
  · exact hset

theorem ageFlow_clk (leg fuel : Nat) (s : State) : (ageFlow leg fuel s).clk = s.clk := by
  induction fuel generalizing s with
  | zero => rfl
  | succ n ih =>
    unfold ageFlow
    dsimp only
    split
    · rfl
    · split
      · refine (ih _).trans ?_
        have hdrop := s.dropHead_clk leg
        generalize s.dropHead leg = v at hdrop ⊢
        have hevent : v.OnlyEvents ((v.inc Reg.EGS_AGE_DROP_CNT Fd.EGS_AGE_DROP_CNT.COUNT).event Pg.EGS Ev.EGS.AGED) [Reg.EGS_AGE_DROP_CNT] :=
          (OnlyEvents.same.inc _ _ (by simp)).event _ _
        exact hevent.clk.trans hdrop
      · rfl

theorem agePort_clk (s : State) (p : Nat) : (s.agePort p).clk = s.clk := by
  have key (l : List (Nat × Nat)) (u : State) : (l.foldl (fun s x => ageFlow x.1 x.2 s) u).clk = u.clk := by
    induction l generalizing u with
    | nil => rfl
    | cons x xs ih => exact (ih _).trans (ageFlow_clk _ _ _)
  unfold agePort
  dsimp only
  generalize hl : List.foldl (fun s (x : Nat × Nat) => ageFlow x.1 x.2 s) s _ = v
  have hmem : (v.noteMem 0).clk = v.clk := (noteMem_onlyMem v 0).part State.clk
  rw [hmem, ← hl, key]

/-! ## A frame goes on the wire -/

/-- The frame that goes on the wire of port `p`. -/
def wireOf (s : State) (p k : Nat) (bytes : List Byte) (host : Option HostFrame) (tsId : Nat) : WireFrame :=
  { bytes := bytes, cls := k, start := s.clk.now, frags := 0, sent := 0, sfd := s.txUnits p, host := host, tsId := tsId }

theorem putOnWire_spec (s : State) (p k : Nat) (bytes : List Byte) (host : Option HostFrame) (tsId : Nat) :
    (s.putOnWire p k bytes host tsId).mac p = { s.mac p with wire := some (s.wireOf p k bytes host tsId) }
      ∧ (s.putOnWire p k bytes host tsId).nw.flows = s.nw.flows :=
  ⟨(s.mac_setMac p p _).trans (if_pos rfl), rfl⟩

theorem txOpportunity_down {s : State} {p : Nat} (h : (s.agePort p).linkIsUp p = false) : s.txOpportunity p = s.agePort p := by
  unfold txOpportunity
  dsimp only
  rw [if_pos (by simp [h])]

/-- The wire of port `p` is free. -/
def IdlePort (s : State) (p : Nat) : Prop :=
  s.provided p = true ∧ s.macEn p = true ∧ s.linkIsUp p = true ∧ (s.mac p).wire = none ∧ (s.mac p).parked = none

theorem txOpportunity_idle {s : State} {p : Nat} (h : (s.agePort p).IdlePort p) : s.txOpportunity p = (s.agePort p).startNext p := by
  obtain ⟨hprov, hen, hl, hwire, -⟩ := h
  unfold txOpportunity
  dsimp only
  rw [if_neg (by simp [hprov, hen, hl]), hwire]

theorem startNext_none {s : State} {p : Nat} (hparked : (s.mac p).parked = none) (h : s.readyClass p (fun _ => true) = none) :
    s.startNext p = s := by
  unfold startNext
  rw [hparked]
  dsimp only
  rw [h]

theorem startNext_some {s : State} {p k : Nat} {c : Cand} (hparked : (s.mac p).parked = none)
    (h : s.readyClass p (fun _ => true) = some (k, c)) : s.startNext p = s.startCand p k c := by
  unfold startNext
  rw [hparked]
  dsimp only
  rw [h]

theorem cls_setCls (s : State) (p k : Nat) (c : ClassRun) : (s.setCls p k c).cls p k = c := by
  unfold cls setCls modMac
  rw [mac_setMac, if_pos rfl]
  exact (getD_putAt _ _ _ _ _).trans (if_pos rfl)

theorem cls_congr {s u : State} {p : Nat} (h : (u.mac p).classes = (s.mac p).classes) (k : Nat) : u.cls p k = s.cls p k := by
  rw [cls, h, cls]

/-- A host frame starts (R399). -/
theorem startHost_spec (s : State) (p k : Nat) (f : HostFrame) :
    ∃ u w, s.startHost p k f = u ∧ (u.mac p).wire = some w ∧ w.bytes = f.bytes ∧ w.cls = k ∧ w.start = s.clk.now ∧ w.host = some f
      ∧ (u.cls p k).hostq = (s.cls p k).hostq.drop 1 ∧ u.nw.flows = s.nw.flows := by
  unfold startHost
  dsimp only
  generalize hc : ({ (s.cls p k) with
    v := tagMax (s.cls p k).v (s.cls p k).hostTag, hostq := (s.cls p k).hostq.drop 1, hostTag := _ } : ClassRun) = c
  have hq : c.hostq = (s.cls p k).hostq.drop 1 := by rw [← hc]
  have hcls := s.cls_setCls p k c
  have hflows : (s.setCls p k c).nw.flows = s.nw.flows := rfl
  have hclk : (s.setCls p k c).clk = s.clk := rfl
  generalize s.setCls p k c = v at hcls hflows hclk ⊢
  generalize (v.mac p).tsNext = id
  have hnext : ∃ x, (if f.ts = true then v.modMac p (fun m => { m with tsNext := (id + 1) % 65536 }) else v) = x
      ∧ (x.mac p).classes = (v.mac p).classes ∧ x.nw.flows = v.nw.flows ∧ x.clk = v.clk := by
    split
    · refine ⟨_, rfl, ?_, rfl, rfl⟩
      rw [modMac, mac_setMac, if_pos rfl]
    · exact ⟨v, rfl, rfl, rfl, rfl⟩
  obtain ⟨x, hx, hxcls, hxflows, hxclk⟩ := hnext
  rw [hx]
  obtain ⟨hmac, hwflows⟩ := x.putOnWire_spec p k f.bytes (some f) id
  generalize x.putOnWire p k f.bytes (some f) id = u at hmac hwflows ⊢
  refine ⟨u, x.wireOf p k f.bytes (some f) id, rfl, by rw [hmac], rfl, rfl, congrArg Clk.now (hxclk.trans hclk), rfl, ?_,
    hwflows.trans (hxflows.trans hflows)⟩
  have hclasses : (u.mac p).classes = (v.mac p).classes := by rw [hmac, ← hxcls]
  rw [cls_congr hclasses k, hcls, hq]

/-- What a packet's start leaves: its flow's queue has lost its head, the other flows and the wire are as they were. -/
theorem sendHead_spec (s : State) (p k : Nat) (t : TrainRun) :
    ∃ u, s.sendHead p k t = u ∧ (u.mac p).wire = (s.mac p).wire ∧ (u.flow t.flow).q = (s.flow t.flow).q.drop 1
      ∧ ∀ l, l ≠ t.flow → u.flow l = s.flow l := by
  unfold sendHead
  dsimp only
  generalize hf : ({ (s.flow t.flow) with
    q := (s.flow t.flow).q.drop 1, shp := _, tag := _ } : FlowRun) = f
  have hq : f.q = (s.flow t.flow).q.drop 1 := by rw [← hf]
  have hset (l : Nat) := s.flow_setFlow t.flow l f
  have hmac : (s.setFlow t.flow f).mac p = s.mac p := rfl
  generalize s.setFlow t.flow f = v at hset hmac ⊢
  have hagg (x : AggRun) : (v.setAgg t.agg x).mac p = v.mac p ∧ (v.setAgg t.agg x).nw.flows = v.nw.flows := ⟨rfl, rfl⟩
  generalize hx : v.setAgg t.agg _ = x
  obtain ⟨hxmac, hxflows⟩ : x.mac p = v.mac p ∧ x.nw.flows = v.nw.flows := by
    rw [← hx]
    exact hagg _
  have hcls (c : ClassRun) : ((x.setCls p k c).mac p).wire = (x.mac p).wire ∧ (x.setCls p k c).nw.flows = x.nw.flows := by
    refine ⟨?_, rfl⟩
    rw [setCls, modMac, mac_setMac, if_pos rfl]
  generalize hy : x.setCls p k _ = y
  obtain ⟨hymac, hyflows⟩ : (y.mac p).wire = (x.mac p).wire ∧ y.nw.flows = x.nw.flows := by
    rw [← hy]
    exact hcls _
  have htag : ∃ z, (if y.aggBusy t.agg = true then y.retagAgg t.agg else y) = z ∧ z.mac p = y.mac p ∧ z.nw.flows = y.nw.flows := by
    split
    · exact ⟨_, rfl, rfl, rfl⟩
    · exact ⟨y, rfl, rfl, rfl⟩
  obtain ⟨z, hz, hzmac, hzflows⟩ := htag
  rw [hz]
  have hnw : (z.incWrap Reg.EGS_TX_CNT Fd.EGS_TX_CNT.COUNT).nw = z.nw := rfl
  generalize z.incWrap Reg.EGS_TX_CNT Fd.EGS_TX_CNT.COUNT = u at hnw ⊢
  have hflows : u.nw.flows = v.nw.flows := by rw [hnw, hzflows, hyflows, hxflows]
  have hflow (l : Nat) : u.flow l = v.flow l := by rw [flow, hflows, flow]
  refine ⟨u, rfl, ?_, ?_, fun l hl => ?_⟩
  · rw [mac, hnw, ← mac, hzmac, hymac, hxmac, hmac]
  · rw [hflow, hset, if_pos rfl, hq]
  · rw [hflow, hset, if_neg hl]

/-- A sojourn's watermark changes registers and what events do. -/
theorem noteSojourn_onlyEvents (s : State) (p cyc : Nat) : s.OnlyEvents (s.noteSojourn p cyc) [Reg.HWM_SOJ p, Reg.HWM_NOTICE] := by
  have hraise : s.OnlyEvents (s.raise (Reg.HWM_SOJ p) Fd.HWM_SOJ.CYC (sat32 cyc)) [Reg.HWM_SOJ p, Reg.HWM_NOTICE] :=
    OnlyEvents.same.put _ _ (by simp)
  unfold noteSojourn
  dsimp only
  generalize s.raise (Reg.HWM_SOJ p) Fd.HWM_SOJ.CYC (sat32 cyc) = v at hraise ⊢
  split
  · unfold notice
    dsimp only
    split
    · exact hraise
    · exact (hraise.wr _ (by simp)).event _ _
  · exact hraise

/-- `w` is a frame that starts on the wire now. -/
def Starts (s u : State) (p k : Nat) (bytes : List Byte) (host : Option HostFrame) (w : WireFrame) : Prop :=
  (u.mac p).wire = some w ∧ w.bytes = bytes ∧ w.cls = k ∧ w.start = s.clk.now ∧ w.host = host

/-- A leg's packet starts. -/
theorem startPacket_spec (s : State) (p k : Nat) (t : TrainRun) (bytes : List Byte) :
    ∃ u w, s.startPacket p k t bytes = u ∧ s.Starts u p k bytes none w ∧ (u.flow t.flow).q = (s.flow t.flow).q.drop 1
      ∧ ∀ l, l ≠ t.flow → u.flow l = s.flow l := by
  unfold startPacket
  dsimp only
  generalize (s.clk.now - _) / cycTicks = cyc
  have hnote := s.noteSojourn_onlyEvents p cyc
  generalize s.noteSojourn p cyc = v at hnote ⊢
  obtain ⟨hmac, hflows⟩ := v.putOnWire_spec p k bytes none 0
  generalize v.putOnWire p k bytes none 0 = x at hmac hflows ⊢
  generalize hy : ({ x with freeCtr := _ } : State) = y
  have hynw : y.nw = x.nw := by rw [← hy]
  obtain ⟨z, hz, hzwire, hzflow, hzother⟩ := y.sendHead_spec p k t
  rw [hz]
  have hmem := noteMem_onlyMem z 0
  generalize z.noteMem 0 = u at hmem ⊢
  have huflows : u.nw.flows = z.nw.flows := hmem.part fun q => q.nw.flows
  have huwire : (u.mac p).wire = (z.mac p).wire := (congrArg MacRun.wire (hmem.2.1 p) : _)
  have hflow (l : Nat) : y.flow l = s.flow l := by rw [flow, hynw, hflows, hnote.nw, flow]
  have huflow (l : Nat) : u.flow l = z.flow l := by rw [flow, huflows, flow]
  refine ⟨u, v.wireOf p k bytes none 0, rfl, ⟨?_, rfl, rfl, congrArg Clk.now hnote.clk, rfl⟩, ?_, fun l hl => ?_⟩
  · rw [huwire, hzwire, mac, hynw, ← mac, hmac]
  · rw [huflow, hzflow, hflow]
  · rw [huflow, hzother l hl, hflow]

/-- A train's first packet starts. -/
theorem startCand_fresh (s : State) (p k g leg : Nat) :
    ∃ u w, s.startCand p k (.fresh g leg) = u ∧ s.Starts u p k (s.candBytes p k (.fresh g leg)) none w
      ∧ (u.flow leg).q = (s.flow leg).q.drop 1 ∧ ∀ l, l ≠ leg → u.flow l = s.flow l := by
  have hexcess : ∃ v, (if ((s.newTrain g leg).flowExcess || (s.newTrain g leg).aggExcess) = true then
      s.inc Reg.EGS_EXCESS_CNT Fd.EGS_EXCESS_CNT.COUNT else s) = v ∧ v.nw = s.nw ∧ v.clk = s.clk := by
    split
    · exact ⟨_, rfl, rfl, rfl⟩
    · exact ⟨s, rfl, rfl, rfl⟩
  obtain ⟨v, hv, hnw, hclk⟩ := hexcess
  unfold startCand
  dsimp only
  rw [hv]
  have hflow (l : Nat) : v.flow l = s.flow l := by rw [flow, hnw, flow]
  obtain ⟨u, w, hu, ⟨hwire, hbytes, hcls, hstart, hhost⟩, hq, hother⟩ := v.startPacket_spec p k (s.newTrain g leg) (s.candBytes p k (.fresh g leg))
  refine ⟨u, w, hu, ⟨hwire, hbytes, hcls, hstart.trans (congrArg Clk.now hclk), hhost⟩, ?_, fun l hl => (hother l hl).trans (hflow l)⟩
  exact hq.trans (by rw [hflow]; rfl)

/-! ## A frame ends (R340, R399) -/

theorem frameTxDone_early {s : State} {p : Nat} {w : WireFrame} (hw : (s.mac p).wire = some w) (h : s.clk.now < s.wireEnd w) :
    s.frameTxDone p = s := by
  unfold frameTxDone
  rw [hw]
  exact if_pos h

/-- A frame that was sent whole leaves, with its counts. -/
theorem sentFrame_spec (s : State) (p : Nat) (bytes : List Byte) :
    ∃ u, s.sentFrame p bytes = u ∧ (∃ r, s.OnlyEvents u r) ∧ Sends s u (.frame p (padFrame bytes))
      ∧ u.rd (Reg.MAC_CNT p 23) = Word.of ((s.rd (Reg.MAC_CNT p 23)).toNat + 1)
      ∧ u.rd (Reg.MAC_CNT p 24) = Word.of ((s.rd (Reg.MAC_CNT p 24)).toNat + wireBytes bytes) := by
  have hlen : wireBytes bytes ≠ 0 := by
    unfold wireBytes
    omega
  have hevt (i : Nat) (hi : i < 32) : evtReg (Reg.MAC_CNT p i) = false := by
    simp only [evtReg, Bool.or_eq_false_iff, decide_eq_false_iff_not, Reg.MAC_CNT, Reg.LOG_LOST_CNT, Reg.MGMT_NET_DROP]
    refine ⟨⟨?_, ?_⟩, ?_⟩ <;> omega
  unfold sentFrame
  have hev := s.macCount_onlyEvents p 23 1
  have hout := s.suffix_macCount p 23 1
  have hcnt := s.macCount_rd_self p (i := 23) (n := 1) (by decide) (by decide)
  have hkeep := s.macCount_rd p 23 1 (a := Reg.MAC_CNT p 24) (by simp only [Reg.MAC_CNT]; omega)
    (by simp only [Reg.MAC_CNT, Reg.MAC_CNT_NOTICE]; omega) (hevt 24 (by decide))
  generalize s.macCount p 23 1 = v at hev hout hcnt hkeep ⊢
  have hev' := v.macCount_onlyEvents p 24 (wireBytes bytes)
  have hout' := v.suffix_macCount p 24 (wireBytes bytes)
  have hcnt' := v.macCount_rd_self p (i := 24) (n := wireBytes bytes) (by decide) hlen
  have hkeep' := v.macCount_rd p 24 (wireBytes bytes) (a := Reg.MAC_CNT p 23) (by simp only [Reg.MAC_CNT]; omega)
    (by simp only [Reg.MAC_CNT, Reg.MAC_CNT_NOTICE]; omega) (hevt 23 (by decide))
  generalize v.macCount p 24 (wireBytes bytes) = x at hev' hout' hcnt' hkeep' ⊢
  refine ⟨_, rfl, ⟨_, (hev.trans hev').emit _⟩, Sends.after (hout.trans hout') List.suffix_rfl, ?_, ?_⟩
  · exact hkeep'.trans hcnt
  · exact hcnt'.trans (by rw [hkeep])

/-- The wire of a port is free again. -/
def freeWire (s : State) (p : Nat) : State := s.setMac p { s.mac p with wire := none }

theorem frameTxDone_plain {s : State} {p : Nat} {w : WireFrame} (hw : (s.mac p).wire = some w) (h : s.wireEnd w ≤ s.clk.now) (hfrags : w.frags = 0)
    (hhost : w.host = none) : s.frameTxDone p = (s.freeWire p).sentFrame p w.bytes := by
  unfold frameTxDone
  rw [hw]
  dsimp only
  rw [if_neg (by omega), if_neg (by omega), hhost]
  rfl

theorem frameTxDone_host {s : State} {p : Nat} {w : WireFrame} {f : HostFrame} (hw : (s.mac p).wire = some w) (h : s.wireEnd w ≤ s.clk.now)
    (hfrags : w.frags = 0) (hhost : w.host = some f) (hts : f.ts = false) :
    s.frameTxDone p = ((s.freeWire p).sentFrame p w.bytes).hostDone f .ok w.tsId := by
  unfold frameTxDone
  rw [hw]
  dsimp only
  rw [if_neg (by omega), if_neg (by omega), hhost]
  dsimp only
  rw [if_neg (by simp [hts])]
  rfl

theorem freeWire_spec (s : State) (p : Nat) : (s.freeWire p).clk = s.clk ∧ (s.freeWire p).pending = s.pending ∧ (s.freeWire p).out = s.out
    ∧ (∀ a, (s.freeWire p).rd a = s.rd a) ∧ ((s.freeWire p).mac p).wire = none ∧ (s.freeWire p).nw.rings = s.nw.rings := by
  refine ⟨rfl, rfl, rfl, fun _ => rfl, ?_, rfl⟩
  rw [freeWire, mac_setMac, if_pos rfl]

/-- What has left when a frame on the wire has ended. -/
theorem frameEnd_spec (s : State) (p : Nat) (bytes : List Byte) :
    ∃ u, (s.freeWire p).sentFrame p bytes = u ∧ u.clk = s.clk ∧ u.pending = s.pending ∧ (u.mac p).wire = none
      ∧ Sends s u (.frame p (padFrame bytes)) ∧ u.rd (Reg.MAC_CNT p 23) = Word.of ((s.rd (Reg.MAC_CNT p 23)).toNat + 1)
      ∧ u.rd (Reg.MAC_CNT p 24) = Word.of ((s.rd (Reg.MAC_CNT p 24)).toNat + wireBytes bytes) ∧ u.nw.rings = s.nw.rings := by
  obtain ⟨hclk, hpend, hout, hrd, hwire, hrings⟩ := s.freeWire_spec p
  generalize s.freeWire p = v at hclk hpend hout hrd hwire hrings ⊢
  obtain ⟨u, hu, ⟨r, hev⟩, hsends, hframes, hbytes⟩ := v.sentFrame_spec p bytes
  rw [hrd] at hframes hbytes
  refine ⟨u, hu, hev.clk.trans hclk, hev.pending.trans hpend, ?_, ?_, hframes, hbytes, by rw [hev.nw, hrings]⟩
  · rw [mac, hev.nw, ← mac, hwire]
  · unfold Sends at hsends ⊢
    rwa [hout] at hsends

theorem ringOf_setRing (s : State) (g h : Nat) (r : Ring) : (s.setRing g r).ringOf h = if h = g then r else s.ringOf h := getD_putAt _ _ _ _ _

/-- The descriptor of a host frame has its outcome. -/
theorem hostDone_ok {s : State} {f : HostFrame} (tsId : Nat) (hgen : (s.ringOf f.ring).gen = f.gen) (hts : f.ts = false) :
    ((s.hostDone f .ok tsId).ringOf f.ring).tx
        = (s.ringOf f.ring).tx.map (fun x => if x.count = f.count then { x with done := some (Status.ok.code, 0) } else x)
      ∧ (s.hostDone f .ok tsId).clk = s.clk ∧ (s.hostDone f .ok tsId).pending = s.pending ∧ (s.hostDone f .ok tsId).nw.macs = s.nw.macs := by
  unfold hostDone
  dsimp only
  rw [if_pos hgen]
  refine ⟨?_, rfl, rfl, rfl⟩
  rw [ringOf_setRing, if_pos rfl]
  simp [hts]

end State

/-- Settles O32: what the chosen candidate is decides what goes on the wire; its end frees the wire and lets the frame leave. -/
theorem transmission : Obligations.Transmission := by
  unfold Obligations.Transmission
  intro s t port hup p a
  have haclk : a.clk = s.clk.advance t := (s.atTick t).agePort_clk p
  have hact (f : State → State) (u : State) (h : f (s.atTick t) = u) :
      s.act t f = .next { u with clk := s.clk.advance t, pending := s.pending } := (State.act_up s t f hup).trans (by rw [h])
  refine ⟨fun hl => ?_, fun hprov hen hl hwire hparked => ?_, fun w hw => ⟨fun h => ?_, fun h hfrags => ⟨fun hhost => ?_, fun f hhost hts hgen => ?_⟩⟩⟩
  · exact hact (fun s => s.txOpportunity port.toNat) _ (State.txOpportunity_down hl)
  · have hidle := State.txOpportunity_idle (s := s.atTick t) ⟨hprov, hen, hl, hwire, hparked⟩
    refine ⟨fun hr => ?_, fun k f hr => ?_, fun k g leg hr => ?_⟩
    · exact hact (fun s => s.txOpportunity port.toNat) _ (hidle.trans (State.startNext_none hparked hr))
    · obtain ⟨u, w, hu, hwire', hbytes, hcls, hstart, hhost, hq, hflows⟩ := State.startHost_spec a p k f
      exact ⟨_, w, hact (fun s => s.txOpportunity port.toNat) u (hidle.trans ((State.startNext_some hparked hr).trans hu)), hwire', hbytes, hcls,
        hstart.trans (congrArg Clk.now haclk), hhost, hq, hflows⟩
    · obtain ⟨u, w, hu, ⟨hwire', hbytes, hcls, hstart, hhost⟩, hq, hother⟩ := State.startCand_fresh a p k g leg
      exact ⟨_, w, hact (fun s => s.txOpportunity port.toNat) u (hidle.trans ((State.startNext_some hparked hr).trans hu)), hwire', hbytes, hcls,
        hstart.trans (congrArg Clk.now haclk), hhost, hq, hother⟩
  · exact State.act_of_eq (fun s => s.frameTxDone port.toNat) hup (State.frameTxDone_early (s := s.atTick t) hw h) rfl rfl
  · obtain ⟨u, hu, hclk, hpend, hwire, hsends, hframes, hbytes, -⟩ := (s.atTick t).frameEnd_spec p w.bytes
    refine ⟨u, State.act_of_eq (fun s => s.frameTxDone port.toNat) hup ((State.frameTxDone_plain (s := s.atTick t) hw h hfrags hhost).trans hu)
      hclk hpend, hwire, hsends, ?_, ?_⟩
    · rw [hframes]
      exact BitVec.toNat_ofNat _ _
    · rw [hbytes]
      exact BitVec.toNat_ofNat _ _
  · obtain ⟨u, hu, hclk, hpend, hwire, -, -, -, hrings⟩ := (s.atTick t).frameEnd_spec p w.bytes
    have heq := State.frameTxDone_host (s := s.atTick t) hw h hfrags hhost hts
    rw [hu] at heq
    have hring : u.ringOf f.ring = s.ringOf f.ring := by
      rw [State.ringOf, hrings]
      rfl
    obtain ⟨htx, hdclk, hdpend, hdmacs⟩ := State.hostDone_ok (s := u) w.tsId (by rw [hring]; exact hgen) hts
    rw [hring] at htx
    generalize u.hostDone f .ok w.tsId = v at heq htx hdclk hdpend hdmacs
    refine ⟨v, State.act_of_eq (fun s => s.frameTxDone port.toNat) hup heq (hdclk.trans hclk) (hdpend.trans hpend), ?_, htx⟩
    rw [State.mac, hdmacs, ← State.mac, hwire]

end Sys2Proof.Machine
end

section
/-! PROOFS. PCM highways: frames, loss of frame sync, and the settings of groups and highways (R374 to R384). -/

namespace Sys2Proof.Machine

namespace State

/-! ## What an edge keeps -/

theorem sends_iff {s u : State} {o : Output} {l : List Output} (h : u.out = l ++ s.out) : Sends s u o ↔ o ∈ l := by
  unfold Sends
  rw [h, List.length_append, Nat.add_sub_cancel, List.take_left]

/-- An output that has left is not taken back. -/
theorem Sends.mono {s v u : State} {o : Output} (h : s.out <:+ v.out) (hs : Sends s v o) (h' : v.out <:+ u.out) : Sends s u o := by
  obtain ⟨l, hl⟩ := h
  obtain ⟨m, hm⟩ := h'
  rw [sends_iff hl.symm] at hs
  rw [sends_iff (show u.out = (m ++ l) ++ s.out by rw [← hm, ← hl, List.append_assoc])]
  exact List.mem_append_right _ hs

/-- An output that leaves later has left. -/
theorem Sends.earlier {s v u : State} {o : Output} (h : s.out <:+ v.out) (h' : v.out <:+ u.out) (hs : Sends v u o) : Sends s u o := by
  obtain ⟨l, hl⟩ := h
  obtain ⟨m, hm⟩ := h'
  rw [sends_iff hm.symm] at hs
  rw [sends_iff (show u.out = (m ++ l) ++ s.out by rw [← hm, ← hl, List.append_assoc])]
  exact List.mem_append_left _ hs

/-- A register of the settings of groups and highways. -/
def pcmCfg (a : Nat) : Prop := 0x90000 ≤ a ∧ a < 0xA0000 ∧ (a % 0x1000 = 0x40 ∨ a % 0x1000 = 0x44)

theorem pcmCfg_evtReg {a : Nat} (h : pcmCfg a) : evtReg a = false := by
  obtain ⟨h1, h2, h3⟩ := h
  simp only [evtReg, Bool.or_eq_false_iff, decide_eq_false_iff_not, Reg.LOG_LOST_CNT, Reg.MGMT_NET_DROP]
  refine ⟨⟨?_, ?_⟩, ?_⟩ <;> omega

theorem pcmCfg_group {i : Nat} (hi : i < 16) : pcmCfg (Reg.PCM_GROUP_CFG i) := by
  simp only [pcmCfg, Reg.PCM_GROUP_CFG]
  omega

theorem pcmCfg_hwy {i : Nat} (hi : i < 16) : pcmCfg (Reg.PCM_HWY_CFG i) := by
  simp only [pcmCfg, Reg.PCM_HWY_CFG]
  omega

/-- `u` is `s` for a reader of the clock, of the settings of groups and highways, and of the legs' output; latches and what has
left stay. -/
structure SamePcm (s u : State) : Prop where
  clk : u.clk = s.clk
  pending : u.pending = s.pending
  outs : u.nw.pcmOut = s.nw.pcmOut
  rd : ∀ a, pcmCfg a → u.rd a = s.rd a
  latched : ∀ p b, s.Latched p b → u.Latched p b
  out : s.out <:+ u.out

theorem SamePcm.refl (s : State) : SamePcm s s := ⟨rfl, rfl, rfl, fun _ _ => rfl, fun _ _ h => h, List.suffix_rfl⟩

theorem SamePcm.trans {s u v : State} (h : SamePcm s u) (h' : SamePcm u v) : SamePcm s v :=
  ⟨h'.clk.trans h.clk, h'.pending.trans h.pending, h'.outs.trans h.outs, fun a ha => (h'.rd a ha).trans (h.rd a ha),
    fun p b hl => h'.latched p b (h.latched p b hl), h.out.trans h'.out⟩

theorem SamePcm.wr (s : State) {a : Nat} (w : Word) (ha : ¬pcmCfg a) (hl : a % 0x1000 ≠ 0x10) : SamePcm s (s.wr a w) :=
  ⟨rfl, rfl, rfl, fun b hb => rd_wr_ne s w fun he => ha (he ▸ hb), fun p _ h => h.wr w (latch_ne hl p), by rw [out_wr]⟩

theorem SamePcm.event (s : State) (page b : Nat) (hb : b < 32) : SamePcm s (s.event page b) := by
  have hev := event_onlyEvents s page b
  have hlatch (p b' : Nat) (h : s.Latched p b') := event_keeps s page b p b' hb h
  have hout := suffix_event s page b
  generalize s.event page b = u at hev hlatch hout
  exact ⟨hev.clk, hev.pending, by rw [hev.nw], fun a ha => hev.2 a (by simp) (pcmCfg_evtReg ha), hlatch, hout⟩

theorem SamePcm.eventIf (s : State) (c : Bool) (page b : Nat) (hb : b < 32) : SamePcm s (s.eventIf c page b) := by
  unfold State.eventIf
  split
  · exact SamePcm.event s page b hb
  · exact .refl s

theorem SamePcm.emit (s : State) (o : Output) : SamePcm s (s.emit o) :=
  ⟨rfl, rfl, rfl, fun _ _ => rfl, fun _ _ h => h.of_rd rfl, suffix_emit s o⟩

theorem SamePcm.setHwy (s : State) (h : Nat) (w : Highway) : SamePcm s (s.setHwy h w) :=
  ⟨rfl, rfl, rfl, fun _ _ => rfl, fun _ _ h => h.of_rd rfl, List.suffix_rfl⟩

theorem hwy_setHwy (s : State) (h k : Nat) (w : Highway) : (s.setHwy h w).hwy k = if k = h then w else s.hwy k := getD_putAt _ _ _ _ _

theorem hwy_congr {s u : State} (h : u.nw = s.nw) (k : Nat) : u.hwy k = s.hwy k := by
  rw [hwy, h, hwy]

theorem SamePcm.setGroup (s : State) (g : Nat) (y : PcmGroup) : SamePcm s (s.setGroup g y) :=
  ⟨rfl, rfl, rfl, fun _ _ => rfl, fun _ _ h => h.of_rd rfl, List.suffix_rfl⟩

theorem SamePcm.hwyIdle {s u : State} (hs : SamePcm s u) {h : Nat} (hh : h < 16) : u.hwyIdle h = s.hwyIdle h := by
  rw [State.hwyIdle, get_congr (hs.rd _ (pcmCfg_hwy hh)), State.hwyIdle]

theorem SamePcm.hwyEn {s u : State} (hs : SamePcm s u) {h : Nat} (hh : h < 16) : u.hwyEn h = s.hwyEn h := by
  rw [State.hwyEn, flag, get_congr (hs.rd _ (pcmCfg_hwy hh)), State.hwyEn, flag]

theorem SamePcm.rxSlots {s u : State} (hs : SamePcm s u) {h : Nat} (hh : h < 16) (bits slots : Nat) (data : List Byte) (lost : List Nat) :
    u.rxSlots h bits slots data lost = s.rxSlots h bits slots data lost := by
  rw [State.rxSlots, hs.hwyIdle hh, State.rxSlots]

theorem SamePcm.slotOut {s u : State} (hs : SamePcm s u) {h : Nat} (hh : h < 16) (t j : Nat) (whole : Bool) (lost : List (Nat × Nat)) :
    u.slotOut h t j whole lost = s.slotOut h t j whole lost := by
  unfold State.slotOut State.unusedSlot State.flag
  rw [hs.hwyIdle hh, hs.outs, hs.clk, get_congr (hs.rd _ (pcmCfg_hwy hh))]

/-! ## One highway at an edge (R375, R379, R384) -/

theorem pcmFifo_spec (s : State) (h corr : Nat) (ovr under : Bool) : SamePcm s (s.pcmFifo h corr ovr under) ∧ (s.pcmFifo h corr ovr under).nw = s.nw := by
  have hcfg : ¬pcmCfg (Reg.PCM_FIFO h) := by simp only [pcmCfg, Reg.PCM_FIFO]; omega
  have hlatch : Reg.PCM_FIFO h % 0x1000 ≠ 0x10 := by simp only [Reg.PCM_FIFO]; omega
  have hput (v : State) (f : Fd) (c : Bool) : SamePcm v (if c = true then v.putB (Reg.PCM_FIFO h) f true else v)
      ∧ (if c = true then v.putB (Reg.PCM_FIFO h) f true else v).nw = v.nw := by
    split
    · exact ⟨SamePcm.wr v _ hcfg hlatch, rfl⟩
    · exact ⟨.refl v, rfl⟩
  have hevent (v : State) (c : Bool) : (v.eventIf c (Pg.PCM h) Ev.PCM.FIFO_ERR).nw = v.nw := (eventIf_onlyEvents v c _ _).nw
  unfold pcmFifo
  dsimp only
  obtain ⟨h1, n1⟩ : SamePcm s (s.inc (Reg.PCM_FIFO h) Fd.PCM_FIFO.CORR corr) ∧ (s.inc (Reg.PCM_FIFO h) Fd.PCM_FIFO.CORR corr).nw = s.nw :=
    ⟨SamePcm.wr s _ hcfg hlatch, rfl⟩
  generalize s.inc (Reg.PCM_FIFO h) Fd.PCM_FIFO.CORR corr = a at h1 n1 ⊢
  obtain ⟨h2, n2⟩ := hput a Fd.PCM_FIFO.RX_OVR ovr
  generalize (if ovr = true then a.putB (Reg.PCM_FIFO h) Fd.PCM_FIFO.RX_OVR true else a) = b at h2 n2 ⊢
  obtain ⟨h3, n3⟩ := hput b Fd.PCM_FIFO.TX_UNDER under
  generalize (if under = true then b.putB (Reg.PCM_FIFO h) Fd.PCM_FIFO.TX_UNDER true else b) = c at h3 n3 ⊢
  exact ⟨((h1.trans h2).trans h3).trans (SamePcm.eventIf c _ _ _ (by decide)), (hevent c _).trans (n3.trans (n2.trans n1))⟩

/-- The frame that highway `h` drives. -/
def driven (s : State) (h j slots : Nat) (whole : Bool) (x : PcmFrameIn) : Output :=
  .pcm h ((List.range slots).map fun t => s.slotOut h t j whole x.txLost)

/-- Highway `h` with the frame that ended. -/
def taken (s : State) (h slots : Nat) (x : PcmFrameIn) : Highway :=
  { s.hwy h with rx := (s.hwy h).rx ++ [s.rxSlots h x.bits slots (x.data.getD (h % 4) []) (rxLost x h x.bits)] }

theorem hwyEdge_spec (s : State) {h : Nat} (hh : h < 16) (j slots : Nat) (whole : Bool) (x : PcmFrameIn) :
    ∃ u, s.hwyEdge h j slots whole x = u ∧ SamePcm s u ∧ u.nw.groups = s.nw.groups ∧ u.hwy h = s.taken h slots x
      ∧ (∀ k, k ≠ h → u.hwy k = s.hwy k) ∧ (s.hwyEn h = true → Sends s u (s.driven h j slots whole x)) := by
  unfold hwyEdge
  dsimp only
  obtain ⟨hfifo, hnw⟩ := s.pcmFifo_spec h ((pcmPass x h x.bits).corr + x.txCorr.getD (h % 4) 0) (!(rxLost x h x.bits).isEmpty)
    (x.txLost.any fun p => p.1 = h)
  generalize s.pcmFifo h _ _ _ = v at hfifo hnw ⊢
  have htaken : ({ v.hwy h with rx := (v.hwy h).rx ++ [v.rxSlots h x.bits slots (x.data.getD (h % 4) []) (rxLost x h x.bits)] } : Highway)
      = s.taken h slots x := by rw [taken, hwy_congr hnw, hfifo.rxSlots hh]
  rw [htaken]
  generalize s.taken h slots x = y
  have hkeep := hfifo.trans (SamePcm.setHwy v h y)
  have hw (k : Nat) := hwy_setHwy v h k y
  have hgroups : (v.setHwy h y).nw.groups = v.nw.groups := rfl
  generalize v.setHwy h y = w at hkeep hw hgroups ⊢
  rw [hnw] at hgroups
  have hother (k : Nat) (hk : k ≠ h) : w.hwy k = s.hwy k := (hw k).trans ((if_neg hk).trans (hwy_congr hnw k))
  unfold hwyOut
  by_cases hen : s.hwyEn h = true
  · rw [if_pos (by rw [hkeep.hwyEn hh, hen])]
    have hdriven : (Output.pcm h ((List.range slots).map fun t => w.slotOut h t j whole x.txLost)) = s.driven h j slots whole x := by
      simp only [driven, hkeep.slotOut hh]
    rw [hdriven]
    have hemit := SamePcm.emit w (s.driven h j slots whole x)
    have hnw' : (w.emit (s.driven h j slots whole x)).nw = w.nw := rfl
    have hsends : Sends w (w.emit (s.driven h j slots whole x)) (s.driven h j slots whole x) := Sends.of_suffix List.suffix_rfl
    generalize w.emit (s.driven h j slots whole x) = u at hemit hnw' hsends ⊢
    exact ⟨u, rfl, hkeep.trans hemit, by rw [hnw', hgroups], (hwy_congr hnw' h).trans ((hw h).trans (if_pos rfl)), fun k hk => (hwy_congr hnw' k).trans (hother k hk),
      fun _ => Sends.earlier hkeep.out hemit.out hsends⟩
  · rw [if_neg (by rw [hkeep.hwyEn hh]; exact hen)]
    exact ⟨w, rfl, hkeep, hgroups, (hw h).trans (if_pos rfl), hother, fun h => absurd h hen⟩

/-- Several highways at an edge. -/
theorem foldEdges {f : State → Nat → State} {j slots : Nat} {whole : Bool} {x : PcmFrameIn} {l : List Nat} (hl : l.Nodup)
    (hlt : ∀ h ∈ l, h < 16) (s : State) (hf : ∀ u h, SamePcm s u → f u h = u.hwyEdge h j slots whole x) :
    ∃ u, l.foldl f s = u ∧ SamePcm s u ∧ u.nw.groups = s.nw.groups ∧ (∀ h, h ∉ l → u.hwy h = s.hwy h)
      ∧ ∀ h ∈ l, u.hwy h = s.taken h slots x ∧ (s.hwyEn h = true → Sends s u (s.driven h j slots whole x)) := by
  induction l generalizing s with
  | nil => exact ⟨s, rfl, .refl s, rfl, fun _ _ => rfl, fun h hh => by simp at hh⟩
  | cons a as ih =>
    obtain ⟨ha, has⟩ := List.nodup_cons.mp hl
    obtain ⟨v, hv, hkeep, hgroups, hthis, hother, hsends⟩ := s.hwyEdge_spec (hlt a (by simp)) j slots whole x
    obtain ⟨u, hu, hkeep', hgroups', hrest, hall⟩ := ih has (fun h hh => hlt h (by simp [hh])) v fun u h hu => hf u h (hkeep.trans hu)
    refine ⟨u, by rw [List.foldl_cons, hf s a (.refl s), hv, hu], hkeep.trans hkeep', hgroups'.trans hgroups, fun h hh => ?_, fun h hh => ?_⟩
    · have hne : h ≠ a := fun he => hh (by simp [he])
      have hnot : h ∉ as := fun hm => hh (by simp [hm])
      exact (hrest h hnot).trans (hother h hne)
    · have hh16 := hlt h hh
      by_cases he : h = a
      · subst he
        exact ⟨(hrest h ha).trans hthis, fun hen => Sends.mono hkeep.out (hsends hen) hkeep'.out⟩
      · obtain ⟨htaken, hdrive⟩ := hall h ((List.mem_cons.mp hh).resolve_left he)
        refine ⟨htaken.trans ?_, fun hen => ?_⟩
        · rw [taken, taken, hother h he, hkeep.rxSlots hh16]
        · have hd : v.driven h j slots whole x = s.driven h j slots whole x := by simp only [driven, hkeep.slotOut hh16]
          exact Sends.earlier hkeep.out hkeep'.out (hd ▸ hdrive (by rw [hkeep.hwyEn hh16, hen]))

/-! ## An edge of a locked group (R375, R377) -/

theorem group_setGroup (s : State) (g k : Nat) (x : PcmGroup) : (s.setGroup g x).group k = if k = g then x else s.group k := getD_putAt _ _ _ _ _

theorem group_congr {s u : State} (h : u.nw = s.nw) (k : Nat) : u.group k = s.group k := by
  rw [group, h, group]

theorem mem_groupHwys_lt {g h : Nat} (hg : g < 4) (hh : h ∈ groupHwys g) : h < 16 := by
  simp only [groupHwys, List.mem_cons, List.not_mem_nil, or_false] at hh
  omega

theorem groupHwys_nodup (g : Nat) : (groupHwys g).Nodup := by
  simp [groupHwys]

/-- The settings of a group read as before. -/
theorem groupGet_congr {s u : State} {g : Nat} (h : u.rd (Reg.PCM_GROUP_CFG (4 * g)) = s.rd (Reg.PCM_GROUP_CFG (4 * g))) (f : Fd) :
    u.groupGet g f = s.groupGet g f := get_congr h f

/-- What an edge that a locked group takes leaves. -/
structure Edge (s u : State) (g : Nat) (x : PcmFrameIn) : Prop where
  clk : u.clk = s.clk
  pending : u.pending = s.pending
  group : u.group g = { s.group g with lastEdge := s.clk.now, edges := (s.group g).edges + 1 }
  hwys : ∀ h ∈ groupHwys g, u.hwy h = s.taken h (s.frameBits g / 8) x
    ∧ (s.hwyEn h = true → Sends s u (s.driven h (s.group g).edges (s.frameBits g / 8) (s.group g).whole x))
  others : ∀ h, h ∉ groupHwys g → u.hwy h = s.hwy h
  latched : ∀ p b, s.Latched p b → u.Latched p b

/-- A frame of another length is noted. -/
def noteLength (s : State) (g : Nat) (bad : Bool) : State :=
  if bad then (s.inc (Reg.PCM_FRAME_ERR_CNT (4 * g)) Fd.PCM_FRAME_ERR_CNT.COUNT).event (Pg.PCM (4 * g)) Ev.PCM.FRAME_ERR else s

theorem noteLength_spec (s : State) (g : Nat) (bad : Bool) : SamePcm s (s.noteLength g bad) ∧ (s.noteLength g bad).nw = s.nw
    ∧ (bad = true → (s.noteLength g bad).Latched (Pg.PCM (4 * g)) Ev.PCM.FRAME_ERR) := by
  unfold noteLength
  cases bad with
  | false => exact ⟨.refl s, rfl, fun h => by simp at h⟩
  | true =>
    have hcount : SamePcm s (s.inc (Reg.PCM_FRAME_ERR_CNT (4 * g)) Fd.PCM_FRAME_ERR_CNT.COUNT) :=
      SamePcm.wr s _ (by simp only [pcmCfg, Reg.PCM_FRAME_ERR_CNT]; omega) (by simp only [Reg.PCM_FRAME_ERR_CNT]; omega)
    have hnw : (s.inc (Reg.PCM_FRAME_ERR_CNT (4 * g)) Fd.PCM_FRAME_ERR_CNT.COUNT).nw = s.nw := rfl
    rw [if_pos rfl]
    generalize s.inc (Reg.PCM_FRAME_ERR_CNT (4 * g)) Fd.PCM_FRAME_ERR_CNT.COUNT = v at hcount hnw ⊢
    exact ⟨hcount.trans (SamePcm.event v _ _ (by decide)), (event_onlyEvents v _ _).nw.trans hnw, fun _ => event_latched v _ _ (by decide)⟩

/-- A group has taken an edge. -/
def countEdge (s : State) (g : Nat) (y : PcmGroup) : State := s.setGroup g { y with lastEdge := s.clk.now, edges := y.edges + 1 }

theorem lockedEdge_eq (s : State) (g : Nat) (x : PcmFrameIn) :
    s.lockedEdge g x = (groupHwys g).foldl (fun u h => u.hwyEdge h (s.group g).edges (u.frameBits g / 8) (s.group g).whole x)
      ((s.noteLength g (!s.groupMaster g && x.bits != s.frameBits g)).countEdge g (s.group g)) := by
  unfold lockedEdge noteLength countEdge
  rfl

theorem countEdge_spec (s : State) (g : Nat) (y : PcmGroup) :
    SamePcm s (s.countEdge g y) ∧ (s.countEdge g y).group g = { y with lastEdge := s.clk.now, edges := y.edges + 1 }
      ∧ ∀ h, (s.countEdge g y).hwy h = s.hwy h :=
  ⟨SamePcm.setGroup s g _, (group_setGroup s g g _).trans (if_pos rfl), fun _ => rfl⟩

theorem SamePcm.frameBits {s u : State} (h : SamePcm s u) {g : Nat} (hg : g < 4) : u.frameBits g = s.frameBits g := by
  rw [State.frameBits, groupGet_congr (h.rd _ (pcmCfg_group (by omega))), State.frameBits]

/-- An edge of a locked group. -/
theorem lockedEdge_spec (s : State) {g : Nat} (hg : g < 4) (x : PcmFrameIn) :
    ∃ u, s.lockedEdge g x = u ∧ Edge s u g x
      ∧ (s.groupMaster g = false → x.bits ≠ s.frameBits g → u.Latched (Pg.PCM (4 * g)) Ev.PCM.FRAME_ERR) := by
  rw [lockedEdge_eq]
  obtain ⟨hnote, hnw, hlatch⟩ := s.noteLength_spec g (!s.groupMaster g && x.bits != s.frameBits g)
  generalize s.noteLength g (!s.groupMaster g && x.bits != s.frameBits g) = v at hnote hnw hlatch ⊢
  obtain ⟨hcount, hgroup, hhwy⟩ := v.countEdge_spec g (s.group g)
  generalize v.countEdge g (s.group g) = w at hcount hgroup hhwy ⊢
  have hbefore := hnote.trans hcount
  obtain ⟨u, hu, hkeep, hgroups, hrest, hall⟩ := foldEdges (f := fun u h => u.hwyEdge h (s.group g).edges (u.frameBits g / 8) (s.group g).whole x) (j := (s.group g).edges) (slots := s.frameBits g / 8) (whole := (s.group g).whole)
    (x := x) (groupHwys_nodup g) (fun h hh => mem_groupHwys_lt hg hh) w fun z h hz => by rw [(hbefore.trans hz).frameBits hg]
  have hwhwy (h : Nat) : w.hwy h = s.hwy h := (hhwy h).trans (hwy_congr hnw h)
  have hafter := hbefore.trans hkeep
  refine ⟨u, hu, ⟨hafter.clk, hafter.pending, ?_, fun h hh => ?_, fun h hh => (hrest h hh).trans (hwhwy h), hafter.latched⟩, fun hm hb => ?_⟩
  · rw [group, hgroups, ← group, hgroup, hnote.clk]
  · have hh16 := mem_groupHwys_lt hg hh
    obtain ⟨htaken, hdrive⟩ := hall h hh
    refine ⟨htaken.trans ?_, fun hen => ?_⟩
    · rw [taken, taken, hwhwy, hbefore.rxSlots hh16]
    · have hd : w.driven h (s.group g).edges (s.frameBits g / 8) (s.group g).whole x
          = s.driven h (s.group g).edges (s.frameBits g / 8) (s.group g).whole x := by simp only [driven, hbefore.slotOut hh16]
      exact Sends.earlier hbefore.out hkeep.out (hd ▸ hdrive (by rw [hbefore.hwyEn hh16, hen]))
  · exact (hcount.trans hkeep).latched _ _ (hlatch (by simp [hm, hb]))

/-! ## A frame of a group (R375 to R377) -/

theorem pcmFrame_disabled {s : State} {g : Nat} (x : PcmFrameIn) (h : s.groupEn g = false) : s.pcmFrame g x = s := if_pos (by simp [h])

theorem pcmFrame_master {s : State} {g : Nat} (x : PcmFrameIn) (h : s.groupEn g = true) (hm : s.groupMaster g = true) :
    s.pcmFrame g x = if s.masterEdge g then s.lockedEdge g { x with bits := s.frameBits g } else s :=
  (if_neg (by simp [h])).trans (if_pos hm)

theorem fsLost_not {s : State} {g : Nat} (h : (s.group g).st ≠ .locked ∨ s.clk.now < (s.group g).lastEdge + usTicks 375) : s.fsLost g = s :=
  if_neg (by
    simp only [Bool.and_eq_true, decide_eq_true_eq]
    rintro ⟨⟨hst, -⟩, hnow⟩
    rcases h with h | h
    · exact h hst
    · omega)

theorem pcmFrame_locked {s : State} {g : Nat} (x : PcmFrameIn) (h : s.groupEn g = true) (hm : s.groupMaster g = false)
    (hst : (s.group g).st = .locked) (hnow : s.clk.now < (s.group g).lastEdge + usTicks 375) : s.pcmFrame g x = s.lockedEdge g x := by
  unfold pcmFrame
  rw [if_neg (by simp [h]), if_neg (by simp [hm]), fsLost_not (.inr hnow)]
  dsimp only
  rw [hst]

theorem pcmFrame_lost {s : State} {g : Nat} (x : PcmFrameIn) (h : s.groupEn g = true) (hm : s.groupMaster g = false)
    (hst : (s.group g).st = .lost) : s.pcmFrame g x = s.lostEdge g x := by
  unfold pcmFrame
  rw [if_neg (by simp [h]), if_neg (by simp [hm]), fsLost_not (.inl (by simp [hst]))]
  dsimp only
  rw [hst]

/-- The count of regular edges of a lost group after one more. -/
def regularNow (s : State) (g : Nat) (x : PcmFrameIn) : Nat := if x.bits = s.frameBits g then (s.group g).regular + 1 else 0

/-- A lost group has seen an edge. -/
def sawEdge (s : State) (g : Nat) (x : PcmFrameIn) : State :=
  s.setGroup g { s.group g with regular := s.regularNow g x, lastEdge := s.clk.now }

theorem lostEdge_eq (s : State) (g : Nat) (x : PcmFrameIn) :
    s.lostEdge g x = if 40 ≤ s.regularNow g x then ((s.sawEdge g x).lockGroup g).lockedEdge g x else s.sawEdge g x := rfl

theorem lockGroup_spec (s : State) (g : Nat) : ((s.lockGroup g).group g).st = .locked ∧ (s.lockGroup g).clk = s.clk ∧ (s.lockGroup g).pending = s.pending
    ∧ (s.lockGroup g).Latched (Pg.PCM (4 * g)) Ev.PCM.FS_LOCKED := by
  unfold lockGroup
  generalize hy : ({ s.group g with st := .locked, lastEdge := s.clk.now, regular := 0, whole := s.clk.started && s.clk.now = s.clk.at0 } : PcmGroup) = y
  have hst : y.st = .locked := by rw [← hy]
  have hset := (group_setGroup s g g y).trans (if_pos rfl)
  have hkeep := SamePcm.setGroup s g y
  generalize s.setGroup g y = v at hset hkeep ⊢
  have hev := event_onlyEvents v (Pg.PCM (4 * g)) Ev.PCM.FS_LOCKED
  refine ⟨?_, hev.clk.trans hkeep.clk, hev.pending.trans hkeep.pending, event_latched v _ _ (by decide)⟩
  rw [group_congr hev.nw, hset, hst]

/-- The fortieth regular edge in a row locks a group. -/
theorem lostEdge_locks {s : State} {g : Nat} (hg : g < 4) {x : PcmFrameIn} (hbits : x.bits = s.frameBits g) (hn : 39 ≤ (s.group g).regular) :
    ∃ u, s.lostEdge g x = u ∧ u.clk = s.clk ∧ u.pending = s.pending ∧ (u.group g).st = .locked
      ∧ u.Latched (Pg.PCM (4 * g)) Ev.PCM.FS_LOCKED := by
  have heq := (s.lostEdge_eq g x).trans (if_pos (by rw [regularNow, if_pos hbits]; omega))
  have hsaw : SamePcm s (s.sawEdge g x) := SamePcm.setGroup s g _
  generalize s.sawEdge g x = v at heq hsaw
  obtain ⟨hst, hclk, hpend, hlatch⟩ := v.lockGroup_spec g
  generalize v.lockGroup g = w at heq hst hclk hpend hlatch
  obtain ⟨u, hu, hedge, -⟩ := w.lockedEdge_spec hg x
  refine ⟨u, heq.trans hu, hedge.clk.trans (hclk.trans hsaw.clk), hedge.pending.trans (hpend.trans hsaw.pending), ?_, hedge.latched _ _ hlatch⟩
  rw [hedge.group]
  exact hst

theorem lostEdge_counts {s : State} {g : Nat} {x : PcmFrameIn} (h : x.bits ≠ s.frameBits g ∨ (s.group g).regular < 39) :
    s.lostEdge g x = s.sawEdge g x := by
  refine (s.lostEdge_eq g x).trans (if_neg ?_)
  unfold regularNow
  split
  · next hb => exact fun h40 => h.elim (fun h => h hb) fun h => by omega
  · omega

/-- 375 µs without an edge. -/
theorem fsLost_spec {s : State} {g : Nat} (hst : (s.group g).st = .locked) (hm : s.groupMaster g = false)
    (hnow : (s.group g).lastEdge + usTicks 375 ≤ s.clk.now) :
    ∃ u, s.fsLost g = u ∧ u.group g = { s.group g with st := .lost, regular := 0, whole := false } ∧ u.Latched (Pg.PCM (4 * g)) Ev.PCM.FS_LOST
      ∧ OnlyEvents { s with nw := { s.nw with groups := u.nw.groups } } u [Reg.PCM_FS_LOSS_CNT (4 * g)] := by
  have heq : s.fsLost g = ((s.loseGroup g).inc (Reg.PCM_FS_LOSS_CNT (4 * g)) Fd.PCM_FS_LOSS_CNT.COUNT).event (Pg.PCM (4 * g)) Ev.PCM.FS_LOST :=
    if_pos (by simp [hst, hm, hnow])
  have hset : (s.loseGroup g).group g = { s.group g with st := .lost, regular := 0, whole := false } := (group_setGroup s g g _).trans (if_pos rfl)
  have honly : ({ s with nw := { s.nw with groups := (s.loseGroup g).nw.groups } } : State) = s.loseGroup g := rfl
  generalize s.loseGroup g = v at heq hset honly
  have hev : v.OnlyEvents ((v.inc (Reg.PCM_FS_LOSS_CNT (4 * g)) Fd.PCM_FS_LOSS_CNT.COUNT).event (Pg.PCM (4 * g)) Ev.PCM.FS_LOST)
      [Reg.PCM_FS_LOSS_CNT (4 * g)] := (OnlyEvents.same.inc _ _ (by simp)).event _ _
  have hlatch := event_latched (v.inc (Reg.PCM_FS_LOSS_CNT (4 * g)) Fd.PCM_FS_LOSS_CNT.COUNT) (Pg.PCM (4 * g)) Ev.PCM.FS_LOST (by decide)
  generalize (v.inc (Reg.PCM_FS_LOSS_CNT (4 * g)) Fd.PCM_FS_LOSS_CNT.COUNT).event (Pg.PCM (4 * g)) Ev.PCM.FS_LOST = u at heq hev hlatch
  refine ⟨u, heq, (group_congr hev.nw g).trans hset, hlatch, ?_⟩
  rw [hev.nw, honly]
  exact hev

/-! ## Settings (R374, R383) -/

/-- Only group `g`, latches, messages and the log may differ. -/
structure OneGroup (s u : State) (g : Nat) : Prop where
  others : ∀ k, k ≠ g → u.group k = s.group k
  rest : OnlyEvents { s with nw := { s.nw with groups := u.nw.groups } } u []

theorem OneGroup.refl (s : State) (g : Nat) : OneGroup s s g := ⟨fun _ _ => rfl, OnlyEvents.same⟩

theorem OneGroup.setGroup (s : State) (g : Nat) (y : PcmGroup) : OneGroup s (s.setGroup g y) g :=
  ⟨fun k hk => (group_setGroup s g k y).trans (if_neg hk), OnlyEvents.same⟩

theorem OneGroup.event {s u : State} {g : Nat} (h : OneGroup s u g) (page b : Nat) : OneGroup s (u.event page b) g := by
  have hev := event_onlyEvents u page b
  have hrest := h.rest.event page b
  generalize u.event page b = v at hev hrest
  exact ⟨fun k hk => (group_congr hev.nw k).trans (h.others k hk), by rw [hev.nw]; exact hrest⟩

theorem OneGroup.clk {s u : State} {g : Nat} (h : OneGroup s u g) : u.clk = s.clk := h.rest.clk
theorem OneGroup.pending {s u : State} {g : Nat} (h : OneGroup s u g) : u.pending = s.pending := h.rest.pending

/-- What accepted settings make of their group. -/
def regroup (s : State) (g : Nat) (off again : Bool) : State :=
  if off then s.setGroup g { s.group g with st := .off, regular := 0, whole := false }
  else if !again then s
  else if s.groupMaster g then s.lockGroup g
  else s.loseGroup g

theorem regroup_oneGroup (s : State) (g : Nat) (off again : Bool) : OneGroup s (s.regroup g off again) g := by
  unfold regroup
  split
  · exact .setGroup s g _
  split
  · exact .refl s g
  split
  · exact (OneGroup.setGroup s g _).event _ _
  · exact .setGroup s g _

theorem regroup_off (s : State) (g : Nat) (again : Bool) : ((s.regroup g true again).group g).st = .off :=
  congrArg PcmGroup.st ((group_setGroup s g g _).trans (if_pos rfl))

/-- A write of a group's settings that names no group, or a bad field. -/
def groupBad (h : Nat) (v : Word) : Bool :=
  h % 4 != 0 || fieldOf v Fd.PCM_GROUP_CFG.RATE = 3 || 3071 < fieldOf v Fd.PCM_GROUP_CFG.FS_PHASE

/-- A group's settings after a write. -/
def groupNew (s : State) (h : Nat) (v : Word) : Word :=
  mergeFields (fieldsAt (Reg.PCM_GROUP_CFG h)) .rw (s.rd (Reg.PCM_GROUP_CFG h)) v

/-- A write that makes a group look for its lock again. -/
def groupAgain (s : State) (h : Nat) (v : Word) : Bool :=
  fieldOf (s.rd (Reg.PCM_GROUP_CFG h)) Fd.PCM_GROUP_CFG.EN = 0 || [Fd.PCM_GROUP_CFG.MASTER, Fd.PCM_GROUP_CFG.RATE, Fd.PCM_GROUP_CFG.FS_POL,
    Fd.PCM_GROUP_CFG.CLK_EDGE].any fun x => fieldOf (s.rd (Reg.PCM_GROUP_CFG h)) x != fieldOf (s.groupNew h v) x

theorem groupWrite_badParam {s : State} {h : Nat} {v : Word} (hb : groupBad h v = true) : s.groupWrite h v = s.status (Pg.PCM h) .badParam :=
  if_pos hb

theorem groupWrite_busy {s : State} {h : Nat} {v : Word} (hb : groupBad h v = false) (hnew : s.groupNew h v ≠ s.rd (Reg.PCM_GROUP_CFG h))
    (hown : ((groupHwys (h / 4)).any fun k => s.hwyOwned k) = true) : s.groupWrite h v = s.status (Pg.PCM h) .busy :=
  (if_neg (ne_true_of_eq_false hb)).trans (if_pos (by rw [Bool.and_eq_true]; exact ⟨bne_iff_ne.mpr hnew, hown⟩))

/-- Settings that are written. -/
theorem groupWrite_spec {s : State} {h : Nat} {v : Word} (hh : h < 16) (hb : groupBad h v = false)
    (hfree : s.groupNew h v = s.rd (Reg.PCM_GROUP_CFG h) ∨ ((groupHwys (h / 4)).any fun k => s.hwyOwned k) = false) :
    ∃ u, s.groupWrite h v = u ∧ u.rd (Reg.PCM_GROUP_CFG h) = s.groupNew h v
      ∧ (fieldOf (s.groupNew h v) Fd.PCM_GROUP_CFG.EN = 0 → (u.group (h / 4)).st = .off)
      ∧ (∀ k, k ≠ h / 4 → u.group k = s.group k)
      ∧ OnlyEvents { s with nw := { s.nw with groups := u.nw.groups } } u [Reg.PCM_GROUP_CFG h] := by
  have heq : s.groupWrite h v = (s.wr (Reg.PCM_GROUP_CFG h) (s.groupNew h v)).regroup (h / 4)
      (fieldOf (s.groupNew h v) Fd.PCM_GROUP_CFG.EN = 0) (s.groupAgain h v) := by
    refine (if_neg (ne_true_of_eq_false hb)).trans ((if_neg ?_).trans ?_)
    · rw [Bool.and_eq_true]
      rintro ⟨hne, hown⟩
      rcases hfree with hsame | hno
      · exact bne_iff_ne.mp hne hsame
      · exact absurd hown (ne_true_of_eq_false hno)
    · simp only [regroup, decide_eq_true_eq]
      rfl
  have hrd : (s.wr (Reg.PCM_GROUP_CFG h) (s.groupNew h v)).rd (Reg.PCM_GROUP_CFG h) = s.groupNew h v := rd_wr_same _ _ _
  have hwr : s.OnlyEvents (s.wr (Reg.PCM_GROUP_CFG h) (s.groupNew h v)) [Reg.PCM_GROUP_CFG h] := OnlyEvents.same.wr _ (by simp)
  generalize s.wr (Reg.PCM_GROUP_CFG h) (s.groupNew h v) = w at heq hrd hwr
  have hone := w.regroup_oneGroup (h / 4) (fieldOf (s.groupNew h v) Fd.PCM_GROUP_CFG.EN = 0) (s.groupAgain h v)
  have hoff (he : fieldOf (s.groupNew h v) Fd.PCM_GROUP_CFG.EN = 0) :
      ((w.regroup (h / 4) (fieldOf (s.groupNew h v) Fd.PCM_GROUP_CFG.EN = 0) (s.groupAgain h v)).group (h / 4)).st = .off := by
    rw [decide_eq_true he]
    exact regroup_off w _ _
  generalize w.regroup (h / 4) (fieldOf (s.groupNew h v) Fd.PCM_GROUP_CFG.EN = 0) (s.groupAgain h v) = u at heq hone hoff
  refine ⟨u, heq, ?_, hoff, fun k hk => (hone.others k hk).trans (group_congr hwr.nw k), ?_⟩
  · rw [hone.rest.2 _ (by simp) (pcmCfg_evtReg (pcmCfg_group hh))]
    exact hrd
  · exact (hwr.under fun z => { z with nw := { z.nw with groups := u.nw.groups } }).andThen hone.rest.weaken

theorem hwyWrite_busy {s : State} {h : Nat} {v : Word} (hen : s.hwyEn h = true) (hv : fieldOf v Fd.PCM_HWY_CFG.EN = 0) (hown : s.hwyOwned h = true) :
    s.hwyWrite h v = s.status (Pg.PCM h) .busy := if_pos (by simp [hen, hv, hown])

theorem hwyWrite_ok {s : State} {h : Nat} {v : Word} (hno : ¬(s.hwyEn h = true ∧ fieldOf v Fd.PCM_HWY_CFG.EN = 0 ∧ s.hwyOwned h = true)) :
    s.hwyWrite h v = s.wr (Reg.PCM_HWY_CFG h) (mergeFields (fieldsAt (Reg.PCM_HWY_CFG h)) .rw (s.rd (Reg.PCM_HWY_CFG h)) v) :=
  if_neg (by simpa [and_assoc] using hno)

end State

/-- Settles O39: what the group is decides what its frame does; what a write checks decides its branch. -/
theorem pcmHighways : Obligations.PcmHighways := by
  unfold Obligations.PcmHighways
  refine ⟨fun s t g x hup => ?_, fun s t p h v hs => ?_⟩
  · have hg : g.toNat < 4 := g.isLt
    dsimp only
    refine ⟨fun hen => ?_, fun hen hm he => ?_, fun hen hedge => ?_, fun hen hm hst => ⟨fun hbits hn => ?_, fun h => ?_⟩, fun hst hm hnow => ?_⟩
    · exact State.act_nothing (f := fun s => s.pcmFrame g.toNat x) hup (State.pcmFrame_disabled (s := s.atTick t) x hen)
    · exact State.act_nothing (f := fun s => s.pcmFrame g.toNat x) hup ((State.pcmFrame_master (s := s.atTick t) x hen hm).trans (if_neg (ne_true_of_eq_false he)))
    · have hstep : (s.atTick t).pcmFrame g.toNat x
          = (s.atTick t).lockedEdge g.toNat { x with bits := if s.groupMaster g.toNat then s.frameBits g.toNat else x.bits } := by
        by_cases hm : s.groupMaster g.toNat = true
        · rw [if_pos hm] at hedge ⊢
          exact (State.pcmFrame_master (s := s.atTick t) x hen hm).trans (if_pos hedge)
        · rw [if_neg hm] at hedge ⊢
          exact State.pcmFrame_locked (s := s.atTick t) x hen (eq_false_of_ne_true hm) hedge.1 hedge.2
      obtain ⟨u, hu, hkeep, hlen⟩ := State.lockedEdge_spec (s.atTick t) hg
        { x with bits := if s.groupMaster g.toNat then s.frameBits g.toNat else x.bits }
      refine ⟨u, State.act_of_eq (fun s => s.pcmFrame g.toNat x) hup (hstep.trans hu) hkeep.clk hkeep.pending, hkeep.group, hkeep.hwys,
        hkeep.others, fun hne => ?_⟩
      by_cases hm : s.groupMaster g.toNat = true
      · exact absurd (if_pos hm) hne
      · exact hlen (eq_false_of_ne_true hm) hne
    · obtain ⟨u, hu, hclk, hpend, hlock, hlatch⟩ := State.lostEdge_locks (s := s.atTick t) hg hbits hn
      exact ⟨u, State.act_of_eq (fun s => s.pcmFrame g.toNat x) hup ((State.pcmFrame_lost (s := s.atTick t) x hen hm hst).trans hu) hclk hpend,
        hlock, hlatch⟩
    · have hstep := (State.pcmFrame_lost (s := s.atTick t) x hen hm hst).trans (State.lostEdge_counts h)
      refine ⟨_, State.act_of_eq (fun s => s.pcmFrame g.toNat x) hup hstep rfl rfl, ?_, fun k hk => ?_, rfl⟩
      · exact (State.group_setGroup (s.atTick t) g.toNat g.toNat _).trans (if_pos rfl)
      · exact (State.group_setGroup (s.atTick t) g.toNat k _).trans (if_neg hk)
    · obtain ⟨u, hu, hgroup, hlatch, honly⟩ := State.fsLost_spec (s := s.atTick t) hst hm hnow
      exact ⟨u, State.act_of_eq (fun s => s.fsLost g.toNat) hup hu honly.clk honly.pending, hgroup, hlatch, honly⟩
  · have hh : h.toNat < 16 := h.isLt
    dsimp only
    refine ⟨fun hbad => ?_, fun hbad hnew hown => ?_, fun hbad hfree => ?_, fun hoff => ?_, fun hno => ?_⟩
    · exact State.serves_of_eq (fun s => s.groupWrite h.toNat v) hs (State.groupWrite_badParam (s := s.atTick t) hbad) rfl rfl
    · exact State.serves_of_eq (fun s => s.groupWrite h.toNat v) hs (State.groupWrite_busy (s := s.atTick t) hbad hnew hown) rfl rfl
    · obtain ⟨u, hu, hrd, hoff, hothers, honly⟩ := State.groupWrite_spec (s := s.atTick t) hh hbad hfree
      exact ⟨u, State.serves_of_eq (fun s => s.groupWrite h.toNat v) hs hu honly.clk honly.pending, hrd, hoff, hothers, honly⟩
    · obtain ⟨hen, hv, hown⟩ := hoff
      exact State.serves_of_eq (fun s => s.hwyWrite h.toNat v) hs (State.hwyWrite_busy (s := s.atTick t) hen hv hown) rfl rfl
    · exact State.serves_of_eq (fun s => s.hwyWrite h.toNat v) hs (State.hwyWrite_ok (s := s.atTick t) hno) rfl rfl

end Sys2Proof.Machine
end

section
/-! PROOFS. Host rings: enable, disable, flush, doorbells, and the fetches and completions of transmit rings (R392 to R401). -/

namespace Sys2Proof.Machine

namespace State

/-! ## The registers of a ring (R394) -/

theorem ringRuns_congr {s u : State} {g : Nat} (h : u.rd (ringReg Reg.RING_STATUS g) = s.rd (ringReg Reg.RING_STATUS g)) :
    u.ringRuns g = s.ringRuns g := by
  rw [ringRuns, flag, get_congr h, ringRuns, flag]

theorem ringOf_congr {s u : State} (h : u.nw = s.nw) (g : Nat) : u.ringOf g = s.ringOf g := by
  rw [ringOf, h, ringOf]

theorem ringOf_ne {s : State} {g k : Nat} (r : Ring) (h : k ≠ g) : (s.setRing g r).ringOf k = s.ringOf k := (ringOf_setRing s g k r).trans (if_neg h)

theorem ringOf_same (s : State) (g : Nat) (r : Ring) : (s.setRing g r).ringOf g = r := (ringOf_setRing s g g r).trans (if_pos rfl)

/-- Closes a claim that two registers of rings differ. -/
theorem ringReg_ne {a b g : Nat} (ha : a % 32 ≠ b % 32) : a + 0x1000 * (g / 32) + 32 * (g % 32) ≠ b + 0x1000 * (g / 32) + 32 * (g % 32) := by
  omega

/-- A register of a ring is neither its page's LAST_STATUS nor a register of the event sources. -/
theorem ringReg_plain {a g : Nat} (ha : 0xA1108 ≤ a) (ha' : a < 0xA1120) :
    a + 0x1000 * (g / 32) + 32 * (g % 32) ≠ Reg.PAGE_STATUS (Pg.RINGS (g / 32)) := by
  simp only [Reg.PAGE_STATUS, Pg.RINGS]
  omega

theorem evtReg_ring {a g : Nat} (ha : 0xA1108 ≤ a) (ha' : a < 0xA1120) (hg : g < 256) : evtReg (a + 0x1000 * (g / 32) + 32 * (g % 32)) = false := by
  simp only [evtReg, Bool.or_eq_false_iff, decide_eq_false_iff_not, Reg.LOG_LOST_CNT, Reg.MGMT_NET_DROP]
  refine ⟨⟨?_, ?_⟩, ?_⟩ <;> omega

/-! ## Start (R395) -/

/-- The registers of a ring that its start and stop write. -/
def openRegs (g : Nat) : List Nat :=
  [ringReg Reg.RING_HEAD g, ringReg Reg.RING_TAIL g, ringReg Reg.RING_STATUS g, ringReg Reg.RING_CTRL g, Reg.PAGE_STATUS (Pg.RINGS (g / 32))]

theorem ringEnable_notOwner {s : State} {g : Nat} (h : s.ownedBy (ringPort g) = false) :
    s.ringEnable g = s.status (Pg.RINGS (g / 32)) .notOwner := if_pos (by simp [h])

theorem ringEnable_runs {s : State} {g : Nat} (h : s.ownedBy (ringPort g) = true) (hr : s.ringRuns g = true) :
    s.ringEnable g = s.status (Pg.RINGS (g / 32)) .ok := (if_neg (by simp [h])).trans (if_pos hr)

theorem ringEnable_badParam {s : State} {g : Nat} (h : s.ownedBy (ringPort g) = true) (hr : s.ringRuns g = false)
    (hl : s.get (ringReg Reg.RING_CFG g) Fd.RING_CFG.LOG2SIZE < 6 ∨ 16 < s.get (ringReg Reg.RING_CFG g) Fd.RING_CFG.LOG2SIZE) :
    s.ringEnable g = s.status (Pg.RINGS (g / 32)) .badParam :=
  (if_neg (by simp [h])).trans ((if_neg (ne_true_of_eq_false hr)).trans (if_pos (by simpa using hl)))

/-- The registers of a ring that starts. -/
def ringStarted (s : State) (g : Nat) : State :=
  ((((s.wr (ringReg Reg.RING_HEAD g) 0).wr (ringReg Reg.RING_TAIL g) 0).put (ringReg Reg.RING_STATUS g) Fd.RING_STATUS.RUNNING 1).put
    (ringReg Reg.RING_CTRL g) Fd.RING_CTRL.EN 1).status (Pg.RINGS (g / 32)) .ok

theorem ringStarted_spec (s : State) (g : Nat) :
    ∃ u, s.ringStarted g = u ∧ u.ringRuns g = true ∧ u.rd (ringReg Reg.RING_HEAD g) = 0 ∧ u.rd (ringReg Reg.RING_TAIL g) = 0
      ∧ u.get (ringReg Reg.RING_CTRL g) Fd.RING_CTRL.EN = 1 ∧ u.Reports (Pg.RINGS (g / 32)) .ok ∧ OnlyRegs s u (openRegs g) := by
  have hts : ringReg Reg.RING_TAIL g ≠ ringReg Reg.RING_HEAD g := ringReg_ne (by decide)
  have hhs : ringReg Reg.RING_HEAD g ≠ ringReg Reg.RING_STATUS g := ringReg_ne (by decide)
  have htst : ringReg Reg.RING_TAIL g ≠ ringReg Reg.RING_STATUS g := ringReg_ne (by decide)
  have hhc : ringReg Reg.RING_HEAD g ≠ ringReg Reg.RING_CTRL g := ringReg_ne (by decide)
  have htc : ringReg Reg.RING_TAIL g ≠ ringReg Reg.RING_CTRL g := ringReg_ne (by decide)
  have hsc : ringReg Reg.RING_STATUS g ≠ ringReg Reg.RING_CTRL g := ringReg_ne (by decide)
  have hhp : ringReg Reg.RING_HEAD g ≠ Reg.PAGE_STATUS (Pg.RINGS (g / 32)) := ringReg_plain (by decide) (by decide)
  have htp : ringReg Reg.RING_TAIL g ≠ Reg.PAGE_STATUS (Pg.RINGS (g / 32)) := ringReg_plain (by decide) (by decide)
  have hsp : ringReg Reg.RING_STATUS g ≠ Reg.PAGE_STATUS (Pg.RINGS (g / 32)) := ringReg_plain (by decide) (by decide)
  have hcp : ringReg Reg.RING_CTRL g ≠ Reg.PAGE_STATUS (Pg.RINGS (g / 32)) := ringReg_plain (by decide) (by decide)
  unfold ringStarted
  refine ⟨_, rfl, ?_, ?_, ?_, ?_, reports_status _ _ _, ?_⟩
  · rw [ringRuns, flag, get_status_ne _ _ _ hsp, get_put_ne _ _ _ _ hsc, get_put_same _ _ _ _ (by decide) (by decide)]
    rfl
  · rw [rd_status_ne _ _ hhp, rd_put_ne _ _ _ hhc, rd_put_ne _ _ _ hhs, rd_wr_ne _ _ hts.symm, rd_wr_same]
  · rw [rd_status_ne _ _ htp, rd_put_ne _ _ _ htc, rd_put_ne _ _ _ htst, rd_wr_same]
  · rw [get_status_ne _ _ _ hcp, get_put_same _ _ _ _ (by decide) (by decide)]
    rfl
  · exact ((((OnlyRegs.same.wr _ (by simp [openRegs])).wr _ (by simp [openRegs])).put _ _ (by simp [openRegs])).put _ _
      (by simp [openRegs])).status _ (by simp [openRegs])

theorem ringEnable_spec {s : State} {g : Nat} (h : s.ownedBy (ringPort g) = true) (hr : s.ringRuns g = false)
    (h6 : 6 ≤ s.get (ringReg Reg.RING_CFG g) Fd.RING_CFG.LOG2SIZE) (h16 : s.get (ringReg Reg.RING_CFG g) Fd.RING_CFG.LOG2SIZE ≤ 16) :
    ∃ u, s.ringEnable g = u ∧ u.ringRuns g = true ∧ (∀ k, k ≠ g → u.ringOf k = s.ringOf k)
      ∧ u.ringOf g = { avail := [], since := 0, tx := [], gen := (s.ringOf g).gen + 1 }
      ∧ u.rd (ringReg Reg.RING_HEAD g) = 0 ∧ u.rd (ringReg Reg.RING_TAIL g) = 0
      ∧ u.get (ringReg Reg.RING_CTRL g) Fd.RING_CTRL.EN = 1 ∧ u.Reports (Pg.RINGS (g / 32)) .ok
      ∧ OnlyRegs { s with nw := { s.nw with rings := u.nw.rings } } u (openRegs g) := by
  have heq : s.ringEnable g = (s.setRing g { avail := [], since := 0, tx := [], gen := (s.ringOf g).gen + 1 }).ringStarted g :=
    (if_neg (by simp [h])).trans ((if_neg (ne_true_of_eq_false hr)).trans (if_neg (by simp; omega)))
  have hsame := s.ringOf_same g { avail := [], since := 0, tx := [], gen := (s.ringOf g).gen + 1 }
  have hne (k : Nat) (hk : k ≠ g) := ringOf_ne (s := s) { avail := [], since := 0, tx := [], gen := (s.ringOf g).gen + 1 } hk
  have honly : ({ s with nw := { s.nw with rings := (s.setRing g { avail := [], since := 0, tx := [], gen := (s.ringOf g).gen + 1 }).nw.rings } } : State)
      = s.setRing g { avail := [], since := 0, tx := [], gen := (s.ringOf g).gen + 1 } := rfl
  generalize s.setRing g { avail := [], since := 0, tx := [], gen := (s.ringOf g).gen + 1 } = w at heq hsame hne honly
  obtain ⟨u, hu, hruns, hhead, htail, hen, hrep, hregs⟩ := w.ringStarted_spec g
  have hnw : u.nw = w.nw := (congrArg State.nw hregs.1 :)
  refine ⟨u, heq.trans hu, hruns, fun k hk => (ringOf_congr hnw k).trans (hne k hk), (ringOf_congr hnw g).trans hsame, hhead, htail, hen, hrep, ?_⟩
  rw [hnw, honly]
  exact hregs

/-! ## Stop (R392, R395) -/

/-- The registers of a ring that stops. -/
def ringStopped (s : State) (g cause : Nat) : State :=
  (s.wr (ringReg Reg.RING_STATUS g) (Word.of cause)).put (ringReg Reg.RING_CTRL g) Fd.RING_CTRL.EN 0

/-- A ring without descriptors and frames in hand. -/
def ringEmptied (s : State) (g : Nat) : State := s.setRing g { s.ringOf g with avail := [], since := 0, tx := [] }

theorem stopRing_eq {s : State} {g : Nat} (cause : Nat) (h : s.ringRuns g = true) :
    s.stopRing g cause = ((s.orphanWords (s.partialOf g)).ringEmptied g).ringStopped g cause := if_pos h

theorem orphanWords_onlyEvents (s : State) (n : Nat) {r : List Nat} (hr : Reg.RING_ORPHAN_CNT ∈ r) : OnlyEvents s (s.orphanWords n) r := by
  unfold orphanWords
  split
  · exact OnlyEvents.same
  · exact (OnlyEvents.same.inc _ _ hr).event _ _

theorem ringStopped_spec (s : State) {g : Nat} (cause : Nat) (hc : cause = 1 ∨ cause = 2) :
    ∃ u, (s.ringStopped g cause).status (Pg.RINGS (g / 32)) .ok = u ∧ u.ringRuns g = false ∧ u.rd (ringReg Reg.RING_STATUS g) = Word.of cause
      ∧ u.get (ringReg Reg.RING_CTRL g) Fd.RING_CTRL.EN = 0 ∧ u.Reports (Pg.RINGS (g / 32)) .ok
      ∧ OnlyEvents s u (Reg.RING_ORPHAN_CNT :: openRegs g) := by
  have hsc : ringReg Reg.RING_STATUS g ≠ ringReg Reg.RING_CTRL g := ringReg_ne (by decide)
  have hsp : ringReg Reg.RING_STATUS g ≠ Reg.PAGE_STATUS (Pg.RINGS (g / 32)) := ringReg_plain (by decide) (by decide)
  have hcp : ringReg Reg.RING_CTRL g ≠ Reg.PAGE_STATUS (Pg.RINGS (g / 32)) := ringReg_plain (by decide) (by decide)
  have hrd : ((s.ringStopped g cause).status (Pg.RINGS (g / 32)) .ok).rd (ringReg Reg.RING_STATUS g) = Word.of cause := by
    rw [rd_status_ne _ _ hsp, ringStopped, rd_put_ne _ _ _ hsc, rd_wr_same]
  refine ⟨_, rfl, ?_, hrd, ?_, reports_status _ _ _, ?_⟩
  · rw [ringRuns, flag, get, hrd]
    rcases hc with rfl | rfl <;> decide
  · rw [get_status_ne _ _ _ hcp, ringStopped, get_put_same _ _ _ _ (by decide) (by decide)]
    rfl
  · exact ((OnlyEvents.same.wr _ (by simp [openRegs])).put _ _ (by simp [openRegs])).status _ (by simp [openRegs])

/-- A running ring stops while a record with words still to come is being written. -/
theorem stopWith_spec {s : State} {g : Nat} (n cause : Nat) (hc : cause = 1 ∨ cause = 2) (h : s.ringRuns g = true) :
    ∃ u, s.withPartial g n (fun s => (s.stopRing g cause).status (Pg.RINGS (g / 32)) .ok) = u
      ∧ u.ringRuns g = false ∧ (∀ k, k ≠ g → u.ringOf k = s.ringOf k)
      ∧ u.ringOf g = { s.ringOf g with avail := [], since := 0, tx := [] }
      ∧ u.rd (ringReg Reg.RING_STATUS g) = Word.of cause ∧ u.get (ringReg Reg.RING_CTRL g) Fd.RING_CTRL.EN = 0
      ∧ u.Reports (Pg.RINGS (g / 32)) .ok
      ∧ OnlyEvents { s with nw := { s.nw with rings := u.nw.rings, partials := [] } } u (Reg.RING_ORPHAN_CNT :: openRegs g) := by
  unfold withPartial
  dsimp only
  have hv : ({ s with nw := { s.nw with partials := [(g, n)] } } : State).ringRuns g = true := h
  have hring (k : Nat) : ({ s with nw := { s.nw with partials := [(g, n)] } } : State).ringOf k = s.ringOf k := rfl
  have hback (l : List Ring) : ({ s with nw := { s.nw with rings := l, partials := [] } } : State)
      = (fun z : State => { z with nw := { z.nw with rings := l, partials := [] } }) { s with nw := { s.nw with partials := [(g, n)] } } := rfl
  generalize ({ s with nw := { s.nw with partials := [(g, n)] } } : State) = v at hv hring hback ⊢
  rw [stopRing_eq cause hv]
  have horph := v.orphanWords_onlyEvents (v.partialOf g) (r := Reg.RING_ORPHAN_CNT :: openRegs g) (by simp)
  generalize v.orphanWords (v.partialOf g) = w at horph ⊢
  have hwring (k : Nat) : w.ringOf k = s.ringOf k := (ringOf_congr horph.nw k).trans (hring k)
  have hsame : (w.ringEmptied g).ringOf g = { w.ringOf g with avail := [], since := 0, tx := [] } := ringOf_same _ _ _
  have hne (k : Nat) (hk : k ≠ g) : (w.ringEmptied g).ringOf k = w.ringOf k := ringOf_ne _ hk
  have hempty : ({ w with nw := { w.nw with rings := (w.ringEmptied g).nw.rings } } : State) = w.ringEmptied g := rfl
  generalize w.ringEmptied g = x at hsame hne hempty ⊢
  obtain ⟨y, hy, hruns, hstat, hen, hrep, hev⟩ := x.ringStopped_spec cause hc
  rw [hy]
  refine ⟨_, rfl, hruns, fun k hk => ?_, ?_, hstat, hen, hrep, ?_⟩
  · exact (congrArg (fun l => l.getD k Ring.fresh) (congrArg Net.rings hev.nw)).trans ((hne k hk).trans (hwring k))
  · exact (congrArg (fun l => l.getD g Ring.fresh) (congrArg Net.rings hev.nw)).trans (hsame.trans (by rw [hwring]))
  · have hrings := congrArg Net.rings hev.nw
    have hx : ({ w with nw := { w.nw with rings := y.nw.rings, partials := [] } } : State) = { x with nw := { x.nw with partials := [] } } :=
      (congrArg (fun l => ({ w with nw := { w.nw with rings := l, partials := [] } } : State)) hrings).trans
        (congrArg (fun z : State => ({ z with nw := { z.nw with partials := [] } } : State)) hempty)
    have h1 := horph.under fun z => { z with nw := { z.nw with rings := y.nw.rings, partials := [] } }
    have h2 := hev.under fun z => { z with nw := { z.nw with partials := [] } }
    dsimp only at h1 h2
    rw [hx] at h1
    rw [hback]
    exact h1.andThen h2

/-! ## Doorbells (R396) -/

/-- The descriptors that a doorbell makes available. -/
def newDescs (descs : List RingDesc) (k : Nat) : List RingDesc :=
  (descs ++ List.replicate k ({ addr := 0, len := 0, ctrl := 0, clean := true } : RingDesc)).take k

theorem newDescs_all {descs : List RingDesc} {k : Nat} (h : descs.length = k) : newDescs descs k = descs := by
  rw [newDescs, ← h, List.take_left]

/-- A doorbell within the ring's size. -/
def TailFits (s : State) (g : Nat) (tail : Word) : Prop :=
  s.ringRuns g = true ∧ (tail - s.rd (ringReg Reg.RING_TAIL g)).toNat ≤ s.ringSize g
    ∧ (tail - s.rd (ringReg Reg.RING_HEAD g)).toNat ≤ s.ringSize g

theorem doorbell_fits {s : State} {g : Nat} {tail : Word} {descs : List RingDesc} (h : s.TailFits g tail)
    (hn : descs.length = (tail - s.rd (ringReg Reg.RING_TAIL g)).toNat) :
    ∃ u, s.doorbell g tail descs = u ∧ u.ringOf g = { s.ringOf g with avail := (s.ringOf g).avail ++ descs }
      ∧ u.rd (ringReg Reg.RING_TAIL g) = tail ∧ (∀ k, k ≠ g → u.ringOf k = s.ringOf k)
      ∧ OnlyRegs { s with nw := { s.nw with rings := u.nw.rings } } u [ringReg Reg.RING_TAIL g] := by
  obtain ⟨hruns, htail, hhead⟩ := h
  have heq : s.doorbell g tail descs = (s.setRing g { s.ringOf g with
      avail := (s.ringOf g).avail ++ newDescs descs (tail - s.rd (ringReg Reg.RING_TAIL g)).toNat }).wr (ringReg Reg.RING_TAIL g) tail :=
    if_pos (by rw [hruns, decide_eq_true htail, decide_eq_true hhead]; rfl)
  rw [newDescs_all hn] at heq
  exact ⟨_, heq, ringOf_same s g _, rd_wr_same _ _ _, fun k hk => ringOf_ne (s := s) _ hk, OnlyRegs.same.wr _ (by simp)⟩

theorem doorbell_refused {s : State} {g : Nat} {tail : Word} (descs : List RingDesc) (h : ¬s.TailFits g tail) :
    ∃ u, s.doorbell g tail descs = u ∧ u.Latched Pg.RING Ev.RING.DB_ERR
      ∧ u.get Reg.RING_DB_ERR_CNT Fd.RING_DB_ERR_CNT.COUNT = min (s.get Reg.RING_DB_ERR_CNT Fd.RING_DB_ERR_CNT.COUNT + 1) (2 ^ 32 - 1)
      ∧ OnlyEvents s u [Reg.RING_DB_ERR_CNT, Reg.RING_DB_LAST] := by
  refine ⟨_, if_neg (fun hb => h ?_), event_latched _ _ _ (by decide), ?_, ((OnlyEvents.same.inc _ _ (by simp)).put _ _ (by simp)).event _ _⟩
  · simpa [TailFits, and_assoc] using hb
  · rw [get_event _ _ _ _ (by decide), get_put_ne _ _ _ _ (by decide), get_inc_same _ _ _ _ (by decide) (by decide)]
    rfl

theorem doorbellWrite_serves {s : State} {p : Port} (hs : s.Serves p) (r : Nat) (tail : Word) (descs : List RingDesc) :
    s.doorbellWrite p r tail descs = s.doorbell (if p = .a then r else 128 + r) tail descs := by
  obtain ⟨-, hl, hk, ho, hp⟩ := hs
  unfold doorbellWrite
  dsimp only
  rw [if_neg (by simp [hl]), hk]
  dsimp only
  rw [if_neg (by simp [ho]), if_neg hp]

/-! ## Transmit rings (R399) -/

/-- A transmit ring that may fetch its next descriptor. -/
structure Fetches (s : State) (g : Nat) (d : RingDesc) (rest : List RingDesc) : Prop where
  runs : s.ringRuns g = true
  dir : s.flag (ringReg Reg.RING_CFG g) Fd.RING_CFG.DIR = true
  room : (s.ringOf g).tx.length < 16
  next : (s.ringOf g).avail = d :: rest

/-- The item of descriptor `d` behind those in hand. -/
def nextItem (s : State) (g : Nat) (d : RingDesc) (done : Option (Nat × Nat)) : TxItem :=
  { count := (s.rd (ringReg Reg.RING_HEAD g)).toNat + (s.ringOf g).tx.length, desc := d, done := done }

/-- Ring `g` after it took descriptor `d`. -/
def fetched (s : State) (g : Nat) (d : RingDesc) (rest : List RingDesc) (done : Option (Nat × Nat)) : Ring :=
  { s.ringOf g with avail := rest, tx := (s.ringOf g).tx ++ [s.nextItem g d done] }

/-- The frame of descriptor `d` for the host queue of its class. -/
def descFrame (s : State) (g : Nat) (d : RingDesc) (bytes : List Byte) : HostFrame :=
  { ring := g, gen := (s.ringOf g).gen, count := (s.rd (ringReg Reg.RING_HEAD g)).toNat + (s.ringOf g).tx.length,
    bytes := s.taggedFrame d bytes, ts := bit d.ctrl 3 }

/-- The class of descriptor `d` with a frame more. -/
def classWith (s : State) (d : RingDesc) (f : HostFrame) : ClassRun :=
  { s.cls (d.ctrl % 8) (s.descClass d) with
    hostq := (s.cls (d.ctrl % 8) (s.descClass d)).hostq ++ [f]
    hostTag := if (s.cls (d.ctrl % 8) (s.descClass d)).hostq.isEmpty then
        headTag (s.cls (d.ctrl % 8) (s.descClass d)).v (s.cls (d.ctrl % 8) (s.descClass d)).hostTag
          (s.get Reg.RING_HOSTQ_WEIGHT Fd.RING_HOSTQ_WEIGHT.WEIGHT)
      else (s.cls (d.ctrl % 8) (s.descClass d)).hostTag }

theorem txFetch_eq {s : State} {g : Nat} {d : RingDesc} {rest : List RingDesc} (h : s.Fetches g d rest) (bytes : List Byte) :
    s.txFetch g bytes = if s.descBad d then s.setRing g (s.fetched g d rest (some (Status.badParam.code, 0)))
      else if 16 ≤ (s.cls (d.ctrl % 8) (s.descClass d)).hostq.length then s
      else ((s.setCls (d.ctrl % 8) (s.descClass d) (s.classWith d (s.descFrame g d bytes))).setRing g (s.fetched g d rest none)).emit
        (.dmaRead (ringPort g) d.addr d.len) := by
  have hno : ¬(!s.ringRuns g || !s.flag (ringReg Reg.RING_CFG g) Fd.RING_CFG.DIR || decide (16 ≤ (s.ringOf g).tx.length)) = true := by
    have := h.room
    simp [h.runs, h.dir]
    omega
  unfold txFetch
  dsimp only
  rw [if_neg hno, h.next]
  rfl

theorem txFetch_bad {s : State} {g : Nat} {d : RingDesc} {rest : List RingDesc} (h : s.Fetches g d rest) (bytes : List Byte) (hb : s.descBad d = true) :
    s.txFetch g bytes = s.setRing g (s.fetched g d rest (some (Status.badParam.code, 0))) := (txFetch_eq h bytes).trans (if_pos hb)

theorem txFetch_good {s : State} {g : Nat} {d : RingDesc} {rest : List RingDesc} (h : s.Fetches g d rest) (bytes : List Byte) (hb : s.descBad d = false)
    (hq : (s.cls (d.ctrl % 8) (s.descClass d)).hostq.length < 16) :
    s.txFetch g bytes = ((s.setCls (d.ctrl % 8) (s.descClass d) (s.classWith d (s.descFrame g d bytes))).setRing g (s.fetched g d rest none)).emit
      (.dmaRead (ringPort g) d.addr d.len) :=
  (txFetch_eq h bytes).trans ((if_neg (ne_true_of_eq_false hb)).trans (if_neg (by omega)))

/-- A frame in its queue, its ring, and what the fetch leaves alone. -/
theorem queueFrame_spec (s : State) (g p k : Nat) (c : ClassRun) (r : Ring) (o : Output) :
    ∃ u, ((s.setCls p k c).setRing g r).emit o = u ∧ u.clk = s.clk ∧ u.pending = s.pending ∧ u.ringOf g = r
      ∧ (∀ j, j ≠ g → u.ringOf j = s.ringOf j) ∧ u.cls p k = c
      ∧ ({ u with nw := { u.nw with rings := s.nw.rings, macs := s.nw.macs }, out := s.out } : State) = s := by
  have hcls := s.cls_setCls p k c
  have hrings : (s.setCls p k c).nw.rings = s.nw.rings := rfl
  have hrest : ({ s.setCls p k c with nw := { (s.setCls p k c).nw with macs := s.nw.macs } } : State) = s := rfl
  have hclk : (s.setCls p k c).clk = s.clk := rfl
  have hpend : (s.setCls p k c).pending = s.pending := rfl
  have hout : (s.setCls p k c).out = s.out := rfl
  generalize s.setCls p k c = v at hcls hrings hrest hclk hpend hout ⊢
  refine ⟨_, rfl, hclk, hpend, ringOf_same v g r, fun j hj => (ringOf_ne (s := v) r hj).trans (by rw [ringOf, hrings, ringOf]), hcls, ?_⟩
  rw [← hrings, ← hout]
  exact hrest

/-- A write-back counts. -/
theorem ringDone_spec (s : State) {g : Nat} (hg : g < 256) :
    ∃ u, s.ringDone g = u ∧ (∃ n, u.ringOf g = { s.ringOf g with since := n }) ∧ (∀ k, k ≠ g → u.ringOf k = s.ringOf k)
      ∧ u.get (ringReg Reg.RING_HEAD g) Fd.RING_HEAD.COUNT = (s.get (ringReg Reg.RING_HEAD g) Fd.RING_HEAD.COUNT + 1) % 2 ^ 32
      ∧ s.out <:+ u.out
      ∧ OnlyEvents { s with nw := { s.nw with rings := u.nw.rings } } u [ringReg Reg.RING_HEAD g] := by
  have hcount := get_incWrap_same s (ringReg Reg.RING_HEAD g) Fd.RING_HEAD.COUNT 1 (by decide) (by decide)
  have hev : OnlyEvents s (s.incWrap (ringReg Reg.RING_HEAD g) Fd.RING_HEAD.COUNT) [ringReg Reg.RING_HEAD g] :=
    OnlyEvents.same.incWrap _ _ (by simp)
  have hout : (s.incWrap (ringReg Reg.RING_HEAD g) Fd.RING_HEAD.COUNT).out = s.out := out_wr _ _ _
  unfold ringDone
  dsimp only
  generalize s.incWrap (ringReg Reg.RING_HEAD g) Fd.RING_HEAD.COUNT = v at hcount hev hout ⊢
  have hset (n : Nat) : (v.setRing g { s.ringOf g with since := n }).ringOf g = { s.ringOf g with since := n }
      ∧ (∀ k, k ≠ g → (v.setRing g { s.ringOf g with since := n }).ringOf k = s.ringOf k)
      ∧ (v.setRing g { s.ringOf g with since := n }).get (ringReg Reg.RING_HEAD g) Fd.RING_HEAD.COUNT
          = (s.get (ringReg Reg.RING_HEAD g) Fd.RING_HEAD.COUNT + 1) % 2 ^ 32
      ∧ s.out <:+ (v.setRing g { s.ringOf g with since := n }).out
      ∧ OnlyEvents { s with nw := { s.nw with rings := (v.setRing g { s.ringOf g with since := n }).nw.rings } }
          (v.setRing g { s.ringOf g with since := n }) [ringReg Reg.RING_HEAD g] :=
    ⟨ringOf_same v g _, fun k hk => (ringOf_ne (s := v) _ hk).trans (ringOf_congr hev.nw k), hcount, hout ▸ List.suffix_rfl,
      hev.under fun z => { z with nw := { z.nw with rings := putAt Ring.fresh v.nw.rings g { s.ringOf g with since := n } } }⟩
  split
  · obtain ⟨hthis, hother, hhead, hsuf, honly⟩ := hset 0
    generalize v.setRing g { s.ringOf g with since := 0 } = w at hthis hother hhead hsuf honly ⊢
    have hev' := event_onlyEvents w (Pg.RINGS (g / 32)) (g % 32)
    have hget := get_event w (Pg.RINGS (g / 32)) (g % 32) Fd.RING_HEAD.COUNT (evtReg_ring (a := 0xA1110) (by decide) (by decide) hg)
    have hsuf' := suffix_event w (Pg.RINGS (g / 32)) (g % 32)
    generalize w.event (Pg.RINGS (g / 32)) (g % 32) = u at hev' hget hsuf' ⊢
    refine ⟨u, rfl, ⟨0, (ringOf_congr hev'.nw g).trans hthis⟩, fun k hk => (ringOf_congr hev'.nw k).trans (hother k hk), hget.trans hhead,
      hsuf.trans hsuf', ?_⟩
    rw [hev'.nw]
    exact honly.andThen hev'.weaken
  · obtain ⟨hthis, hother, hhead, hsuf, honly⟩ := hset ((s.ringOf g).since + 1)
    exact ⟨_, rfl, ⟨_, hthis⟩, hother, hhead, hsuf, honly⟩

/-- What a completion writes to the host. -/
def completion (s : State) (g : Nat) (x : TxItem) (st id : Nat) : Output :=
  .dma (ringPort g) (s.descAddr g x.count + 11) ([1] ++ leBytes 4 s.clk.n.toNat ++ leBytes 1 st ++ [0] ++ leBytes 2 id)

theorem txComplete_spec {s : State} {g : Nat} (hg : g < 256) {x : TxItem} {rest : List TxItem} {st id : Nat} (htx : (s.ringOf g).tx = x :: rest)
    (hx : x.done = some (st, id)) :
    ∃ u, s.txComplete g = u ∧ (∀ k, k ≠ g → u.ringOf k = s.ringOf k) ∧ (u.ringOf g).tx = rest ∧ (u.ringOf g).avail = (s.ringOf g).avail
      ∧ Sends s u (s.completion g x st id)
      ∧ u.get (ringReg Reg.RING_HEAD g) Fd.RING_HEAD.COUNT = (s.get (ringReg Reg.RING_HEAD g) Fd.RING_HEAD.COUNT + 1) % 2 ^ 32
      ∧ OnlyEvents { s with nw := { s.nw with rings := u.nw.rings } } u [ringReg Reg.RING_HEAD g] := by
  have heq : s.txComplete g = ((s.setRing g { s.ringOf g with tx := rest }).emit (s.completion g x st id)).ringDone g := by
    unfold txComplete
    dsimp only
    rw [htx]
    dsimp only
    rw [hx]
    rfl
  have hthis : ((s.setRing g { s.ringOf g with tx := rest }).emit (s.completion g x st id)).ringOf g = { s.ringOf g with tx := rest } :=
    ringOf_same s g _
  have hother (k : Nat) (hk : k ≠ g) : ((s.setRing g { s.ringOf g with tx := rest }).emit (s.completion g x st id)).ringOf k = s.ringOf k :=
    ringOf_ne (s := s) _ hk
  have hget : ((s.setRing g { s.ringOf g with tx := rest }).emit (s.completion g x st id)).get (ringReg Reg.RING_HEAD g) Fd.RING_HEAD.COUNT
      = s.get (ringReg Reg.RING_HEAD g) Fd.RING_HEAD.COUNT := rfl
  have hout : ((s.setRing g { s.ringOf g with tx := rest }).emit (s.completion g x st id)).out = s.completion g x st id :: s.out := rfl
  have hback (l : List Ring) (r : List Nat) :
      OnlyEvents { s with nw := { s.nw with rings := l } }
        { (s.setRing g { s.ringOf g with tx := rest }).emit (s.completion g x st id) with
          nw := { ((s.setRing g { s.ringOf g with tx := rest }).emit (s.completion g x st id)).nw with rings := l } } r := ⟨rfl, fun _ _ _ => rfl⟩
  generalize (s.setRing g { s.ringOf g with tx := rest }).emit (s.completion g x st id) = v at heq hthis hother hget hout hback
  obtain ⟨u, hu, ⟨n, hring⟩, hrest, hhead, hsuf, honly⟩ := v.ringDone_spec hg
  rw [hthis] at hring
  refine ⟨u, heq.trans hu, fun k hk => (hrest k hk).trans (hother k hk), by rw [hring], by rw [hring], ?_, by rw [hhead, hget], (hback _ _).andThen honly⟩
  obtain ⟨l, hl⟩ := hsuf
  rw [sends_iff (show u.out = (l ++ [s.completion g x st id]) ++ s.out by rw [← hl, hout]; simp)]
  simp

end State

/-- Settles O40: what a ring command or doorbell checks decides its branch; a transmit ring takes and completes its descriptors in order. -/
theorem hostRings : Obligations.HostRings := by
  unfold Obligations.HostRings
  refine ⟨fun s t p hs => ⟨fun g => ?_, fun r tail descs => ?_⟩, fun s t g hup => ?_⟩
  · have hown : s.own.owner = .host p := of_decide_eq_true hs.2.2.2.1
    have howned : ringPort g.toNat = p → (s.atTick t).ownedBy (ringPort g.toNat) = true := fun h => decide_eq_true (h ▸ hown)
    have hdone {f : State → State} {u : State} {rs : List Nat} {off : Nat} (hu : f (s.atTick t) = u)
        (honly : State.OnlyRegs { s.atTick t with nw := { s.nw with rings := u.nw.rings } } u rs) :
        s.act t (fun s => s.hostWrite p off f) = .next u :=
      State.serves_of_eq f hs hu (congrArg State.clk honly.1 :) (congrArg State.pending honly.1 :)
    dsimp only
    refine ⟨fun h => ?_, fun h hr => ?_, fun h hr hl => ?_, fun h hr h6 h16 => ?_, fun n cause cmd hcmd hr => ?_⟩
    · refine State.serves_of_eq (fun s => s.ringEnable g.toNat) hs (State.ringEnable_notOwner (s := s.atTick t) (decide_eq_false fun he => h ?_)) rfl rfl
      exact Owner.host.inj (he.symm.trans hown)
    · exact State.serves_of_eq (fun s => s.ringEnable g.toNat) hs (State.ringEnable_runs (s := s.atTick t) (howned h) hr) rfl rfl
    · exact State.serves_of_eq (fun s => s.ringEnable g.toNat) hs (State.ringEnable_badParam (s := s.atTick t) (howned h) hr hl) rfl rfl
    · obtain ⟨u, hu, hruns, hother, hring, hhead, htail, hen, hrep, honly⟩ := State.ringEnable_spec (s := s.atTick t) (howned h) hr h6 h16
      exact ⟨u, hdone (f := fun s => s.ringEnable g.toNat) hu honly, hruns, hother, hring, hhead, htail, hen, hrep, honly⟩
    · have hstop (c : Nat) (hc : c = 1 ∨ c = 2) := State.stopWith_spec (s := s.atTick t) (g := g.toNat) n c hc hr
      have hact {u : State} {rs : List Nat} {off : Nat} {f : State → State} (hu : f (s.atTick t) = u)
          (honly : State.OnlyEvents { s.atTick t with nw := { s.nw with rings := u.nw.rings, partials := [] } } u rs) :
          s.act t (fun s => s.hostWrite p off f) = .next u := State.serves_of_eq f hs hu honly.clk honly.pending
      rcases hcmd with ⟨rfl, rfl⟩ | ⟨rfl, rfl⟩
      · obtain ⟨u, hu, hruns, hother, hring, hstat, hen, hrep, honly⟩ := hstop 1 (.inl rfl)
        exact ⟨u, hact (f := fun s => s.withPartial g.toNat n fun s => s.ringDisable g.toNat) hu honly, hruns, hother, hring, hstat, hen, hrep, honly⟩
      · obtain ⟨u, hu, hruns, hother, hring, hstat, hen, hrep, honly⟩ := hstop 2 (.inr rfl)
        exact ⟨u, hact (f := fun s => s.withPartial g.toNat n fun s => s.ringFlush g.toNat) hu honly, hruns, hother, hring, hstat, hen, hrep, honly⟩
  · have hwrite := State.doorbellWrite_serves (s := s.atTick t) hs r.toNat tail descs
    dsimp only
    refine ⟨fun hfits hn => ?_, fun hno => ?_⟩
    · obtain ⟨u, hu, hring, htail, hother, honly⟩ := State.doorbell_fits (s := s.atTick t) hfits hn
      exact ⟨u, State.act_of_eq (fun s => s.doorbellWrite p r.toNat tail descs) hs.1 (hwrite.trans hu) (congrArg State.clk honly.1 :)
        (congrArg State.pending honly.1 :), hring, htail, hother, honly⟩
    · obtain ⟨u, hu, hlatch, hcount, honly⟩ := State.doorbell_refused (s := s.atTick t) descs hno
      exact ⟨u, State.act_of_eq (fun s => s.doorbellWrite p r.toNat tail descs) hs.1 (hwrite.trans hu) honly.clk honly.pending, hlatch, hcount, honly⟩
  · have hg : g.toNat < 256 := g.isLt
    dsimp only
    refine ⟨fun d rest bytes hr hdir hroom hav => ?_, fun x rest st id htx hx => ?_⟩
    · have hf : (s.atTick t).Fetches g.toNat d rest := ⟨hr, hdir, hroom, hav⟩
      refine ⟨fun hb => ?_, fun hb hq => ?_⟩
      · exact ⟨_, State.act_of_eq (fun s => s.txFetch g.toNat bytes) hup (State.txFetch_bad hf bytes hb) rfl rfl, fun k hk => State.ringOf_ne (s := s.atTick t) _ hk,
          State.ringOf_same (s.atTick t) g.toNat _, rfl⟩
      · obtain ⟨u, hu, hclk, hpend, hring, hother, hcls, hrest⟩ := (s.atTick t).queueFrame_spec g.toNat (d.ctrl % 8) ((s.atTick t).descClass d)
          ((s.atTick t).classWith d ((s.atTick t).descFrame g.toNat d bytes)) ((s.atTick t).fetched g.toNat d rest none)
          (.dmaRead (ringPort g.toNat) d.addr d.len)
        exact ⟨u, State.act_of_eq (fun s => s.txFetch g.toNat bytes) hup ((State.txFetch_good hf bytes hb hq).trans hu) hclk hpend, hother, hring,
          congrArg ClassRun.hostq hcls, hrest⟩
    · obtain ⟨u, hu, hother, hrest, hav, hsends, hhead, honly⟩ := State.txComplete_spec (s := s.atTick t) hg htx hx
      exact ⟨u, State.act_of_eq (fun s => s.txComplete g.toNat) hup hu honly.clk honly.pending, hother, hrest, hav, hsends, hhead, honly⟩

end Sys2Proof.Machine
end

section
/-! PROOFS. Power and reset (R501, R525, R526, R534, R561 to R563). -/

namespace Sys2Proof.Machine

namespace State

/-- What a reset of `s` leaves: only what outlasts it is as in `s`. -/
def ResetFrom (s u : State) : Prop :=
  { u with regs := [], clk := Clk.zero, pwr := State.reset.pwr, out := [], lastRead := 0, log := LogState.fresh,
           mgmt := Mgmt.fresh, freeCtr := 0, pending := [] } = State.reset
    ∧ u.out = s.out ∧ u.lastRead = s.lastRead ∧ u.freeCtr = s.freeCtr ∧ u.pending = s.pending
    ∧ u.log.flash = s.log.flash ∧ u.log.spare = s.log.spare ∧ u.log.mem = [] ∧ u.log.queue = []
    ∧ u.mgmt.fuses = s.mgmt.fuses ∧ u.mgmt.flash = { s.mgmt.flash with fwPrev := none } ∧ u.mgmt.fwA = s.mgmt.fwA
    ∧ u.mgmt.fwB = s.mgmt.fwB ∧ u.mgmt.libA = s.mgmt.libA ∧ u.mgmt.libB = s.mgmt.libB ∧ u.mgmt.boots = false

/-- Log RAM and the numbers of the log are as in `s`. -/
def SameRam (s u : State) : Prop := u.log.ram = s.log.ram ∧ u.log.next = s.log.next ∧ u.log.due = s.log.due

theorem cleared_resetFrom (s : State) : ResetFrom s s.cleared :=
  ⟨rfl, rfl, rfl, rfl, rfl, rfl, rfl, rfl, rfl, rfl, rfl, rfl, rfl, rfl, rfl, rfl⟩

theorem cleared_sameRam (s : State) : SameRam s s.cleared := ⟨rfl, rfl, rfl⟩

/-! ## Start-up (R501, R534, R537) -/

/-- The registers that start-up writes. -/
def startRegsShown (s : State) (straps : Nat) : State := (s.put Reg.IO_STRAP Fd.IO_STRAP.STRAPS straps).showLife

theorem startRegsShown_eq (s : State) (straps : Nat) :
    s.startRegsShown straps = ((((s.put Reg.IO_STRAP Fd.IO_STRAP.STRAPS straps).put Reg.LIFE_STATE Fd.LIFE_STATE.LAST s.mgmt.fuses.lifeLast).put
      Reg.LIFE_STATE Fd.LIFE_STATE.RETURNS s.mgmt.fuses.returns).put Reg.LIFE_STATE Fd.LIFE_STATE.STATE s.mgmt.fuses.lifeState).put
      Reg.LIFE_JTAG Fd.LIFE_JTAG.ACCESS (jtagAccess s.mgmt.fuses.lifeState) := rfl

theorem startRegsShown_spec (s : State) (straps : Nat) :
    ∃ u, s.startRegsShown straps = u ∧ OnlyRegs s u [Reg.IO_STRAP, Reg.LIFE_STATE, Reg.LIFE_JTAG]
      ∧ u.get Reg.IO_STRAP Fd.IO_STRAP.STRAPS = straps % 32 ∧ u.get Reg.LIFE_STATE Fd.LIFE_STATE.STATE = s.mgmt.fuses.lifeState % 8
      ∧ u.get Reg.LIFE_JTAG Fd.LIFE_JTAG.ACCESS = jtagAccess s.mgmt.fuses.lifeState := by
  have hjtag : jtagAccess s.mgmt.fuses.lifeState < 4 := by
    unfold jtagAccess
    split
    · decide
    · split <;> decide
  refine ⟨_, startRegsShown_eq s straps, ((((OnlyRegs.same.put _ _ (by simp)).put _ _ (by simp)).put _ _ (by simp)).put _ _
    (by simp)).put _ _ (by simp), ?_, ?_, ?_⟩
  · rw [get_put_ne _ _ _ _ (by decide), get_put_ne _ _ _ _ (by decide), get_put_ne _ _ _ _ (by decide), get_put_ne _ _ _ _ (by decide),
      get_put_same _ _ _ _ (by decide) (by decide)]
    rfl
  · rw [get_put_ne _ _ _ _ (by decide), get_put_same _ _ _ _ (by decide) (by decide)]
    rfl
  · rw [get_put_same _ _ _ _ (by decide) (by decide)]
    exact Nat.mod_eq_of_lt hjtag

/-- What the boot ROM decides. -/
theorem bootRom_spec (s : State) :
    ∃ k i, s.bootRom = { s with mgmt := { s.mgmt with kstate := k, fwSlot := i } }
      ∧ (∀ j, pickSlot s.mgmt.flash.fwSel s.fwValid = some j → k = .boot ∧ i = j)
      ∧ (pickSlot s.mgmt.flash.fwSel s.fwValid = none → k = .recovery) := by
  unfold bootRom
  cases pickSlot s.mgmt.flash.fwSel s.fwValid with
  | some j => exact ⟨.boot, j, rfl, fun _ h => ⟨rfl, Option.some.inj h⟩, fun h => by simp at h⟩
  | none => exact ⟨.recovery, s.mgmt.fwSlot, rfl, fun _ h => by simp at h, fun _ => rfl⟩

theorem ResetFrom.picked {s v : State} (h : ResetFrom s v) (rs : Assoc Word) (k : KState) (i : Nat) :
    ResetFrom s { v with regs := rs, mgmt := { v.mgmt with kstate := k, fwSlot := i } } := h

/-- What start-up from the top leaves. -/
structure StartsFrom (s u : State) (straps : Nat) : Prop where
  reset : ResetFrom s u
  ram : SameRam s u
  clk : u.clk = Clk.zero
  straps : u.get Reg.IO_STRAP Fd.IO_STRAP.STRAPS = straps % 32
  life : u.get Reg.LIFE_STATE Fd.LIFE_STATE.STATE = s.mgmt.fuses.lifeState % 8
  jtag : u.get Reg.LIFE_JTAG Fd.LIFE_JTAG.ACCESS = jtagAccess s.mgmt.fuses.lifeState
  regs : ∀ a, a ≠ Reg.IO_STRAP → a ≠ Reg.LIFE_STATE → a ≠ Reg.LIFE_JTAG → u.rd a = resetWord a
  boots : ∀ k, pickSlot s.mgmt.flash.fwSel s.fwValid = some k → u.mgmt.kstate = .boot ∧ u.mgmt.fwSlot = k
  recovers : pickSlot s.mgmt.flash.fwSel s.fwValid = none → u.mgmt.kstate = .recovery

theorem fwValid_congr {s u : State} (hf : u.mgmt.fuses = s.mgmt.fuses) (ha : u.mgmt.fwA = s.mgmt.fwA) (hb : u.mgmt.fwB = s.mgmt.fwB) :
    u.fwValid = s.fwValid := by
  funext k
  unfold fwValid scrapped fwImage
  rw [hf, ha, hb]

theorem startUp_spec (s : State) (straps : Nat) : ∃ u, s.startUp straps = u ∧ u.pwr = s.pwr ∧ StartsFrom s u straps := by
  have heq : s.startUp straps = (({ s.cleared with clk := Clk.zero } : State).startRegsShown straps).bootRom := rfl
  have hreset : ResetFrom s ({ s.cleared with clk := Clk.zero } : State) := s.cleared_resetFrom
  have hram : SameRam s ({ s.cleared with clk := Clk.zero } : State) := s.cleared_sameRam
  have hclk : ({ s.cleared with clk := Clk.zero } : State).clk = Clk.zero := rfl
  have hpwr : ({ s.cleared with clk := Clk.zero } : State).pwr = s.pwr := rfl
  have hrd (a : Nat) : ({ s.cleared with clk := Clk.zero } : State).rd a = resetWord a := rfl
  generalize ({ s.cleared with clk := Clk.zero } : State) = v at heq hreset hram hclk hpwr hrd
  obtain ⟨w, hw, ⟨hrest, hregs⟩, hstraps, hlife, hjtag⟩ := v.startRegsShown_spec straps
  obtain ⟨k, i, hboot, hsome, hnone⟩ := w.bootRom_spec
  rw [hw, hboot] at heq
  have hkept := hreset
  obtain ⟨-, -, -, -, -, -, -, -, -, hfuses, hflash', hA, hB, -, -, -⟩ := hreset
  obtain ⟨rs, rfl⟩ : ∃ rs, w = { v with regs := rs } := ⟨w.regs, by rw [← hrest]⟩
  have hpick : pickSlot v.mgmt.flash.fwSel v.fwValid = pickSlot s.mgmt.flash.fwSel s.fwValid := by
    rw [fwValid_congr hfuses hA hB, hflash']
  have hchosen : pickSlot ({ v with regs := rs } : State).mgmt.flash.fwSel ({ v with regs := rs } : State).fwValid
      = pickSlot s.mgmt.flash.fwSel s.fwValid := hpick
  rw [hchosen] at hsome hnone
  exact ⟨_, heq, hpwr, hkept.picked rs k i, hram, hclk, hstraps, hlife.trans (congrArg (fun f : Fuses => f.lifeState % 8) hfuses),
    hjtag.trans (congrArg (fun f : Fuses => jtagAccess f.lifeState) hfuses), fun a h1 h2 h3 => (hregs a (by simp [h1, h2, h3])).trans (hrd a), hsome, hnone⟩

/-! ## Loss of power and reset (R515, R526, R534) -/

theorem porRelease_starts {s : State} {straps : Nat} (ha : s.pwr.vddAon = true) (hp : s.pwr.porn = false) :
    s.porRelease straps = ({ s with pwr := { s.pwr with porn := true, trip := false } } : State).startUp straps := if_pos (by simp [ha, hp])

theorem porRelease_nothing {s : State} {straps : Nat} (h : s.pwr.vddAon = false ∨ s.pwr.porn = true) : s.porRelease straps = s :=
  if_neg (by rcases h with h | h <;> simp [h])

theorem aonLoss_spec {s : State} (h : s.pwr.vddAon = true) :
    ∃ u, s.aonLoss = u ∧ u.pwr = { s.pwr with vddAon := false, trip := false } ∧ u.regs = [] ∧ ResetFrom s u ∧ u.log.ram = [] ∧ u.log.due = [] := by
  refine ⟨_, if_pos h, rfl, rfl, ?_, rfl, rfl⟩
  exact cleared_resetFrom { s with pwr := { s.pwr with vddAon := false, trip := false } }

end State

/-- Settles O47: a reset is one definition; each power command is a reset, or nothing, by the power state that it meets. -/
theorem powerAndReset : Obligations.PowerAndReset := by
  unfold Obligations.PowerAndReset
  intro s t
  dsimp only
  refine ⟨fun straps => ⟨fun ha hp => ?_, fun h => ?_⟩, fun hp => ?_, fun hp => ?_, fun ha => ?_, fun ha => ?_, fun ha => ?_, fun ha hp => ?_,
    fun ha hp => ?_, fun hup hk hc => ?_, fun hc => ?_⟩
  · obtain ⟨u, hu, hpwr, hreset, hram, hclk, hstraps, hlife, hjtag, hregs, hboots, hrec⟩ :=
      State.startUp_spec { s with pwr := { s.pwr with porn := true, trip := false } } straps.toNat
    refine ⟨u, congrArg Host.Outcome.next ((State.porRelease_starts ha hp).trans hu), ?_, hpwr, hreset, hram, hclk, hstraps, hlife, hjtag, hregs, hboots, hrec⟩
    simp [State.up, hpwr, ha]
  · exact congrArg Host.Outcome.next (State.porRelease_nothing h)
  · exact ⟨_, congrArg Host.Outcome.next (if_pos hp), rfl, rfl,
      State.cleared_resetFrom { s.atTick t with pwr := { s.pwr with porn := false, trip := false } }, rfl, rfl, rfl⟩
  · exact congrArg Host.Outcome.next (if_neg (ne_true_of_eq_false hp))
  · obtain ⟨u, hu, hpwr, hregs, hreset, hram, hdue⟩ := State.aonLoss_spec (s := s.atTick t) ha
    exact ⟨u, congrArg Host.Outcome.next hu, hpwr, hregs, hreset, hram, hdue⟩
  · exact congrArg Host.Outcome.next (if_neg (ne_true_of_eq_false ha))
  · exact if_pos ha
  · exact (if_neg (ne_true_of_eq_false ha)).trans (if_pos hp)
  · exact (if_neg (ne_true_of_eq_false ha)).trans (if_neg (ne_true_of_eq_false hp))
  · obtain ⟨u, hu, hpwr, hreset, hram, hclk, hstraps, hlife, hjtag, hregs, hboots, hrec⟩ :=
      (s.atTick t).startUp_spec (s.get Reg.IO_STRAP Fd.IO_STRAP.STRAPS)
    refine ⟨u, congrArg Host.Outcome.next ((if_pos ?_).trans hu), hpwr, hreset, hram, hclk, hstraps, hlife, hjtag, hregs, hboots, hrec⟩
    change (s.up && decide (s.mgmt.kstate = .running) && s.mgmt.fuses.changed) = true
    rw [hup, decide_eq_true hk, hc]
    rfl
  · exact congrArg Host.Outcome.next (if_neg fun h => absurd (Bool.and_eq_true_iff.mp h).2 (ne_true_of_eq_false hc))

end Sys2Proof.Machine
end

section
/-! PROOFS. The mailbox: how a command starts and ends, and the commands on images (R502, R506, R507). -/

namespace Sys2Proof.Machine

namespace State

/-! ## The start of a command (R506) -/

/-- `b` is `s` with BUSY of the MGMT page, for a reader of the mailbox. -/
structure Mail (s b : State) : Prop where
  mgmt : b.mgmt = s.mgmt
  modes : b.modes = s.modes
  clusters : b.clusters = s.clusters
  rd : ∀ a, a ≠ Reg.PAGE_STATUS Pg.MGMT → b.rd a = s.rd a

theorem setBusy_mail (s : State) (t : Nat) : Mail s ((s.atTick t).setBusy Pg.MGMT true) :=
  ⟨rfl, rfl, rfl, fun _ h => rd_putB_ne _ _ _ h⟩

theorem mbx_busy {s : State} {p : Port} (t : Nat) (f : State → State) (hs : s.Serves p) (hb : s.isBusy Pg.MGMT = true) :
    s.act t (fun s => s.mbxWrite p f) = .next ((s.atTick t).status Pg.MGMT .busy) :=
  serves_of_eq (fun s => s.mbxTake f) hs (if_pos (by rw [isBusy_atTick, hb]; rfl)) rfl rfl

theorem mbxTake_runs {s : State} (f : State → State) (hb : s.isBusy Pg.MGMT = false) (hk : s.mgmt.kstate = .running) :
    s.mbxTake f = f (s.setBusy Pg.MGMT true) := if_neg (by rw [hb, hk]; decide)

theorem mbx_serves {s u : State} {p : Port} {t : Nat} {f : State → State} (hs : s.Serves p) (hb : s.isBusy Pg.MGMT = false)
    (hu : f ((s.atTick t).setBusy Pg.MGMT true) = u) (hclk : u.clk = s.clk.advance t) (hpend : u.pending = s.pending) :
    s.act t (fun s => s.mbxWrite p f) = .next u :=
  serves_of_eq (fun s => s.mbxTake f) hs ((mbxTake_runs (s := s.atTick t) f hb hs.2.2.1).trans hu) hclk hpend

section
variable {s b : State} (h : Mail s b)
include h

theorem Mail.arg (k : Nat) (hk : k < 64) : b.rd (Reg.MBX_ARG k) = s.rd (Reg.MBX_ARG k) := h.rd _ (by simp only [Reg.MBX_ARG, Reg.PAGE_STATUS, Pg.MGMT]; omega)

theorem Mail.kind : b.mbxKind = s.mbxKind := by rw [mbxKind, h.arg 0 (by decide), mbxKind]
theorem Mail.slot : b.mbxSlot = s.mbxSlot := by rw [mbxSlot, h.arg 0 (by decide), mbxSlot]

theorem Mail.bytes (n : Nat) : b.mbxBytes n = s.mbxBytes n := by
  unfold mbxBytes
  have hdata (k : Nat) : b.rd (Reg.MBX_DATA k) = s.rd (Reg.MBX_DATA k) := h.rd _ (by simp only [Reg.MBX_DATA, Reg.PAGE_STATUS, Pg.MGMT]; omega)
  simp only [hdata]

theorem Mail.fwImage (k : Nat) : b.fwImage k = s.fwImage k := by rw [State.fwImage, h.mgmt, State.fwImage]
theorem Mail.libImage (k : Nat) : b.libImage k = s.libImage k := by rw [State.libImage, h.mgmt, State.libImage]
theorem Mail.fwValid (k : Nat) : b.fwValid k = s.fwValid k := by rw [State.fwValid, scrapped, h.fwImage, h.mgmt, State.fwValid, scrapped]
theorem Mail.libValid (k : Nat) : b.libValid k = s.libValid k := by rw [State.libValid, scrapped, h.libImage, h.mgmt, State.libValid, scrapped]
theorem Mail.image (k i : Nat) : b.mbxImage k i = s.mbxImage k i := by
  rw [mbxImage, h.fwImage, h.libImage, h.fwValid, h.libValid, mbxImage]

theorem Mail.sessionOf (p : Port) : b.sessionOf p = s.sessionOf p := by
  unfold State.sessionOf
  rw [h.mgmt]

theorem Mail.stored (k : Nat) (i : ImageSlot) : (b.storeImage k i).mgmt = (s.storeImage k i).mgmt := by
  unfold storeImage activeSlot recovering
  rw [h.mgmt]

theorem Mail.svnCount (k : Nat) : b.svnCount k = s.svnCount k := by rw [State.svnCount, h.mgmt, State.svnCount]

end

theorem storeImage_rest (s : State) (k : Nat) (i : ImageSlot) : s.storeImage k i = { s with mgmt := (s.storeImage k i).mgmt } := rfl

theorem not_recovering {s : State} (h : s.mgmt.kstate = .running) : s.recovering = false := decide_eq_false (by rw [h]; decide)

theorem served {s : State} (h : s.mgmt.kstate = .running) (b : Bool) : ¬(s.recovering && b) = true := by
  simp [not_recovering h]

/-! ## Commands on images (R507) -/

theorem mbxInfo_ok {s : State} (p : Port) (hk : s.mgmt.kstate = .running) (h : s.mbxKind < 2) :
    s.mbxInfo p = s.mbxEnd p .info .ok (s.mbxImage s.mbxKind s.mbxSlot).1.version
      (Word.of ((s.mbxImage s.mbxKind s.mbxSlot).1.svn % 64 + 256 * b2n (s.mbxImage s.mbxKind s.mbxSlot).2)) :=
  (if_neg (served hk _)).trans (if_neg (by omega))

theorem mbxInfo_badParam {s : State} (p : Port) (hk : s.mgmt.kstate = .running) (h : 2 ≤ s.mbxKind) : s.mbxInfo p = s.mbxSay p .info .badParam :=
  (if_neg (served hk _)).trans (if_pos h)

theorem mbxBegin_busy {s : State} (p : Port) (hk : s.mgmt.kstate = .running) (h : s.mgmt.session.isSome = true) :
    s.mbxBegin p = s.mbxSay p .imgBegin .busy := (if_neg (served hk _)).trans (if_pos h)

theorem mbxBegin_badParam {s : State} (p : Port) (hk : s.mgmt.kstate = .running) (h : s.mgmt.session = none)
    (hbad : s.mbxKind = 3 ∨ slotBytes s.mbxKind < (s.rd (Reg.MBX_ARG 1)).toNat) : s.mbxBegin p = s.mbxSay p .imgBegin .badParam :=
  (if_neg (served hk _)).trans ((if_neg (by rw [h]; decide)).trans (if_pos (by simpa using hbad)))

/-- A session that begins. -/
def newSession (s : State) (p : Port) : Session :=
  { port := p, kind := s.mbxKind, total := (s.rd (Reg.MBX_ARG 1)).toNat, bytes := [], doomed := false }

theorem mbxBegin_ok {s : State} (p : Port) (hk : s.mgmt.kstate = .running) (h : s.mgmt.session = none) (h3 : s.mbxKind ≠ 3)
    (hfits : (s.rd (Reg.MBX_ARG 1)).toNat ≤ slotBytes s.mbxKind) :
    s.mbxBegin p = mbxSay { s with mgmt := { (s.storeImage s.mbxKind ImageSlot.empty).mgmt with session := some (s.newSession p) } } p .imgBegin .ok :=
  (if_neg (served hk _)).trans ((if_neg (by rw [h]; decide)).trans (if_neg (by simpa using ⟨h3, hfits⟩)))

theorem mbxData_none {s : State} {p : Port} (len : Nat) (h : s.sessionOf p = none) : s.mbxData p len = s.mbxSay p .imgData .badParam := by
  unfold mbxData
  rw [h]

/-- IMG_DATA that continues its session. -/
def DataFits (s : State) (x : Session) (len : Nat) : Prop :=
  (s.rd (Reg.MBX_ARG 0)).toNat = x.bytes.length ∧ 1 ≤ len ∧ len ≤ 2048 ∧ x.bytes.length + len ≤ x.total

theorem mbxData_some {s : State} {p : Port} {x : Session} (len : Nat) (h : s.sessionOf p = some x) :
    s.mbxData p len = if ((s.rd (Reg.MBX_ARG 0)).toNat != x.bytes.length || len = 0 || 2048 < len || x.total < x.bytes.length + len) = true then
        s.mbxSay p .imgData .badParam
      else mbxSay { s with mgmt := { s.mgmt with session := some { x with bytes := x.bytes ++ s.mbxBytes len } } } p .imgData .ok := by
  unfold mbxData
  rw [h]

theorem dataFits_iff {s : State} {x : Session} {len : Nat} : s.DataFits x len
    ↔ ¬((s.rd (Reg.MBX_ARG 0)).toNat != x.bytes.length || len = 0 || 2048 < len || x.total < x.bytes.length + len) = true := by
  simp only [DataFits, Bool.or_eq_true, bne_iff_ne, decide_eq_true_eq]
  omega

theorem mbxImgEnd_none {s : State} {p : Port} (v : Bool) (h : s.sessionOf p = none) : s.mbxImgEnd p v = s.mbxSay p .imgEnd .badParam := by
  unfold mbxImgEnd
  rw [h]

theorem mbxImgEnd_short {s : State} {p : Port} {x : Session} (v : Bool) (h : s.sessionOf p = some x) (hl : x.bytes.length < x.total) :
    s.mbxImgEnd p v = s.mbxSay p .imgEnd .badParam := by
  unfold mbxImgEnd
  rw [h]
  exact if_pos hl

theorem storeImage_fuses (s : State) (k : Nat) (i : ImageSlot) : (s.storeImage k i).mgmt.fuses = s.mgmt.fuses := by
  unfold storeImage
  dsimp only
  split
  · split <;> rfl
  split
  · split <;> rfl
  · rfl

theorem svnCount_congr {s u : State} (h : u.mgmt.fuses = s.mgmt.fuses) (k : Nat) : u.svnCount k = s.svnCount k := by
  rw [svnCount, h, svnCount]

/-- How IMG_END of a whole session ends. -/
def imageOutcome (s : State) (kind : Nat) (i : ImageSlot) : Status := if i.valid kind (s.svnCount kind) then .ok else .checkFail

theorem mbxImgEnd_whole {s : State} {p : Port} {x : Session} (v : Bool) (h : s.sessionOf p = some x) (hl : x.total ≤ x.bytes.length) :
    s.mbxImgEnd p v = mbxSay { s with mgmt := { (s.storeImage x.kind { bytes := x.bytes, sigOk := v }).mgmt with session := none } } p .imgEnd
      (s.imageOutcome x.kind { bytes := x.bytes, sigOk := v }) := by
  have hcount : ({ s.storeImage x.kind { bytes := x.bytes, sigOk := v } with
      mgmt := { (s.storeImage x.kind { bytes := x.bytes, sigOk := v }).mgmt with session := none } } : State).svnCount x.kind = s.svnCount x.kind :=
    svnCount_congr (storeImage_fuses s x.kind _) _
  unfold mbxImgEnd
  rw [h]
  dsimp only
  rw [if_neg (by omega), hcount]
  rfl

theorem storeImage_firmware {s : State} (i : ImageSlot) (hk : s.mgmt.kstate = .running) :
    (s.storeImage 0 i).mgmt = if s.mgmt.fwSlot = 1 then { s.mgmt with fwA := i } else { s.mgmt with fwB := i } := by
  unfold storeImage activeSlot
  simp [not_recovering hk]

/-- MBX_ABORT's effect on the management core. -/
def abortMgmt (s : State) (p : Port) : Mgmt :=
  { s.mgmt with session := if (s.sessionOf p).isSome then none else s.mgmt.session
                rot := s.mgmt.rot.map fun r => { r with stop := true } }

theorem mbxAbort_eq (s : State) (p : Port) : s.mbxAbort p = mbxSay { s with mgmt := s.abortMgmt p } p .abort .ok := by
  unfold mbxAbort abortMgmt
  cases s.sessionOf p <;> rfl

theorem mbxAbort_spec (s : State) (p : Port) :
    ∃ u, s.mbxAbort p = u ∧ u.sessionOf p = none ∧ (s.sessionOf p = none → u.mgmt.session = s.mgmt.session)
      ∧ (∀ r, u.mgmt.rot = some r → r.stop = true) ∧ u.mgmt.rot.isSome = s.mgmt.rot.isSome
      ∧ ({ u.mgmt with session := s.mgmt.session, rot := s.mgmt.rot, mbx := s.mgmt.mbx } : Mgmt) = s.mgmt
      ∧ u = { s with mgmt := u.mgmt } := by
  refine ⟨_, mbxAbort_eq s p, ?_, fun h => ?_, fun r h => ?_, ?_, rfl, rfl⟩
  · change (match (if (s.sessionOf p).isSome then none else s.mgmt.session) with
      | some x => if x.port = p then some x else none
      | none => none) = none
    cases h : s.sessionOf p with
    | some x => rfl
    | none => exact h
  · change (if (s.sessionOf p).isSome then none else s.mgmt.session) = s.mgmt.session
    rw [h]
    rfl
  · obtain ⟨q, -, rfl⟩ := Option.map_eq_some_iff.mp (show (s.mgmt.rot.map fun q : Rotation => { q with stop := true }) = some r from h)
    rfl
  · exact Option.isSome_map

/-! ## The end of a command (R506) -/

/-- What the completion of a command writes to the registers. -/
def mbxShow (s : State) (c : MbxCmd) (code : Nat) : State :=
  (((s.wr (Reg.MBX_RES 0) c.res0).wr (Reg.MBX_RES 1) c.res1).setBusy Pg.MGMT false).put (Reg.PAGE_STATUS Pg.MGMT) Fd.PAGE_STATUS.LAST_STATUS code

theorem mbxShow_spec (s : State) (c : MbxCmd) {code : Nat} (hcode : code < 256) :
    ∃ u, s.mbxShow c code = u ∧ u.isBusy Pg.MGMT = false ∧ u.get (Reg.PAGE_STATUS Pg.MGMT) Fd.PAGE_STATUS.LAST_STATUS = code
      ∧ u.rd (Reg.MBX_RES 0) = c.res0 ∧ u.rd (Reg.MBX_RES 1) = c.res1
      ∧ OnlyEvents s u [Reg.PAGE_STATUS Pg.MGMT, Reg.MBX_RES 0, Reg.MBX_RES 1] := by
  refine ⟨_, rfl, ?_, ?_, ?_, ?_, ?_⟩
  · rw [isBusy, mbxShow, flag, get_put_other _ _ _ _ _ (by decide) (by decide) (by decide) (by decide)]
    exact isBusy_setBusy _ _ _
  · rw [mbxShow, get_put_same _ _ _ _ (by decide) (by decide)]
    exact Nat.mod_eq_of_lt hcode
  · rw [mbxShow, rd_put_ne _ _ _ (by decide), setBusy, rd_putB_ne _ _ _ (by decide), rd_wr_ne _ _ (by decide), rd_wr_same]
  · rw [mbxShow, rd_put_ne _ _ _ (by decide), setBusy, rd_putB_ne _ _ _ (by decide), rd_wr_same]
  · exact (((OnlyEvents.same.wr _ (by simp)).wr _ (by simp)).setBusy _ (by simp)).put _ _ (by simp)

theorem mbxDone_none {s : State} (h : s.mgmt.mbx = none) : s.mbxDone = s := by
  unfold mbxDone
  rw [h]

theorem mbxDone_eq {s : State} {c : MbxCmd} (h : s.mgmt.mbx = some c) (hr : c.restart = false)
    (hd : ∀ x, s.mgmt.session = some x → x.doomed = false) :
    s.mbxDone = ((({ s with mgmt := { s.mgmt with mbx := none } } : State).mbxShow c c.status).event Pg.MGMT Ev.MGMT.CMD_DONE).eventIf
      (c.op = MbxOp.imgEnd.code && c.status = Status.checkFail.code) Pg.MGMT Ev.MGMT.IMG_CHECK_FAIL := by
  unfold mbxDone mbxShow
  rw [h]
  dsimp only
  rw [hr]
  cases hx : s.mgmt.session with
  | none => rfl
  | some x =>
    obtain ⟨port, kind, total, bytes, doomed⟩ := x
    obtain rfl : doomed = false := hd _ hx
    rfl

theorem mbxDone_spec {s : State} {c : MbxCmd} (h : s.mgmt.mbx = some c) (hr : c.restart = false)
    (hd : ∀ x, s.mgmt.session = some x → x.doomed = false) (hcode : c.status < 256) :
    ∃ u, s.mbxDone = u ∧ u.mgmt = { s.mgmt with mbx := none } ∧ u.isBusy Pg.MGMT = false
      ∧ u.get (Reg.PAGE_STATUS Pg.MGMT) Fd.PAGE_STATUS.LAST_STATUS = c.status
      ∧ u.rd (Reg.MBX_RES 0) = c.res0 ∧ u.rd (Reg.MBX_RES 1) = c.res1 ∧ u.Latched Pg.MGMT Ev.MGMT.CMD_DONE
      ∧ (c.op = 4 → c.status = Status.checkFail.code → u.Latched Pg.MGMT Ev.MGMT.IMG_CHECK_FAIL)
      ∧ OnlyEvents { s with mgmt := u.mgmt } u [Reg.PAGE_STATUS Pg.MGMT, Reg.MBX_RES 0, Reg.MBX_RES 1] := by
  have heq := mbxDone_eq h hr hd
  have hmgmt : ({ s with mgmt := { s.mgmt with mbx := none } } : State).mgmt = { s.mgmt with mbx := none } := rfl
  have hself (m : Mgmt) (hm : m = { s.mgmt with mbx := none }) : ({ s with mgmt := m } : State) = { s with mgmt := { s.mgmt with mbx := none } } := by rw [hm]
  generalize ({ s with mgmt := { s.mgmt with mbx := none } } : State) = v at heq hmgmt hself
  obtain ⟨w, hw, hbusy, hcode', hr0, hr1, hshow⟩ := v.mbxShow_spec c hcode
  rw [hw] at heq
  generalize hfail : (c.op = MbxOp.imgEnd.code && c.status = Status.checkFail.code : Bool) = fail at heq
  have hev : OnlyEvents w ((w.event Pg.MGMT Ev.MGMT.CMD_DONE).eventIf fail Pg.MGMT Ev.MGMT.IMG_CHECK_FAIL) [] :=
    (OnlyEvents.same.event _ _).eventIf _ _ _
  have hdone := eventIf_keeps (w.event Pg.MGMT Ev.MGMT.CMD_DONE) fail Pg.MGMT Ev.MGMT.IMG_CHECK_FAIL (by decide)
    (event_latched w Pg.MGMT Ev.MGMT.CMD_DONE (by decide))
  have hcheck (hf : fail = true) :
      ((w.event Pg.MGMT Ev.MGMT.CMD_DONE).eventIf fail Pg.MGMT Ev.MGMT.IMG_CHECK_FAIL).Latched Pg.MGMT Ev.MGMT.IMG_CHECK_FAIL := by
    rw [hf]
    exact event_latched _ _ _ (by decide)
  generalize (w.event Pg.MGMT Ev.MGMT.CMD_DONE).eventIf fail Pg.MGMT Ev.MGMT.IMG_CHECK_FAIL = u at heq hev hdone hcheck
  have hrd (a : Nat) (ha : evtReg a = false) : u.rd a = w.rd a := hev.2 a (by simp) ha
  have hum : u.mgmt = v.mgmt := hev.mgmt.trans hshow.mgmt
  refine ⟨u, heq, hum.trans hmgmt, (isBusy_congr (hrd _ (by decide))).trans hbusy, (get_congr (hrd _ (by decide)) _).trans hcode',
    (hrd _ (by decide)).trans hr0, (hrd _ (by decide)).trans hr1, hdone, fun hop hst => hcheck ?_, ?_⟩
  · rw [← hfail, decide_eq_true (show c.op = MbxOp.imgEnd.code from hop), decide_eq_true hst]
    rfl
  · rw [hself u.mgmt (hum.trans hmgmt)]
    exact hshow.andThen hev.weaken

end State

/-- Settles O50: what the page, the session and the arguments are decides how each command ends. -/
theorem mailboxImages : Obligations.MailboxImages := by
  unfold Obligations.MailboxImages
  refine ⟨fun s t p hs hb cmd hcmd => ?_, fun s t p hs hb => ?_, fun s t hup => ⟨fun h => ?_, fun c h hr hd hcode => ?_⟩⟩
  · rcases hcmd with rfl | rfl | ⟨l, rfl⟩ | ⟨v, rfl⟩ | rfl | rfl | ⟨c, v, rfl⟩ | rfl | rfl | ⟨l, rfl⟩ <;> exact State.mbx_busy t _ hs hb
  · have hm := State.setBusy_mail s t
    have hclk : ((s.atTick t).setBusy Pg.MGMT true).clk = s.clk.advance t := rfl
    have hpend : ((s.atTick t).setBusy Pg.MGMT true).pending = s.pending := rfl
    have honly : State.OnlyRegs (s.atTick t) ((s.atTick t).setBusy Pg.MGMT true) [Reg.PAGE_STATUS Pg.MGMT] := State.OnlyRegs.same.putB _ _ (by simp)
    have hbusy : ((s.atTick t).setBusy Pg.MGMT true).isBusy Pg.MGMT = true := State.isBusy_setBusy _ _ _
    have hdo (f : State → State) {u : State} (hu : f ((s.atTick t).setBusy Pg.MGMT true) = u) (h1 : u.clk = ((s.atTick t).setBusy Pg.MGMT true).clk)
        (h2 : u.pending = ((s.atTick t).setBusy Pg.MGMT true).pending) : s.act t (fun s => s.mbxWrite p f) = .next u :=
      State.mbx_serves hs hb hu h1 h2
    have hk : s.mgmt.kstate = .running := hs.2.2.1
    dsimp only
    generalize (s.atTick t).setBusy Pg.MGMT true = b at hm hclk hpend honly hbusy hdo ⊢
    have hbk : b.mgmt.kstate = .running := by rw [hm.mgmt, hk]
    refine ⟨fun h => ?_, fun h => ?_, fun h => ?_, fun h hbad => ?_, fun h h3 hfits => ?_, fun h l v => ⟨?_, ?_⟩, fun x l h => ⟨fun hfits => ?_, fun hno => ?_⟩,
      fun x v h => ⟨fun h0 => ?_, fun hl => ?_, fun hl => ?_⟩, ?_⟩
    · rw [← hm.kind] at h
      rw [← hm.kind, ← hm.slot, ← hm.image]
      exact hdo (fun s => s.mbxInfo p) (State.mbxInfo_ok p hbk h) rfl rfl
    · exact hdo (fun s => s.mbxInfo p) (State.mbxInfo_badParam p hbk (by rw [hm.kind]; exact h)) rfl rfl
    · exact hdo (fun s => s.mbxBegin p) (State.mbxBegin_busy p hbk (by rw [hm.mgmt]; exact h)) rfl rfl
    · exact hdo (fun s => s.mbxBegin p) (State.mbxBegin_badParam p hbk (by rw [hm.mgmt]; exact h) (by rw [hm.kind, hm.arg 1 (by decide)]; exact hbad)) rfl rfl
    · rw [← hm.kind] at h3
      rw [← hm.kind, ← hm.arg 1 (by decide)] at hfits
      rw [← hm.kind, ← hm.arg 1 (by decide), ← hm.stored]
      exact hdo (fun s => s.mbxBegin p) (State.mbxBegin_ok p hbk (by rw [hm.mgmt]; exact h) h3 hfits) rfl rfl
    · exact hdo (fun s => s.mbxData p l.toNat) (State.mbxData_none _ (by rw [hm.sessionOf]; exact h)) rfl rfl
    · exact hdo (fun s => s.mbxImgEnd p v) (State.mbxImgEnd_none _ (by rw [hm.sessionOf]; exact h)) rfl rfl
    · rw [← hm.mgmt, ← hm.bytes]
      exact hdo (fun s => s.mbxData p l.toNat) ((State.mbxData_some _ (by rw [hm.sessionOf]; exact h)).trans (if_neg (State.dataFits_iff.mp
        (by rw [State.DataFits, hm.arg 0 (by decide)]; exact hfits)))) rfl rfl
    · exact hdo (fun s => s.mbxData p l.toNat) ((State.mbxData_some _ (by rw [hm.sessionOf]; exact h)).trans (if_pos (Decidable.not_not.mp
        (mt State.dataFits_iff.mpr (by rw [State.DataFits, hm.arg 0 (by decide)]; exact hno))))) rfl rfl
    · rw [h0]
      exact State.storeImage_firmware _ hk
    · exact hdo (fun s => s.mbxImgEnd p v) (State.mbxImgEnd_short v (by rw [hm.sessionOf]; exact h) hl) rfl rfl
    · rw [← hm.stored, ← hm.svnCount]
      exact hdo (fun s => s.mbxImgEnd p v) (State.mbxImgEnd_whole v (by rw [hm.sessionOf]; exact h) hl) rfl rfl
    · obtain ⟨u, hu, hnone, hkeep, hstop, hsome, hmgmt, hrest⟩ := b.mbxAbort_spec p
      rw [hm.sessionOf, hm.mgmt] at hkeep
      rw [hm.mgmt] at hsome hmgmt
      have hurd (a : Nat) : u.rd a = b.rd a := by
        rw [hrest]
        rfl
      refine ⟨u, hdo (fun s => s.mbxAbort p) hu (by rw [hrest]) (by rw [hrest]), (State.isBusy_congr (hurd _)).trans hbusy, hnone, hkeep, hstop, hsome, hmgmt, ?_,
        fun a ha => (hurd a).trans (honly.2 a ha)⟩
      rw [hrest]
      exact congrArg (fun z : State => ({ z with mgmt := u.mgmt } : State)) honly.1
  · exact State.act_nothing (f := State.mbxDone) hup (State.mbxDone_none (s := s.atTick t) h)
  · obtain ⟨u, hu, hmgmt, hbusy, hst, hr0, hr1, hdone, hcheck, honly⟩ := State.mbxDone_spec (s := s.atTick t) h hr hd hcode
    exact ⟨u, State.act_of_eq State.mbxDone hup hu honly.clk honly.pending, hmgmt, hbusy, hst, hr0, hr1, hdone, hcheck, honly⟩

end Sys2Proof.Machine
end

section
/-! PROOFS. The mailbox: activation, the fuse counts and board data (R503, R504, R507, R510). -/

namespace Sys2Proof.Machine

namespace State

section
variable {s b : State} (h : Mail s b)
include h

theorem Mail.libraryRuns : b.libraryRuns = s.libraryRuns := by rw [State.libraryRuns, h.clusters, State.libraryRuns]

theorem Mail.cluster (k : Nat) : b.cluster k = s.cluster k := by rw [State.cluster, h.clusters, State.cluster]

theorem Mail.libOf (k : Nat) : b.libOf k = s.libOf k := by rw [State.libOf, h.cluster, State.libOf]

theorem Mail.notLost : b.notLost = s.notLost := by
  unfold State.notLost State.cluster
  rw [h.clusters]

theorem Mail.peakLoad : b.peakLoad = s.peakLoad := by
  have hevery : b.everyLoad = s.everyLoad := get_congr (h.rd _ (by decide)) _
  have hphase (q : Nat) (hq : q < 4) : b.phaseLoad q = s.phaseLoad q :=
    get_congr (h.rd _ (by simp only [Reg.BEAT_PHASE_LOAD, Reg.PAGE_STATUS, Pg.MGMT]; omega)) _
  unfold State.peakLoad maxPhase
  rw [hevery, List.map_congr_left fun q hq => by rw [hphase q (List.mem_range.mp hq)]]

theorem Mail.rotCapacity : b.rotCapacity = s.rotCapacity := by
  have hcyc (k : Nat) : b.cycBeat k = s.cycBeat k :=
    get_congr (h.rd _ (by simp only [Reg.CLU_CYC_BEAT, Reg.PAGE_STATUS, Pg.MGMT]; omega)) _
  have hcores (k : Nat) : b.servingCores k = s.servingCores k := by rw [servingCores, h.cluster, servingCores]
  have hall : (List.range 16).map (fun k => b.servingCores k * b.cycBeat k) = (List.range 16).map fun k => s.servingCores k * s.cycBeat k :=
    List.map_congr_left fun k _ => by rw [hcyc, hcores]
  rw [State.rotCapacity, servingCapacity, h.peakLoad, hall, hcyc, State.rotCapacity, servingCapacity]

end

/-! ## ACTIVATE of KIND 0 and 1 (R503, R510) -/

theorem mbxActFw_invalid {s : State} (p : Port) (h : s.fwValid s.mbxSlot = false) : s.mbxActFw p = s.mbxSay p .activate .checkFail :=
  if_pos (by rw [h]; rfl)

theorem mbxActFw_valid {s : State} (p : Port) (h : s.fwValid s.mbxSlot = true) : s.mbxActFw p = { s with
    mgmt := { s.mgmt with flash := { s.mgmt.flash with fwSel := s.mbxSlot, fwPrev := some s.mgmt.flash.fwSel }, firstStart := none,
                          mbx := some { op := 5, port := p, status := 0, res0 := 0, res1 := 0, restart := true } } } :=
  if_neg (by rw [h]; decide)

/-- The library slot is chosen in flash. -/
def chooseLib (s : State) : State := { s with mgmt := { s.mgmt with flash := { s.mgmt.flash with libSel := s.mbxSlot } } }

/-- The rotation of a chosen library begins. -/
def chooseRotation (s : State) : State :=
  startRotation { s.chooseLib with mgmt := { s.chooseLib.mgmt with libSlot := s.mbxSlot }, modes := { s.chooseLib.modes with rotReq := true } }
    (s.notLost.filter fun k => s.libOf k != (s.libImage s.mbxSlot).version) s.mbxSlot true

/-- What a library's activation checks and does, in order. -/
theorem mbxActLib_eq {s : State} (p : Port) (hk : s.mgmt.kstate = .running) : s.mbxActLib p =
    if (!s.libValid s.mbxSlot) = true then s.mbxSay p .activate .checkFail
    else if (!s.libraryRuns) = true then (s.chooseLib.kwakelLog .activation 1).mbxSay p .activate .ok
    else if ((s.libImage s.mbxSlot).compat != (s.libImage s.mgmt.libSlot).compat) = true then s.mbxSay p .activate .badParam
    else if (!s.modeTakesLib) = true then s.mbxSay p .activate .notInMode
    else if (!s.rotCapacity) = true then s.mbxSay p .activate .noCapacity
    else if s.mgmt.rot.isSome = true then s.mbxSay p .activate .busy
    else (s.chooseRotation.kwakelLog .activation 1).mbxSay p .activate .ok :=
  if_neg (ne_true_of_eq_false (not_recovering hk))

/-- A library may take the place of the one that runs. -/
structure TakesPlace (s : State) : Prop where
  valid : s.libValid s.mbxSlot = true
  runs : s.libraryRuns = true
  compat : (s.libImage s.mbxSlot).compat = (s.libImage s.mgmt.libSlot).compat
  mode : s.modeTakesLib = true

theorem mbxActLib_takes {s : State} (p : Port) (hk : s.mgmt.kstate = .running) (h : s.TakesPlace) : s.mbxActLib p =
    if (!s.rotCapacity) = true then s.mbxSay p .activate .noCapacity
    else if s.mgmt.rot.isSome = true then s.mbxSay p .activate .busy
    else (s.chooseRotation.kwakelLog .activation 1).mbxSay p .activate .ok := by
  rw [mbxActLib_eq p hk, if_neg (by rw [h.valid]; decide), if_neg (by rw [h.runs]; decide), if_neg (by rw [h.compat, bne_self_eq_false]; decide),
    if_neg (by rw [h.mode]; decide)]

theorem mbxActLib_invalid {s : State} (p : Port) (hk : s.mgmt.kstate = .running) (h : s.libValid s.mbxSlot = false) :
    s.mbxActLib p = s.mbxSay p .activate .checkFail := (mbxActLib_eq p hk).trans (if_pos (by rw [h]; rfl))

theorem mbxActLib_idle {s : State} (p : Port) (hk : s.mgmt.kstate = .running) (h : s.libValid s.mbxSlot = true) (hr : s.libraryRuns = false) :
    s.mbxActLib p = (s.chooseLib.kwakelLog .activation 1).mbxSay p .activate .ok :=
  (mbxActLib_eq p hk).trans ((if_neg (by rw [h]; decide)).trans (if_pos (by rw [hr]; rfl)))

theorem mbxActLib_otherCompat {s : State} (p : Port) (hk : s.mgmt.kstate = .running) (h : s.libValid s.mbxSlot = true) (hr : s.libraryRuns = true)
    (hc : (s.libImage s.mbxSlot).compat ≠ (s.libImage s.mgmt.libSlot).compat) : s.mbxActLib p = s.mbxSay p .activate .badParam :=
  (mbxActLib_eq p hk).trans ((if_neg (by rw [h]; decide)).trans ((if_neg (by rw [hr]; decide)).trans (if_pos (bne_iff_ne.mpr hc))))

theorem mbxActLib_otherMode {s : State} (p : Port) (hk : s.mgmt.kstate = .running) (h : s.libValid s.mbxSlot = true) (hr : s.libraryRuns = true)
    (hc : (s.libImage s.mbxSlot).compat = (s.libImage s.mgmt.libSlot).compat) (hm : s.modeTakesLib = false) :
    s.mbxActLib p = s.mbxSay p .activate .notInMode :=
  (mbxActLib_eq p hk).trans ((if_neg (by rw [h]; decide)).trans ((if_neg (by rw [hr]; decide)).trans
    ((if_neg (by rw [hc, bne_self_eq_false]; decide)).trans (if_pos (by rw [hm]; rfl)))))

/-- An outcome of ACTIVATE that is logged. -/
def activated (s : State) (p : Port) (detail : Nat) : State := (s.kwakelLog .activation detail).mbxSay p .activate .ok

theorem activated_spec (s : State) (p : Port) (detail : Nat) :
    ∃ u, s.activated p detail = u
      ∧ u.mgmt = { s.mgmt with mbx := some { op := 5, port := p, status := 0, res0 := 0, res1 := 0, restart := false } }
      ∧ OnlyEvents { s with mgmt := u.mgmt } u [] := by
  have hlog := s.kwakelLog_onlyEvents .activation detail
  unfold activated
  generalize s.kwakelLog .activation detail = w at hlog ⊢
  have hm : (w.mbxSay p .activate .ok).mgmt
      = { s.mgmt with mbx := some { op := 5, port := p, status := 0, res0 := 0, res1 := 0, restart := false } } := by
    rw [← hlog.mgmt]
    rfl
  refine ⟨_, rfl, hm, ?_⟩
  rw [hm]
  exact hlog.under fun z => z.mbxSay p .activate .ok

/-! ## ACTIVATE of KIND 2 (R507) -/

/-- A whole data package is there. -/
def packageOk (s : State) : Bool := s.mgmt.package.any fun i => i.valid 2 0

theorem packageOk_iff {s : State} : s.packageOk = true ↔ ∃ i, s.mgmt.package = some i ∧ i.valid 2 0 = true := by
  rw [packageOk]
  cases s.mgmt.package <;> simp

theorem mbxActData_eq {s : State} (p : Port) (clips : List (Nat × Clip)) (fits : Bool) (hk : s.mgmt.kstate = .running) :
    s.mbxActData p clips fits =
      if s.modes.bringup = true then s.mbxSay p .activate .notInMode
      else if (!s.packageOk) = true then s.mbxSay p .activate .checkFail
      else if (!fits) = true then s.mbxSay p .activate .full
      else activated { s with mgmt := { s.mgmt with clips := clips } } p 2 := by
  unfold mbxActData packageOk
  dsimp only
  rw [not_recovering hk, Bool.or_false]
  cases s.mgmt.package <;> rfl

/-! ## COMMIT_SVN and BOARD (R504, R507) -/

theorem mbxCommit_badParam {s : State} (p : Port) (hk : s.mgmt.kstate = .running) (h : 2 ≤ s.mbxKind) :
    s.mbxCommit p = s.mbxSay p .commitSvn .badParam := (if_neg (by rw [not_recovering hk]; decide)).trans (if_pos h)

/-- The SVN of the library that runs. -/
def runningLibSvn (s : State) : Nat := if s.libraryRuns then (s.libImage s.mgmt.libSlot).svn else 0

theorem mbxCommit_eq {s : State} (p : Port) (hk : s.mgmt.kstate = .running) {run count : Nat} {f : Fuses} (h : s.mbxKind < 2)
    (hrun : (if s.mbxKind = 0 then (s.fwImage s.mgmt.fwSlot).svn else s.runningLibSvn) = run) (hcount : s.svnCount s.mbxKind = count)
    (hf : (if s.mbxKind = 0 then { s.mgmt.fuses with svnFw := min 32 (max count run) } else { s.mgmt.fuses with svnLib := min 32 (max count run) }) = f) :
    s.mbxCommit p = mbxEnd { s with mgmt := { s.mgmt with fuses := f } } p .commitSvn .ok (Word.of (min 32 (max count run))) 0 := by
  subst hrun hcount hf
  exact (if_neg (by rw [not_recovering hk]; decide)).trans (if_neg (by omega))

theorem mbxBoard_notInMode {s : State} (p : Port) (len : Nat) (h : 2 ≤ s.mgmt.fuses.lifeState) : s.mbxBoard p len = s.mbxSay p .board .notInMode :=
  if_pos (by simp [h])

theorem mbxBoard_badParam {s : State} {p : Port} {len : Nat} (hk : s.mgmt.kstate = .running) (h : s.mgmt.fuses.lifeState < 2)
    (hl : 2048 < len ∨ boardBytes < (s.rd (Reg.MBX_ARG 0)).toNat + len) : s.mbxBoard p len = s.mbxSay p .board .badParam :=
  (if_neg (by simp [not_recovering hk, h])).trans (if_pos (by simpa using hl))

theorem mbxBoard_ok {s : State} {p : Port} {len : Nat} (hk : s.mgmt.kstate = .running) (h : s.mgmt.fuses.lifeState < 2)
    (hl : len ≤ 2048) (hfits : (s.rd (Reg.MBX_ARG 0)).toNat + len ≤ boardBytes) : s.mbxBoard p len = mbxSay { s with
      mgmt := { s.mgmt with flash := { s.mgmt.flash with
        board := putBoard s.mgmt.flash.board (s.rd (Reg.MBX_ARG 0)).toNat (s.mbxBytes len) } } } p .board .ok :=
  (if_neg (by simp [not_recovering hk, h])).trans (if_neg (by simpa using ⟨hl, hfits⟩))

/-- A rotation of the chosen library, as it begins. -/
def chosenRotation (s : State) : Rotation :=
  { rest := s.notLost.filter fun k => s.libOf k != (s.libImage s.mbxSlot).version, cur := none, loaded := false, slot := s.mbxSlot, stop := false,
    byActivate := true, wait := false }

theorem chooseRotation_spec (s : State) : s.chooseRotation.mgmt.flash = { s.mgmt.flash with libSel := s.mbxSlot }
    ∧ s.chooseRotation.mgmt.rot = some s.chosenRotation ∧ s.chooseRotation.modes = { s.modes with rotReq := true }
    ∧ s.chooseRotation.get Reg.MGMT_ROT Fd.MGMT_ROT.DONE = 0 ∧ s.chooseRotation.clk = s.clk ∧ s.chooseRotation.pending = s.pending :=
  ⟨rfl, rfl, rfl, get_put_same _ _ _ _ (by decide) (by decide), rfl, rfl⟩

end State

/-- Settles O51: what the command checks, in order, decides how it ends. -/
theorem mailboxActivation : Obligations.MailboxActivation := by
  unfold Obligations.MailboxActivation
  intro s t p hs hb
  have hm := State.setBusy_mail s t
  have hdo (f : State → State) {u : State} (hu : f ((s.atTick t).setBusy Pg.MGMT true) = u) (h1 : u.clk = ((s.atTick t).setBusy Pg.MGMT true).clk)
      (h2 : u.pending = ((s.atTick t).setBusy Pg.MGMT true).pending) : s.act t (fun s => s.mbxWrite p f) = .next u :=
    State.mbx_serves hs hb hu h1 h2
  have hk : s.mgmt.kstate = .running := hs.2.2.1
  dsimp only
  generalize (s.atTick t).setBusy Pg.MGMT true = b at hm hdo ⊢
  have hbk : b.mgmt.kstate = .running := by rw [hm.mgmt, hk]
  rw [← hm.slot, ← hm.fwValid, ← hm.libValid, ← hm.libraryRuns, ← hm.libImage, ← hm.libImage, ← hm.rotCapacity, ← hm.notLost, ← hm.kind, ← hm.fwImage,
    ← hm.modes, ← hm.arg 0 (by decide)]
  simp only [← hm.mgmt, ← hm.libOf, ← hm.bytes]
  refine ⟨fun h => ?_, fun h => ?_, ⟨fun h => ?_, fun h hr => ?_, fun h hr => ⟨fun hc => ?_, fun hc h2 h4 => ?_, fun hc hmode => ?_⟩⟩,
    fun clips fits => ?_, fun h => ?_, fun h => ?_, fun h => ?_, fun l => ⟨fun h => ?_, fun h hl => ?_, fun h hl hfits => ?_⟩⟩
  · exact hdo (fun s => s.mbxActFw p) (State.mbxActFw_invalid p h) rfl rfl
  · exact hdo (fun s => s.mbxActFw p) (State.mbxActFw_valid p h) rfl rfl
  · exact hdo (fun s => s.mbxActLib p) (State.mbxActLib_invalid p hbk h) rfl rfl
  · obtain ⟨u, hu, hmgmt, honly⟩ := b.chooseLib.activated_spec p 1
    exact ⟨u, ⟨hdo (fun s => s.mbxActLib p) ((State.mbxActLib_idle p hbk h hr).trans hu) honly.clk honly.pending, congrArg Mgmt.flash hmgmt,
      congrArg Mgmt.mbx hmgmt⟩, (congrArg Mgmt.rot hmgmt :), honly.modes⟩
  · exact hdo (fun s => s.mbxActLib p) (State.mbxActLib_otherCompat p hbk h hr hc) rfl rfl
  · exact hdo (fun s => s.mbxActLib p) (State.mbxActLib_otherMode p hbk h hr hc (by simp [State.modeTakesLib, h2, h4])) rfl rfl
  · have htakes := State.mbxActLib_takes p hbk ⟨h, hr, hc, by simpa [State.modeTakesLib] using hmode⟩
    refine ⟨fun hcap => ?_, fun hcap hrot => ?_, fun hcap hrot => ?_⟩
    · exact hdo (fun s => s.mbxActLib p) (htakes.trans (if_pos (by rw [hcap]; rfl))) rfl rfl
    · exact hdo (fun s => s.mbxActLib p) (htakes.trans ((if_neg (by rw [hcap]; decide)).trans (if_pos hrot))) rfl rfl
    · have hgo := htakes.trans ((if_neg (by rw [hcap]; decide)).trans (if_neg (by rw [hrot]; decide)))
      obtain ⟨hflash, hr', hmodes, hdone, hclk, hpend⟩ := b.chooseRotation_spec
      obtain ⟨u, hu, hmgmt, honly⟩ := b.chooseRotation.activated_spec p 1
      refine ⟨u, b.chosenRotation, ⟨hdo (fun s => s.mbxActLib p) (hgo.trans hu) (honly.clk.trans hclk) (honly.pending.trans hpend),
        (congrArg Mgmt.flash hmgmt).trans hflash, congrArg Mgmt.mbx hmgmt⟩, (congrArg Mgmt.rot hmgmt).trans hr', rfl, rfl, rfl, rfl,
        honly.modes.trans hmodes, (State.get_congr (honly.2 _ (by simp) (by decide)) _).trans hdone⟩
  · have heq := State.mbxActData_eq p clips fits hbk
    rw [← State.packageOk_iff]
    refine ⟨fun h => ?_, fun h hno => ?_, fun h hok hf => ?_, fun h hok hf => ?_⟩
    · exact hdo (fun s => s.mbxActData p clips fits) (heq.trans (if_pos h)) rfl rfl
    · exact hdo (fun s => s.mbxActData p clips fits) (heq.trans ((if_neg (ne_true_of_eq_false h)).trans (if_pos (by rw [eq_false_of_ne_true hno]; rfl)))) rfl rfl
    · exact hdo (fun s => s.mbxActData p clips fits) (heq.trans ((if_neg (ne_true_of_eq_false h)).trans ((if_neg (by rw [hok]; decide)).trans
        (if_pos (by rw [hf]; rfl))))) rfl rfl
    · have hgo := heq.trans ((if_neg (ne_true_of_eq_false h)).trans ((if_neg (by rw [hok]; decide)).trans (if_neg (by rw [hf]; decide))))
      obtain ⟨u, hu, hmgmt, honly⟩ := State.activated_spec { b with mgmt := { b.mgmt with clips := clips } } p 2
      refine ⟨u, hdo (fun s => s.mbxActData p clips fits) (hgo.trans hu) honly.clk honly.pending, congrArg Mgmt.clips hmgmt, ?_⟩
      rw [hmgmt] at honly ⊢
      exact honly
  · exact hdo (fun s => s.mbxCommit p) (State.mbxCommit_badParam p hbk h) rfl rfl
  · refine hdo (fun s => s.mbxCommit p) (State.mbxCommit_eq p hbk (by omega) (if_pos h) ?_ (if_pos h)) rfl rfl
    rw [h]
    rfl
  · have hcount : b.svnCount b.mbxKind = b.mgmt.fuses.svnLib := by
      rw [h]
      rfl
    refine ⟨_, hdo (fun s => s.mbxCommit p) (State.mbxCommit_eq p hbk (by omega) (if_neg (by omega)) hcount (if_neg (by omega))) rfl rfl, fun h32 => ?_, ?_,
      rfl, rfl⟩
    · exact Nat.le_min.mpr ⟨h32, Nat.le_max_left _ _⟩
    · exact Nat.min_le_left _ _
  · exact hdo (fun s => s.mbxBoard p l.toNat) (State.mbxBoard_notInMode p _ h) rfl rfl
  · exact hdo (fun s => s.mbxBoard p l.toNat) (State.mbxBoard_badParam hbk h hl) rfl rfl
  · exact hdo (fun s => s.mbxBoard p l.toNat) (State.mbxBoard_ok hbk h hl hfits) rfl rfl

end Sys2Proof.Machine
end

section
/-! PROOFS. Kwakel's watchdog and restarts, and the load of a rotation step (R503, R508, R509, R511). -/

namespace Sys2Proof.Machine

namespace State

/-! ## What an occurrence leaves of the log (R509, R519) -/

/-- Flash and its spare blocks are as they were, and so is the hardware queue while Kwakel runs. -/
structure KeepsStores (s u : State) : Prop where
  flash : u.log.flash = s.log.flash
  spare : u.log.spare = s.log.spare
  mgmt : u.mgmt = s.mgmt
  queue : s.mgmt.kstate = .running → u.log.queue = s.log.queue

theorem KeepsStores.of_log {s u : State} (h : u.log = s.log) (hm : u.mgmt = s.mgmt) : KeepsStores s u :=
  ⟨by rw [h], by rw [h], hm, fun _ => by rw [h]⟩

theorem KeepsStores.trans {s u v : State} (h : KeepsStores s u) (h' : KeepsStores u v) : KeepsStores s v :=
  ⟨h'.flash.trans h.flash, h'.spare.trans h.spare, h'.mgmt.trans h.mgmt, fun hk => (h'.queue (by rw [h.mgmt, hk])).trans (h.queue hk)⟩

/-- The management port's part of the log is all that a message changes of it. -/
theorem syslog_log (s : State) (r : LogRec) : ∃ a b, (s.syslog r).log = { s.log with sentSecond := a, sent := b } ∧ (s.syslog r).mgmt = s.mgmt := by
  unfold syslog
  dsimp only
  generalize (if s.log.sentSecond = s.clk.now / secTicks 1 then s.log.sent else 0) = sent
  split
  · split
    · exact ⟨_, _, rfl, rfl⟩
    · exact ⟨_, _, rfl, rfl⟩
  · exact ⟨_, _, rfl, rfl⟩

theorem storeRec_log (s : State) (r : LogRec) :
    (s.storeRec r).1.log.ram = pushCap ramRecords r s.log.ram ∧ KeepsStores s (s.storeRec r).1 := by
  unfold storeRec
  dsimp only
  generalize hl : ({ s.log with next := _, ram := pushCap ramRecords r s.log.ram, mem := _, due := _ } : LogState) = l
  obtain ⟨a, b, hlog, hmgmt⟩ := syslog_log { s with log := l } r
  have hu : (({ s with log := l } : State).syslog r).log = { l with sentSecond := a, sent := b } := hlog
  have hm : (({ s with log := l } : State).syslog r).mgmt = s.mgmt := hmgmt
  generalize ({ s with log := l } : State).syslog r = u at hu hm ⊢
  rw [hu, ← hl]
  exact ⟨rfl, by rw [hu, ← hl], by rw [hu, ← hl], hm, fun _ => by rw [hu, ← hl]⟩

theorem keepsStores_logSource (s : State) (page b : Nat) (w : Word) : KeepsStores s (s.logSource page b w).1 := by
  unfold logSource
  dsimp only
  split
  · exact .of_log rfl rfl
  split
  · split
    · exact ⟨rfl, rfl, rfl, fun _ => rfl⟩
    · exact (storeRec_log s _).2
  · next hk =>
    split
    · exact ⟨rfl, rfl, rfl, fun h => absurd h hk⟩
    · exact .of_log rfl rfl

theorem setLatch_log (s : State) (page b : Nat) : (s.setLatch page b).log = s.log ∧ (s.setLatch page b).mgmt = s.mgmt := by
  have hsend (s : State) (p : Port) (vec : Nat) : (s.sendMsix p vec).log = s.log ∧ (s.sendMsix p vec).mgmt = s.mgmt := by
    unfold sendMsix
    dsimp only
    split
    · exact ⟨rfl, rfl⟩
    · split
      · cases p <;> exact ⟨rfl, rfl⟩
      · exact ⟨rfl, rfl⟩
  have hpage (s : State) : (s.pageMsix page).log = s.log ∧ (s.pageMsix page).mgmt = s.mgmt := by
    unfold pageMsix
    dsimp only
    split <;> split
    · exact ⟨(hsend _ _ _).1.trans (hsend _ _ _).1, (hsend _ _ _).2.trans (hsend _ _ _).2⟩
    · exact hsend _ _ _
    · exact hsend _ _ _
    · exact ⟨rfl, rfl⟩
  unfold setLatch
  dsimp only
  split
  · exact ⟨rfl, rfl⟩
  · split
    · exact hpage (s.wr (Reg.EVT_LATCH page) _)
    · exact ⟨rfl, rfl⟩

/-- A lost record is counted, and its latch sets. -/
def noteLost (s : State) : State := (s.inc Reg.LOG_LOST_CNT Fd.LOG_LOST_CNT.COUNT).setLatch Pg.LOG Ev.LOG.LOST

theorem noteLost_log (s : State) : s.noteLost.log = s.log ∧ s.noteLost.mgmt = s.mgmt :=
  setLatch_log (s.inc Reg.LOG_LOST_CNT Fd.LOG_LOST_CNT.COUNT) Pg.LOG Ev.LOG.LOST

/-- An occurrence enters the log once, or, when a record is lost on the way, twice. -/
theorem logEvent_eq (s : State) (page b : Nat) : s.logEvent page b = (s.logSource page b (s.rd (Reg.EVT_LATCH page))).1
    ∨ ∃ w, s.logEvent page b = ((s.logSource page b (s.rd (Reg.EVT_LATCH page))).1.noteLost.logSource Pg.LOG Ev.LOG.LOST w).1 := by
  unfold logEvent
  split
  · next e => exact .inl (congrArg Prod.fst e).symm
  · next u e =>
    rw [e]
    exact .inr ⟨_, rfl⟩

theorem keepsStores_logEvent (s : State) (page b : Nat) : KeepsStores s (s.logEvent page b) := by
  have h := keepsStores_logSource s page b (s.rd (Reg.EVT_LATCH page))
  rcases s.logEvent_eq page b with he | ⟨w, he⟩
  · rw [he]
    exact h
  · rw [he]
    generalize (s.logSource page b (s.rd (Reg.EVT_LATCH page))).1 = v at h ⊢
    exact (h.trans (.of_log v.noteLost_log.1 v.noteLost_log.2)).trans (keepsStores_logSource _ _ _ _)

/-- A source's latch, before the log takes its occurrence. -/
theorem event_latch_log (s : State) (page b : Nat) :
    ((s.noteRecent page b).setLatch page b).log = s.log ∧ ((s.noteRecent page b).setLatch page b).mgmt = s.mgmt :=
  setLatch_log (s.noteRecent page b) page b

theorem keepsStores_event (s : State) (page b : Nat) : KeepsStores s (s.event page b) := by
  obtain ⟨hlog, hmgmt⟩ := s.event_latch_log page b
  unfold event
  generalize (s.noteRecent page b).setLatch page b = v at hlog hmgmt ⊢
  exact (KeepsStores.of_log hlog hmgmt).trans (keepsStores_logEvent v page b)

/-- What follows a record that log RAM lost. -/
def lostRecord (s : State) : State := (s.inc Reg.LOG_LOST_CNT Fd.LOG_LOST_CNT.COUNT).event Pg.LOG Ev.LOG.LOST

theorem keepsStores_lostRecord (s : State) : KeepsStores s s.lostRecord :=
  (KeepsStores.of_log (s := s) (u := s.inc Reg.LOG_LOST_CNT Fd.LOG_LOST_CNT.COUNT) rfl rfl).trans (keepsStores_event (s.inc Reg.LOG_LOST_CNT Fd.LOG_LOST_CNT.COUNT) _ _)

theorem lostRecord_onlyEvents (s : State) : OnlyEvents s s.lostRecord [] := by
  have hinc : OnlyEvents s (s.inc Reg.LOG_LOST_CNT Fd.LOG_LOST_CNT.COUNT) [] := by
    refine ⟨rfl, fun a _ he => rd_wr_ne s _ ?_⟩
    rintro rfl
    simp [evtReg] at he
  exact hinc.event _ _

/-- A record is stored, and what log RAM loses by it is noted. -/
def enterRec (s : State) (r : LogRec) : State :=
  match s.storeRec r with
  | (s, false) => s
  | (s, true) => s.lostRecord

theorem enterRec_eq (s : State) (r : LogRec) : s.enterRec r = (s.storeRec r).1 ∨ s.enterRec r = (s.storeRec r).1.lostRecord := by
  unfold enterRec
  split
  · next e => exact .inl (congrArg Prod.fst e).symm
  · next e => exact .inr (congrArg (fun x : State × Bool => x.1.lostRecord) e).symm

theorem enterRec_spec (s : State) (r : LogRec) : KeepsStores s (s.enterRec r) ∧ OnlyEvents s (s.enterRec r) [] := by
  have hkeep := (s.storeRec_log r).2
  have hev := storeRec_onlyEvents s r
  rcases s.enterRec_eq r with he | he
  · rw [he]
    exact ⟨hkeep, hev⟩
  · rw [he]
    exact ⟨hkeep.trans (keepsStores_lostRecord _), hev.andThen (lostRecord_onlyEvents _)⟩

/-! ## The hardware queue (R509) -/

theorem kwakelLog_enters (s : State) (k : KwakelKind) (detail : Nat) : ∃ r, s.kwakelLog k detail = s.enterRec r := ⟨_, rfl⟩

theorem logQueued_spec (s : State) (r : LogRec) : KeepsStores s (s.logQueued r) ∧ OnlyEvents s (s.logQueued r) [] := by
  unfold logQueued
  split
  · exact ⟨⟨rfl, rfl, rfl, fun _ => rfl⟩, ⟨rfl, fun _ _ _ => rfl⟩⟩
  · exact s.enterRec_spec { r with seq := s.log.next }

theorem foldQueued (s : State) (l : List LogRec) : KeepsStores s (l.foldl logQueued s) ∧ OnlyEvents s (l.foldl logQueued s) [] := by
  induction l generalizing s with
  | nil => exact ⟨.of_log rfl rfl, OnlyEvents.same⟩
  | cons r rs ih =>
    obtain ⟨hq, hev⟩ := s.logQueued_spec r
    rw [List.foldl_cons]
    generalize s.logQueued r = v at hq hev ⊢
    exact ⟨hq.trans (ih v).1, hev.andThen (ih v).2⟩

/-- Kwakel logs what the queue holds: the queue is empty afterwards. -/
theorem drainQueue_spec {s : State} (hk : s.mgmt.kstate = .running) : s.drainQueue.log.queue = [] ∧ OnlyEvents s s.drainQueue [] := by
  have h0 : OnlyEvents s { s with log := { s.log with queue := [] } } [] := ⟨rfl, fun _ _ _ => rfl⟩
  have hk0 : ({ s with log := { s.log with queue := [] } } : State).mgmt.kstate = .running := hk
  have hempty : ({ s with log := { s.log with queue := [] } } : State).log.queue = [] := rfl
  unfold drainQueue
  dsimp only
  generalize ({ s with log := { s.log with queue := [] } } : State) = v at h0 hk0 hempty ⊢
  obtain ⟨hq, hev⟩ := v.foldQueued s.log.queue
  exact ⟨(hq.queue hk0).trans hempty, h0.andThen hev⟩

/-! ## The watchdog (R503, R508) -/

theorem dropMailbox_spec (s : State) :
    ∃ u, s.dropMailbox = u ∧ u.mgmt = { s.mgmt with mbx := none, session := none }
      ∧ (s.mgmt.mbx.isSome = true → u.isBusy Pg.MGMT = false ∧ u.Reports Pg.MGMT .aborted)
      ∧ u.rd Reg.MGMT_STATE = s.rd Reg.MGMT_STATE
      ∧ OnlyEvents { s with mgmt := u.mgmt } u [Reg.MGMT_STATE, Reg.PAGE_STATUS Pg.MGMT] := by
  unfold dropMailbox
  dsimp only
  split
  · refine ⟨_, rfl, rfl, fun _ => ⟨?_, reports_status _ _ _⟩, ?_, ?_⟩
    · rw [isBusy, State.status, flag, get_put_other _ _ _ _ _ (by decide) (by decide) (by decide) (by decide)]
      exact isBusy_setBusy _ _ _
    · rw [rd_status_ne _ _ (by decide), setBusy, rd_putB_ne _ _ _ (by decide)]
      rfl
    · exact (OnlyEvents.same.setBusy _ (by simp)).status _ (by simp)
  · next h => exact ⟨_, rfl, rfl, fun h' => absurd h' h, rfl, OnlyEvents.same⟩

/-- Kwakel's state is `k`. -/
def setKState (s : State) (k : KState) : State := { s with mgmt := { s.mgmt with kstate := k } }

theorem restart_eq (s : State) (k : KState) :
    s.restart k = ((s.dropMailbox.setKState k).inc Reg.MGMT_STATE Fd.MGMT_STATE.RESTARTS).event Pg.MGMT Ev.MGMT.KWAKEL_RESTART := rfl

theorem restart_spec (s : State) (k : KState) :
    ∃ u, s.restart k = u ∧ u.mgmt = { s.mgmt with mbx := none, session := none, kstate := k }
      ∧ (s.mgmt.mbx.isSome = true → u.isBusy Pg.MGMT = false ∧ u.Reports Pg.MGMT .aborted)
      ∧ u.get Reg.MGMT_STATE Fd.MGMT_STATE.RESTARTS = min (s.get Reg.MGMT_STATE Fd.MGMT_STATE.RESTARTS + 1)
          (2 ^ (Fd.MGMT_STATE.RESTARTS.hi + 1 - Fd.MGMT_STATE.RESTARTS.lo) - 1)
      ∧ u.Latched Pg.MGMT Ev.MGMT.KWAKEL_RESTART
      ∧ OnlyEvents { s with mgmt := u.mgmt } u [Reg.MGMT_STATE, Reg.PAGE_STATUS Pg.MGMT] := by
  obtain ⟨v, hv, hmgmt, hended, hrd, honly⟩ := s.dropMailbox_spec
  have heq := s.restart_eq k
  rw [hv] at heq
  have hwm : (v.setKState k).mgmt = { s.mgmt with mbx := none, session := none, kstate := k } :=
    congrArg (fun m : Mgmt => ({ m with kstate := k } : Mgmt)) hmgmt
  have hwrd (a : Nat) : (v.setKState k).rd a = v.rd a := rfl
  have hw (m : Mgmt) (hm : m = (v.setKState k).mgmt) : OnlyEvents { s with mgmt := m } (v.setKState k) [Reg.MGMT_STATE, Reg.PAGE_STATUS Pg.MGMT] := by
    rw [hm]
    exact honly.under fun z => { z with mgmt := (v.setKState k).mgmt }
  generalize v.setKState k = w at heq hwm hwrd hw
  have hev : OnlyEvents w ((w.inc Reg.MGMT_STATE Fd.MGMT_STATE.RESTARTS).event Pg.MGMT Ev.MGMT.KWAKEL_RESTART)
      [Reg.MGMT_STATE, Reg.PAGE_STATUS Pg.MGMT] := (OnlyEvents.same.inc _ _ (by simp)).event _ _
  have hlatch := event_latched (w.inc Reg.MGMT_STATE Fd.MGMT_STATE.RESTARTS) Pg.MGMT Ev.MGMT.KWAKEL_RESTART (by decide)
  have hcount : ((w.inc Reg.MGMT_STATE Fd.MGMT_STATE.RESTARTS).event Pg.MGMT Ev.MGMT.KWAKEL_RESTART).get Reg.MGMT_STATE Fd.MGMT_STATE.RESTARTS
      = min (s.get Reg.MGMT_STATE Fd.MGMT_STATE.RESTARTS + 1) (2 ^ (Fd.MGMT_STATE.RESTARTS.hi + 1 - Fd.MGMT_STATE.RESTARTS.lo) - 1) := by
    rw [get_event _ _ _ _ (by decide), get_inc_same _ _ _ _ (by decide) (by decide), get_congr ((hwrd _).trans hrd)]
  have hstatus : ((w.inc Reg.MGMT_STATE Fd.MGMT_STATE.RESTARTS).event Pg.MGMT Ev.MGMT.KWAKEL_RESTART).rd (Reg.PAGE_STATUS Pg.MGMT)
      = v.rd (Reg.PAGE_STATUS Pg.MGMT) := by
    rw [rd_event _ _ _ (by decide), inc, rd_put_ne _ _ _ (by decide), hwrd]
  generalize (w.inc Reg.MGMT_STATE Fd.MGMT_STATE.RESTARTS).event Pg.MGMT Ev.MGMT.KWAKEL_RESTART = u at heq hev hlatch hcount hstatus
  refine ⟨u, heq, hev.mgmt.trans hwm, fun h => ?_, hcount, hlatch, (hw _ hev.mgmt).andThen hev⟩
  obtain ⟨hbusy, hrep⟩ := hended h
  exact ⟨(isBusy_congr hstatus).trans hbusy, hrep.congr hstatus⟩

/-- The flash after the watchdog: a firmware that fails early gives way to the one before it. -/
def flashAfter (s : State) (early : Bool) : Flash :=
  match s.mgmt.flash.fwPrev with
  | some k => if early then { s.mgmt.flash with fwSel := k, fwPrev := none } else s.mgmt.flash
  | none => s.mgmt.flash

/-- The expiries of the last hour, this one included. -/
def expiries (s : State) : List Nat := s.mgmt.watchdogs.filter (fun x => s.clk.now < x + secTicks 3600) ++ [s.clk.now]

/-- Whether the firmware that runs was first started less than 60 s ago. -/
def startedLately (s : State) : Bool :=
  match s.mgmt.firstStart with
  | some f => s.clk.now < f + secTicks 60
  | none => false

theorem startedLately_iff {s : State} : s.startedLately = true ↔ ∃ f, s.mgmt.firstStart = some f ∧ s.clk.now < f + secTicks 60 := by
  unfold startedLately
  generalize secTicks 60 = d
  cases s.mgmt.firstStart <;> simp

/-- What an expiry notes. -/
def noteExpiry (s : State) : State :=
  { s with mgmt := { s.mgmt with watchdogs := s.expiries, flash := s.flashAfter s.startedLately, held := 3 ≤ s.expiries.length } }

theorem watchdog_eq {s : State} (hk : s.mgmt.kstate = .running) :
    s.watchdog = s.noteExpiry.restart (if 3 ≤ s.expiries.length then .recovery else .restarting) :=
  (if_neg (by rw [hk]; decide)).trans rfl

theorem flashAfter_early {s : State} {k : Nat} (h : s.mgmt.flash.fwPrev = some k) : s.flashAfter true = { s.mgmt.flash with fwSel := k, fwPrev := none } := by
  unfold flashAfter
  rw [h]
  rfl

theorem flashAfter_same {s : State} {early : Bool} (h : s.mgmt.flash.fwPrev = none ∨ early = false) : s.flashAfter early = s.mgmt.flash := by
  unfold flashAfter
  rcases h with h | rfl
  · rw [h]
  · cases s.mgmt.flash.fwPrev <;> rfl

/-! ## A restart completes (R509) -/

theorem restarted_not {s : State} (h : s.mgmt.kstate ≠ .restarting) : s.restarted = s := if_pos (bne_iff_ne.mpr h)

/-- FIRMWARE that runs from slot `k`, with Kwakel's state as `m` had it. -/
def runsSlot (s : State) (k : Nat) : State :=
  { s with mgmt := { s.mgmt with kstate := .running, fwSlot := k
                                 firstStart := if s.mgmt.firstStart.isNone && s.mgmt.flash.fwPrev.isSome then some s.clk.now else s.mgmt.firstStart } }

/-- A restart without a slot to run, and with one. -/
theorem restarted_none {s : State} (h : s.mgmt.kstate = .restarting) (hp : pickSlot s.mgmt.flash.fwSel s.fwValid = none) :
    s.restarted = { s with mgmt := { s.mgmt with kstate := .recovery } } := by
  unfold restarted
  rw [if_neg (by rw [h]; decide), hp]

theorem restarted_some {s : State} {k : Nat} (h : s.mgmt.kstate = .restarting) (hp : pickSlot s.mgmt.flash.fwSel s.fwValid = some k) :
    s.restarted = if ((s.runsSlot k).drainQueue.kwakelLog .restart 0).mgmt.boots then (s.runsSlot k).drainQueue.kwakelLog .restart 0
      else ((s.runsSlot k).drainQueue.kwakelLog .restart 0).startFirmware := by
  unfold restarted
  rw [if_neg (by rw [h]; decide), hp]
  rfl

/-- What the firmware logs as it starts to run. -/
theorem runsSlot_spec (s : State) (k : Nat) :
    ∃ u, (s.runsSlot k).drainQueue.kwakelLog .restart 0 = u ∧ u.log.queue = [] ∧ u.mgmt = (s.runsSlot k).mgmt
      ∧ OnlyEvents { s with mgmt := u.mgmt } u [] := by
  have hk : (s.runsSlot k).mgmt.kstate = .running := rfl
  have hself (m : Mgmt) (hm : m = (s.runsSlot k).mgmt) : ({ s with mgmt := m } : State) = s.runsSlot k := by
    rw [hm]
    rfl
  generalize s.runsSlot k = v at hk hself ⊢
  obtain ⟨hempty, hdrain⟩ := drainQueue_spec hk
  generalize v.drainQueue = w at hempty hdrain ⊢
  have hwk : w.mgmt.kstate = .running := by rw [hdrain.mgmt, hk]
  obtain ⟨r, hr⟩ := w.kwakelLog_enters .restart 0
  obtain ⟨hq, hlog⟩ := w.enterRec_spec r
  rw [hr]
  generalize w.enterRec r = u at hq hlog ⊢
  have hm := hlog.mgmt.trans hdrain.mgmt
  refine ⟨u, rfl, (hq.queue hwk).trans hempty, hm, ?_⟩
  rw [hself u.mgmt hm]
  exact hdrain.andThen hlog

theorem setMemState_reads (s : State) (v : Nat) (hv : v < 4) : (s.setMemState v).get Reg.MEM_STATE Fd.MEM_STATE.STATE = v
    ∧ (s.setMemState v).mgmt = s.mgmt ∧ (s.setMemState v).clk = s.clk ∧ (s.setMemState v).pending = s.pending := by
  have hget : (s.put Reg.MEM_STATE Fd.MEM_STATE.STATE v).get Reg.MEM_STATE Fd.MEM_STATE.STATE = v :=
    (get_put_same _ _ _ _ (by decide) (by decide)).trans (Nat.mod_eq_of_lt hv)
  have hput : OnlyEvents s (s.put Reg.MEM_STATE Fd.MEM_STATE.STATE v) [Reg.MEM_STATE] := OnlyEvents.same.put _ _ (by simp)
  unfold setMemState
  generalize s.put Reg.MEM_STATE Fd.MEM_STATE.STATE v = w at hget hput ⊢
  generalize (s.get Reg.MEM_STATE Fd.MEM_STATE.STATE != v) = c
  have hev := eventIf_onlyEvents w c Pg.MEM Ev.MEM.STATE_CHANGE
  exact ⟨(get_congr (hev.2 _ (by simp) (by decide)) _).trans hget, hev.mgmt.trans hput.mgmt, hev.clk.trans hput.clk, hev.pending.trans hput.pending⟩

/-- The parts of Kwakel's state that a start leaves, and the memory that begins to train. -/
structure Started (s u : State) : Prop where
  clk : u.clk = s.clk
  pending : u.pending = s.pending
  kstate : u.mgmt.kstate = .running
  slot : u.mgmt.fwSlot = s.mgmt.fwSlot
  boots : u.mgmt.boots = true

theorem Started.events {s v u : State} {r : List Nat} (h : Started s v) (he : OnlyEvents v u r) : Started s u :=
  ⟨he.clk.trans h.clk, he.pending.trans h.pending, by rw [he.mgmt, h.kstate], by rw [he.mgmt, h.slot], by rw [he.mgmt, h.boots]⟩

theorem noteWiped_spec {s v : State} (h : Started s v) :
    Started s v.noteWiped ∧ v.noteWiped.get Reg.MEM_STATE Fd.MEM_STATE.STATE = v.get Reg.MEM_STATE Fd.MEM_STATE.STATE := by
  unfold noteWiped
  split
  · have hz : Started s { v with mgmt := { v.mgmt with fuses := { v.mgmt.fuses with changed := false } } } :=
      ⟨h.clk, h.pending, h.kstate, h.slot, h.boots⟩
    have hget : ({ v with mgmt := { v.mgmt with fuses := { v.mgmt.fuses with changed := false } } } : State).get Reg.MEM_STATE Fd.MEM_STATE.STATE
        = v.get Reg.MEM_STATE Fd.MEM_STATE.STATE := rfl
    generalize ({ v with mgmt := { v.mgmt with fuses := { v.mgmt.fuses with changed := false } } } : State) = z at hz hget ⊢
    exact ⟨hz.events (event_onlyEvents z _ _), (get_event z _ _ _ (by decide)).trans hget⟩
  · exact ⟨h, rfl⟩

/-- The firmware runs, and the retirement table is the one of flash. -/
def firmwareUp (s : State) : State :=
  { s with mgmt := { s.mgmt with kstate := .running, boots := true }
           mem := { s.mem with table := tableOf s.mgmt.flash.retiredFrames, since := s.clk.now } }

/-- A firmware that runs for the first time since reset (R501). -/
theorem startFirmware_spec (s : State) : ∃ u, s.startFirmware = u ∧ Started s u ∧ u.get Reg.MEM_STATE Fd.MEM_STATE.STATE = 1 := by
  have h1 : Started s s.firmwareUp.showRetire.drawChallenge := ⟨rfl, rfl, rfl, rfl, rfl⟩
  have heq : s.startFirmware = (s.firmwareUp.showRetire.drawChallenge.setMemState 1).noteWiped.kwakelLog .boot 0 := rfl
  generalize s.firmwareUp.showRetire.drawChallenge = v at h1 heq
  obtain ⟨hget, hmgmt, hclk, hpend⟩ := v.setMemState_reads 1 (by decide)
  have h2 : Started s (v.setMemState 1) :=
    ⟨hclk.trans h1.clk, hpend.trans h1.pending, by rw [hmgmt, h1.kstate], by rw [hmgmt, h1.slot], by rw [hmgmt, h1.boots]⟩
  generalize v.setMemState 1 = w at heq hget h2
  obtain ⟨h3, hget'⟩ := noteWiped_spec h2
  generalize w.noteWiped = x at heq h3 hget'
  have hlog := x.kwakelLog_onlyEvents .boot 0
  generalize x.kwakelLog .boot 0 = u at heq hlog
  exact ⟨u, heq, h3.events hlog, (get_congr (hlog.2 _ (by simp) (by decide)) _).trans (hget'.trans hget)⟩

/-! ## The load of a rotation step (R511) -/

theorem cluster_modCluster_ne (s : State) {k j : Nat} (f : Cluster → Cluster) (h : j ≠ k) : (s.modCluster k f).cluster j = s.cluster j := by
  unfold modCluster cluster
  simp [h.symm]

/-- The step of a rotation that cluster `k` takes. -/
theorem stepLoaded_eq {s : State} {r : Rotation} {k : Nat} {c : Cluster} (hr : s.mgmt.rot = some r) (hk : r.cur = some k) (hc : s.cluster k = some c) :
    s.stepLoaded = if (decide (s.mgmt.kstate = .running) && decide (c.cstate = .evacuated) && (s.clusterJobs k).isEmpty) = true then
        ((s.modCluster k fun c => { c with lib := (s.libImage r.slot).version, libSlot := r.slot }).setRot (some { r with loaded := true })).kwakelLog
          .rotation (256 + k)
      else s := by
  unfold stepLoaded
  rw [hr]
  dsimp only
  rw [hk]
  dsimp only
  rw [hc]

theorem stepLoaded_none {s : State} (h : s.mgmt.rot = none) : s.stepLoaded = s := by
  unfold stepLoaded
  rw [h]

/-- The cluster of a step with the version that it has loaded. -/
def loadCluster (s : State) (r : Rotation) (k : Nat) : State :=
  s.modCluster k fun c => { c with lib := (s.libImage r.slot).version, libSlot := r.slot }

theorem stepLoaded_spec {s : State} {r : Rotation} {k : Nat} {c : Cluster} (hrun : s.mgmt.kstate = .running) (hr : s.mgmt.rot = some r)
    (hk : r.cur = some k) (hc : s.cluster k = some c) (he : c.cstate = .evacuated) (hj : s.clusterJobs k = []) :
    ∃ u, s.stepLoaded = u ∧ u.mgmt = { s.mgmt with rot := some { r with loaded := true } }
      ∧ u.cluster k = some { c with lib := (s.libImage r.slot).version, libSlot := r.slot } ∧ (∀ j, j ≠ k → u.cluster j = s.cluster j)
      ∧ OnlyEvents { s with mgmt := u.mgmt, clusters := u.clusters } u [] := by
  have heq := (stepLoaded_eq hr hk hc).trans (if_pos (by rw [hrun, he, hj]; rfl))
  have hthis : (s.loadCluster r k).cluster k = some { c with lib := (s.libImage r.slot).version, libSlot := r.slot } := cluster_modCluster _ hc
  have hother (j : Nat) (h : j ≠ k) : (s.loadCluster r k).cluster j = s.cluster j := s.cluster_modCluster_ne _ h
  have hbase (m : Mgmt) (hm : m = { s.mgmt with rot := some { r with loaded := true } }) :
      ({ s with mgmt := m, clusters := (s.loadCluster r k).clusters } : State) = (s.loadCluster r k).setRot (some { r with loaded := true }) := by
    rw [hm]
    rfl
  have hm : (s.loadCluster r k).mgmt = s.mgmt := rfl
  change s.stepLoaded = ((s.loadCluster r k).setRot (some { r with loaded := true })).kwakelLog .rotation (256 + k) at heq
  generalize s.loadCluster r k = v at heq hthis hother hbase hm
  have hlog := (v.setRot (some { r with loaded := true })).kwakelLog_onlyEvents .rotation (256 + k)
  have hcl : (v.setRot (some { r with loaded := true })).clusters = v.clusters := rfl
  have hmg : (v.setRot (some { r with loaded := true })).mgmt = { s.mgmt with rot := some { r with loaded := true } } := by
    rw [← hm]
    rfl
  generalize v.setRot (some { r with loaded := true }) = w at heq hlog hcl hmg hbase
  generalize w.kwakelLog .rotation (256 + k) = u at heq hlog
  have huc : u.clusters = v.clusters := hlog.clusters.trans hcl
  refine ⟨u, heq, hlog.mgmt.trans hmg, ?_, fun j hj' => ?_, ?_⟩
  · rw [cluster, huc]
    exact hthis
  · rw [cluster, huc]
    exact hother j hj'
  · rw [huc, hbase u.mgmt (hlog.mgmt.trans hmg)]
    exact hlog

end State

/-- Settles O52: Kwakel's state and the slots decide what an expiry, a restart or a loaded step leaves. -/
theorem kwakelRestarts : Obligations.KwakelRestarts := by
  unfold Obligations.KwakelRestarts
  intro s t hup
  dsimp only
  refine ⟨fun h => ?_, fun hk => ?_, fun h => ?_, fun h hp => ?_, fun k h hb hp => ?_, fun k h hb hp => ?_, fun h => ?_,
    fun r k c hrun hr hk hc he hj => ?_, fun r k c hr hk hc h => ?_⟩
  · exact State.act_nothing (f := State.watchdog) hup (if_pos (bne_iff_ne.mpr h))
  · have hnote : (s.atTick t).noteExpiry.mgmt
        = { s.mgmt with watchdogs := (s.atTick t).expiries, flash := (s.atTick t).flashAfter (s.atTick t).startedLately,
                        held := 3 ≤ (s.atTick t).expiries.length } := rfl
    have hbase (m : Mgmt) : ({ s.atTick t with mgmt := m } : State) = { (s.atTick t).noteExpiry with mgmt := m } := rfl
    have hcount : (s.atTick t).noteExpiry.get Reg.MGMT_STATE Fd.MGMT_STATE.RESTARTS = s.get Reg.MGMT_STATE Fd.MGMT_STATE.RESTARTS := rfl
    obtain ⟨u, hu, hm, hended, hrest, hlatch, honly⟩ := (s.atTick t).noteExpiry.restart_spec (if 3 ≤ (s.atTick t).expiries.length then .recovery else .restarting)
    rw [hnote] at hm hended
    rw [hcount] at hrest
    have hearly := State.startedLately_iff (s := s.atTick t)
    refine ⟨u, State.act_of_eq State.watchdog hup ((State.watchdog_eq (s := s.atTick t) hk).trans hu) honly.clk honly.pending, congrArg Mgmt.kstate hm,
      congrArg Mgmt.watchdogs hm, congrArg Mgmt.mbx hm, congrArg Mgmt.session hm, fun k hp he => ?_, fun hno => ?_, hended, hrest, hlatch, ?_⟩
    · refine (congrArg Mgmt.flash hm :).trans ?_
      dsimp only
      rw [hearly.mpr he]
      exact State.flashAfter_early (s := s.atTick t) hp
    · refine (congrArg Mgmt.flash hm :).trans (State.flashAfter_same (s := s.atTick t) (hno.imp id fun hne => ?_))
      exact eq_false_of_ne_true fun he => hne (hearly.mp he)
    · rw [hbase]
      exact honly
  · exact State.act_nothing (f := State.restarted) hup (State.restarted_not (s := s.atTick t) h)
  · exact State.act_of_eq State.restarted hup (State.restarted_none (s := s.atTick t) h hp) rfl rfl
  · obtain ⟨u, hu, hq, hm, honly⟩ := (s.atTick t).runsSlot_spec k
    have heq := State.restarted_some (s := s.atTick t) h hp
    rw [hu, if_pos (by rw [hm]; exact hb)] at heq
    exact ⟨u, State.act_of_eq State.restarted hup heq honly.clk honly.pending, hq, congrArg Mgmt.kstate hm, congrArg Mgmt.fwSlot hm,
      (congrArg Mgmt.flash hm :), honly⟩
  · obtain ⟨v, hv, -, hm, honly⟩ := (s.atTick t).runsSlot_spec k
    have heq := State.restarted_some (s := s.atTick t) h hp
    rw [hv, if_neg (by rw [hm]; exact ne_true_of_eq_false hb)] at heq
    obtain ⟨u, hu, hstart, hget⟩ := v.startFirmware_spec
    exact ⟨u, State.act_of_eq State.restarted hup (heq.trans hu) (hstart.clk.trans honly.clk) (hstart.pending.trans honly.pending), hstart.kstate,
      hstart.slot.trans (congrArg Mgmt.fwSlot hm), hstart.boots, hget⟩
  · exact State.act_nothing (f := State.stepLoaded) hup (State.stepLoaded_none (s := s.atTick t) h)
  · obtain ⟨u, hu, hm, hthis, hother, honly⟩ := State.stepLoaded_spec (s := s.atTick t) hrun hr hk hc he hj
    exact ⟨u, State.act_of_eq State.stepLoaded hup hu honly.clk honly.pending, hm, hthis, hother, honly⟩
  · refine State.act_nothing (f := State.stepLoaded) hup ((State.stepLoaded_eq (s := s.atTick t) hr hk hc).trans (if_neg fun hall => ?_))
    obtain ⟨hleft, hjobs⟩ := Bool.and_eq_true_iff.mp hall
    rcases h with h | h
    · exact h (of_decide_eq_true (Bool.and_eq_true_iff.mp hleft).2)
    · exact h (List.isEmpty_iff.mp hjobs)

end Sys2Proof.Machine
end

section
/-! PROOFS. The log's registers and flash, the management port, and GPIO edges (R519 to R523, R575). -/

namespace Sys2Proof.Machine

namespace State

/-! ## The records of a store (R522) -/

theorem putLogData_spec (s : State) (bs : List Byte) (n : Nat) :
    ∃ u, (List.range n).foldl (fun s k => s.wr (Reg.LOG_RD_DATA k) (Word.of (leAt bs (4 * k) 4))) s = u
      ∧ OnlyRegs s u ((List.range n).map Reg.LOG_RD_DATA) ∧ ∀ k, k < n → u.rd (Reg.LOG_RD_DATA k) = Word.of (leAt bs (4 * k) 4) := by
  induction n with
  | zero => exact ⟨s, rfl, OnlyRegs.same, fun k hk => by omega⟩
  | succ n ih =>
    obtain ⟨v, hv, ⟨hrest, hregs⟩, hread⟩ := ih
    rw [List.range_succ, List.foldl_append, hv, List.map_append]
    refine ⟨_, rfl, OnlyRegs.wr ⟨hrest, fun a ha => hregs a fun h => ha (List.mem_append_left _ h)⟩ _ (by simp), fun k hk => ?_⟩
    by_cases he : k = n
    · rw [he]
      exact rd_wr_same _ _ _
    · exact (rd_wr_ne _ _ (by simp only [Reg.LOG_RD_DATA]; omega)).trans (hread k (by omega))

/-- What a write of LOG_RD_SEQ shows. -/
def logShown (s : State) (bs : List Byte) (st : Status) : State := (s.putLogData bs).status Pg.LOG st

theorem logShown_spec (s : State) (bs : List Byte) (st : Status) :
    ∃ u, s.logShown bs st = u ∧ u.Reports Pg.LOG st ∧ (∀ k, k < 8 → u.rd (Reg.LOG_RD_DATA k) = Word.of (leAt bs (4 * k) 4))
      ∧ OnlyRegs s u (Reg.PAGE_STATUS Pg.LOG :: (List.range 8).map Reg.LOG_RD_DATA) := by
  obtain ⟨v, hv, ⟨hrest, hregs⟩, hread⟩ := s.putLogData_spec bs 8
  unfold logShown putLogData
  rw [hv]
  refine ⟨_, rfl, reports_status _ _ _, fun k hk => (rd_status_ne _ _ ?_).trans (hread k hk),
    OnlyRegs.status ⟨hrest, fun a ha => hregs a fun h => ha (List.mem_cons_of_mem _ h)⟩ _ (by simp)⟩
  simp only [Reg.LOG_RD_DATA, Reg.PAGE_STATUS, Pg.LOG]
  omega

/-- The store that LOG_RD_STORE names. -/
def logChosen (s : State) : List LogRec := s.logStore (s.get Reg.LOG_RD_STORE Fd.LOG_RD_STORE.STORE)

theorem logFetch_ahead {s : State} {v : Word} (h : beatAtOrAfter v s.log.next = true) : s.logFetch v = s.logShown [] .badParam := if_pos h

theorem logFetch_found {s : State} {v : Word} {r : LogRec} (h : beatAtOrAfter v s.log.next = false)
    (hr : s.logChosen.find? (fun r => r.seq = v) = some r) : s.logFetch v = s.logShown r.bytes .ok := by
  unfold logFetch
  dsimp only
  unfold logChosen at hr
  rw [if_neg (ne_true_of_eq_false h), hr]
  rfl

theorem logFetch_late {s : State} {v : Word} {o : LogRec} (h : beatAtOrAfter v s.log.next = false)
    (hr : s.logChosen.find? (fun r => r.seq = v) = none) (ho : s.logChosen.getLast? = some o) (hb : beatAfter o.seq v = true) :
    s.logFetch v = s.logShown [] .late := by
  unfold logFetch
  dsimp only
  unfold logChosen at hr ho
  rw [if_neg (ne_true_of_eq_false h), hr]
  dsimp only
  rw [ho]
  exact if_pos hb

/-! ## Notes (R522) -/

/-- A record of the host among the newest `m` of log RAM. -/
structure Near (s : State) (r : LogRec) (m : Nat) : Prop where
  host : r.host = true
  mem : r ∈ s.log.ram.take m

theorem Near.inRam {s : State} {r : LogRec} {m : Nat} (h : Near s r m) : r ∈ s.log.ram := List.mem_of_mem_take h.mem

theorem Near.of_ram {s u : State} {r : LogRec} {m : Nat} (h : Near s r m) (he : u.log.ram = s.log.ram) : Near u r m := ⟨h.host, by rw [he]; exact h.mem⟩

theorem Near.mono {s : State} {r : LogRec} {m n : Nat} (h : Near s r m) (hn : m ≤ n) : Near s r n :=
  ⟨h.host, List.take_subset_take_left _ hn h.mem⟩

theorem Near.pushed {s u : State} {r x : LogRec} {m : Nat} (h : Near s r m) (hm : m + 1 ≤ ramRecords)
    (he : u.log.ram = pushCap ramRecords x s.log.ram) : Near u r (m + 1) := by
  refine ⟨h.host, ?_⟩
  rw [he, pushCap, List.take_take, Nat.min_eq_left hm, List.take_succ_cons]
  exact List.mem_cons_of_mem _ h.mem

theorem Near.bumped {s u : State} {r : LogRec} {m : Nat} (h : Near s r m) {page b : Nat} {beat : BeatNo}
    (he : u.log.ram = bumpRec page b beat s.log.ram) : Near u r m := by
  refine ⟨h.host, ?_⟩
  rw [he, bumpRec, ← List.map_take]
  exact List.mem_map.mpr ⟨r, h.mem, by rw [if_neg (by simp [h.host])]⟩

theorem Near.logSource {s : State} {r : LogRec} {m : Nat} (h : Near s r m) (hm : m + 1 ≤ ramRecords) (page b : Nat) (w : Word) :
    Near (s.logSource page b w).1 r (m + 1) := by
  unfold State.logSource
  dsimp only
  split
  · exact h.mono (by omega)
  split
  · split
    · exact (h.bumped rfl).mono (by omega)
    · exact h.pushed hm (storeRec_log s _).1
  · split
    · exact Near.mono (m := m) (h.of_ram rfl) (Nat.le_succ m)
    · exact h.mono (Nat.le_succ m)

theorem Near.logEvent {s : State} {r : LogRec} {m : Nat} (h : Near s r m) (hm : m + 2 ≤ ramRecords) (page b : Nat) :
    Near (s.logEvent page b) r (m + 2) := by
  have h1 := h.logSource (by omega) page b (s.rd (Reg.EVT_LATCH page))
  rcases s.logEvent_eq page b with he | ⟨w, he⟩
  · rw [he]
    exact h1.mono (by omega)
  · rw [he]
    generalize (s.logSource page b (s.rd (Reg.EVT_LATCH page))).1 = v at h1 ⊢
    exact (h1.of_ram (congrArg LogState.ram v.noteLost_log.1)).logSource (by omega) _ _ _

theorem Near.event {s : State} {r : LogRec} {m : Nat} (h : Near s r m) (hm : m + 2 ≤ ramRecords) (page b : Nat) :
    Near (s.event page b) r (m + 2) := by
  have hlog := (s.event_latch_log page b).1
  unfold State.event
  generalize (s.noteRecent page b).setLatch page b = v at hlog ⊢
  exact (h.of_ram (congrArg LogState.ram hlog)).logEvent hm page b

theorem Near.lostRecord {s : State} {r : LogRec} {m : Nat} (h : Near s r m) (hm : m + 2 ≤ ramRecords) : Near s.lostRecord r (m + 2) := by
  have h0 : Near (s.inc Reg.LOG_LOST_CNT Fd.LOG_LOST_CNT.COUNT) r m := h.of_ram rfl
  exact h0.event hm _ _

theorem enterRec_near (s : State) {r : LogRec} (hr : r.host = true) : r ∈ (s.enterRec r).log.ram := by
  have h : Near (s.storeRec r).1 r 1 := ⟨hr, by
    rw [(s.storeRec_log r).1, pushCap, List.take_take, Nat.min_eq_left (by decide)]
    simp⟩
  rcases s.enterRec_eq r with he | he
  · rw [he]
    exact h.inRam
  · rw [he]
    exact (h.lostRecord (by decide)).inRam

/-- The record of a note. -/
def noteRec (s : State) (c : Nat) : LogRec :=
  { seq := s.log.next, beat := s.clk.n, stamp := s.netStamp, colour := c, kwakel := false, host := true, page := 0, bit := 0, rep := 0,
    data := wordBytes (s.rd (Reg.LOG_NOTE_DATA 0)) ++ wordBytes (s.rd (Reg.LOG_NOTE_DATA 1)) }

theorem logNote_badParam {s : State} {v : Word} (h : fieldOf v Fd.LOG_NOTE.COLOUR = 0) : s.logNote v = s.status Pg.LOG .badParam := if_pos h

theorem logNote_enters {s : State} {v : Word} (h : fieldOf v Fd.LOG_NOTE.COLOUR ≠ 0) :
    s.logNote v = (s.enterRec (s.noteRec (fieldOf v Fd.LOG_NOTE.COLOUR))).status Pg.LOG .ok := by
  refine (if_neg h).trans ?_
  unfold enterRec
  obtain ⟨⟨u, lost⟩, e⟩ : ∃ x, s.storeRec (s.noteRec (fieldOf v Fd.LOG_NOTE.COLOUR)) = x := ⟨_, rfl⟩
  rw [e]
  unfold noteRec at e
  rw [e]
  cases lost
  · rfl
  · rfl

theorem logNote_spec {s : State} {v : Word} (h : fieldOf v Fd.LOG_NOTE.COLOUR ≠ 0) :
    ∃ u, s.logNote v = u ∧ u.Reports Pg.LOG .ok ∧ s.noteRec (fieldOf v Fd.LOG_NOTE.COLOUR) ∈ u.log.ram
      ∧ OnlyEvents s u [Reg.PAGE_STATUS Pg.LOG] := by
  have hmem := s.enterRec_near (r := s.noteRec (fieldOf v Fd.LOG_NOTE.COLOUR)) rfl
  obtain ⟨-, hev⟩ := s.enterRec_spec (s.noteRec (fieldOf v Fd.LOG_NOTE.COLOUR))
  have heq := logNote_enters (s := s) h
  generalize s.enterRec (s.noteRec (fieldOf v Fd.LOG_NOTE.COLOUR)) = w at hmem hev heq
  exact ⟨_, heq, reports_status _ _ _, hmem, hev.weaken.status _ (by simp)⟩

/-! ## The log in flash (R521) -/

theorem KeepsStores.wr {s v : State} (h : KeepsStores s v) (a : Nat) (w : Word) : KeepsStores s (v.wr a w) := h.trans (.of_log rfl rfl)

theorem keepsStores_recordFault (s : State) (cls cluster index detect : Nat) (inj : Bool) : KeepsStores s (s.recordFault cls cluster index detect inj) := by
  have hcheck (z : State) : KeepsStores z z.relCheck := by
    unfold relCheck eventIf
    dsimp only
    generalize hy : ({ z with spares := { z.spares with notol := z.notolBits } } : State) = y
    have hzy : KeepsStores z y := .of_log (by rw [← hy]) (by rw [← hy])
    split
    · exact hzy.trans (keepsStores_event y _ _)
    · exact hzy
  unfold recordFault
  dsimp only
  exact (((((KeepsStores.of_log rfl rfl).wr Reg.REL_LAST_FAULT _).wr Reg.REL_LAST_BEAT _).wr (Reg.REL_FAULT_CNT cls) _).trans
    (keepsStores_event _ _ _)).trans (hcheck _)

theorem flashLog_nothing {s : State} (bad : Bool) (h : s.log.due = [] ∨ s.mgmt.kstate ≠ .running) : s.flashLog bad = s := by
  unfold flashLog
  rcases h with h | h
  · rw [h]
    split <;> rfl
  · exact if_pos (bne_iff_ne.mpr h)

/-- The oldest record due leaves the list, and flash has it. -/
def flashWritten (s : State) (r : LogRec) (rest : List LogRec) : State :=
  { s with log := { s.log with due := rest, flash := pushFlash r s.log.flash } }

/-- A bad block costs a spare one. -/
def spareSpent (s : State) (r : LogRec) (rest : List LogRec) : State :=
  { s with log := { s.log with due := rest, flash := pushFlash r s.log.flash, spare := s.log.spare - 1 } }

theorem flashLog_eq {s : State} (bad : Bool) {r : LogRec} {rest : List LogRec} (hk : s.mgmt.kstate = .running) (hd : s.log.due = r :: rest) :
    s.flashLog bad = if !bad then s.flashWritten r rest
      else if s.log.spare = 0 then { s with log := { s.log with due := rest } }
      else (s.spareSpent r rest).recordFault 16 0 0 13 false := by
  unfold flashLog
  rw [if_neg (by rw [hk]; decide), hd]
  rfl

theorem flashLog_spare {s : State} {r : LogRec} {rest : List LogRec} (hk : s.mgmt.kstate = .running) (hd : s.log.due = r :: rest)
    (hs : 0 < s.log.spare) :
    ∃ u, s.flashLog true = u ∧ u.clk = s.clk ∧ u.pending = s.pending ∧ u.log.spare = s.log.spare - 1 ∧ u.log.flash = pushFlash r s.log.flash
      ∧ u.LastFault 16 0 0 13 false ∧ u.Latched Pg.REL Ev.REL.FAULT := by
  have heq : s.flashLog true = (s.spareSpent r rest).recordFault 16 0 0 13 false :=
    (flashLog_eq true hk hd).trans ((if_neg (by decide)).trans (if_neg (by omega)))
  have hflash : (s.spareSpent r rest).log.flash = pushFlash r s.log.flash := rfl
  have hspare : (s.spareSpent r rest).log.spare = s.log.spare - 1 := rfl
  have hclk : (s.spareSpent r rest).clk = s.clk := rfl
  have hpend : (s.spareSpent r rest).pending = s.pending := rfl
  generalize s.spareSpent r rest = v at heq hflash hspare hclk hpend
  have hkeep := v.keepsStores_recordFault 16 0 0 13 false
  have hlast := v.recordFault_lastFault 16 0 0 13 false (by decide) (by decide)
  have hlatch := v.recordFault_latched 16 0 0 13 false
  have hframe := v.recordFault_frame 16 0 0 13 false
  generalize v.recordFault 16 0 0 13 false = u at heq hkeep hlast hlatch hframe
  exact ⟨u, heq, hframe.clk.trans hclk, hframe.pending.trans hpend, hkeep.spare.trans hspare, hkeep.flash.trans hflash, hlast, hlatch⟩

/-! ## The management port and GPIO (R523, R575) -/

/-- The management port answers this frame. -/
def Answers (s : State) (f : List Byte) : Prop :=
  s.mgmt.kstate = .running ∧ s.flag Reg.MGMT_NET_CTRL Fd.MGMT_NET_CTRL.EN = true ∧ arpFor f (s.rd Reg.MGMT_NET_IP).toNat = true

theorem mgmtFrame_answers {s : State} {f : List Byte} (h : s.Answers f) :
    s.mgmtFrame f = s.emit (.mgmt (arpReply f (s.rd Reg.MGMT_NET_IP).toNat Config.mgmtMac.toNat)) := by
  obtain ⟨hk, hen, hfor⟩ := h
  exact if_pos (by rw [hen, hfor, hk]; rfl)

theorem mgmtFrame_drops {s : State} {f : List Byte} (h : ¬s.Answers f) : s.mgmtFrame f = s :=
  if_neg fun hall => h (by
    obtain ⟨hleft, hfor⟩ := Bool.and_eq_true_iff.mp hall
    obtain ⟨hk, hen⟩ := Bool.and_eq_true_iff.mp hleft
    exact ⟨of_decide_eq_true hk, hen, hfor⟩)

/-- The level of ball `k`. -/
def gpioHigh (s : State) (k : Nat) : Bool := (s.get Reg.IO_GPIO_IN Fd.IO_GPIO_IN.IN).testBit k

/-- Ball `k` has an edge noted. -/
def gpioNoted (s : State) (k : Nat) : Bool := (s.get Reg.IO_GPIO_EDGE Fd.IO_GPIO_EDGE.EDGE).testBit k

/-- The host hears edges of ball `k`. -/
def GpioHeard (s : State) (k : Nat) : Prop :=
  s.get (Reg.IO_MUX k) Fd.IO_MUX.USER = 1 ∧ (s.get Reg.IO_GPIO_EDGE_EN Fd.IO_GPIO_EDGE_EN.EN).testBit k = true

/-- Ball `k` has changed its level. -/
def gpioToggled (s : State) (k : Nat) : State := s.put Reg.IO_GPIO_IN Fd.IO_GPIO_IN.IN (s.get Reg.IO_GPIO_IN Fd.IO_GPIO_IN.IN ^^^ 2 ^ k)

theorem gpioToggled_spec (s : State) {k : Nat} (hk : k < 16) :
    ∃ v, s.gpioToggled k = v ∧ v.gpioHigh k = !s.gpioHigh k ∧ v.gpioNoted k = s.gpioNoted k ∧ (v.GpioHeard k ↔ s.GpioHeard k)
      ∧ OnlyRegs s v [Reg.IO_GPIO_IN] := by
  have hlt : s.get Reg.IO_GPIO_IN Fd.IO_GPIO_IN.IN < 2 ^ 16 := bitsOf_lt _ 15 0
  have hpow : 2 ^ k < 2 ^ 16 := Nat.pow_lt_pow_right (by decide) hk
  refine ⟨_, rfl, ?_, ?_, ?_, OnlyRegs.same.put _ _ (by simp)⟩
  · rw [gpioHigh, gpioToggled, get_put_same _ _ _ _ (by decide) (by decide)]
    rw [show 2 ^ (Fd.IO_GPIO_IN.IN.hi + 1 - Fd.IO_GPIO_IN.IN.lo) = 2 ^ 16 from rfl, Nat.mod_eq_of_lt (Nat.xor_lt_two_pow hlt hpow), Nat.testBit_xor,
      Nat.testBit_two_pow_self, Bool.xor_true, gpioHigh]
  · rw [gpioNoted, gpioToggled, get_put_ne _ _ _ _ (by decide), gpioNoted]
  · rw [GpioHeard, gpioToggled, get_put_ne _ _ _ _ (by simp only [Reg.IO_MUX, Reg.IO_GPIO_IN]; omega), get_put_ne _ _ _ _ (by decide), GpioHeard]

/-- An edge of ball `k` is noted. -/
def gpioEdgeNoted (s : State) (k : Nat) : State :=
  (s.put Reg.IO_GPIO_EDGE Fd.IO_GPIO_EDGE.EDGE (s.get Reg.IO_GPIO_EDGE Fd.IO_GPIO_EDGE.EDGE ||| 2 ^ k)).event Pg.IO Ev.IO.GPIO_EDGE

theorem gpioEdgeNoted_spec (s : State) {k : Nat} (hk : k < 16) :
    ∃ u, s.gpioEdgeNoted k = u ∧ u.gpioHigh k = s.gpioHigh k ∧ u.gpioNoted k = true ∧ u.Latched Pg.IO Ev.IO.GPIO_EDGE
      ∧ OnlyEvents s u [Reg.IO_GPIO_EDGE] := by
  have hlt : s.get Reg.IO_GPIO_EDGE Fd.IO_GPIO_EDGE.EDGE < 2 ^ 16 := bitsOf_lt _ 15 0
  have hpow : 2 ^ k < 2 ^ 16 := Nat.pow_lt_pow_right (by decide) hk
  refine ⟨_, rfl, ?_, ?_, event_latched _ _ _ (by decide), (OnlyEvents.same.put _ _ (by simp)).event _ _⟩
  · rw [gpioHigh, gpioEdgeNoted, get_event _ _ _ _ (by decide), get_put_ne _ _ _ _ (by decide), gpioHigh]
  · rw [gpioNoted, gpioEdgeNoted, get_event _ _ _ _ (by decide), get_put_same _ _ _ _ (by decide) (by decide)]
    rw [show 2 ^ (Fd.IO_GPIO_EDGE.EDGE.hi + 1 - Fd.IO_GPIO_EDGE.EDGE.lo) = 2 ^ 16 from rfl, Nat.mod_eq_of_lt (Nat.or_lt_two_pow hlt hpow), Nat.testBit_or,
      Nat.testBit_two_pow_self, Bool.or_true]

theorem gpioLevel_same {s : State} {k : Nat} {high : Bool} (h : s.gpioHigh k = high) : s.gpioLevel k high = s := if_pos h

theorem gpioLevel_eq {s : State} {k : Nat} {high : Bool} (h : s.gpioHigh k ≠ high) :
    s.gpioLevel k high = if (decide ((s.gpioToggled k).get (Reg.IO_MUX k) Fd.IO_MUX.USER = 1)
        && ((s.gpioToggled k).get Reg.IO_GPIO_EDGE_EN Fd.IO_GPIO_EDGE_EN.EN).testBit k && !(s.gpioToggled k).gpioNoted k) = true
      then (s.gpioToggled k).gpioEdgeNoted k else s.gpioToggled k := if_neg h

theorem gpioLevel_spec {s : State} {k : Nat} {high : Bool} (hk : k < 16) (h : s.gpioHigh k ≠ high) :
    ∃ u, s.gpioLevel k high = u ∧ u.gpioHigh k = high
      ∧ (s.GpioHeard k → s.gpioNoted k = false → u.gpioNoted k = true ∧ u.Latched Pg.IO Ev.IO.GPIO_EDGE)
      ∧ (¬s.GpioHeard k ∨ s.gpioNoted k = true → OnlyRegs s u [Reg.IO_GPIO_IN])
      ∧ OnlyEvents s u [Reg.IO_GPIO_IN, Reg.IO_GPIO_EDGE] := by
  have heq := gpioLevel_eq h
  obtain ⟨v, hv, hhigh, hnoted, hheard, honly⟩ := s.gpioToggled_spec hk
  rw [hv] at heq
  have hlevel : v.gpioHigh k = high := by
    rw [hhigh]
    cases high <;> simpa using h
  have hev : OnlyEvents s v [Reg.IO_GPIO_IN, Reg.IO_GPIO_EDGE] := by
    rw [← hv]
    exact OnlyEvents.same.put _ _ (by simp)
  by_cases hc : s.GpioHeard k ∧ s.gpioNoted k = false
  · obtain ⟨⟨hmux, hen⟩, hfree⟩ := And.intro (hheard.mpr hc.1) (hnoted.trans hc.2)
    rw [if_pos (by rw [hmux, hen, hfree]; rfl)] at heq
    obtain ⟨u, hu, hsame, hset, hlatch, hedge⟩ := v.gpioEdgeNoted_spec hk
    refine ⟨u, heq.trans hu, hsame.trans hlevel, fun _ _ => ⟨hset, hlatch⟩, fun hno => ?_, hev.andThen (hedge.mono (by simp))⟩
    exact hno.elim (fun h => absurd hc.1 h) fun h => absurd h (ne_true_of_eq_false hc.2)
  · rw [if_neg fun hall => hc ?_] at heq
    · exact ⟨v, heq, hlevel, fun h1 h2 => absurd ⟨h1, h2⟩ hc, fun _ => honly, hev⟩
    · obtain ⟨hleft, hfree⟩ := Bool.and_eq_true_iff.mp hall
      obtain ⟨hmux, hen⟩ := Bool.and_eq_true_iff.mp hleft
      exact ⟨hheard.mp ⟨of_decide_eq_true hmux, hen⟩, by rw [← hnoted]; simpa using hfree⟩

end State

/-- Settles O53: a number's place in the store, a note's colour, a record due, a frame's address and a ball's level decide. -/
theorem logAndPins : Obligations.LogAndPins := by
  unfold Obligations.LogAndPins
  refine ⟨fun s t p v hs => ?_, fun s t hup => ⟨fun h bad => ?_, fun r rest hk hd => ⟨?_, fun hs => ?_, fun hs => ?_⟩⟩,
    fun s t f hup => ⟨fun h => ?_, fun h => ?_⟩, fun s t k high hup => ?_⟩
  · have hshow {bs : List Byte} {st : Status} (h : (s.atTick t).logFetch v = (s.atTick t).logShown bs st) :
        ∃ u, exec (.logRdSeq t p v) s = .next u ∧ u.Reports Pg.LOG st ∧ (∀ k, k < 8 → u.rd (Reg.LOG_RD_DATA k) = Word.of (leAt bs (4 * k) 4))
          ∧ State.OnlyRegs (s.atTick t) u (Reg.PAGE_STATUS Pg.LOG :: (List.range 8).map Reg.LOG_RD_DATA) := by
      obtain ⟨u, hu, hrep, hread, honly⟩ := (s.atTick t).logShown_spec bs st
      exact ⟨u, State.serves_of_eq (fun s => s.logFetch v) hs (h.trans hu) (congrArg State.clk honly.1 :) (congrArg State.pending honly.1 :), hrep, hread, honly⟩
    dsimp only
    refine ⟨fun h => ?_, fun r h hr => ?_, fun o h hr ho hb => ?_, fun h => ?_, fun h => ?_⟩
    · exact hshow (State.logFetch_ahead (s := s.atTick t) h)
    · exact hshow (State.logFetch_found (s := s.atTick t) h hr)
    · exact hshow (State.logFetch_late (s := s.atTick t) h hr ho hb)
    · exact State.serves_of_eq (fun s => s.logNote v) hs (State.logNote_badParam (s := s.atTick t) h) rfl rfl
    · obtain ⟨u, hu, hrep, hmem, honly⟩ := State.logNote_spec (s := s.atTick t) h
      exact ⟨u, _, State.serves_of_eq (fun s => s.logNote v) hs hu honly.clk honly.pending, hrep, hmem, rfl, rfl, rfl, rfl, rfl, rfl, honly⟩
  · exact State.act_nothing (f := fun s => s.flashLog bad) hup (State.flashLog_nothing (s := s.atTick t) bad h)
  · exact State.act_of_eq (fun s => s.flashLog false) hup ((State.flashLog_eq (s := s.atTick t) false hk hd).trans (if_pos rfl)) rfl rfl
  · exact State.act_of_eq (fun s => s.flashLog true) hup ((State.flashLog_eq (s := s.atTick t) true hk hd).trans ((if_neg (by decide)).trans (if_pos hs))) rfl rfl
  · obtain ⟨u, hu, hclk, hpend, hspare, hflash, hlast, hlatch⟩ := State.flashLog_spare (s := s.atTick t) hk hd hs
    exact ⟨u, State.act_of_eq (fun s => s.flashLog true) hup hu hclk hpend, hspare, hflash, hlast, hlatch⟩
  · exact State.act_of_eq (fun s => s.mgmtFrame f) hup (State.mgmtFrame_answers (s := s.atTick t) h) rfl rfl
  · exact State.act_nothing (f := fun s => s.mgmtFrame f) hup (State.mgmtFrame_drops (s := s.atTick t) h)
  · have hk : k.toNat < 16 := k.isLt
    dsimp only
    refine ⟨fun h => ?_, fun h => ?_⟩
    · exact State.act_nothing (f := fun s => s.gpioLevel k.toNat high) hup (State.gpioLevel_same (s := s.atTick t) h)
    · obtain ⟨u, hu, hlevel, hnote, hquiet, honly⟩ := State.gpioLevel_spec (s := s.atTick t) hk h
      exact ⟨u, State.act_of_eq (fun s => s.gpioLevel k.toNat high) hup hu honly.clk honly.pending, hlevel, hnote, hquiet, honly⟩

end Sys2Proof.Machine
end

section
/-! PROOFS. Register accesses: the access types, the common header, dropped writes, the MSI-X table and reads
(R4, R20, R22 to R24, R27, R28, R31, R32, R578). -/

namespace Sys2Proof.Machine

/-! ## Mapped pages (R25) -/

theorem mapped_iff {n : Nat} : mappedPages.contains n = true ↔ ∃ p ∈ pages, p.first ≤ n ∧ n < p.first + p.count := by
  unfold mappedPages
  rw [List.contains_iff_mem, List.mem_flatten]
  constructor
  · rintro ⟨l, hl, hn⟩
    obtain ⟨p, hp, rfl⟩ := List.mem_map.mp hl
    obtain ⟨i, hi, rfl⟩ := List.mem_map.mp hn
    have := List.mem_range.mp hi
    exact ⟨p, hp, by omega, by omega⟩
  · rintro ⟨p, hp, hlo, hhi⟩
    exact ⟨_, List.mem_map.mpr ⟨p, hp, rfl⟩, List.mem_map.mpr ⟨n - p.first, List.mem_range.mpr (by omega), by omega⟩⟩

theorem findPage_mapped {n : Nat} (h : mappedPages.contains n = true) : ∃ p i, findPage n = some (p, i) := by
  obtain ⟨q, hq, hlo, hhi⟩ := mapped_iff.mp h
  unfold findPage
  cases hf : pages.find? (fun p => p.first ≤ n && n < p.first + p.count) with
  | some p => exact ⟨p, _, rfl⟩
  | none => exact absurd (List.find?_eq_none.mp hf q hq) (by simp [hlo, hhi])

/-- The fields of EVT_ROUTE, the same on every mapped page. -/
def routeFields : List FieldSpec :=
  [⟨"EN_B", 14, 14, .rw, 0, []⟩, ⟨"VEC_B", 13, 8, .rw, 0, []⟩, ⟨"EN_A", 6, 6, .rw, 0, []⟩, ⟨"VEC_A", 5, 0, .rw, 0, []⟩]

theorem fieldsAt_route {n : Nat} (h : mappedPages.contains n = true) : fieldsAt (Reg.EVT_ROUTE n) = routeFields := by
  obtain ⟨p, i, hp⟩ := findPage_mapped h
  have hpage : Reg.EVT_ROUTE n / 0x1000 = n := by simp only [Reg.EVT_ROUTE]; omega
  have hoff : Reg.EVT_ROUTE n % 0x1000 = 0x1C := by simp only [Reg.EVT_ROUTE]; omega
  unfold fieldsAt findReg
  rw [hpage, hoff, hp]
  dsimp only
  rw [if_pos (by simp)]
  rfl

/-- The pages whose registers have no behaviour of their own. -/
def PlainPage (n : Nat) : Prop := n = Pg.DEV ∨ n = Pg.EVT ∨ (0x10 ≤ n ∧ n < 0x20) ∨ n = Pg.IO

theorem PlainPage.mapped {n : Nat} (h : PlainPage n) : mappedPages.contains n = true := by
  rw [mapped_iff]
  rcases h with rfl | rfl | ⟨hlo, hhi⟩ | rfl
  · exact ⟨pages[0], List.getElem_mem _, by decide, by decide⟩
  · exact ⟨pages[4], List.getElem_mem _, by decide, by decide⟩
  · exact ⟨pages[6], List.getElem_mem _, hlo, hhi⟩
  · exact ⟨pages[40], List.getElem_mem _, by decide, by decide⟩

namespace State

theorem lowRegs_plain (s : State) (p : Port) {a : Nat} (v : Word) (h : a / 0x1000 = Pg.DEV ∨ a / 0x1000 = Pg.EVT ∨ (0x10 ≤ a / 0x1000 ∧ a / 0x1000 < 0x20)) :
    s.lowRegs p a v = s.plainWrite p a v := by
  have hdisp : s.dispRegs p a v = s.plainWrite p a v := by
    refine (if_neg ?_).trans ((if_neg ?_).trans ((if_neg ?_).trans (if_neg ?_))) <;> simp only [Reg.TRACE_CTRL, Reg.TRACE_MARK, Reg.TRACE_RD_IDX, Pg.DSP, Pg.DEV, Pg.EVT] at h ⊢ <;> omega
  refine (if_neg ?_).trans ((if_neg ?_).trans ((if_neg ?_).trans ((if_neg ?_).trans ((if_pos ?_).trans hdisp)))) <;>
    simp only [Pg.OWN, Pg.TXN, Pg.BEAT, Pg.MODE, Pg.DEV, Pg.EVT] at h ⊢ <;> omega

theorem highRegs_plain (s : State) (p : Port) {a : Nat} (v : Word) (x : WriteIn) (h : a / 0x1000 = Pg.IO) :
    s.highRegs p a v x = s.plainWrite p a v := by
  unfold highRegs
  dsimp only
  rw [h]
  rfl

theorem writeReg_plain (s : State) (p : Port) {a : Nat} (v : Word) (x : WriteIn) (h : PlainPage (a / 0x1000)) (h40 : 0x40 ≤ a % 0x1000) :
    s.writeReg p a v x = s.plainWrite p a v := by
  have habs : ¬s.absentMac (a / 0x1000) = true := by
    simp only [PlainPage, Pg.DEV, Pg.EVT, Pg.IO] at h
    simp only [absentMac, Bool.and_eq_true, decide_eq_true_eq]
    omega
  have hhead : ¬(decide (a % 0x1000 < 0x40) && a != Reg.TRACE_CTRL) = true := by
    simp only [Bool.and_eq_true, decide_eq_true_eq]
    omega
  refine (if_neg habs).trans ((if_neg hhead).trans ?_)
  rcases h with h | h | h | h
  · exact (if_pos (by rw [h]; decide)).trans (s.lowRegs_plain p v (.inl h))
  · exact (if_pos (by rw [h]; decide)).trans (s.lowRegs_plain p v (.inr (.inl h)))
  · exact (if_pos (by omega)).trans (s.lowRegs_plain p v (.inr (.inr h)))
  · exact (if_neg (by rw [h]; decide)).trans (s.highRegs_plain p v x h)

theorem plainWrite_eq {s : State} {p : Port} {a : Nat} {v : Word} (hfs : fieldsAt a ≠ []) (hrwt : hasAcc a .rwt = false) :
    s.plainWrite p a v = if !fieldsOk (fieldsAt a) [.rw] v then s.status (a / 0x1000) .badParam
      else s.wr a (mergeFields (fieldsAt a) .rw (oneFields (fieldsAt a) (s.rd a) v) v) :=
  (if_neg (by simpa using hfs)).trans (if_neg (ne_true_of_eq_false hrwt))

/-! ## The common header (R23, R24, R27, R28) -/

theorem header_page (n k : Nat) (hk : k < 0x1000) : (0x1000 * n + k) / 0x1000 = n ∧ (0x1000 * n + k) % 0x1000 = k := by omega

theorem writeReg_header (s : State) (p : Port) {n k : Nat} (v : Word) (x : WriteIn) (habs : s.absentMac n = false) (hk : 0x10 ≤ k) (hk' : k < 0x40) :
    s.writeReg p (0x1000 * n + k) v x = s.headerWrite n k v := by
  obtain ⟨hpage, hoff⟩ := header_page n k (by omega)
  unfold writeReg
  dsimp only
  rw [hpage, hoff, if_neg (ne_true_of_eq_false habs), if_pos]
  rw [decide_eq_true hk', Bool.true_and, bne_iff_ne, Reg.TRACE_CTRL]
  omega

theorem foldl_bits_zero (l : List Nat) (n : Nat) : l.foldl (fun w i => if false then w + 2 ^ i else w) n = n := by
  induction l with
  | nil => rfl
  | cons i is ih => exact ih

theorem recentBits_none {s : State} (key : Nat) (w : Word) (h : s.recent.at0 ≠ s.clk.now) : s.recentBits key w = 0 := by
  have hnone (b : Nat) : (w.getLsbD b && s.isRecent key b) = false := by
    rw [isRecent, decide_eq_false h, Bool.false_and, Bool.and_false]
  unfold recentBits bitsWhere
  simp only [hnone]
  rw [foldl_bits_zero]
  rfl

theorem latchClear_later {s : State} (n : Nat) (v : Word) (h : s.recent.at0 ≠ s.clk.now) :
    s.latchClear n v = s.wr (Reg.EVT_LATCH n) (s.rd (Reg.EVT_LATCH n) &&& ~~~v) := by
  unfold latchClear
  dsimp only
  rw [recentBits_none _ _ h, if_pos (by simp), show (0 : Word) = 0#32 from rfl, BitVec.or_zero]

/-- The word of EVT_ROUTE after its fields are taken. -/
theorem routeFields_taken (w v : Word) (f : Fd) (hf : f = Fd.EVT_ROUTE.EN_A ∨ f = Fd.EVT_ROUTE.VEC_A ∨ f = Fd.EVT_ROUTE.EN_B ∨ f = Fd.EVT_ROUTE.VEC_B) :
    bitsOf (mergeFields routeFields .rw w v) f.hi f.lo = fieldOf v f := by
  have hmod (hi lo : Nat) : bitsOf v hi lo % 2 ^ (hi + 1 - lo) = bitsOf v hi lo := Nat.mod_eq_of_lt (bitsOf_lt v hi lo)
  unfold mergeFields routeFields FieldSpec.of fieldOf
  rcases hf with rfl | rfl | rfl | rfl <;> simp (disch := decide) only [List.foldl, if_true, bitsOf_withBits_ne, bitsOf_withBits, hmod]

/-- EN over vector 0 of one port. -/
def overZero (v : Word) (en vec : Fd) : Bool := fieldOf v en = 1 && fieldOf v vec = 0

/-- EVT_ROUTE of a page as its write leaves it. -/
def routeTaken (s : State) (n : Nat) (v : Word) : State :=
  let s := s.wr (Reg.EVT_ROUTE n) (mergeFields routeFields .rw (s.rd (Reg.EVT_ROUTE n)) v)
  let s := if overZero v Fd.EVT_ROUTE.EN_A Fd.EVT_ROUTE.VEC_A then s.put (Reg.EVT_ROUTE n) Fd.EVT_ROUTE.EN_A 0 else s
  if overZero v Fd.EVT_ROUTE.EN_B Fd.EVT_ROUTE.VEC_B then s.put (Reg.EVT_ROUTE n) Fd.EVT_ROUTE.EN_B 0 else s

/-- A field of a register may be cleared or not; the others stay. -/
theorem get_clearIf (s : State) (a : Nat) (c : Bool) (f g : Fd) (hf : f.lo ≤ f.hi) (hf' : f.hi < 32) (hg : g.lo ≤ g.hi)
    (hne : f = g ∨ f.hi < g.lo ∨ g.hi < f.lo) :
    (if c then s.put a f 0 else s).get a g = if c = true ∧ f = g then 0 else s.get a g := by
  by_cases hc : c = true
  · rw [if_pos hc]
    rcases hne with rfl | hne
    · rw [if_pos ⟨hc, rfl⟩, get_put_same _ _ _ _ hf hf', Nat.zero_mod]
    · rw [if_neg (by rintro ⟨-, rfl⟩; omega), get_put_other _ _ _ _ _ hf hf' hne hg]
  · rw [if_neg hc, if_neg (fun h => hc h.1)]

theorem routeTaken_spec (s : State) (n : Nat) (v : Word) :
    ∃ u, s.routeTaken n v = u
      ∧ u.get (Reg.EVT_ROUTE n) Fd.EVT_ROUTE.EN_A
          = (if overZero v Fd.EVT_ROUTE.EN_A Fd.EVT_ROUTE.VEC_A = true then 0 else fieldOf v Fd.EVT_ROUTE.EN_A)
      ∧ u.get (Reg.EVT_ROUTE n) Fd.EVT_ROUTE.VEC_A = fieldOf v Fd.EVT_ROUTE.VEC_A
      ∧ u.get (Reg.EVT_ROUTE n) Fd.EVT_ROUTE.EN_B
          = (if overZero v Fd.EVT_ROUTE.EN_B Fd.EVT_ROUTE.VEC_B = true then 0 else fieldOf v Fd.EVT_ROUTE.EN_B)
      ∧ u.get (Reg.EVT_ROUTE n) Fd.EVT_ROUTE.VEC_B = fieldOf v Fd.EVT_ROUTE.VEC_B
      ∧ OnlyRegs s u [Reg.EVT_ROUTE n] := by
  have hwr (f : Fd) (hf : f = Fd.EVT_ROUTE.EN_A ∨ f = Fd.EVT_ROUTE.VEC_A ∨ f = Fd.EVT_ROUTE.EN_B ∨ f = Fd.EVT_ROUTE.VEC_B) :
      (s.wr (Reg.EVT_ROUTE n) (mergeFields routeFields .rw (s.rd (Reg.EVT_ROUTE n)) v)).get (Reg.EVT_ROUTE n) f = fieldOf v f := by
    rw [get_wr_same]
    exact routeFields_taken _ v f hf
  have honly : OnlyRegs s (s.wr (Reg.EVT_ROUTE n) (mergeFields routeFields .rw (s.rd (Reg.EVT_ROUTE n)) v)) [Reg.EVT_ROUTE n] :=
    OnlyRegs.same.wr _ (by simp)
  unfold routeTaken
  dsimp only
  generalize s.wr (Reg.EVT_ROUTE n) (mergeFields routeFields .rw (s.rd (Reg.EVT_ROUTE n)) v) = w at hwr honly ⊢
  generalize overZero v Fd.EVT_ROUTE.EN_A Fd.EVT_ROUTE.VEC_A = ca
  generalize overZero v Fd.EVT_ROUTE.EN_B Fd.EVT_ROUTE.VEC_B = cb
  refine ⟨_, rfl, ?_, ?_, ?_, ?_, ?_⟩
  · rw [get_clearIf _ _ _ _ _ (by decide) (by decide) (by decide) (by decide), get_clearIf _ _ _ _ _ (by decide) (by decide) (by decide) (by decide),
      hwr _ (by simp)]
    simp
  · rw [get_clearIf _ _ _ _ _ (by decide) (by decide) (by decide) (by decide), get_clearIf _ _ _ _ _ (by decide) (by decide) (by decide) (by decide),
      hwr _ (by simp)]
    simp
  · rw [get_clearIf _ _ _ _ _ (by decide) (by decide) (by decide) (by decide), get_clearIf _ _ _ _ _ (by decide) (by decide) (by decide) (by decide),
      hwr _ (by simp)]
    simp
  · rw [get_clearIf _ _ _ _ _ (by decide) (by decide) (by decide) (by decide), get_clearIf _ _ _ _ _ (by decide) (by decide) (by decide) (by decide),
      hwr _ (by simp)]
    simp
  · cases ca <;> cases cb
    · exact honly
    · exact honly.put _ _ (by simp)
    · exact honly.put _ _ (by simp)
    · exact (honly.put _ _ (by simp)).put _ _ (by simp)

theorem routeWrite_eq {s : State} {n : Nat} (v : Word) (h : mappedPages.contains n = true) (hown : n ≠ Pg.OWN) :
    s.routeWrite n v = if (overZero v Fd.EVT_ROUTE.EN_A Fd.EVT_ROUTE.VEC_A || overZero v Fd.EVT_ROUTE.EN_B Fd.EVT_ROUTE.VEC_B) = true
      then (s.routeTaken n v).status n .badParam else s.routeTaken n v := by
  unfold routeWrite
  dsimp only
  rw [if_neg hown, fieldsAt_route h]
  rfl

/-! ## EVT_FORCE (R23) -/

theorem rd_logEvent_ne (s : State) (page b : Nat) {a : Nat} (hdrop : a ≠ Reg.MGMT_NET_DROP) (hlost : a ≠ Reg.LOG_LOST_CNT)
    (hlatch : a ≠ Reg.EVT_LATCH Pg.LOG) : (s.logEvent page b).rd a = s.rd a := by
  rcases s.logEvent_eq page b with h | ⟨w, h⟩
  · rw [h, rd_logSource_ne _ _ _ _ hdrop]
  · rw [h, rd_logSource_ne _ _ _ _ hdrop, noteLost, rd_setLatch_ne _ hlatch, rd_inc_ne _ _ _ hlost, rd_logSource_ne _ _ _ _ hdrop]

/-- The log takes the occurrences of several sources of a page. -/
def logAll (s : State) (page : Nat) (bs : List Nat) : State := bs.foldl (fun s b => s.logEvent page b) s

theorem logAll_onlyEvents (s : State) (page : Nat) (bs : List Nat) : s.OnlyEvents (s.logAll page bs) [] := by
  induction bs generalizing s with
  | nil => exact OnlyEvents.refl s
  | cons b bs ih => exact (logEvent_onlyEvents s page b).andThen (ih _)

theorem logAll_keeps (s : State) (page : Nat) (bs : List Nat) {p b' : Nat} (h : s.Latched p b') : (s.logAll page bs).Latched p b' := by
  induction bs generalizing s with
  | nil => exact h
  | cons b bs ih => exact ih _ (logEvent_keeps s page b p b' h)

theorem rd_logAll_latch (s : State) (page : Nat) (bs : List Nat) {n : Nat} (h : n ≠ Pg.LOG) :
    (s.logAll page bs).rd (Reg.EVT_LATCH n) = s.rd (Reg.EVT_LATCH n) := by
  induction bs generalizing s with
  | nil => rfl
  | cons b bs ih =>
    refine (ih _).trans (rd_logEvent_ne s page b ?_ ?_ ?_) <;>
      simp only [Reg.EVT_LATCH, Reg.MGMT_NET_DROP, Reg.LOG_LOST_CNT, Pg.LOG] at h ⊢ <;> omega

/-- The sources of several bits of a page are noted as occurring now. -/
def noteAll (s : State) (page : Nat) (bs : List Nat) : State := bs.foldl (fun s b => s.noteRecent page b) s

theorem noteAll_only (s : State) (page : Nat) (bs : List Nat) : s.OnlyEvents (s.noteAll page bs) [] ∧ ∀ a, (s.noteAll page bs).rd a = s.rd a := by
  induction bs generalizing s with
  | nil => exact ⟨OnlyEvents.refl s, fun _ => rfl⟩
  | cons b bs ih => exact ⟨(show s.OnlyEvents (s.noteRecent page b) [] from ⟨rfl, fun _ _ _ => rfl⟩).andThen (ih _).1, fun a => (ih _).2 a⟩

/-- The bits of a forced write of a page that name sources. -/
def forcedBits (page : Nat) (v : Word) : List Nat := (List.range (sourcesOf page)).filter fun b => v.getLsbD b

/-- A page with its forced bits set, before the log takes them. -/
def forceTaken (s : State) (page : Nat) (v : Word) : State :=
  let old := s.rd (Reg.EVT_LATCH page)
  let up := v &&& sourceMask page &&& ~~~old
  let s := s.wr (Reg.EVT_LATCH page) (old ||| up)
  if up &&& s.rd (Reg.EVT_ENABLE page) = 0 then s else s.pageMsix page

theorem forceWrite_eq (s : State) (page : Nat) (v : Word) :
    s.forceWrite page v = ((s.noteAll page (forcedBits page v)).forceTaken page v).logAll page (forcedBits page v) := rfl

theorem rd_forceTaken (s : State) (page : Nat) (v : Word) :
    (s.forceTaken page v).rd (Reg.EVT_LATCH page) = s.rd (Reg.EVT_LATCH page) ||| (v &&& sourceMask page) := by
  have hbits (old w : Word) : old ||| (w &&& ~~~old) = old ||| w := by
    refine BitVec.eq_of_getLsbD_eq fun i hi => ?_
    rw [BitVec.getLsbD_or, BitVec.getLsbD_and, BitVec.getLsbD_not, BitVec.getLsbD_or, decide_eq_true hi]
    cases old.getLsbD i <;> simp
  have hwr (w : Word) : (s.wr (Reg.EVT_LATCH page) (s.rd (Reg.EVT_LATCH page) ||| (w &&& ~~~s.rd (Reg.EVT_LATCH page)))).rd (Reg.EVT_LATCH page)
      = s.rd (Reg.EVT_LATCH page) ||| w := by rw [rd_wr_same, hbits]
  unfold forceTaken
  dsimp only
  split
  · exact hwr _
  · rw [rd_pageMsix]
    exact hwr _

theorem forceTaken_onlyEvents (s : State) (page : Nat) (v : Word) : s.OnlyEvents (s.forceTaken page v) [Reg.EVT_LATCH page] := by
  unfold forceTaken
  dsimp only
  exact .ite _ (wr_onlyEvents s _ _) ((wr_onlyEvents s _ _).andThen (pageMsix_onlyEvents _ _).weaken)

theorem sourceMask_bit {page b : Nat} (h : b < sourcesOf page) (hb : b < 32) : (sourceMask page).getLsbD b = true := by
  unfold sourceMask Word.of
  rw [BitVec.getLsbD_ofNat, Nat.testBit_two_pow_sub_one]
  simp [h, hb]

theorem forceTaken_latched (s : State) {page b : Nat} {v : Word} (h : b < sourcesOf page) (hv : v.getLsbD b = true) :
    (s.forceTaken page v).Latched page b := by
  have hb : b < 32 := by
    by_contra hge
    rw [BitVec.getLsbD_of_ge v b (by omega)] at hv
    cases hv
  unfold Latched
  rw [rd_forceTaken, BitVec.getLsbD_or, BitVec.getLsbD_and, hv, sourceMask_bit h hb]
  simp

theorem forceWrite_spec (s : State) (page : Nat) (v : Word) :
    (page ≠ Pg.LOG → (s.forceWrite page v).rd (Reg.EVT_LATCH page) = s.rd (Reg.EVT_LATCH page) ||| (v &&& sourceMask page))
      ∧ (∀ b, b < sourcesOf page → v.getLsbD b = true → (s.forceWrite page v).Latched page b)
      ∧ s.OnlyEvents (s.forceWrite page v) [Reg.EVT_LATCH page] := by
  obtain ⟨hnote, hrd⟩ := s.noteAll_only page (forcedBits page v)
  rw [forceWrite_eq]
  refine ⟨fun hlog => ?_, fun b hb hv => logAll_keeps _ _ _ (forceTaken_latched _ hb hv),
    (hnote.weaken.andThen (forceTaken_onlyEvents _ page v)).andThen (logAll_onlyEvents _ _ _).weaken⟩
  rw [rd_logAll_latch _ _ _ hlog, rd_forceTaken, hrd]

/-! ## Writes of BAR0 words (R4, R20, R32) -/

theorem bar0Write_word (s : State) (p : Port) {a : Nat} (v : BitVec 64) (x : WriteIn) (ha : a % 4 = 0) :
    s.bar0Write p a 4 0xF v x = s.writeWord p a (v.setWidth 32) x := by
  unfold bar0Write
  rw [if_neg (by simp), if_pos (by simp [ha])]

theorem setWidth_back (v : Word) : (v.setWidth 64).setWidth 32 = v := by
  rw [BitVec.setWidth_setWidth_of_le v (by decide), BitVec.setWidth_eq]

theorem writeWord_mapped (s : State) (p : Port) {a : Nat} (v : Word) (x : WriteIn) (h : mappedPages.contains (a / 0x1000) = true) :
    s.writeWord p a v x = s.hostWrite p a fun s => s.writeReg p a v x := if_pos h

theorem writeWord_serves {s : State} {p : Port} {a : Nat} (t : Nat) (v : Word) (x : WriteIn) (h : s.Serves p)
    (hm : mappedPages.contains (a / 0x1000) = true) : (s.atTick t).writeWord p a v x = (s.atTick t).writeReg p a v x :=
  (writeWord_mapped _ p v x hm).trans (s.hostWrite_serves p a t _ h)

/-- A write of an aligned word of a mapped page by the owner whose writes are served. -/
theorem exec_registerWrite {s u : State} {t : Nat} {p : Port} {a : Nat} {v : Word} {x : WriteIn} (h : s.Serves p) (ha : a % 4 = 0)
    (hm : mappedPages.contains (a / 0x1000) = true) (hu : (s.atTick t).writeReg p a v x = u) (hclk : u.clk = s.clk.advance t)
    (hpend : u.pending = s.pending) : exec (.registerWrite t p false a 4 0xF (v.setWidth 64) x) s = .next u := by
  refine act_of_eq (fun s => s.bar0Write p a 4 0xF (v.setWidth 64) x) h.1 ?_ hclk hpend
  rw [← hu, ← writeWord_serves t v x h hm, ← setWidth_back v]
  exact (bar0Write_word _ p _ x ha).trans (by rw [setWidth_back])

/-- The registers whose fields have no behaviour of their own. -/
theorem registerWrite_plain {s : State} (t : Nat) {p : Port} {a : Nat} (v : Word) (x : WriteIn) (h : s.Serves p) (ha : a % 4 = 0)
    (hpage : PlainPage (a / 0x1000)) (h40 : 0x40 ≤ a % 0x1000) (hfs : fieldsAt a ≠ []) (hrwt : hasAcc a .rwt = false) :
    (fieldsOk (fieldsAt a) [.rw] v = true → exec (.registerWrite t p false a 4 0xF (v.setWidth 64) x) s
        = .next ((s.atTick t).wr a (mergeFields (fieldsAt a) .rw (oneFields (fieldsAt a) (s.rd a) v) v)))
      ∧ (fieldsOk (fieldsAt a) [.rw] v = false → exec (.registerWrite t p false a 4 0xF (v.setWidth 64) x) s
        = .next ((s.atTick t).status (a / 0x1000) .badParam)) := by
  have hreg := ((s.atTick t).writeReg_plain p v x hpage h40).trans (plainWrite_eq hfs hrwt)
  constructor
  · intro hok
    refine exec_registerWrite h ha hpage.mapped (hreg.trans (if_neg ?_)) rfl rfl
    rw [hok]
    decide
  · intro hbad
    refine exec_registerWrite h ha hpage.mapped (hreg.trans (if_pos ?_)) rfl rfl
    rw [hbad]
    decide

theorem absentMac_atTick (s : State) (t n : Nat) : (s.atTick t).absentMac n = s.absentMac n := rfl

/-- A write of a register of the common header. -/
theorem exec_headerWrite {s u : State} {t : Nat} {p : Port} {n k : Nat} {v : Word} {x : WriteIn} (h : s.Serves p)
    (hm : mappedPages.contains n = true) (habs : s.absentMac n = false) (hk4 : k % 4 = 0) (hk : 0x10 ≤ k) (hk' : k < 0x40)
    (hu : (s.atTick t).headerWrite n k v = u) (hclk : u.clk = s.clk.advance t) (hpend : u.pending = s.pending) :
    exec (.registerWrite t p false (0x1000 * n + k) 4 0xF (v.setWidth 64) x) s = .next u := by
  have hreg := (s.atTick t).writeReg_header p v x ((s.absentMac_atTick t n).trans habs) hk hk'
  refine exec_registerWrite h (by omega) ?_ (hreg.trans hu) hclk hpend
  rwa [(header_page n k (by omega)).1]

theorem registerWrite_latch {s : State} (t : Nat) {p : Port} {n : Nat} (v : Word) (x : WriteIn) (h : s.Serves p)
    (hm : mappedPages.contains n = true) (habs : s.absentMac n = false) (hrec : s.recent.at0 ≠ (s.clk.advance t).now) :
    exec (.registerWrite t p false (Reg.EVT_LATCH n) 4 0xF (v.setWidth 64) x) s
      = .next ((s.atTick t).wr (Reg.EVT_LATCH n) (s.rd (Reg.EVT_LATCH n) &&& ~~~v)) :=
  exec_headerWrite (k := 0x10) h hm habs (by decide) (by decide) (by decide)
    (((s.atTick t).latchClear_later n v hrec)) rfl rfl

theorem overZero_iff (v : Word) (en vec : Fd) : overZero v en vec = true ↔ fieldOf v en = 1 ∧ fieldOf v vec = 0 := by
  simp [overZero]

theorem routeWrite_spec {s : State} {n : Nat} (v : Word) (h : mappedPages.contains n = true) (hown : n ≠ Pg.OWN) :
    let a := Reg.EVT_ROUTE n
    let badA : Prop := fieldOf v Fd.EVT_ROUTE.EN_A = 1 ∧ fieldOf v Fd.EVT_ROUTE.VEC_A = 0
    let badB : Prop := fieldOf v Fd.EVT_ROUTE.EN_B = 1 ∧ fieldOf v Fd.EVT_ROUTE.VEC_B = 0
    let u := s.routeWrite n v
    u.get a Fd.EVT_ROUTE.EN_A = (if badA then 0 else fieldOf v Fd.EVT_ROUTE.EN_A)
      ∧ u.get a Fd.EVT_ROUTE.VEC_A = fieldOf v Fd.EVT_ROUTE.VEC_A
      ∧ u.get a Fd.EVT_ROUTE.EN_B = (if badB then 0 else fieldOf v Fd.EVT_ROUTE.EN_B)
      ∧ u.get a Fd.EVT_ROUTE.VEC_B = fieldOf v Fd.EVT_ROUTE.VEC_B
      ∧ (badA ∨ badB → u.Reports n .badParam)
      ∧ OnlyRegs s u (if badA ∨ badB then [a, Reg.PAGE_STATUS n] else [a]) := by
  intro a badA badB u
  have hne : a ≠ Reg.PAGE_STATUS n := by simp only [a, Reg.EVT_ROUTE, Reg.PAGE_STATUS]; omega
  have hbad : (overZero v Fd.EVT_ROUTE.EN_A Fd.EVT_ROUTE.VEC_A || overZero v Fd.EVT_ROUTE.EN_B Fd.EVT_ROUTE.VEC_B) = true ↔ badA ∨ badB := by
    rw [Bool.or_eq_true, overZero_iff, overZero_iff]
  obtain ⟨w, hw, henA, hvecA, henB, hvecB, honly⟩ := s.routeTaken_spec n v
  simp only [overZero_iff] at henA henB
  have hu : u = if badA ∨ badB then w.status n .badParam else w := by
    rw [← hw, ← if_congr hbad rfl rfl]
    exact routeWrite_eq v h hown
  clear_value u
  by_cases hb : badA ∨ badB
  · rw [if_pos hb] at hu ⊢
    subst hu
    refine ⟨(get_status_ne w _ _ hne).trans henA, (get_status_ne w _ _ hne).trans hvecA, (get_status_ne w _ _ hne).trans henB,
      (get_status_ne w _ _ hne).trans hvecB, fun _ => reports_status w n _, OnlyRegs.status ⟨honly.1, fun b hb => honly.2 b ?_⟩ _ (by simp)⟩
    simp only [List.mem_cons, not_or] at hb ⊢
    exact ⟨hb.1, by simp⟩
  · rw [if_neg hb] at hu ⊢
    subst hu
    exact ⟨henA, hvecA, henB, hvecB, fun hbad => absurd hbad hb, honly⟩

/-! ## Dropped writes (R32) -/

theorem hostWrite_dropped {s : State} {p : Port} {a : Nat} (f : State → State) (hl : s.linked p = true) (hk : s.mgmt.kstate = .running)
    (hown : s.ownedBy p = false) (hclaim : a ≠ Reg.OWN_CLAIM) (hheart : a ≠ Reg.OWN_HEARTBEAT) :
    s.hostWrite p a f = s.dropWrite p false a := by
  unfold hostWrite
  rw [hl, hk, if_neg (by decide)]
  dsimp only
  rw [hown, if_neg (by decide), if_neg (by simp [hclaim, hheart])]

theorem dropWrite_spec (s : State) (p : Port) (a : Nat) :
    (s.dropWrite p false a).get (dropReg p) Fd.OWN_DROP_A.COUNT = min (s.get (dropReg p) Fd.OWN_DROP_A.COUNT + 1) (2 ^ 32 - 1)
      ∧ (s.dropWrite p false a).rd Reg.OWN_LAST_DROP
        = withBits (withBits (withBits 0 29 29 (if p = .b then 1 else 0)) 28 28 0) 25 0 a
      ∧ (s.dropWrite p false a).Latched Pg.OWN Ev.OWN.OBS_WRITE
      ∧ s.OnlyEvents (s.dropWrite p false a) [dropReg p, Reg.OWN_LAST_DROP] := by
  have hcount : dropReg p ≠ Reg.OWN_LAST_DROP ∧ evtReg (dropReg p) = false := by cases p <;> decide
  unfold dropWrite
  dsimp only
  refine ⟨?_, ?_, event_latched _ _ _ (by decide), .event (.wr (.inc .same _ _ (by simp)) _ (by simp)) _ _⟩
  · rw [get_event _ _ _ _ hcount.2, get_wr_ne _ _ _ hcount.1, get_inc_same _ _ _ _ (by decide) (by decide)]
    rfl
  · rw [rd_event _ _ _ (by decide), rd_wr_same]
    rfl

/-! ## The MSI-X table (R22, R27) -/

theorem msix_setMsix (s : State) (p : Port) (m : Msix) : (s.setMsix p m).msix p = m ∧ (s.setMsix p m).msix (otherPort p) = s.msix (otherPort p) := by
  cases p <;> exact ⟨rfl, rfl⟩

theorem setMsix_onlyEvents (s : State) (p : Port) (m : Msix) : s.OnlyEvents (s.setMsix p m) [] := by
  cases p <;> exact ⟨rfl, fun _ _ _ => rfl⟩

/-- A message of an unmasked vector only leaves. -/
theorem sendMsix_unmasked {s : State} {p : Port} {vec : Nat} {e : MsixEntry} (he : (s.msix p).table[vec]? = some e) (hm : e.ctrl.getLsbD 0 = false)
    (q : Port) : (s.sendMsix p vec).msix q = s.msix q := by
  unfold sendMsix
  dsimp only
  rw [he]
  dsimp only
  rw [if_neg (ne_true_of_eq_false hm)]
  cases q <;> rfl

theorem msixWrite_spec {s : State} {p : Port} {off : Nat} {e : MsixEntry} (v : Word) (he : (s.msix p).table[off / 16]? = some e) :
    ((s.msixWrite p off v).msix p).table[off / 16]? = some (msixEntryWrite e (off % 16 / 4) v)
      ∧ (s.msixWrite p off v).msix (otherPort p) = s.msix (otherPort p) ∧ s.OnlyEvents (s.msixWrite p off v) [] := by
  obtain ⟨hlt, -⟩ := List.getElem?_eq_some_iff.mp he
  unfold msixWrite
  dsimp only
  rw [he]
  dsimp only
  generalize hd : ((s.msix p).pba.getD (off / 16) false && !(msixEntryWrite e (off % 16 / 4) v).ctrl.getLsbD 0) = due
  generalize hpba : (if due = true then (s.msix p).pba.set (off / 16) false else (s.msix p).pba) = pba
  obtain ⟨hset, hother⟩ := s.msix_setMsix p { table := (s.msix p).table.set (off / 16) (msixEntryWrite e (off % 16 / 4) v), pba := pba }
  have honly := s.setMsix_onlyEvents p { table := (s.msix p).table.set (off / 16) (msixEntryWrite e (off % 16 / 4) v), pba := pba }
  generalize s.setMsix p { table := (s.msix p).table.set (off / 16) (msixEntryWrite e (off % 16 / 4) v), pba := pba } = w at hset hother honly ⊢
  have hentry : (w.msix p).table[off / 16]? = some (msixEntryWrite e (off % 16 / 4) v) := by
    rw [hset]
    exact List.getElem?_set_self hlt
  cases due with
  | false => exact ⟨hentry, hother, honly⟩
  | true =>
    have hmask : (msixEntryWrite e (off % 16 / 4) v).ctrl.getLsbD 0 = false := by
      rw [Bool.and_eq_true, Bool.not_eq_true'] at hd
      exact hd.2
    rw [if_pos rfl, sendMsix_unmasked hentry hmask p, sendMsix_unmasked hentry hmask (otherPort p)]
    exact ⟨hentry, hother, honly.andThen (sendMsix_onlyEvents _ _ _)⟩

theorem bar2Write_msix {s : State} {p : Port} {off : Nat} (v : Word) (descs : List RingDesc) (hl : s.linked p = true)
    (hk : s.mgmt.kstate = .running) (hlo : 0x80000 ≤ off) (hhi : off < 0x80400) (h4 : off % 4 = 0) :
    s.bar2Write p off 4 0xF (v.setWidth 64) descs = s.msixWrite p (off - 0x80000) v := by
  unfold bar2Write
  rw [if_neg (by simp), if_pos (by simp [h4]), setWidth_back]
  unfold bar2Word
  dsimp only
  rw [if_neg (by simp only [Bool.and_eq_true, decide_eq_true_eq]; omega), if_neg (by simp [hl, hk]), if_pos (by simp [hlo, hhi])]

/-! ## Reads (R4, R31) -/

/-- A free value is readFree. -/
def readFree (s : State) : State := { s with freeCtr := s.freeCtr + 1 }

theorem readWord_plain {s : State} {p : Port} {a : Nat} (hbeat : a ≠ Reg.BEAT_NOW) (htime : a ≠ Reg.TIME_NOW_SEC_LO) (harc : a ≠ Reg.ARC_DONE0)
    (htsq : ∀ i, i < 8 → a ≠ Reg.PTIME_TSQ0 i) :
    s.readWord p a = (s.regWord p a,
      if (s.ownedBy p && hasAcc a .rc) = true then s.readFree.wr a (clearRc (fieldsAt a) (s.rd a)) else s.readFree) := by
  have hnone : (List.range 8).find? (fun i => decide (a = Reg.PTIME_TSQ0 i)) = none :=
    List.find?_eq_none.mpr fun i hi => by simpa using htsq i (List.mem_range.mp hi)
  unfold readWord
  dsimp only
  rw [if_neg hbeat, if_neg htime, if_neg harc, hnone]
  rfl

theorem exec_rcRead {s w : State} {t : Nat} {p : Port} {off : Nat} {v : Word} (hup : s.up = true) (hl : s.linked p = true)
    (hk : s.mgmt.kstate ≠ .boot) (hword : (s.atTick t).readWord p (off / 4 * 4) = (v, w)) (hclk : w.clk = s.clk.advance t)
    (hpend : w.pending = s.pending) : exec (.rcRead t p false off) s = .next { w with lastRead := v } :=
  act_of_eq (fun s => s.hostRead p fun s => s.readWord p (off / 4 * 4)) hup
    (hostRead_answers (f := fun s => s.readWord p (off / 4 * 4)) ((linked_atTick s t p).trans hl) hk hword) hclk hpend

/-- A read of a word that no queue, capture or latch stands behind. -/
theorem rcRead_spec {s : State} (t : Nat) {p : Port} {off : Nat} (hup : s.up = true) (hl : s.linked p = true) (hk : s.mgmt.kstate ≠ .boot)
    (hword : (s.atTick t).readWord p (off / 4 * 4) = ((s.atTick t).regWord p (off / 4 * 4),
      if (s.ownedBy p && hasAcc (off / 4 * 4) .rc) = true
        then (s.atTick t).readFree.wr (off / 4 * 4) (clearRc (fieldsAt (off / 4 * 4)) (s.rd (off / 4 * 4))) else (s.atTick t).readFree)) :
    ∃ u, exec (.rcRead t p false off) s = .next u ∧ u.lastRead = (s.atTick t).regWord p (off / 4 * 4)
      ∧ (s.ownedBy p = false ∨ hasAcc (off / 4 * 4) .rc = false → { u with lastRead := s.lastRead, freeCtr := s.freeCtr } = s.atTick t)
      ∧ (s.ownedBy p = true → hasAcc (off / 4 * 4) .rc = true →
          { u with lastRead := s.lastRead, freeCtr := s.freeCtr }
            = (s.atTick t).wr (off / 4 * 4) (clearRc (fieldsAt (off / 4 * 4)) (s.rd (off / 4 * 4)))) := by
  generalize hv : (s.atTick t).regWord p (off / 4 * 4) = val at hword
  by_cases hc : (s.ownedBy p && hasAcc (off / 4 * 4) .rc) = true
  · rw [if_pos hc] at hword
    refine ⟨{ (s.atTick t).readFree.wr (off / 4 * 4) (clearRc (fieldsAt (off / 4 * 4)) (s.rd (off / 4 * 4))) with lastRead := val },
      exec_rcRead hup hl hk hword rfl rfl, rfl, fun hn => ?_, fun _ _ => rfl⟩
    rw [Bool.and_eq_true] at hc
    rcases hn with hn | hn
    · exact absurd hc.1 (ne_true_of_eq_false hn)
    · exact absurd hc.2 (ne_true_of_eq_false hn)
  · rw [if_neg hc] at hword
    refine ⟨{ (s.atTick t).readFree with lastRead := val },
      exec_rcRead hup hl hk hword rfl rfl, rfl, fun _ => rfl, fun ho hr => ?_⟩
    exact absurd (by rw [ho, hr]; rfl) hc

theorem dropped_spec {s : State} (t : Nat) {p : Port} {a : Nat} (v : BitVec 64) (x : WriteIn) (hup : s.up = true) (hl : s.linked p = true)
    (hk : s.mgmt.kstate = .running) (hown : s.ownedBy p = false) (ha : a % 4 = 0) (hm : mappedPages.contains (a / 0x1000) = true)
    (hclaim : a ≠ Reg.OWN_CLAIM) (hheart : a ≠ Reg.OWN_HEARTBEAT) :
    exec (.registerWrite t p false a 4 0xF v x) s = .next ((s.atTick t).dropWrite p false a) := by
  obtain ⟨-, -, -, honly⟩ := (s.atTick t).dropWrite_spec p a
  refine act_of_eq (fun s => s.bar0Write p a 4 0xF v x) hup ?_ honly.clk honly.pending
  exact (bar0Write_word _ p v x ha).trans ((writeWord_mapped _ p _ x hm).trans
    (hostWrite_dropped _ ((linked_atTick s t p).trans hl) hk ((ownedBy_atTick s t p).trans hown) hclaim hheart))

theorem msixTable_write {s : State} (t : Nat) {p : Port} {off : Nat} {e : MsixEntry} (v : Word) (x : WriteIn) (hup : s.up = true)
    (hl : s.linked p = true) (hk : s.mgmt.kstate = .running) (hlo : 0x80000 ≤ off) (hhi : off < 0x80400) (h4 : off % 4 = 0)
    (he : (s.msix p).table[(off - 0x80000) / 16]? = some e) :
    ∃ u, exec (.registerWrite t p true off 4 0xF (v.setWidth 64) x) s = .next u
      ∧ (u.msix p).table[(off - 0x80000) / 16]? = some (msixEntryWrite e ((off - 0x80000) % 16 / 4) v)
      ∧ u.msix (otherPort p) = s.msix (otherPort p) ∧ OnlyEvents (s.atTick t) u [] := by
  have hmsix (q : Port) : (s.atTick t).msix q = s.msix q := by cases q <;> rfl
  obtain ⟨hentry, hother, honly⟩ := msixWrite_spec (s := s.atTick t) v (by rw [hmsix]; exact he)
  rw [hmsix] at hother
  exact ⟨_, act_of_eq (fun s => s.bar2Write p off 4 0xF (v.setWidth 64) x.descs) hup
    (bar2Write_msix v x.descs ((linked_atTick s t p).trans hl) hk hlo hhi h4) honly.clk honly.pending, hentry, hother, honly⟩

theorem registerWrite_double {s : State} (t : Nat) (p : Port) {a : Nat} (v : BitVec 64) (x : WriteIn) (hup : s.up = true) (h8 : a % 8 = 0) :
    exec (.registerWrite t p false a 8 0xFF v x) s
      = .next (s.after t fun s => (s.writeWord p a (v.setWidth 32) x).writeWord p (a + 4) ((v >>> 32).setWidth 32) x) := by
  have hbar (z : State) : z.bar0Write p a 8 0xFF v x = (z.writeWord p a (v.setWidth 32) x).writeWord p (a + 4) ((v >>> 32).setWidth 32) x :=
    if_pos (by simp [h8])
  refine (act_up s t (fun s => s.bar0Write p a 8 0xFF v x) hup).trans ?_
  rw [hbar]
  rfl

theorem registerWrite_route {s : State} (t : Nat) {p : Port} {n : Nat} (v : Word) (x : WriteIn) (h : s.Serves p)
    (hm : mappedPages.contains n = true) (habs : s.absentMac n = false) (hown : n ≠ Pg.OWN) :
    exec (.registerWrite t p false (Reg.EVT_ROUTE n) 4 0xF (v.setWidth 64) x) s = .next ((s.atTick t).routeWrite n v) := by
  obtain ⟨-, -, -, -, -, honly⟩ := routeWrite_spec (s := s.atTick t) v hm hown
  generalize hu : (s.atTick t).routeWrite n v = u at honly ⊢
  exact exec_headerWrite (k := 0x1C) h hm habs (by decide) (by decide) (by decide) hu (congrArg State.clk honly.1 :) (congrArg State.pending honly.1 :)

theorem evtForce_spec {s : State} (t : Nat) {p : Port} {n : Nat} (v : Word) (h : s.Serves p) (hm : mappedPages.contains n = true)
    (habs : s.absentMac n = false) : exec (.evtForce t p n v) s = .next ((s.atTick t).forceWrite n v) := by
  obtain ⟨-, -, honly⟩ := (s.atTick t).forceWrite_spec n v
  have hpage : mappedPages.contains (Reg.EVT_FORCE n / 0x1000) = true := by
    rwa [show Reg.EVT_FORCE n / 0x1000 = n from (header_page n 0x18 (by decide)).1]
  let x : WriteIn := { verified := false, fits := false, clips := [], data := [], orphans := 0, descs := [] }
  refine act_of_eq (fun s => s.writeWord p (Reg.EVT_FORCE n) v x) h.1 ?_ honly.clk honly.pending
  exact (writeWord_serves t v x h hpage).trans
    ((s.atTick t).writeReg_header p v x ((s.absentMac_atTick t n).trans habs) (by decide) (by decide))

end State

/-- Settles O58: each access is one lemma above; the pages without behaviour of their own go to the plain write, the common header
to its own, and a port that does not own is dropped. -/
theorem registerAccesses : Obligations.RegisterAccesses := by
  unfold Obligations.RegisterAccesses
  refine ⟨fun s t p a v x h ha _ => ⟨fun hpage h40 hfs hrwt => State.registerWrite_plain t v x h ha hpage h40 hfs hrwt, fun hm habs => ⟨?_, ?_⟩⟩,
    fun s t p a v x hup h8 => State.registerWrite_double t p v x hup h8,
    fun s t p a v x hup hl hk hown ha _ hm hclaim hheart => ?_,
    fun s t p off v x e hup hl hk hlo hhi h4 he => State.msixTable_write t v x hup hl hk hlo hhi h4 he,
    fun s t p off hup hl hk hbeat htime harc htsq => State.rcRead_spec t hup hl hk ?_,
    fun s t p page v h hm habs => ?_⟩
  · intro hlatch hrec
    generalize a / 0x1000 = n at hm habs hlatch
    subst hlatch
    exact State.registerWrite_latch t v x h hm habs hrec
  · intro hroute hown
    dsimp only
    generalize a / 0x1000 = n at hm habs hroute hown ⊢
    subst hroute
    exact ⟨_, State.registerWrite_route t v x h hm habs hown, State.routeWrite_spec (s := s.atTick t) v hm hown⟩
  · exact ⟨_, State.dropped_spec t v x hup hl hk hown ha hm hclaim hheart, (s.atTick t).dropWrite_spec p a⟩
  · exact State.readWord_plain (s := s.atTick t) hbeat htime harc htsq
  · exact ⟨_, State.evtForce_spec t v h hm habs, (s.atTick t).forceWrite_spec page v⟩

end Sys2Proof.Machine
end
